-- ==== Sys2Proof/Word.lean ====
section
/-! DEFINITION. The word and byte types, and the plainest byte-order arithmetic on them (R13, R15). -/

namespace Sys2Proof

/-- One byte of a stored format, a frame or an operand. -/
abbrev Byte := BitVec 8

/-- A register word: every register is 32 bits wide (chapter 05). -/
abbrev Word := BitVec 32

/-- A run of bytes, lowest offset first. -/
abbrev Bytes := List Byte

end Sys2Proof
end

