-- ==== Sys2Proof/Syntax.lean ====
section
/-! DEFINITION. The commands and events of the HL6616: one constructor of `Instr` per row of
spec/opcode_table.json, and the plain-data types of their operands. A command row that is the execution
of an admitted SKP command (GET, PUT, ...) names its tag-table entry; the message itself arrived with a
DATA frame. An event row carries what its sender (a host, the baseboard, a neighbour, a pin, the media)
presents to the device. -/

namespace Sys2Proof

/-- Who holds a tag-table entry: an SKP session (R163), a forwarding context of another device (R424), or
nobody any more: a session that has ended, its commands named by the order in which it was opened, times 4,096, plus its
ID, which their writes go on to carry (R152, R179). -/
inductive Ctx where
  | session (id : Nat)
  | forward (src : Nat)
  | orphan (name : Nat)
  deriving DecidableEq, Repr

/-- The name of a tag-table entry: its context and its tag (R165). -/
structure TagId where
  ctx : Ctx
  tag : Nat
  deriving DecidableEq, Repr

/-- The path a register access comes by (Table 05-3, Table 05-4). -/
inductive Path where
  | skp (session : Nat)
  | mctp
  | firmware
  | debug
  deriving DecidableEq, Repr

/-- What one media read returns: the rung of Table 11-5 or 13-4 at which it decoded (0: at once; on flash 1 is rung 1 with
corrections and 5 is rung 1 with more than 70 % of what the code can correct, R279) and the bits in which what it gave
differs from what was stored (empty: none), or no data at all. -/
inductive ReadResult where
  | decoded (rung : Nat) (flip : Bytes)
  | uncorrectable
  deriving DecidableEq, Repr

/-- What one reader of a head gives of a data region (R314 to R316), from 96 channel bits before the place where servo timing
puts the first bit wanted (the sector's first, or in a region in which it goes on the region's own): a soft value for each
channel bit, positive where it is more likely 0, and the envelope there. -/
structure ReaderTrace where
  soft : List Int
  env  : List Nat
  deriving DecidableEq, Repr

/-- The samples of a data region; a reader whose signal is absent has none (R315). -/
structure RegionTrace where
  readerA : Option ReaderTrace
  readerB : Option ReaderTrace
  deriving DecidableEq, Repr

/-- What the heads give of a sector that they do not read as it was written: its samples by data region, in the first pass and in
each that the ladder takes after it (rungs 5 to 7 of Table 13-4), and whether two failing sectors of its head are held, so that
its samples are lost (R319). -/
structure SectorRead where
  first : List RegionTrace
  again : List (List RegionTrace)
  lost  : Bool
  deriving DecidableEq, Repr

/-- The media's answers to one command's reads: the leaf pages (by leaf-map index) and the segments on flash (extent, segment)
whose read is not a clean first-rung decode, and the disk sectors (band slot, physical slot) not read as written. -/
structure MediaReads where
  leaves : List (Nat × ReadResult)
  segs : List (Nat × Nat × ReadResult)
  sectors : List (Nat × Nat × SectorRead)
  deriving DecidableEq, Repr

/-- The UDP checksum as received (R142). -/
inductive Checksum where
  | good
  | zero
  | wrong
  deriving DecidableEq, Repr

/-- The Ethernet, IP and UDP headers of a received datagram, as far as R140 to R143 use them. -/
structure Datagram where
  port     : Nat
  srcMac   : BitVec 48
  dstMac   : BitVec 48
  vlan     : Option Nat
  v6       : Bool
  srcIp    : BitVec 128
  dstIp    : BitVec 128
  srcPort  : Nat
  dstPort  : Nat
  fragment : Bool
  options  : Bool
  extHdr   : Bool
  checksum : Checksum
  mtu      : Nat
  deriving DecidableEq, Repr

/-- An SKP frame: the header of Table 06-2 but for TYPE, which the row gives, the body as on the wire,
and the 16-byte tag (empty on a HELLO, whose CMAC is in its body). -/
structure SkpFrame where
  version : Nat
  session : Nat
  seq     : Nat
  ackSeq  : Nat
  credit  : Nat
  bodyLen : Nat
  body    : Bytes
  tag     : Bytes
  deriving DecidableEq, Repr

/-- The common head of a Fegrazil MCTP request (R133), with the packet's PEC and SMBus target address (R64). -/
structure MctpHdr where
  pecOk      : Bool
  addr       : Nat
  enterprise : Nat
  tag        : Nat
  reserved   : Nat
  deriving DecidableEq, Repr

/-- The head of an MCTP control message: its PEC, SMBus target address (R64) and Rq/D/instance byte. -/
structure MctpCtl where
  pecOk : Bool
  addr  : Nat
  inst  : Nat
  deriving DecidableEq, Repr

/-- The straps as sampled (R53, R55, R108). -/
structure Straps where
  profile  : BitVec 2
  slot     : BitVec 4
  testMode : Bool
  deriving DecidableEq, Repr

/-- One flash channel as a start finds it: whether it answers READ ID, its identity and dies, and the data rates, MT/s, at
which training passes on it (R57). -/
structure ChannelFound where
  answers  : Bool
  nandId   : Nat
  dies     : Nat
  passes   : List Nat
  deriving DecidableEq, Repr

/-- The NAND profile found in the active firmware for an identity (R257): bits per dense cell (3 TLC, 4 QLC), geometry,
rated cycles, interface code of Table 11-14 and the configured data rate, MT/s, whether every block can be programmed in
SLC mode, the voltage offsets of the read-retry table, and the times of a read, a dense program and an erase, µs. -/
structure NandProfile where
  bits        : Nat
  planes      : Nat
  pagesDense  : Nat
  blocksPlane : Nat
  rated       : Nat
  iface       : Nat
  rate        : Nat
  pageBytes   : Nat
  spareBytes  : Nat
  luns        : Nat
  targets     : Nat
  slcMode     : Bool
  retry       : List Int
  readUs      : Nat
  programUs   : Nat
  eraseUs     : Nat
  deriving DecidableEq, Repr

/-- What the boot loader finds in an image slot: whether the image verifies under Table 15-7 (R378, R448), and the
package digest, FUNC_VERSION and SEC_VERSION of its manifest. -/
structure SlotFound where
  verifies : Bool
  digest   : Bytes
  func     : Nat
  sec      : Nat
  deriving DecidableEq, Repr

/-- What a start finds outside the control complex: the straps, the boot flash, the self-test, the
fuses' key unit, the hardware, the tier and the ballast. The members say which rule reads them. -/
structure StartFindings where
  straps        : Straps
  /-- R63: a valid SFDP table was found. -/
  sfdpOk        : Bool
  /-- R378: the boot loader verifies (digest or signature). -/
  loaderOk      : Bool
  /-- R448: image slots A and B, and the default automata image of the slot that runs (Table 18-2), for a slot whose
  bytes the device did not program itself. -/
  slotA         : SlotFound
  slotB         : SlotFound
  autoImage     : Bytes
  /-- R115, Table 10 cause 5: the lowest failing SRAM bank group, if the self-test fails. -/
  sramFail      : Option Nat
  /-- R348: the entropy source passes its start-up tests. -/
  entropyOk     : Bool
  /-- R349: cores whose known-answer test fails (0 to 5 cipher, 6 and 7 hash). -/
  katFail       : List Nat
  /-- R363: slots whose two vault copies are both invalid or whose unwrap fails. -/
  vaultBad      : List Nat
  /-- R58: DRAM total found, GiB. -/
  dramGib       : Nat
  /-- the 32 flash channels in order. -/
  channels      : List ChannelFound
  /-- R258: the profile of the identity found, if the active firmware has one. -/
  profile       : Option NandProfile
  /-- R297: heads found on the two actuators, bit h for head h. -/
  heads         : BitVec 22
  /-- R93, Table 04-4: retained instruction stores, servo DSP state and spindle held through. -/
  storesHeld    : Bool
  servoHeld     : Bool
  bankGroupsHeld : Bool
  /-- R236: tables of the CAM whose system-area copy is unreadable. -/
  tablesLost    : List Nat
  /-- ms from t0 to service, and die temperature at the start (R56). -/
  serviceMs     : Nat
  temperature   : Int
  deriving DecidableEq, Repr

/-- The result of one rail sequence (Table 02-10): every PGOOD in time, or the step that missed. -/
inductive RailResult where
  | allGood
  | missed (step : Nat)
  deriving DecidableEq, Repr

/-- How the two attempts of a NOR commit read back (R107). -/
inductive NorResult where
  | first
  | second
  | failed
  deriving DecidableEq, Repr

/-- One reader's view of a servo field (Tables 12-1 and 12-2): the servo bits that it reads, bit `8 + k` being the one where
servo bit `k` is predicted, and the amplitudes of the four bursts. -/
structure ReaderWedge where
  bits : Nat
  a    : Nat
  b    : Nat
  c    : Nat
  d    : Nat
  deriving DecidableEq, Repr

/-- One wedge of one head: its two readers. -/
structure WedgeSample where
  readerA  : ReaderWedge
  readerB  : ReaderWedge
  deriving DecidableEq, Repr

/-- What calibration gives a head, per zone (Table 12-7): the burst sums S of its readers, their cross-track offsets
and the writer jog in 1/1,024 track, the micro-actuator's gain in 1/1,024 track per volt (R293), the heater power, and the
measured signal-to-noise ratios of its readers (R315). -/
structure HeadCal where
  sumA   : List Nat
  sumB   : List Nat
  offA   : List Int
  offB   : List Int
  jog    : List Int
  gain   : List Nat
  heater : List Nat
  snrA   : List Nat
  snrB   : List Nat
  deriving DecidableEq, Repr, Inhabited

/-- What calibration gives an actuator (Table 12-7): voice-coil torque and bias per zone, and the full stroke L in tracks. -/
structure StackCal where
  torque : List Int
  bias   : List Int
  stroke : Nat
  deriving DecidableEq, Repr, Inhabited

/-- What a calibration measures, by head and by actuator; the heads that fail it stand beside it. -/
structure CalResult where
  heads  : List HeadCal
  stackCals : List StackCal
  deriving DecidableEq, Repr

/-- The result of a spin-up attempt (Table 12-6): the step that missed its bound, if any, the tracks of a
surface as its servo-written numbering gives them (R289), the heads that fail its calibration and what it measures. -/
structure SpinResult where
  missedStep : Option Nat
  tracks     : Nat
  failed     : List Nat
  cal        : CalResult
  deriving DecidableEq, Repr

/-- A 64-byte flit of a fabric link (R403): the fields of Table 17-2, the payload and whether the CRC
holds. -/
structure Flit where
  head    : Bool
  tail    : Bool
  vc      : Nat
  fseq    : Nat
  ack     : Nat
  cr0     : Nat
  cr1     : Nat
  poison  : Bool
  payload : Bytes
  crcOk   : Bool
  deriving DecidableEq, Repr

/-- The payload of a tether (Table 17-3). -/
structure Tether where
  crcOk      : Bool
  addr       : Nat
  addrValid  : Bool
  stalemate  : Bool
  departing  : Bool
  unjoined   : Bool
  gateway    : Bool
  quiet      : Bool
  slot       : Nat
  link       : Nat
  keyCheck   : Nat
  serial     : Nat
  cfgGen     : Nat
  tseq       : Nat
  deriving DecidableEq, Repr

/-- A fabric frame (Table 17-5): its header, its payload as on the wire, and its tag. -/
structure FabFrame where
  dst     : Nat
  src     : Nat
  ftype   : Nat
  isLocal : Bool
  lastFrag : Bool
  hops    : Nat
  gwSlot  : Nat
  gwValid : Bool
  flow    : Nat
  msgId   : Nat
  frag    : Nat
  iv      : Bytes
  payload : Bytes
  tag     : Bytes
  deriving DecidableEq, Repr

/-- Where a frame enters the router (R225): a fabric link, the gateway host port, or this device. -/
inductive Ingress where
  | link (l : Nat)
  | gateway
  | own
  deriving DecidableEq, Repr

/-- The head of a terminated fabric message (R411, R412): where it came from and whether its tag
verified. -/
structure FabMsg where
  src   : Nat
  msgId : Nat
  tagOk : Bool
  deriving DecidableEq, Repr

/-- One key's effect in a MIRROR_WRITE (R427): the resulting value, or none for a deletion. -/
structure MirrorEffect where
  key   : Bytes
  value : Option Bytes
  deriving DecidableEq, Repr

/-- One key of a resync walk (R429): its pair, and its value, or none for a deleted record. -/
structure ResyncItem where
  key     : Bytes
  stamp   : Nat
  session : Nat
  value   : Option Bytes
  deriving DecidableEq, Repr

/-- The stored header of a sealed record as it travels (Table 16-2). -/
structure RecordHdr where
  seq        : Nat
  asn        : Nat
  appendTime : Nat
  expiry     : Nat
  rlen       : Nat
  void       : Bool
  rclass     : Nat
  chain      : Bytes
  cmac       : Bytes
  deriving DecidableEq, Repr

/-- The body of a MIRROR_WRITE (R427, R399, R400): effects of keys, one sealed record, or a purge. -/
inductive MirrorBody where
  | keys (effects : List MirrorEffect)
  | record (stream : Bytes) (hdr : RecordHdr) (bytes : Bytes)
  | purge (streams : List (Bytes × Nat))
  deriving DecidableEq, Repr

/-- What a MIRROR_WRITE carries beside its effect (R427). -/
structure MirrorMeta where
  nsid    : Nat
  asn     : Nat
  stamp   : Nat
  session : Nat
  media   : Bool
  prevAsn : Nat
  deriving DecidableEq, Repr

/-- A keeper record (chapter 17, Replacement): a neighbour's configuration, serial, sets, bindings and
copies, and the digest over them. -/
structure KeeperRec where
  serial  : Nat
  profile : Nat
  fabAddrHi : Nat
  compatPin : Nat
  regs    : List (Nat × Word)
  sets    : List (Nat × Bool × List Nat)
  binds   : List (Nat × Nat)
  copies  : List (Nat × Nat)
  digest  : Bytes
  deriving DecidableEq, Repr

/-- What a fabric message carries (Table 17-6): the bytes of a command or completion, or the fields of the other
types, in the form in which the event rows receive them. -/
inductive FabPayload where
  | bytes (b : Bytes)
  | mirrorWrite (mm : MirrorMeta) (b : MirrorBody)
  | mirrorAck (nsid asn : Nat) (accepted : Bool)
  | resync (nsid asn : Nat) (first last : Bool) (from_ : Bytes) (items : List ResyncItem)
      (records : List (Bytes × RecordHdr × Bytes))
  | keeper (k : KeeperRec)
  | copyCreate (nsid : Nat) (descriptor : Bytes)
  | copyRelease (nsid : Nat)
  | query
  | sled (slot seq : Nat) (gateway : Bool) (links : BitVec 4)
  | hello (sled index : Nat)
  | accept (digest : Bytes)
  | abortRelay (reqId : Nat)
  | offer (digest : Bytes) (len func sec : Nat)
  | chunkReq (digest : Bytes) (index : Nat)
  | chunk (digest : Bytes) (index crc : Nat) (bytes : Bytes)
  | updRefuse (digest : Bytes) (status : Nat)
  | busy
  deriving DecidableEq, Repr

/-- The instructions of the debug port's data registers that the rows below carry whole (Table 20-5). -/
structure DbgAccess where
  addr     : Nat
  space    : Nat
  inc      : Bool
  reserved : Nat
  deriving DecidableEq, Repr

/-- A CAM_WRITE command's turn: the command, and whether its change stops short of its commit point (R235). -/
structure CamRun where
  tag   : TagId
  pause : Bool
  deriving DecidableEq, Repr

/-- How far an FW_VERIFY's turn comes (R441): the step whose NOR access fails, if any, and the step it stops at, if any. -/
structure VerifyRun where
  norFailsAt : Option Nat
  upTo       : Option Nat
  deriving DecidableEq, Repr

/-- An FW_CONFIRM's turn (R451): whether the fuses read as blown, and whether it stops after the fuses. -/
structure ConfirmRun where
  fuseOk : Bool
  pause  : Bool
  deriving DecidableEq, Repr

/-- A host port that came up (R138): the port, and whether its partner offers energy-efficient Ethernet. -/
structure LinkFound where
  port : Nat
  eee  : Bool
  deriving DecidableEq, Repr

/-- What a STATE frame says of its sled beside its slot and sequence number (R409). -/
structure StateBody where
  gateway : Bool
  links   : BitVec 4
  deriving DecidableEq, Repr

/-- One constructor per row of spec/opcode_table.json. -/
inductive Instr where
  -- data opcodes, chapter 07 (the row names the admitted command; `pause` stops short of its commit point, R165)
  | get (t : TagId) (rd : MediaReads)
  | put (t : TagId) (pause : Bool)
  | delete (t : TagId) (pause : Bool)
  | cas (t : TagId) (rd : MediaReads) (pause : Bool)
  | getRange (t : TagId) (rd : MediaReads)
  | list (t : TagId) (rd : MediaReads)
  | scan (t : TagId) (rd : MediaReads)
  | append (t : TagId) (pause : Bool)
  | batch (t : TagId) (rd : MediaReads) (pause : Bool)
  | flush (t : TagId)
  | abort (t : TagId)
  | partBegin (t : TagId) (pause : Bool)
  | partPut (t : TagId) (pause : Bool)
  | partCommit (t : TagId) (pause : Bool)
  | watchArm (t : TagId)
  | watchDisarm (t : TagId)
  | purgeExpired (t : TagId) (pause : Bool)
  -- admin opcodes
  | nsCreate (t : TagId)
  | nsDelete (t : TagId)
  | nsQuery (t : TagId)
  | powerState (t : TagId) (pause : Bool)
  | resetController (t : TagId)
  | regRead (t : TagId)
  | regWrite (t : TagId)
  | configWrite (t : TagId)
  | configFactory (t : TagId)
  | keyProvision (t : TagId) (fuseOk : Bool)
  | keyErase (t : TagId)
  | timeAdvance (t : TagId)
  | patternLoad (t : TagId)
  | camWrite (r : CamRun)
  | fwOpen (t : TagId)
  | fwChunk (t : TagId)
  | fwStatus (t : TagId)
  | fwVerify (t : TagId) (badChunks : List Nat) (r : VerifyRun)
  | fwActivate (t : TagId)
  | fwConfirm (t : TagId) (r : ConfirmRun)
  | fwDiscard (t : TagId) (partsOk : Bool)
  | fabQuery (t : TagId)
  | fabMirrorSet (t : TagId) (refused : Bool) (unreachable : Bool)
  | fabForward (t : TagId)
  | hostCryptoServicePut (t : TagId) (suspend : Bool)
  | hostCryptoServiceGet (t : TagId)
  | hostCryptoServiceDelete (t : TagId)
  | commandPosted (t : TagId)
  -- MCTP
  | mctpRegRead (h : MctpHdr) (addr count : Nat)
  | mctpRegWrite (h : MctpHdr) (addr : Nat) (value mask : Word)
  | configWriteFragment (h : MctpHdr) (index reserved : Nat) (bytes : Bytes)
  | mctpConfigFactory (h : MctpHdr)
  | mctpResetController (h : MctpHdr)
  | mctpFwStatus (h : MctpHdr)
  | configFragmentSetExpiry
  | setEndpointId (c : MctpCtl) (op eid : Nat)
  | getEndpointId (c : MctpCtl)
  | getMctpVersionSupport (c : MctpCtl) (msgType : Nat)
  | getMessageTypeSupport (c : MctpCtl)
  | getVendorDefinedMessageSupport (c : MctpCtl) (selector : Nat)
  | smbusClockTimeout
  -- register accesses with a row of their own
  | claim (w : Path) (page : Nat) (lock sticky : Bool)
  | release (w : Path) (page : Nat)
  | lock (w : Path) (page : Nat) (value : Bool)
  | sticky (w : Path) (page : Nat)
  | evtStatClear (w : Path) (page : Nat) (bits : Word)
  | evtForce (w : Path) (page : Nat) (bits : Word)
  | errClr (w : Path) (page : Nat)
  | reqOn (w : Path) (page : Nat)
  | reqOff (w : Path) (page : Nat)
  | rstCtrlController (w : Path) (key : BitVec 16)
  | pinnedWrite (w : Path) (level : BitVec 16)
  | logSelWrite (w : Path) (value : Word)
  | registerWrite (w : Path) (addr : Nat) (value mask : Word)
  | configCommit (r : NorResult)
  | rcRead (w : Path) (addr : Nat)
  | counterLowRead (w : Path) (addr : Nat)
  | domainAccessPowerOff (page : Nat)
  -- SKP frames and session timers
  | hello (d : Datagram) (f : SkpFrame)
  | data (d : Datagram) (f : SkpFrame)
  | ack (d : Datagram) (f : SkpFrame)
  | close (d : Datagram) (f : SkpFrame)
  | ackDelayExpiry (session : Nat)
  | retransmissionTimer (session seq : Nat)
  | halfOpenExpiry (session : Nat)
  | sessionIdle (session : Nat)
  | retxEnd (session : Nat)
  | closeTimeout (session : Nat)
  -- network ports
  | arpRequest (d : Datagram)
  | neighbourSolicitation (d : Datagram)
  | echoRequest (d : Datagram) (payload : Bytes)
  | fabricFrameOnHostPort (port : Nat) (vlan : Option Nat) (dstMac : BitVec 48) (etherType : Nat) (f : FabFrame)
  | pause (port : Nat) (quanta : Nat)
  | linkUp (l : LinkFound)
  | linkDown (port : Nat)
  | anFail (port : Nat)
  -- resets, starts, rails and power failure
  | por (r : RailResult)
  | pin (lowNs : Nat) (drained : Bool)
  | watchdog (core : Nat) (drained : Bool)
  | coldStart (f : StartFindings)
  | warmStart (f : StartFindings)
  | railFault (step : Nat)
  | railRetry (r : RailResult)
  | switchedRailLoss (drained : Bool)
  | pwrfail (lowNs : Nat)
  | drainComplete
  | pwrfailResume
  -- alarms
  | voltageAlarm (beyondMax : Bool) (drained : Bool)
  | clockAlarm (drained : Bool)
  | temperatureAlarm (drained : Bool)
  | shieldAlarm (drained : Bool)
  | envCountDecrement
  -- power states, sensors and the ballast: temperatures in °C, power in 0.1 W, ballast readings as sums of 16 codes (R86)
  | wakeN (lowNs : Nat)
  | wakeTimer
  | idle
  | standbyAfter (pause : Bool)
  | sleepAfter (pause : Bool)
  | routerIslandQuiet
  | thermalLimitFall
  | thermalLimitRise
  | powerEstimate (est est1 est100 : Nat)
  | thermN (hottest : Int)
  | tempWarn (hottest : Int) (sensor : Nat)
  | refclkSdLost
  | refclkSdRestored
  | crystalFail
  | crystalReturn
  | ballastTest (charged : Bool) (v1 v2 : Nat)
  | ballastSample (code : Nat)
  | ballastRetest (charged : Bool) (v1 v2 : Nat)
  -- directory and placement background
  | directorySave
  | reqWindow
  | reseed
  | directoryRebuild
  | retiredIndexSweep
  | dailyPass
  | demotion (extent : Nat) (toDisk : Bool)
  | uploadExpired (upload : Nat)
  -- flash tier background and failures
  | checkpoint
  | garbageCollection
  | promotion
  | staticLevelling
  | readDisturbRefresh (block : Nat) (bad : List Nat)
  | patrol (reads : List (Nat × ReadResult))
  | staleBlockErase (block : Nat) (passes : Bool)
  | forcedDemote
  | retrained (ch : Nat) (temperature : Int) (passes : List Nat)
  | programStatusFail (block : Nat)
  | eraseStatusFail (block : Nat)
  | dieLost (die : Nat)
  | chOffline (ch : Nat)
  -- disk tier
  | servoWedge (head : Nat) (w : WedgeSample)
  | voiceCoilUpdate (actuator : Nat)
  | spinUp (r : SpinResult)
  | spinupRetry (r : SpinResult)
  | fullCalibration (failed : List Nat) (cal : CalResult)
  | spinDown
  | seekTimeout (t : Option TagId)
  | preampFault (actuator : Nat) (resp : Option (BitVec 24))
  | motStatus (resp : Option (BitVec 40))
  | bandCleaning
  -- fabric links
  | tether (link : Nat) (p : Tether)
  | tetherPeriod (link : Nat)
  | tetherTimeout (link : Nat)
  | laneLockLost (link : Nat) (ns : Nat)
  | linkTrainingRetry (link : Nat) (trained : Bool)
  | dataFlit (link : Nat) (f : Flit)
  | retry (link : Nat) (fseq : Nat) (crcOk : Bool)
  | wake (link : Nat) (crcOk : Bool)
  | quiet (link : Nat) (crcOk : Bool)
  | transit (ing : Ingress) (vc : Nat) (f : FabFrame)
  | state (link : Nat) (f : FabFrame) (m : FabMsg) (slot seq : Nat) (b : StateBody)
  | statePeriod
  | sledMapEntryTimeout (slot : Nat)
  | routeChanged
  -- fabric messages
  | mirrorWrite (m : FabMsg) (mm : MirrorMeta) (b : MirrorBody)
  | mirrorAck (m : FabMsg) (nsid asn : Nat) (accepted : Bool)
  | forwardReq (m : FabMsg) (msg : Bytes)
  | forwardResp (m : FabMsg) (reqId : Nat) (completion : Bytes)
  | queryReq (m : FabMsg)
  | queryResp (m : FabMsg) (reqId : Nat) (st : Bytes)
  | resync (m : FabMsg) (nsid : Nat) (asn : Nat) (first last : Bool) (from_ : Bytes) (items : List ResyncItem)
      (records : List (Bytes × RecordHdr × Bytes))
  | abortRelay (m : FabMsg) (reqId : Nat)
  | keeper (link : Nat) (m : FabMsg) (k : KeeperRec)
  | gwHello (m : FabMsg) (sled index : Nat)
  | gwHelloPeriod
  | gwIndexTimeout (sled index : Nat)
  | inheritOffer (link : Nat) (k : KeeperRec)
  | inheritAccept (link : Nat)
  | messageRetransmit (msgId : Nat)
  | messageUnreachable (msgId : Nat)
  | sourceEntryExpiry (src : Nat)
  | flowletGap (flow : Nat)
  | seedPeriod
  | mirrorProbe (nsid member : Nat)
  | mirrorRelease (nsid member : Nat)
  -- peer distribution
  | offer (m : FabMsg) (digest : Bytes) (len func sec : Nat)
  | offerPeriod
  | chunkReq (m : FabMsg) (digest : Bytes) (index : Nat)
  | chunk (m : FabMsg) (digest : Bytes) (index crc : Nat) (bytes : Bytes)
  | updateRefuse (m : FabMsg) (digest : Bytes) (status : Nat)
  -- crypto complex
  | esHealthFail
  | drbgReseed
  | operationResume (op : Nat)
  | serviceResultExpiry (page : Nat)
  | camScrub (bad : List (Nat × Nat × Bool))
  | tileRetention (tile : Nat)
  | deviceTimeSave
  | mirrorPurgeApply (nsid : Nat)
  -- update and log
  | trialSeconds
  | trialExpiry (partsOk : Bool)
  | activationPause (partsOk : Bool)
  | logFlush
  -- debug port
  | trstN (lowNs : Nat)
  | idcode
  | bypass
  | samplePreload (cells : List Bool)
  | dbgStatus
  | extest (cells : List Bool)
  | clamp
  | highz
  | extestPulse (cells : List Bool)
  | extestTrain (cells : List Bool)
  | dbgChallenge (level : Nat) (otherBits : Bool)
  | dbgRelock
  | challengeExpiry
  | dbgResponse (word : Word)
  | unlockCheck
  | lockoutExpiry
  | dbgAccessRead (a : DbgAccess)
  | dbgAccessWrite (a : DbgAccess) (value : Word)
  | halt (cores : BitVec 8)
  | resume (cores : BitVec 8)
  | step (cores : BitVec 8)
  | setBreakpoint (cores : BitVec 8) (unit : Nat) (addr : BitVec 48)
  | clearBreakpoint (cores : BitVec 8) (unit : Nat)
  | setWatchpoint (cores : BitVec 8) (unit : Nat) (addr : BitVec 48) (kind : Nat)
  | clearWatchpoint (cores : BitVec 8) (unit : Nat)
  | setHaltAll
  | clearHaltAll
  | breakpointHit (core unit : Nat)
  | watchpointHit (core unit : Nat)
  | dbgReset (key : BitVec 16) (reset : Bool)
  -- the remaining rows of the table
  | pwrfailNRise
  | alwaysOnPowerLoss
  | idleFlit (link : Nat) (ack cr0 cr1 : Nat) (crcOk : Bool)
  | poweredHour
  | receiveQueueAdmission
  | commitPointPassed (t : TagId)
  | mirrorCopyCreate (m : FabMsg) (nsid : Nat) (descriptor : Bytes)
  | mirrorCopyRelease (m : FabMsg) (nsid : Nat)
  | releaseAcknowledged (nsid member : Nat)
  | unsupportedControlCommand (c : MctpCtl) (code : Nat)
  deriving DecidableEq, Repr

end Sys2Proof
end

