-- ==== Sys2Proof/Decode.lean ====
section
/-! DEFINITION. The commands that a word spells: spec/opcode_table.json gives no row any bits, so none. -/

namespace Sys2Proof

/-- The command that a word of `nbits` bits spells by the opcode table's bits. -/
def decodeTableWord (_nbits _w : Nat) : Option Instr := none

end Sys2Proof
end

