-- ==== Sys2Proof/Config.lean ====
section
/-! DEFINITION. The values the spec leaves free: constants without a body, applied to the count of free values
taken so far (`State.free`) and, for a string of bytes, to the byte's index. Nothing can be proved of their
values (log entry 6). -/

namespace Sys2Proof

/-- Output of the DRBG and of key generation (R347, R362): byte `i` of draw `k`. -/
opaque Config.drbgByte : Nat → Nat → Byte

/-- What the device leaves the factory with: byte `i` of ROOT (0) and of the initial admin key (1), R361, R364. -/
opaque Config.factoryByte : Nat → Nat → Byte

/-- A choice the spec leaves to the device (R55: a pulse between the bounds). -/
opaque Config.freeBool : Nat → Bool

/-- A word the spec does not state (R477: what a core's registers hold after it has run). -/
opaque Config.freeWord : Nat → Nat → Word

/-- A byte the spec does not state (Table 09-5: what READ gives of an invalid entry). -/
opaque Config.freeByte : Nat → Nat → Byte

/-- A number the spec does not state. -/
opaque Config.freeNat : Nat → Nat

/-- FLOW of a message to an address about a namespace, which the source chooses (Table 17-5). -/
opaque Config.fabFlow : Nat → Nat → Nat

/-- DST of a flood, which names no device (Table 17-6), by frame type. -/
opaque Config.floodDst : Nat → Nat

/-- The HSS root public key that a fused digest (VENDOR_PK, OPER_PK) stands for: where the device keeps the key that
belongs to the digest, the spec does not state (chapters 15 and 18). -/
opaque Config.rootKey : Bytes → Bytes

/-- Whether an address of core SRAM lies in the security processor's share, which the debug port never reaches (R475); where
that share lies the spec does not state. -/
opaque Config.withheldSram : Nat → Bool

/-- Whether a flow-hash bit stands for the + direction in a tie (R414). -/
opaque Config.tiePlus : Nat → Bool

/-- The place that a flow-hash bit picks in a list of a length (R416, R420). -/
opaque Config.hashPick : Nat → Nat → Nat

/-- The exceptions with which the fabric firmware routes around links and slots (R416): destination slot, ingress of
R225 and output link. -/
opaque Config.routeAround : Nat → List (Nat × Nat × Nat)

/-- The built-in calibration values of a head and of an actuator, which quick calibration uses where no saved set matches
(R302). -/
opaque Config.defaultCal : Nat → HeadCal
opaque Config.defaultStack : Nat → StackCal

end Sys2Proof
end

