-- ==== Sys2Proof/Machine/State.lean ====
section
/-! DEFINITION. The state of the HL6616 as plain data: the register words, the device's phase and pins, the
sessions, the tag table, namespaces and keys, the directory, the tables of every engine, and the queue of
commands that wait. A count that a register shows is computed from what is counted (Machine/Flags.lean), so
each thing has one home. `State.reset` is the device at t0 of the cold start that follows a POR. -/

namespace Sys2Proof.Machine

/-- Why the machine stops. -/
inductive Fault where
  /-- Raised by execVoltageAlarm when a rail passed its absolute maximum: the spec says that the device "is not
  specified and may be damaged permanently" there (R47, 02_package_signals.md). Safe: the model stops where the
  spec gives no effect. -/
  | beyondAbsoluteMaximum
  deriving DecidableEq, Repr

/-- Why a command has no meaning. -/
inductive Refusal where
  /-- Raised by an arm of `exec` whose command has not been modelled; none is left. Safe. -/
  | notModelled (mnemonic : String)
  deriving DecidableEq, Repr

/-- A sparse table with a default: keys strictly rising, no entry equal to the default of its key. -/
abbrev SMap (α : Type) := List (Nat × α)

/-- The register words that differ from their Reset values, by address (chapter 05). -/
abbrev Regs := SMap Word

/-- A byte memory: cells of Host.Core, addresses strictly rising, no cell holding the unlisted value 0. -/
abbrev Memory := List Host.Cell

/-! ## Device phase, starts and power -/

/-- The reset kinds and start kinds of Table 04-5 and of KIND in Table 04-11. -/
inductive StartKind where
  | por | alarm | pin | watchdog | controller | debug | hibernateExit | railFailed | railLoss
  deriving DecidableEq, Repr

/-- What the device as a whole is doing. -/
inductive Phase where
  /-- always-on power absent -/
  | unpowered
  /-- a rail sequence failed `failures` times and waits for its retry, or for RESET_N after three (R51) -/
  | railFault (failures : Nat)
  /-- at t0 or before it: the start named has not run yet -/
  | starting (cold : Bool)
  /-- boot ROM waits for the debug port (R63, R378) -/
  | bootWait
  /-- TEST_MODE high at the last start: no firmware runs (R53) -/
  | testMode
  | service
  | stalemate
  /-- the drained state of R85 (`true` once step 4 of Table 03-10 is done) -/
  | drained (complete : Bool)
  /-- rails lowered after a drained power loss (R100) -/
  | railsLost
  | hibernate
  deriving DecidableEq, Repr

/-- The power states of Table 03-11. -/
inductive PowerMode where
  | active | idle | standby | sleep | hibernate
  deriving DecidableEq, Repr

/-- Who waits for a configuration commit or a CONTROLLER reset, and is answered when it ends. -/
inductive Waiter where
  | tag (t : TagId)
  | mctp (tag : Nat) (code : Nat)
  | path (p : Path)
  deriving DecidableEq, Repr

/-- Phase, power state, pins, and the always-on island (chapters 02 to 04). -/
structure Dev where
  phase       : Phase
  /-- kind, ALARM_SRC and DETAIL of the start under way or last made (Table 04-11) -/
  kind        : StartKind
  alarmSrc    : Nat
  startDetail : Nat
  straps      : Straps
  /-- R97: an ALARM or POR overtakes; the kind a failed rail sequence belongs to is replaced (R485) -/
  railsFailed : Nat
  power       : PowerMode
  /-- power state being entered, while an entry is under way (R79), with the POWER_STATEs that named it (R81) -/
  entering    : Option PowerMode
  enterTags   : List TagId
  spinning    : Bool
  routerQuiet : Bool
  /-- thermal limit of R83, 0.1 W -/
  thermalLimit : Nat
  hottest     : Int
  thermN      : Bool
  pwrfailLow  : Bool
  /-- PWRFAIL_N has risen and its 100 ms run (R85) -/
  riseCounting : Bool
  /-- R54: SMBus lines released, ms clock and sub-second counters of the always-on island -/
  clockMs     : Nat
  /-- `clockMs` when the last start reached service -/
  startMs     : Nat
  slowCarry   : Nat
  refSdLost   : Bool
  crystalFail : Bool
  /-- codes of the last 1 ms samples, newest first, at most three; the last test passed, and no withdrawal followed;
  a BAL_FAIL withdrawal is not yet made good (R87) -/
  ballastCodes : List Nat
  ballastPassed : Bool
  ballastWithdrawn : Bool
  /-- domains that only a register access holds on (R119) -/
  domAccess   : BitVec 196
  /-- the manifest digest that every retained instruction store carries, while the stores hold power (R444) -/
  helpers     : Option Bytes
  /-- digests of the always-on island (R379): boot loader measured, MEAS_DIGEST in registers -/
  loaderMeasured : Bool
  sramFailed  : Option Nat
  trainTemp   : List Int
  /-- a CONTROLLER reset request was accepted and its drain runs (R96, R97), and who is answered at its end -/
  resetBusy   : Bool
  resetWaiter : Option Waiter
  /-- PINS_HELD (R480): service has stopped until the next start -/
  pinsHeld    : Bool
  deriving DecidableEq, Repr

/-- The clocks of Table 03-2; CLK_NET by the branches that the table tells apart. -/
inductive Clock where
  | core | servo | srch | pat | cry | fseq | netMac | netTransport | netRouter | dram
  | flphy (n : Nat) | hsyn (h : Nat) | hostLane | fabricLane | aon
  deriving DecidableEq, Repr

/-- What a clock does (R67): it toggles, its PLL stays locked and its branch is held, its source is stopped, or its lanes are
in low-power idle. -/
inductive ClockState where
  | runs | gated | off | lowPowerIdle
  deriving DecidableEq, Repr

/-- The signal groups of Table 02-12. -/
inductive SigGroup where
  | flash | hostLane | unusedLane | fabricLane | dram | readers | wd | ma | paMot | spi | smbus | uartTx | alertN | ledFltN
  deriving DecidableEq, Repr

/-- The cells of Table 02-12. -/
inductive SigState where
  /-- the Reset cell of the flash, DRAM and PA and MOT rows: control lines inactive, clocks static or low -/
  | inactive
  | operating
  /-- reads; program and erase only for a format -/
  | readsOnly
  /-- CE_N high, outputs static, termination off -/
  | static_
  | electricalIdle | lowPowerIdle | recoveryOnly | tethersOnly | tethersTransit | selfRefresh | ignored | parked
  | atMaref | selectHigh | served | notAcknowledged | high | released | asserted | unpowered
  deriving DecidableEq, Repr

/-- Background work as Tables 03-5 and 03-9 tell it apart: relocation and band cleaning, the directory rebuild, and upkeep
that neither names (checkpoints, saves, patrols, erases, training). -/
inductive Work where
  | move | rebuild | upkeep
  deriving DecidableEq, Repr

/-! ## Configuration record (R103 to R107) -/

/-- The body of a configuration record copy (Table 04-9). -/
structure CfgBody where
  profile   : Nat
  hwFlashCh : Nat
  hwNandId  : Nat
  hwDies    : Nat
  hwHeads   : Nat
  hwDramGib : Nat
  fabAddrHi : Nat
  compatPin : Nat
  tierId    : Nat
  regs      : List (Nat × Word)
  deriving DecidableEq, Repr

/-- A copy that holds a valid commit (R106): its generation and body. -/
structure CfgCommit where
  generation : Nat
  body       : CfgBody
  deriving DecidableEq, Repr

/-- One change that a commit carries (R102). -/
inductive CfgChange where
  /-- a register write: address, value and mask -/
  | reg (addr : Nat) (value mask : Word)
  /-- a whole body of CONFIG_WRITE -/
  | body (b : CfgBody)
  /-- a CONFIG_FACTORY, which takes a commit of its own -/
  | factory
  deriving DecidableEq, Repr

structure CfgPending where
  change : CfgChange
  waiter : Waiter
  deriving DecidableEq, Repr

/-- The hardware found at the last start, as R109 and R114 use it. -/
structure Hardware where
  dramGib  : Nat
  answers  : BitVec 32
  nandIds  : List Nat
  dies     : Nat
  heads    : Nat
  headMask : BitVec 22
  profile  : Option NandProfile
  deriving DecidableEq, Repr

structure Cfg where
  copy0    : Option CfgCommit
  copy1    : Option CfgCommit
  /-- the commit under way, and the writes that wait for the next ones, in ASN order -/
  under    : List CfgPending
  waiting  : List CfgPending
  /-- fragments of R134 held: index and bytes -/
  frags    : List (Nat × Bytes)
  hw       : Hardware
  deriving DecidableEq, Repr

/-! ## Network ports and sessions (chapter 06) -/

structure Port where
  up         : Bool
  anDone     : Bool
  pauseQuanta : Nat
  echoSecond : Nat
  echoCount  : Nat
  /-- energy-efficient Ethernet has been negotiated (R138, R139) -/
  eee        : Bool
  deriving DecidableEq, Repr

/-- A port whose link is down. -/
def Port.down : Port := ⟨false, false, 0, 0, 0, false⟩

/-- A frame held until it is acknowledged (R157). -/
structure HeldFrame where
  seq     : Nat
  /-- the tag whose response it carries; none on a CLOSE -/
  tag     : Option Nat
  /-- the frame byte for byte, as it is sent again (R156) -/
  bytes   : Bytes
  sent    : Nat
  fastDone : Bool
  deriving DecidableEq, Repr

/-- A fragment that waits for credit (R154, R162): the DATA frame's body, or a CLOSE. -/
structure OutFrag where
  tag     : Option Nat
  body    : Bytes
  deriving DecidableEq, Repr

/-- A message being reassembled (R158, R160): fragments held by offset, or, once it has completed with
`BAD_FIELD`, the mark that its remaining fragments are discarded. -/
structure Assembly where
  tag    : Nat
  msgLen : Nat
  parts  : List (Nat × Bytes)
  failed : Bool
  deriving DecidableEq, Repr

inductive SessionClass where
  | data | admin | recovery
  deriving DecidableEq, Repr

/-- One SKP session (R148 to R157). -/
structure Session where
  id        : Nat
  cls       : SessionClass
  keySlot   : Nat
  smallMtu  : Bool
  halfOpen  : Bool
  /-- order of opening: R151 ends the oldest half-open session -/
  opened    : Nat
  /-- the SEQ of a CLOSE received and not yet acknowledged (R152) -/
  closing   : Option Nat
  /-- keys and salts of R149, host to device and device to host -/
  rxKey     : Bytes
  txKey     : Bytes
  rxSalt    : Bytes
  txSalt    : Bytes
  /-- receive side: highest SEQ accepted, those seen above `inOrder`, highest SEQ received in order, highest
  ACK-space SEQ, and the ACK_SEQ and CREDIT last sent -/
  high      : Nat
  seen      : List Nat
  inOrder   : Nat
  ackHigh   : Nat
  ackSent   : Nat
  creditSent : Nat
  ackDue    : Bool
  /-- send side: next SEQ of either space, the peer's latest ACK_SEQ and CREDIT -/
  nextSeq   : Nat
  nextAckSeq : Nat
  peerAck   : Nat
  peerCredit : Nat
  held      : List HeldFrame
  outbox    : List OutFrag
  assembling : List Assembly
  /-- where frames of the session go (R143) -/
  hostV6    : Bool
  hostIp    : BitVec 128
  hostPort  : Nat
  hostMac   : BitVec 48
  port      : Nat
  deriving DecidableEq, Repr

/-! ## Commands (chapter 07) -/

/-- A command message (Table 06-7). -/
structure CmdMsg where
  opcode   : Nat
  reserved : Nat
  flags    : BitVec 16
  nsid     : Nat
  stamp    : Nat
  param    : Bytes
  key      : Bytes
  value    : Bytes
  deriving DecidableEq, Repr

/-- A completion (Table 06-7): `data` is what is sent, `dataLen` what DATA_LEN announces (they differ only
where the response ends with the trailer of R162: STATUS and DELIVERED). -/
structure Completion where
  status  : Nat
  more    : Bool
  asn     : Nat
  param   : Bytes
  dataLen : Nat
  data    : Bytes
  trailer : Option (Nat × Nat)
  deriving DecidableEq, Repr

/-- Tag-table entry states (Table 07-3). -/
inductive TagState where
  | admitted | executing | committed | posted
  deriving DecidableEq, Repr

/-- A classification (R223): each field 0 where the descriptor's value stands. -/
structure Classified where
  tier   : Nat
  rclass : Nat
  mirror : Nat
  watch  : Nat
  deriving DecidableEq, Repr

/-- A tag-table entry (R165). -/
structure TagEntry where
  id     : TagId
  cls    : SessionClass
  state  : TagState
  msg    : CmdMsg
  asn    : Nat
  /-- admission order over the whole device: R161, R182 -/
  order  : Nat
  /-- R250, R245: image version current at admission; R253 -/
  version : Nat
  /-- result fixed at the commit point, or once posted -/
  result : Option Completion
  /-- sequence number assigned to an APPEND (step 2 of Table 01-8) -/
  seqNo  : Option Nat
  /-- device time at that step (R384) -/
  stepTime : Nat
  /-- the results of the write's searches of the classifier: one, or one for each entry of a BATCH (R223) -/
  classed : List Classified
  /-- mirror members whose acknowledgement is awaited, and whether one was lost (R184) -/
  mirrors : List Nat
  degraded : Bool
  /-- 1 when the acknowledgement condition is MEDIA (R183) -/
  media  : Bool
  /-- a PURGE_EXPIRED past its first commit (R395): the streams purged so far with their FIRST_SEQ, and the records removed -/
  purging : Option (List (Bytes × Nat) × Nat)
  deriving DecidableEq, Repr

/-- A complete command in a receive queue, with the class of the session it came by. -/
structure QueuedCmd where
  ctx  : Ctx
  cls  : SessionClass
  tag  : Nat
  msg  : CmdMsg
  deriving DecidableEq, Repr

structure Upload where
  id       : Nat
  nsid     : Nat
  key      : Bytes
  totalLen : Nat
  partMib  : Nat
  firstExtent : Nat
  stored   : List Nat
  idleDays : Nat
  stampL   : Nat
  deriving DecidableEq, Repr

structure Cmd where
  tags     : List TagEntry
  queue    : List QueuedCmd
  /-- next ASN per NSID (default 1), kept for ever (R164) -/
  nextAsn  : SMap Nat
  nextOrder : Nat
  paused   : Bool
  uploads  : List Upload
  nextUpload : Nat
  deriving DecidableEq, Repr

/-! ## Namespaces, keys, extents (chapters 08, 16) -/

inductive NsKind where
  | mutable_ | sealed | distribution
  deriving DecidableEq, Repr

/-- Where a key's value is (Table 08-3, Table 08-6). -/
inductive Loc where
  | inline (bytes : Bytes)
  | extent (index : Nat)
  | object (index : Nat) (totalLen : Nat) (partMib : Nat)
  deriving DecidableEq, Repr

/-- One leaf record (Table 08-6). A key's records stand in descending pair order, the current one first. -/
structure Rec where
  stamp   : Nat
  session : Nat
  deleted : Bool
  loc     : Loc
  deriving DecidableEq, Repr

structure KeyEntry where
  key  : Bytes
  recs : List Rec
  deriving DecidableEq, Repr

/-- One sealed record: its header and where its bytes are (R384). -/
structure SealedRec where
  hdr  : RecordHdr
  loc  : Loc
  deriving DecidableEq, Repr

structure Stream where
  key       : Bytes
  nextSeq   : Nat
  headChain : Bytes
  baseChain : Bytes
  lastTime  : Nat
  recs      : List SealedRec
  deriving DecidableEq, Repr

structure Ns where
  nsid     : Nat
  kind     : NsKind
  stamped  : Bool
  media    : Bool
  tier     : Nat
  quota    : Nat
  sealSlot : Nat
  rclass   : Nat
  createAsn : Nat
  keys     : List KeyEntry
  streams  : List Stream
  /-- R180: latest stamp per open session, horizon, highest stamp admitted -/
  latest   : List (Nat × Nat)
  horizon  : Nat
  highest  : Nat
  /-- R425: mirror set bound; R426: origin of a mirror copy -/
  mirrorSet : Option Nat
  copyOf   : Option Nat
  /-- R400: purges that wait for device time, per stream -/
  purges   : List (Bytes × Nat)
  deriving DecidableEq, Repr

/-- A stored segment: IV, ciphertext and tag (R343, chapter 08). -/
structure Seg where
  iv  : Bytes
  ct  : Bytes
  tag : Bytes
  deriving DecidableEq, Repr

/-- A value extent and its extent-table entry (Table 08-7). `segs` is the header segment, then the value's. -/
structure Extent where
  index   : Nat
  inUse   : Bool
  disk    : Bool
  heat    : Nat
  leaf    : Nat
  gen     : Nat
  nsid    : Nat
  key     : Bytes
  vlen    : Nat
  asn     : Nat
  stamp   : Nat
  session : Nat
  segs    : List Seg
  /-- flash: its logical map units; disk: its band and first 4 KiB sector -/
  lmus    : List Nat
  band    : Nat
  sector  : Nat
  /-- only the protected write buffer holds it -/
  buffered : Bool
  /-- the tier policy that a classification gave its write (R223); 0: the namespace's -/
  tier : Nat
  deriving DecidableEq, Repr

/-- A leaf page as media hold it (Table 08-5): its IV, its 16-byte header, which is the associated data, its ciphertext
and its tag. -/
structure LeafPage where
  iv  : Bytes
  hdr : Bytes
  ct  : Bytes
  tag : Bytes
  deriving DecidableEq, Repr

/-- A leaf page (R199 to R201): its range begins at `low`, and `tag` is its leaf-range tag. -/
structure Leaf where
  index : Nat
  nsid  : Nat
  low   : Bytes
  tag   : Nat
  lmu   : Nat
  buffered : Bool
  page  : LeafPage
  deriving DecidableEq, Repr

structure CacheItem where
  isLeaf : Bool
  index  : Nat
  gen    : Nat
  bytes  : Nat
  deriving DecidableEq, Repr

/-- A directory seal (R211). -/
structure DirSeal where
  magic      : Nat
  tierId     : Nat
  seedCheck  : Nat
  journalSeq : Nat
  imageCrc   : Nat
  sealCrc    : Nat
  deriving DecidableEq, Repr

/-- A saved directory image with its seal (R211). -/
structure SavedDir where
  dirSeal    : DirSeal
  dir        : SMap (BitVec 48)
  side       : SMap (BitVec 16)
  deriving DecidableEq, Repr

/-- One mapped logical unit (R259): the block and the unit within it. -/
structure MapEntry where
  lmu   : Nat
  block : Nat
  unit  : Nat
  /-- WSEQ of the unit, and whether it was written by a relocation (Table 11-4) -/
  wseq  : Nat
  relocated : Bool
  /-- units of sealed and distribution namespaces go to COLD (R271) -/
  cold  : Bool
  deriving DecidableEq, Repr

/-- The state of a watch for one stream (R255): its counters and the last record that it evaluated. -/
structure WatchState where
  nsid     : Nat
  id       : Nat
  stream   : Bytes
  counters : List Nat
  lastSeq  : Nat
  deriving DecidableEq, Repr

/-! ## The disk tier (chapter 13) -/

inductive BandState where
  | free | open_ | closed | stale | retired
  deriving DecidableEq, Repr

/-- A run of rows written by one set of heads (R323). -/
structure BandSegment where
  track : Nat
  row   : Nat
  rows  : Nat
  mask  : BitVec 22
  deriving DecidableEq, Repr

/-- What a physical slot of a band was written with: KIND and INDEX of Table 13-3, and its data field. -/
structure SlotData where
  kind  : Nat
  index : Nat
  data  : Bytes
  deriving DecidableEq, Repr

/-- A band slot that is not free. -/
structure Band where
  slot   : Nat
  state  : BandState
  bseq   : Nat
  /-- logical slots written, physical slots consumed, and those of them in the last segment -/
  used   : Nat
  phys   : Nat
  tail   : Nat
  /-- the start wedge of track 0, and TRACK_SKEW as it was when the band was opened (R322) -/
  w0     : Nat
  skew   : Nat
  segments : List BandSegment
  voids  : List Nat
  /-- remap entries: logical slot, and the band slot and physical slot of its copy (R326) -/
  remap  : List (Nat × Nat × Nat)
  /-- its physical slots that were written with a remap copy, of its own sectors or of a band closed before it -/
  copies : List Nat
  short  : Bool
  shortAllHeads : Bool
  /-- it held a sector that failed rung 7, or its writing reached the remap limit (R331) -/
  rung7  : Bool
  /-- the writer goes on at the next band track, as after a power loss (R330) -/
  cut    : Bool
  /-- what its physical slots hold, and the XOR of the data fields of the group being written (R317) -/
  sectors : List (Nat × SlotData)
  parity : Bytes
  deriving DecidableEq, Repr

/-- A sector in a head channel's sample buffer (R316): its head, band slot and physical slot, its samples by data region (none:
as it was written) and the erasure runs of each region. -/
structure ChannelSample where
  head   : Nat
  band   : Nat
  slot   : Nat
  trace  : Option (List RegionTrace)
  erased : List (List (Nat × Nat))
  deriving DecidableEq, Repr

structure Rdc where
  formatted : Bool
  tierId    : Nat
  /-- the heads in service at the format, bit h for head h, and the band slots formatted -/
  headsAtFormat : Nat
  slots     : Nat
  bands     : List Band
  moveBand  : Option Nat
  streamBand : Option Nat
  /-- the band slot that the writer serves (R325) -/
  writing   : Option Nat
  nextBseq  : Nat
  spareInit : Nat
  spareNow  : Nat
  writeStop : Bool
  cleanMand : Bool
  /-- the last 4 sectors of each bound channel, newest first (R316) -/
  samples   : List ChannelSample
  deriving DecidableEq, Repr

/-! ## What a power loss falls back to -/

/-- The maps as they stand on media while the protected write buffer holds newer changes (R85, R266). -/
structure Back where
  namespaces : List Ns
  extents    : List Extent
  leaves     : List Leaf
  retired    : List Nat
  map        : List MapEntry
  uploads    : List Upload
  states     : List WatchState
  rdc        : Rdc
  /-- the newest journal record on media -/
  journalSeq : Nat
  deriving DecidableEq, Repr

structure Kv where
  /-- what a loss of the protected write buffer falls back to; none while the buffer is empty -/
  back       : Option Back
  namespaces : List Ns
  extents    : List Extent
  leaves     : List Leaf
  /-- leaf-map indices retired and not yet swept (R201) -/
  retired    : List Nat
  /-- long operands whose commands have not stored them yet: the run of map units of each, and how many are programmed
  (R161, Table 11-8) -/
  early      : List (TagId × List Nat × Nat)
  /-- directory words by word number (default 0: free), R192, R193 -/
  dir        : SMap (BitVec 48)
  /-- bucket side table, 16-bit words by bucket (R214) -/
  side       : SMap (BitVec 16)
  reqCount   : Nat
  hotCount   : Nat
  /-- hot requests have reached their share of a window and the reseed has not begun (R214) -/
  reseedOwed : Bool
  lastReseedMs : Option Nat
  /-- the image and its seal in the flash system area, once saved (R211) -/
  saved      : Option SavedDir
  /-- the SRAM seal in the always-on island (R212) -/
  sramSeal   : Option DirSeal
  /-- directory-changing commits since the last save, and in all -/
  dirCommits : Nat
  dirChanges : Nat
  /-- the directory-changing commits replayed at a start: namespace, key and journal sequence number -/
  dirLog     : List (Nat × Bytes × Nat)
  rebuilding : Bool
  /-- read cache, most recently used first, and items read once: leaf or extent, index, GEN, time (R210) -/
  cache      : List CacheItem
  readOnce   : List (Bool × Nat × Nat × Nat)
  deriving DecidableEq, Repr

/-! ## Associative tables (chapter 09) -/

/-- One ternary entry. -/
structure CamEntry where
  value : Nat
  mask  : Nat
  data  : Nat
  deriving DecidableEq, Repr

structure Cam where
  /-- valid entries by table ID and table index -/
  tables   : List (Nat × SMap (Option CamEntry))
  /-- the system-area copy (R236) -/
  saved    : List (Nat × SMap (Option CamEntry))
  retained : List Nat
  /-- a `CAM_WRITE` past its commit point whose words are still being written: its tag, and for a block move its table and
  cursor (R230, R235) -/
  moving   : Option (TagId × Option (Nat × Nat))
  deriving DecidableEq, Repr

/-! ## Pattern engine (chapter 10) -/

structure Image where
  id       : Nat
  version  : Nat
  bytes    : Bytes
  current  : Bool
  deriving DecidableEq, Repr

structure Watch where
  nsid     : Nat
  id       : Nat
  imageId  : Nat
  version  : Nat
  eventNs  : Nat
  group    : Nat
  stream   : Bytes
  armAsn   : Nat
  deriving DecidableEq, Repr

structure Pat where
  images   : List Image
  nextVersion : Nat
  watches  : List Watch
  states   : List WatchState
  deriving DecidableEq, Repr

/-! ## Flash tier (chapter 11) -/

/-- `reserved`: of the drain reserve, or a root block (R267, R269). -/
inductive BlockState where
  | free | open_ | closed | stale | retired | reserved
  deriving DecidableEq, Repr

/-- A formatted block that is not fresh (a fresh block is free, of erase count 0). -/
structure Block where
  id     : Nat
  state  : BlockState
  slc    : Bool
  /-- opened by the COLD stream (R278) -/
  cold   : Bool
  erase  : Nat
  reads  : Nat
  /-- units programmed since the last erase -/
  used   : Nat
  /-- retired because its channel or its die left service, and for no other reason (R282) -/
  lostOnly : Bool
  deriving DecidableEq, Repr

inductive WriteStream where
  | host | stream | mutable_ | cold | meta_
  deriving DecidableEq, Repr

/-- KIND of a unit header (Table 11-4). -/
inductive UnitKind where
  | value | leaf | journal | checkpoint | parity | system | pad
  deriving DecidableEq, Repr

/-- What a unit is written as: KIND, RELOCATED and LMU of its header, and for a journal unit the newest record in it. -/
structure UnitInfo where
  kind      : UnitKind
  relocated : Bool
  lmu       : Nat
  jseq      : Nat
  deriving DecidableEq, Repr

/-- A unit programmed since the last erase of its block, with its header (R264) and the stream whose stripe it is of. -/
structure FlashUnit where
  block  : Nat
  unit   : Nat
  stream : WriteStream
  slc    : Bool
  wseq   : Nat
  stripe : Nat
  info   : UnitInfo
  deriving DecidableEq, Repr

/-- What a change of a journal record changes: one of the four maps, or a block's erase (R266, R275). -/
inductive MapTable where
  | flashMap | extentTable | leafMap | bandMap | erased
  deriving DecidableEq, Repr

/-- One entry of a map with the word that it takes. -/
structure JChange where
  table : MapTable
  key   : Nat
  word  : Nat
  deriving DecidableEq, Repr

/-- A journal record (R266); `host` says that its stream is HOST, else META. -/
structure JournalRec where
  seq     : Nat
  host    : Bool
  changes : List JChange
  crc     : Nat
  deriving DecidableEq, Repr

/-- What the META stream holds in units of its own (Table 11-3). -/
inductive SysObj where
  | checkpoint
  | camTable (t : Nat)
  | image (id version : Nat)
  | chunk (k : Nat)
  deriving DecidableEq, Repr

/-- A saved object: its map units, and the journal sequence number at which it was saved (R268). -/
structure SysCopy where
  obj  : SysObj
  lmus : List Nat
  seq  : Nat
  deriving DecidableEq, Repr

/-- A root record (R267, R284): its sequence, the journal sequence number of the latest checkpoint, the journal head, the
blocks of the drain area, and whether the device is read-only. -/
structure RootRec where
  seq      : Nat
  ckpt     : Nat
  head     : Nat
  drain    : List Nat
  readOnly : Bool
  deriving DecidableEq, Repr

/-- Where a write stream stands: data units placed, and its open block on each die (R261, R262). -/
structure StreamPos where
  stream : WriteStream
  units  : Nat
  openBlocks : List (Nat × Nat)
  deriving DecidableEq, Repr

structure Flash where
  mounted   : Bool
  unsupported : Bool
  readOnly  : Bool
  /-- the flash system area is valid, and the tier identity it carries (R114) -/
  formatted : Bool
  tierId    : Nat
  profile   : Option NandProfile
  /-- channels in service (Table 11-9) -/
  channels  : BitVec 32
  /-- the channel of each die, in die order, as at the last format -/
  dieCh     : List Nat
  diesLost  : List Nat
  /-- blocks formatted on every die (R258) -/
  blocksPerDie : Nat
  raw       : Nat
  n         : Nat
  map       : List MapEntry
  /-- units programmed for commands that have not stored them yet: on media, and in no map (R161, R265) -/
  staged    : List MapEntry
  blocks    : List Block
  units     : List FlashUnit
  streams   : List StreamPos
  wseq      : Nat
  /-- journal: sequence number of the newest record, and of the newest trimmed one, and the records between (R266, R268) -/
  journalSeq : Nat
  trimmed   : Nat
  journal   : List JournalRec
  system    : List SysCopy
  /-- the copies of the root record, the older one first -/
  roots     : List RootRec
  /-- the drain reserve holds a drain with a valid drain-complete marker (R269) -/
  drainMark : Bool
  /-- blocks queued for refresh (R279 to R281) -/
  refresh   : List Nat
  spareInit : Nat
  spareNow  : Nat
  retired   : Nat
  patrolDay : Nat
  demoting  : Bool
  /-- static levelling has begun and not yet ended (R278) -/
  levelling : Bool
  /-- read counters as the newest checkpoint keeps them (R280) -/
  ckptReads : List (Nat × Nat)
  /-- what each channel's page shows (Table 11-14) at the last start -/
  found     : List ChannelFound
  deriving DecidableEq, Repr

/-! ## Disk tier (chapters 12, 13) -/

structure Head where
  id        : Nat
  inService : Bool
  part      : Bool
  /-- position x, target, stroke m, required stroke, all in 1/1,024 track (R291 to R294) -/
  x         : Int
  target    : Int
  stroke    : Int
  pes       : Int
  lastPes   : Option Int
  cal       : HeadCal
  writing   : Bool
  /-- settled for reading and for writing since the last seek (R298) -/
  settledRd : Bool
  settledWr : Bool
  /-- participation as latched at the head's last index wedge (SRV_PART) -/
  partRev   : Bool
  /-- consecutive wedges: missed, good, good for rejoin, within the settle limits, within the stroke limit -/
  missRun   : Nat
  goodRun   : Nat
  rejoinRun : Nat
  rdRun     : Nat
  wrRun     : Nat
  strokeRun : Nat
  revMissed : Nat
  /-- the latest wedge number; none while the head acquires, with the good wedges in a row and the wedge and track of the last
  one (R288) -/
  wedge     : Option Nat
  acqRun    : Nat
  acqAt     : Nat × Nat
  missed    : Bool
  inU       : Bool
  inhibit   : Bool
  /-- causes of Table 12-5 that hold for the head alone, not yet released: PES, missed, stroke, not settled -/
  cPes      : Bool
  cMiss     : Bool
  cStroke   : Bool
  shockNow  : Bool
  /-- when the preamplifier reported faults on the head, newest first (R297) -/
  faults    : List Nat
  deriving DecidableEq, Repr

structure Actuator where
  id        : Nat
  /-- the voice-coil error last chosen, 1/1,024 track (R294) -/
  reference : Int
  /-- wedge periods until the shock inhibit ends (Table 12-5) -/
  shock     : Nat
  faultHeld : Bool
  clearPolls : Nat
  badFrames : Nat
  armed     : Bool
  /-- the current last set by VCM_SET, and the calibration in force (R307, Table 12-7) -/
  current   : Int
  cal       : StackCal
  deriving DecidableEq, Repr

structure Srv where
  disk      : Nat
  heads     : List Head
  actuators : List Actuator
  /-- failed attempts since the start, and of the spin-up under way (R301) -/
  tries     : Nat
  attempts  : Nat
  writeReady : Bool
  fullCal   : Bool
  /-- the last start was cold: the first spin-up makes a full calibration -/
  coldStart : Bool
  /-- TIER_ID under which calibration values are saved, and the values by head and by actuator (R302) -/
  savedCal  : Option (Nat × List HeadCal × List StackCal)
  periodOff : Nat
  statusFails : Nat
  seekRepeats : Nat
  retracted : Bool
  /-- tracks of a surface, as the last spin-up found them (R289, R291) -/
  tracks    : Nat
  /-- sectors reported suspect and not yet rewritten, by band slot and physical slot: of the track being written, and of the
  one before (R300) -/
  suspects  : List (Nat × Nat)
  suspectsPrev : List (Nat × Nat)
  deriving DecidableEq, Repr

/-! ## Crypto complex and key store (chapters 14, 15) -/

structure SvcResult where
  page    : Nat
  /-- the session or forwarding context that claimed the page (R355) -/
  owner   : Ctx
  result  : Option Bytes
  plain   : Bool
  /-- the gondola frames that hold its plaintext, released (R350, R358) -/
  frames  : List Nat
  deriving DecidableEq, Repr

/-- A suspended service operation, as the context store holds it (R341): its core, page, slot and the generation latched, the admission order of its
command, and what it holds once it resumes under the same generation, with its bytes of work. -/
structure Suspended where
  op     : Nat
  core   : Nat
  page   : Nat
  slot   : Nat
  gen    : Nat
  order  : Nat
  status : Nat
  result : Bytes
  plain  : Bool
  work   : Nat
  /-- the gondola frames allocated to it, unreadable until it is released (R350, R351) -/
  frames : List Nat
  deriving DecidableEq, Repr

/-- A key-store slot: GEN, ATTR (Table 15-4) and the key, empty while PRESENT is 0. -/
structure Slot where
  gen     : Nat
  attr    : BitVec 16
  key     : Bytes
  deriving DecidableEq, Repr

/-- The fuse banks of Table 15-1 that a rule reads or blows; `rollback` counts the blown bits of ROLLBACK. DEV_FIELD, SERIAL
and MAC stand in the registers that show them. -/
structure Fuses where
  root     : Bytes
  kill     : Bool
  rootGone : Bool
  enrolled : Bool
  vendorPk : Bytes
  operPk   : Bytes
  rollback : Nat
  deriving DecidableEq, Repr

structure Cry where
  /-- BRINGUP, SERVICE, TEST, RECOVERY coded as CRY_PHASE -/
  phase    : Nat
  drbg     : Nat
  esOk     : Bool
  esFails  : List Nat
  suspended : List Suspended
  nextOp   : Nat
  pages    : List SvcResult
  coreOut  : List Nat
  deriving DecidableEq, Repr

structure Key where
  /-- live slots (R364 to R367) by index; unlisted: empty with GEN 0 -/
  slots    : SMap Slot
  /-- the vault copy in force of each slot, the one of higher SEQ (R362, R363, log entry 148); unlisted: never written -/
  vault    : SMap Slot
  /-- the older copy of each slot, which the next vault write replaces, and the SEQ of the copy in force (Table 15-2) -/
  vaultOld : SMap Slot
  vaultSeq : SMap Nat
  /-- each slot's nonce counter, and its durable limit in the META stream (R343, R344); unlisted: 0 -/
  counters : SMap Nat
  limits   : SMap Nat
  fuses    : Fuses
  envCount : Nat
  envHours : Nat
  killPending : Bool
  vaultOk  : Bool
  rootOk   : Bool
  deriving DecidableEq, Repr

/-! ## Device time (chapter 16) -/

structure Sea where
  time     : Nat
  saved    : Nat
  /-- powered hours since the last advance, as saved with the time (R392) -/
  savedAdv : Nat
  advHours : Nat
  advMade  : Bool
  advTotal : Nat
  restored : Bool
  daysDone : Nat
  deriving DecidableEq, Repr

/-! ## Fabric (chapter 17) -/

/-- A flit that waits to be sent, and the input buffer (link and VC) that it still occupies (R404). -/
structure OutFlit where
  flit : Flit
  src  : Option (Nat × Nat)
  deriving DecidableEq, Repr

/-- One fabric link (R403 to R408). -/
structure Link where
  id        : Nat
  /-- the lanes have trained; the link is up from the third valid tether on: LINK_STATE, and valid tethers so far -/
  trained   : Bool
  state     : Nat
  good      : Nat
  neigh     : Option Tether
  tseq      : Nat
  /-- FSEQ of the next flit sent, and of the next one expected; a RETRY was sent and the expected flit has not come -/
  nextTx    : Nat
  expect    : Nat
  awaiting  : Bool
  /-- RETRYs in a row for one flit: those sent, and those received with the flit that they named -/
  retries   : Nat
  asked     : Nat × Nat
  /-- credits held to send, per VC, and unacknowledged flits -/
  credit0   : Nat
  credit1   : Nat
  replay    : List Flit
  /-- the input buffers, and what waits to be sent, per VC -/
  input0    : List Flit
  input1    : List Flit
  out0      : List OutFlit
  out1      : List OutFlit
  /-- the neighbour's router island is quiet (R82) -/
  quietPeer : Bool
  /-- when a tether last showed the serial of the keeper record held for this link, and whether the record has been
  offered (Table 17-11) -/
  keeperSeen : Nat
  offered   : Bool
  deriving DecidableEq, Repr

/-- An entry of the sled map (R409). -/
structure SledEntry where
  slot    : Nat
  present : Bool
  gateway : Bool
  links   : BitVec 4
  seq     : Nat
  deriving DecidableEq, Repr

inductive MemberState where
  | inSync | degraded | resyncing
  deriving DecidableEq, Repr

structure MirrorMember where
  nsid  : Nat
  addr  : Nat
  state : MemberState
  lastAsn : Nat
  releasing : Bool
  deriving DecidableEq, Repr

/-- A request message that waits for its response (R412). -/
structure OutMsg where
  msgId : Nat
  dst   : Nat
  ftype : Nat
  body  : FabPayload
  /-- its frames as first sent, and the link of a LOCAL one -/
  frames : List FabFrame
  link  : Option Nat
  tries : Nat
  tag   : Option TagId
  nsid  : Nat
  asn   : Nat
  deriving DecidableEq, Repr

/-- What a receiver keeps for a source (R412). -/
structure SourceEntry where
  src     : Nat
  highest : Nat
  seen    : List Nat
  /-- each response sent: MSG_ID of its request, and its frames -/
  replies : List (Nat × List FabFrame)
  deriving DecidableEq, Repr

/-- A mirrored write held until the write before it is applied (R427). -/
structure HeldMirror where
  src  : Nat
  msgId : Nat
  mm : MirrorMeta
  body : MirrorBody
  deriving DecidableEq, Repr

structure Fab where
  addr     : Nat
  addrValid : Bool
  links    : List Link
  sled     : List SledEntry
  ownSeq   : Nat
  flowSeed : Bytes
  /-- the seed that holds for each flow's present flowlet, and the choices of R414 kept: FLOW, DST and the output link -/
  seeds    : List (Nat × Bytes)
  flows    : List (Nat × Nat × Nat)
  nextMsg  : Nat
  /-- local injection (R417): frames of this device that wait for the router, a LOCAL one with its link -/
  inject   : List (Option Nat × FabFrame)
  outMsgs  : List OutMsg
  sources  : List SourceEntry
  sets     : List (Nat × Bool × List Nat)
  members  : List MirrorMember
  heldWrites : List HeldMirror
  applied  : List (Nat × Nat)
  gwLive   : List (Nat × Nat)
  keepers  : List (Nat × KeeperRec)
  offers   : List (Nat × KeeperRec)
  inherited : Option KeeperRec
  /-- namespaces that the predecessor originated and whose resync has not ended, with their sets and the place in the set of
  the member that is asked (Table 17-11, step 5) -/
  pulls    : List (Nat × Nat × Nat)
  /-- copies of the restored list whose descriptor their origin has not sent yet: NSID and origin (Table 17-11, step 4) -/
  copies   : List (Nat × Nat)
  deriving DecidableEq, Repr

/-! ## Firmware update (chapter 18) -/

/-- The slot record (Table 18-10). -/
structure SlotRecord where
  generation : Nat
  active     : Nat
  trial      : Bool
  reverted   : Bool
  fallback   : Bool
  trialStarts : Nat
  trialSeconds : Nat
  digestA    : Bytes
  digestB    : Bytes
  funcA      : Nat
  funcB      : Nat
  secA       : Nat
  secB       : Nat
  deriving DecidableEq, Repr

structure Staging where
  digest   : Bytes
  len      : Nat
  func     : Nat
  sec      : Nat
  stage    : Nat
  chunks   : List (Nat × Bytes)
  fromHost : Bool
  fromPeer : Bool
  peers    : List Nat
  /-- the last step of Table 18-5 done by a verification under way, 0 where there is none -/
  vstep    : Nat
  deriving DecidableEq, Repr

structure Fw where
  rec0     : Option SlotRecord
  rec1     : Option SlotRecord
  imageA   : Bytes
  imageB   : Bytes
  staging  : Option Staging
  lastVerify : Nat
  aRunnable : Bool
  bRunnable : Bool
  activating : Option TagId
  deriving DecidableEq, Repr

/-! ## Event log (chapter 19), debug port (chapter 20), MCTP -/

structure LogRec where
  seq     : Nat
  startNo : Nat
  time    : Nat
  madeMs  : Nat
  block   : Nat
  inst    : Nat
  bit     : Nat
  enabled : Bool
  forced  : Bool
  status  : Nat
  repeats : Nat
  detail  : Nat
  deriving DecidableEq, Repr

structure Log where
  nextSeq : Nat
  /-- on flash, in the buffer of the protected write buffer, in the DRAM ring; oldest first -/
  flash   : List LogRec
  buffer  : List LogRec
  ring    : List LogRec
  deriving DecidableEq, Repr

structure Core_ where
  id      : Nat
  halted  : Bool
  cause   : Nat
  /-- words of the core's state while it is halted, by index (R475) -/
  regs    : List Word
  breaks  : List (Nat × BitVec 48)
  watches : List (Nat × BitVec 48 × Nat)
  deriving DecidableEq, Repr

structure Dbg where
  /-- DBG_POLICY as in force since the start (chapter 20) -/
  observeOk : Bool
  fullOk    : Bool
  /-- 0 locked, 1 observe, 2 full -/
  level     : Nat
  instr     : Nat
  challenge : Option Bytes
  chalLevel : Nat
  response  : List Word
  pending   : Bool
  fails     : Nat
  lockout   : Nat
  haltAll   : Bool
  lastHalted : Nat
  cores     : List Core_
  lastAddr  : Nat
  /-- what the next Capture-DR returns -/
  capture   : Bytes
  cells     : List Bool
  pinDriven : Bool
  deriving DecidableEq, Repr

/-- The reader of a 64-bit counter (R128). -/
structure Latch where
  reader : Path
  addr   : Nat
  high   : Word
  deriving DecidableEq, Repr

/-- The Ethernet header of a frame that the device sends: its port, the two addresses and the 802.1Q tag (R140). -/
structure EthHead where
  port   : Nat
  srcMac : BitVec 48
  dstMac : BitVec 48
  vlan   : Option Nat
  deriving DecidableEq, Repr

/-- The Ethernet and IP headers of a datagram that the device sends, as far as R142 gives them. -/
structure IpHead where
  eth   : EthHead
  v6    : Bool
  srcIp : BitVec 128
  dstIp : BitVec 128
  df    : Bool
  hopLimit : Nat
  dscp  : Nat
  deriving DecidableEq, Repr

/-- The headers of a UDP datagram that the device sends. -/
structure UdpHead where
  ip       : IpHead
  srcPort  : Nat
  dstPort  : Nat
  checksum : Nat
  deriving DecidableEq, Repr

/-- What the device emits, in order. -/
inductive Output where
  | helloReply (dest : UdpHead) (session : Nat) (bytes : Bytes)
  | refuse (dest : UdpHead) (bytes : Bytes)
  | frame (dest : UdpHead) (session seq : Nat) (bytes : Bytes)
  | ackFrame (dest : UdpHead) (session seq : Nat) (bytes : Bytes)
  | completion (t : TagId) (c : Completion)
  | regResult (p : Path) (status : Nat) (data : List Word)
  /-- bytes 4 to 7 of the request repeated (R133), its reserved byte among them, then STATUS and the data -/
  | mctpResponse (code tag reserved status : Nat) (data : Bytes)
  | mctpControl (code cc : Nat) (data : Bytes)
  | arpReply (dest : EthHead) (ip : BitVec 128)
  | neighbourAdvert (dest : EthHead) (ip : BitVec 128)
  | echoReply (dest : IpHead) (payload : Bytes)
  /-- a MAC control PAUSE sent on a port (R138) -/
  | pauseOut (port quanta : Nat)
  /-- an Ethernet frame with its EtherType and a fabric frame's bytes (R420) -/
  | ethFabric (dest : EthHead) (etherType : Nat) (frame : Bytes)
  | lineFlit (link : Nat) (flit : Bytes)
  /-- a frame on a MA pin pair: the 14-bit code, signed (Table 02-16) -/
  | maOut (head : Nat) (code : Int)
  /-- a frame on the MOT link behind its start bit, and one on a PAa link, each with its CRC-8 (R304, R307) -/
  | motFrame (bytes : Bytes)
  | paFrame (actuator : Nat) (bytes : Bytes)
  | writeParked (head : Nat)
  /-- the channel bits that a head writes of a physical sector (R310, R311): after each wedge, from a bit of the data region -/
  | wdBits (head : Nat) (pieces : List (Nat × Nat × List Bool))
  | smbusReleased
  /-- BALLAST_LOAD asserted or released (R86) -/
  | ballastLoad (on : Bool)
  | rails (en0 en1 en2 : Bool)
  | tdo (bytes : Bytes)
  | pins (cells : List Bool)
  | pinsHighZ
  | pinsReset
  | uartFault
  deriving DecidableEq, Repr

structure Mctp where
  eid    : Nat
  eidSet : Bool
  busy   : Bool
  deriving DecidableEq, Repr

/-- The whole state. -/
structure State where
  regs    : Regs
  dev     : Dev
  cfg     : Cfg
  ports   : List Port
  sessions : List Session
  /-- when frames failed their check, newest first, since the last AUTH_BURST (Table 06-14) -/
  authTimes : List Nat
  cmd     : Cmd
  kv      : Kv
  cam     : Cam
  pat     : Pat
  flash   : Flash
  srv     : Srv
  rdc     : Rdc
  cry     : Cry
  key     : Key
  sea     : Sea
  fab     : Fab
  fw      : Fw
  log     : Log
  dbg     : Dbg
  mctp    : Mctp
  latches : List Latch
  sram    : Memory
  dram    : Memory
  /-- the MODEL's own: how many free values have been taken (Config); no statement rests on it -/
  free    : Nat
  out     : List Output
  /-- what waits for a port that a PAUSE holds (R138), in the fabric and network buffers of Table 01-4 -/
  portQueue : List (Nat × Output)
  pending : List Instr
  deriving DecidableEq, Repr

/-! ## The device at t0 of the cold start that follows a POR (Table 04-2, Table 04-11)

A field for which the spec gives no reset value is zero, empty or absent: log entries 4 and 5, DESIGN CHOICE. -/

/-- Device and power state at reset: the cold start is about to run (R89); ACTIVE (Table 03-11). -/
def Dev.reset : Dev where
  phase := .starting true
  kind := .por
  alarmSrc := 0
  startDetail := 0
  straps := ⟨0, 0, false⟩
  railsFailed := 0
  power := .active
  entering := none
  enterTags := []
  spinning := false
  routerQuiet := false
  thermalLimit := 340
  hottest := 0
  thermN := false
  pwrfailLow := false
  riseCounting := false
  clockMs := 0
  startMs := 0
  slowCarry := 0
  refSdLost := false
  crystalFail := false
  ballastCodes := []
  ballastPassed := false
  ballastWithdrawn := false
  domAccess := 0
  helpers := none
  loaderMeasured := false
  sramFailed := none
  trainTemp := []
  resetBusy := false
  resetWaiter := none
  pinsHeld := false

/-- No copy of the configuration record holds a commit, and no hardware has been found yet. -/
def Cfg.reset : Cfg where
  copy0 := none
  copy1 := none
  under := []
  waiting := []
  frags := []
  hw := ⟨0, 0, [], 0, 0, 0, none⟩

/-- An empty tag table; ASNs start at 1 (R164). -/
def Cmd.reset : Cmd where
  tags := []
  queue := []
  nextAsn := []
  nextOrder := 0
  paused := false
  uploads := []
  nextUpload := 1

/-- No namespace, extent or leaf page. -/
def Kv.reset : Kv where
  back := none
  namespaces := []
  extents := []
  leaves := []
  retired := []
  early := []
  dir := []
  side := []
  reqCount := 0
  hotCount := 0
  reseedOwed := false
  lastReseedMs := none
  saved := none
  sramSeal := none
  dirCommits := 0
  dirChanges := 0
  dirLog := []
  rebuilding := false
  cache := []
  readOnce := []

/-- An unformatted flash tier. -/
def Flash.reset : Flash where
  mounted := false
  unsupported := false
  readOnly := false
  formatted := false
  tierId := 0
  profile := none
  channels := 0
  dieCh := []
  diesLost := []
  blocksPerDie := 0
  raw := 0
  n := 0
  map := []
  staged := []
  blocks := []
  units := []
  streams := []
  wseq := 0
  journalSeq := 0
  trimmed := 0
  journal := []
  system := []
  roots := []
  drainMark := false
  refresh := []
  spareInit := 0
  spareNow := 0
  retired := 0
  patrolDay := 0
  demoting := false
  levelling := false
  ckptReads := []
  found := []

/-- The spindle stopped (Table 12-10). -/
def Srv.reset : Srv where
  disk := 0
  heads := []
  actuators := []
  tries := 0
  attempts := 0
  writeReady := false
  fullCal := false
  coldStart := true
  savedCal := none
  periodOff := 0
  statusFails := 0
  seekRepeats := 0
  retracted := false
  tracks := 0
  suspects := []
  suspectsPrev := []

/-- An unformatted disk tier. -/
def Rdc.reset : Rdc where
  formatted := false
  tierId := 0
  headsAtFormat := 0
  slots := 0
  bands := []
  moveBand := none
  streamBand := none
  writing := none
  nextBseq := 0
  samples := []
  spareInit := 0
  spareNow := 0
  writeStop := false
  cleanMand := false

/-- BRINGUP, the DRBG not instantiated (Table 14-7). -/
def Cry.reset : Cry where
  phase := 0
  drbg := 0
  esOk := false
  esFails := []
  suspended := []
  nextOp := 0
  pages := []
  coreOut := []

/-- Every live slot empty, no fuse blown that a rule blows, ROOT as at manufacture, and in the vault the initial admin key of
slot 0 (R364, log entry 4). -/
def Key.reset : Key where
  slots := []
  vault := [(0, ⟨1, 0x0603, (List.range 32).map (Config.factoryByte 1)⟩)]
  vaultOld := []
  vaultSeq := [(0, 1)]
  counters := []
  limits := []
  fuses := ⟨(List.range 32).map (Config.factoryByte 0), false, false, false, List.replicate 32 0, List.replicate 32 0, 0⟩
  envCount := 0
  envHours := 0
  killPending := false
  vaultOk := false
  rootOk := false

/-- Device time 0; ADV_HOURS reads 24 before any advance (Table 16-6). -/
def Sea.reset : Sea where
  time := 0
  saved := 0
  savedAdv := 24
  advHours := 24
  advMade := false
  advTotal := 0
  restored := false
  daysDone := 0

/-- A fabric link that is down. -/
def Link.down (id : Nat) : Link where
  id := id
  trained := false
  state := 0
  good := 0
  neigh := none
  tseq := 0
  nextTx := 0
  expect := 0
  awaiting := false
  retries := 0
  asked := (0, 0)
  credit0 := 0
  credit1 := 0
  replay := []
  input0 := []
  input1 := []
  out0 := []
  out1 := []
  quietPeer := false
  keeperSeen := 0
  offered := false

/-- Every link down, no address in force (Table 17-12). -/
def Fab.reset : Fab where
  addr := 0
  addrValid := false
  links := [Link.down 0, Link.down 1, Link.down 2, Link.down 3]
  sled := []
  ownSeq := 0
  flowSeed := List.replicate 16 0
  seeds := []
  flows := []
  nextMsg := 0
  inject := []
  outMsgs := []
  sources := []
  sets := []
  members := []
  heldWrites := []
  applied := []
  gwLive := []
  keepers := []
  offers := []
  inherited := none
  pulls := []
  copies := []

/-- No slot record copy is valid. -/
def Fw.reset : Fw where
  rec0 := none
  rec1 := none
  imageA := []
  imageB := []
  staging := none
  lastVerify := 0
  aRunnable := false
  bRunnable := false
  activating := none

/-- A control core that runs. -/
def Core_.reset (id : Nat) : Core_ where
  id := id
  halted := false
  cause := 0
  regs := []
  breaks := []
  watches := []

/-- The test access port with IDCODE selected, the debug port locked (R467, R469). -/
def Dbg.reset : Dbg where
  observeOk := true
  fullOk := true
  level := 0
  instr := 2
  challenge := none
  chalLevel := 0
  response := []
  pending := false
  fails := 0
  lockout := 0
  haltAll := false
  lastHalted := 0
  cores := (List.range 8).map Core_.reset
  lastAddr := 0
  capture := []
  cells := []
  pinDriven := false

/-- The whole device. -/
def State.reset : State where
  regs := []
  dev := Dev.reset
  cfg := Cfg.reset
  ports := []
  sessions := []
  authTimes := []
  cmd := Cmd.reset
  kv := Kv.reset
  cam := ⟨[], [], [], none⟩
  pat := ⟨[], 1, [], []⟩
  flash := Flash.reset
  srv := Srv.reset
  rdc := Rdc.reset
  cry := Cry.reset
  key := Key.reset
  sea := Sea.reset
  fab := Fab.reset
  fw := Fw.reset
  log := ⟨1, [], [], []⟩
  dbg := Dbg.reset
  mctp := ⟨0, false, false⟩
  latches := []
  sram := []
  dram := []
  free := 0
  out := []
  portQueue := []
  pending := []

end Sys2Proof.Machine
end

