-- ==== Sys2Proof/Machine/RegTable.lean ====
section
/-! DEFINITION. The register fields and event bits of every block page and instance page, one definition per
row of the spec's register tables (chapters 03 to 20). A Reset that the tables give in words ("fused value",
"system area", "strap", "slot record", "from the vault") stands as 0: log entry 4, DESIGN CHOICE. -/

namespace Sys2Proof.Machine

/-- Access codes (R18, R19). -/
inductive Access where
  | ro | rw | rwl | w1c | w1s | wo | rc
  deriving DecidableEq, Repr

/-- Retention classes (R21, Table 04-6). -/
inductive Retention where
  | k | w | l | c | a
  deriving DecidableEq, Repr

/-- The kind of page a register stands on: a block page, any instance page, a NET lane page (instances 2 to 9),
a cipher-core page (CRY 0 to 5) or a hash-core page (CRY 6 and 7). -/
inductive PageKind where
  | block | inst | lane | cipher | hash
  deriving DecidableEq, Repr

/-- One register field: `n` registers from offset `off` on, 4 bytes apart, have it. -/
structure Field where
  block  : Nat
  page   : PageKind
  off    : Nat
  n      : Nat
  lo     : Nat
  width  : Nat
  access : Access
  ret    : Retention
  reset  : Nat
  deriving DecidableEq, Repr

/-- One event bit of a page's EVT_STAT (R120). -/
structure Event where
  block : Nat
  inst  : Bool
  bit   : Nat
  deriving DecidableEq, Repr

/-! Table 03-11 -/

/-- Table 03-11, PWR_STATE STATE. -/
def Reg.PWR_STATE.STATE : Field := ⟨2, .block, 0x040, 1, 0, 4, .ro, .a, 0⟩
/-- Table 03-11, PWR_STATE TARGET. -/
def Reg.PWR_STATE.TARGET : Field := ⟨2, .block, 0x040, 1, 4, 4, .ro, .a, 0⟩
/-- Table 03-11, PWR_STATE ENTERING. -/
def Reg.PWR_STATE.ENTERING : Field := ⟨2, .block, 0x040, 1, 8, 1, .ro, .a, 0⟩
/-- Table 03-11, PWR_STATE SPINNING. -/
def Reg.PWR_STATE.SPINNING : Field := ⟨2, .block, 0x040, 1, 9, 1, .ro, .a, 0⟩
/-! Table 03-12 -/

/-- Table 03-12, PWR_CAP CAP. -/
def Reg.PWR_CAP.CAP : Field := ⟨2, .block, 0x044, 1, 0, 9, .rw, .c, 340⟩
/-- Table 03-12, PWR_CAP EFF_CAP. -/
def Reg.PWR_CAP.EFF_CAP : Field := ⟨2, .block, 0x044, 1, 16, 9, .ro, .a, 340⟩
/-- Table 03-12, PWR_CAP THROTTLE. -/
def Reg.PWR_CAP.THROTTLE : Field := ⟨2, .block, 0x044, 1, 28, 3, .ro, .a, 0⟩
/-! Table 03-13 -/

/-- Table 03-13, PWR_EST EST1. -/
def Reg.PWR_EST.EST1 : Field := ⟨2, .block, 0x048, 1, 0, 9, .ro, .a, 0⟩
/-- Table 03-13, PWR_EST EST100. -/
def Reg.PWR_EST.EST100 : Field := ⟨2, .block, 0x048, 1, 16, 9, .ro, .a, 0⟩
/-! Table 03-14 -/

/-- Table 03-14, PWR_TIMERS STANDBY_AFTER. -/
def Reg.PWR_TIMERS.STANDBY_AFTER : Field := ⟨2, .block, 0x04C, 1, 0, 16, .rw, .c, 0⟩
/-- Table 03-14, PWR_TIMERS SLEEP_AFTER. -/
def Reg.PWR_TIMERS.SLEEP_AFTER : Field := ⟨2, .block, 0x04C, 1, 16, 16, .rw, .c, 0⟩
/-! Table 03-15 -/

/-- Table 03-15, BAL_CFG0 RLOAD. -/
def Reg.BAL_CFG0.RLOAD : Field := ⟨2, .block, 0x050, 1, 0, 16, .rwl, .c, 0⟩
/-- Table 03-15, BAL_CFG0 DIV. -/
def Reg.BAL_CFG0.DIV : Field := ⟨2, .block, 0x050, 1, 16, 16, .rwl, .c, 0⟩
/-- Table 03-15, BAL_CFG1 VMIN. -/
def Reg.BAL_CFG1.VMIN : Field := ⟨2, .block, 0x054, 1, 0, 16, .rwl, .c, 0⟩
/-- Table 03-15, BAL_CFG1 EREQ. -/
def Reg.BAL_CFG1.EREQ : Field := ⟨2, .block, 0x054, 1, 16, 16, .rwl, .c, 0⟩
/-! Table 03-16 -/

/-- Table 03-16, BAL_STAT BAL_OK. -/
def Reg.BAL_STAT.BAL_OK : Field := ⟨2, .block, 0x058, 1, 0, 1, .ro, .a, 0⟩
/-- Table 03-16, BAL_STAT TESTED. -/
def Reg.BAL_STAT.TESTED : Field := ⟨2, .block, 0x058, 1, 1, 1, .ro, .a, 0⟩
/-- Table 03-16, BAL_STAT FAIL_REASON. -/
def Reg.BAL_STAT.FAIL_REASON : Field := ⟨2, .block, 0x058, 1, 2, 2, .ro, .a, 0⟩
/-- Table 03-16, BAL_STAT CAP. -/
def Reg.BAL_STAT.CAP : Field := ⟨2, .block, 0x058, 1, 16, 16, .ro, .a, 0⟩
/-- Table 03-16, BAL_MEAS E_AVAIL. -/
def Reg.BAL_MEAS.E_AVAIL : Field := ⟨2, .block, 0x05C, 1, 0, 16, .ro, .a, 0⟩
/-- Table 03-16, BAL_MEAS V_OK. -/
def Reg.BAL_MEAS.V_OK : Field := ⟨2, .block, 0x05C, 1, 16, 16, .ro, .a, 0⟩
/-- Table 03-16, BAL_NOW VHOLD. -/
def Reg.BAL_NOW.VHOLD : Field := ⟨2, .block, 0x060, 1, 0, 16, .ro, .a, 0⟩
/-- Table 03-16, BAL_NOW SNS_CODE. -/
def Reg.BAL_NOW.SNS_CODE : Field := ⟨2, .block, 0x060, 1, 16, 10, .ro, .a, 0⟩
/-! Table 03-17 -/

/-- Table 03-17, WAKE_SRC HOST_FRAME. -/
def Reg.WAKE_SRC.HOST_FRAME : Field := ⟨2, .block, 0x064, 1, 0, 1, .w1c, .l, 0⟩
/-- Table 03-17, WAKE_SRC FAB_FRAME. -/
def Reg.WAKE_SRC.FAB_FRAME : Field := ⟨2, .block, 0x064, 1, 1, 1, .w1c, .l, 0⟩
/-- Table 03-17, WAKE_SRC SMBUS. -/
def Reg.WAKE_SRC.SMBUS : Field := ⟨2, .block, 0x064, 1, 2, 1, .w1c, .l, 0⟩
/-- Table 03-17, WAKE_SRC WAKE_PIN. -/
def Reg.WAKE_SRC.WAKE_PIN : Field := ⟨2, .block, 0x064, 1, 3, 1, .w1c, .l, 0⟩
/-- Table 03-17, WAKE_SRC TIMER. -/
def Reg.WAKE_SRC.TIMER : Field := ⟨2, .block, 0x064, 1, 4, 1, .w1c, .l, 0⟩
/-- Table 03-17, WAKE_SRC PWRFAIL. -/
def Reg.WAKE_SRC.PWRFAIL : Field := ⟨2, .block, 0x064, 1, 5, 1, .w1c, .l, 0⟩
/-- Table 03-17, DOM_STAT DOM_ON. -/
def Reg.DOM_STAT.DOM_ON : Field := ⟨2, .block, 0x068, 7, 0, 32, .ro, .a, 0⟩
/-! Table 04-11 -/

/-- Table 04-11, START_REASON KIND. -/
def Reg.START_REASON.KIND : Field := ⟨1, .block, 0x040, 1, 0, 4, .ro, .k, 0⟩
/-- Table 04-11, START_REASON COLD. -/
def Reg.START_REASON.COLD : Field := ⟨1, .block, 0x040, 1, 4, 1, .ro, .k, 1⟩
/-- Table 04-11, START_REASON ALARM_SRC. -/
def Reg.START_REASON.ALARM_SRC : Field := ⟨1, .block, 0x040, 1, 5, 3, .ro, .k, 0⟩
/-- Table 04-11, START_REASON DETAIL. -/
def Reg.START_REASON.DETAIL : Field := ⟨1, .block, 0x040, 1, 8, 4, .ro, .k, 0⟩
/-- Table 04-11, START_COUNT STARTS. -/
def Reg.START_COUNT.STARTS : Field := ⟨1, .block, 0x044, 1, 0, 32, .ro, .k, 0⟩
/-! Table 04-12 -/

/-- Table 04-12, RST_CTRL KEY. -/
def Reg.RST_CTRL.KEY : Field := ⟨3, .block, 0x040, 1, 0, 16, .wo, .a, 0⟩
/-- Table 04-12, RST_CTRL CONTROLLER. -/
def Reg.RST_CTRL.CONTROLLER : Field := ⟨3, .block, 0x040, 1, 16, 1, .wo, .a, 0⟩
/-- Table 04-12, WDT_CFG WDT_PERIOD. -/
def Reg.WDT_CFG.WDT_PERIOD : Field := ⟨3, .block, 0x044, 1, 0, 16, .rwl, .c, 2000⟩
/-- Table 04-12, WDT_CFG WDT_EN. -/
def Reg.WDT_CFG.WDT_EN : Field := ⟨3, .block, 0x044, 1, 16, 1, .rwl, .c, 1⟩
/-! Table 04-13 -/

/-- Table 04-13, STALE_STAT ACTIVE. -/
def Reg.STALE_STAT.ACTIVE : Field := ⟨3, .block, 0x048, 1, 0, 1, .ro, .a, 0⟩
/-- Table 04-13, STALE_STAT REASON. -/
def Reg.STALE_STAT.REASON : Field := ⟨3, .block, 0x048, 1, 4, 4, .ro, .a, 0⟩
/-- Table 04-13, STALE_STAT STALE_DETAIL. -/
def Reg.STALE_STAT.STALE_DETAIL : Field := ⟨3, .block, 0x048, 1, 16, 16, .ro, .a, 0⟩
/-- Table 04-13, START_TIME SERVICE_MS. -/
def Reg.START_TIME.SERVICE_MS : Field := ⟨3, .block, 0x04C, 1, 0, 16, .ro, .a, 0⟩
/-- Table 04-13, START_TIME DISK_100MS. -/
def Reg.START_TIME.DISK_100MS : Field := ⟨3, .block, 0x04C, 1, 16, 16, .ro, .a, 0⟩
/-! Table 04-14 -/

/-- Table 04-14, CFG_STAT CURRENT. -/
def Reg.CFG_STAT.CURRENT : Field := ⟨3, .block, 0x050, 1, 0, 1, .ro, .a, 0⟩
/-- Table 04-14, CFG_STAT COPY0_VALID. -/
def Reg.CFG_STAT.COPY0_VALID : Field := ⟨3, .block, 0x050, 1, 1, 1, .ro, .a, 0⟩
/-- Table 04-14, CFG_STAT COPY1_VALID. -/
def Reg.CFG_STAT.COPY1_VALID : Field := ⟨3, .block, 0x050, 1, 2, 1, .ro, .a, 0⟩
/-- Table 04-14, CFG_STAT COMMIT_BUSY. -/
def Reg.CFG_STAT.COMMIT_BUSY : Field := ⟨3, .block, 0x050, 1, 3, 1, .ro, .a, 0⟩
/-- Table 04-14, CFG_GEN GENERATION. -/
def Reg.CFG_GEN.GENERATION : Field := ⟨3, .block, 0x054, 1, 0, 32, .ro, .a, 0⟩
/-! Table 05-7 -/

/-- Table 05-7, GLB_ID PART. -/
def Reg.GLB_ID.PART : Field := ⟨0, .block, 0x040, 1, 0, 16, .ro, .a, 26134⟩
/-- Table 05-7, GLB_ID STEPPING. -/
def Reg.GLB_ID.STEPPING : Field := ⟨0, .block, 0x040, 1, 16, 8, .ro, .a, 17⟩
/-- Table 05-7, GLB_IDCODE IDCODE. -/
def Reg.GLB_IDCODE.IDCODE : Field := ⟨0, .block, 0x044, 1, 0, 32, .ro, .a, 375481811⟩
/-- Table 05-7, SERIAL_LO WORD. -/
def Reg.SERIAL_LO.WORD : Field := ⟨0, .block, 0x05C, 1, 0, 32, .ro, .a, 0⟩
/-- Table 05-7, SERIAL_HI WORD. -/
def Reg.SERIAL_HI.WORD : Field := ⟨0, .block, 0x060, 1, 0, 32, .ro, .a, 0⟩
/-! Table 05-8 -/

/-- Table 05-8, COMPAT PINNED. -/
def Reg.COMPAT.PINNED : Field := ⟨0, .block, 0x048, 1, 0, 16, .rw, .c, 0⟩
/-- Table 05-8, COMPAT MAX_LEVEL. -/
def Reg.COMPAT.MAX_LEVEL : Field := ⟨0, .block, 0x048, 1, 16, 16, .ro, .a, 1⟩
/-- Table 05-8, COMPAT_NOW IN_FORCE. -/
def Reg.COMPAT_NOW.IN_FORCE : Field := ⟨0, .block, 0x04C, 1, 0, 16, .ro, .a, 1⟩
/-- Table 05-8, PROFILE STRAP. -/
def Reg.PROFILE.STRAP : Field := ⟨0, .block, 0x050, 1, 0, 2, .ro, .a, 0⟩
/-- Table 05-8, PROFILE IN_FORCE. -/
def Reg.PROFILE.IN_FORCE : Field := ⟨0, .block, 0x050, 1, 2, 2, .ro, .a, 0⟩
/-- Table 05-8, PROFILE SLOT. -/
def Reg.PROFILE.SLOT : Field := ⟨0, .block, 0x050, 1, 8, 4, .ro, .a, 0⟩
/-! Table 05-9 -/

/-- Table 05-9, EVT_BLOCKS PENDING. -/
def Reg.EVT_BLOCKS.PENDING : Field := ⟨0, .block, 0x054, 1, 0, 21, .ro, .a, 0⟩
/-- Table 05-9, ALERT_CFG ALERT_EN. -/
def Reg.ALERT_CFG.ALERT_EN : Field := ⟨0, .block, 0x058, 1, 0, 1, .rw, .c, 1⟩
/-! Table 06-8 -/

/-- Table 06-8, NET_PORTMODE QUAD0. -/
def Reg.NET_PORTMODE.QUAD0 : Field := ⟨4, .block, 0x040, 1, 0, 4, .rwl, .c, 1⟩
/-- Table 06-8, NET_PORTMODE QUAD1. -/
def Reg.NET_PORTMODE.QUAD1 : Field := ⟨4, .block, 0x040, 1, 4, 4, .rwl, .c, 0⟩
/-- Table 06-8, NET_PORTMODE AN_EN. -/
def Reg.NET_PORTMODE.AN_EN : Field := ⟨4, .block, 0x040, 1, 8, 1, .rwl, .c, 1⟩
/-- Table 06-8, NET_PORTMODE EEE_EN. -/
def Reg.NET_PORTMODE.EEE_EN : Field := ⟨4, .block, 0x040, 1, 9, 1, .rwl, .c, 1⟩
/-- Table 06-8, NET_PORTMODE PAUSE_EN. -/
def Reg.NET_PORTMODE.PAUSE_EN : Field := ⟨4, .block, 0x040, 1, 10, 1, .rwl, .c, 1⟩
/-- Table 06-8, NET_PORTMODE CR_MEDIA. -/
def Reg.NET_PORTMODE.CR_MEDIA : Field := ⟨4, .block, 0x040, 1, 11, 1, .rwl, .c, 0⟩
/-- Table 06-8, NET_UDP SKP_PORT. -/
def Reg.NET_UDP.SKP_PORT : Field := ⟨4, .block, 0x044, 1, 0, 16, .rwl, .c, 45801⟩
/-- Table 06-8, NET_UDP DSCP. -/
def Reg.NET_UDP.DSCP : Field := ⟨4, .block, 0x044, 1, 16, 6, .rw, .c, 0⟩
/-! Table 06-9 -/

/-- Table 06-9, NET_IPV4 IPV4. -/
def Reg.NET_IPV4.IPV4 : Field := ⟨4, .block, 0x048, 1, 0, 32, .rwl, .c, 0⟩
/-- Table 06-9, NET_IPV6 IPV6. -/
def Reg.NET_IPV6.IPV6 : Field := ⟨4, .block, 0x04C, 4, 0, 32, .rwl, .c, 0⟩
/-- Table 06-9, NET_FAB FAB_ETHERTYPE. -/
def Reg.NET_FAB.FAB_ETHERTYPE : Field := ⟨4, .block, 0x05C, 1, 0, 16, .rwl, .c, 34997⟩
/-- Table 06-9, NET_FAB GATEWAY_EN. -/
def Reg.NET_FAB.GATEWAY_EN : Field := ⟨4, .block, 0x05C, 1, 16, 1, .rwl, .c, 0⟩
/-- Table 06-9, NET_VLAN VID. -/
def Reg.NET_VLAN.VID : Field := ⟨4, .block, 0x060, 1, 0, 12, .rwl, .c, 0⟩
/-- Table 06-9, NET_VLAN VLAN_TAGGED. -/
def Reg.NET_VLAN.VLAN_TAGGED : Field := ⟨4, .block, 0x060, 1, 12, 1, .rwl, .c, 0⟩
/-- Table 06-9, NET_MAC_LO MAC_LO. -/
def Reg.NET_MAC_LO.MAC_LO : Field := ⟨4, .block, 0x064, 1, 0, 32, .ro, .a, 0⟩
/-- Table 06-9, NET_MAC_HI MAC_HI. -/
def Reg.NET_MAC_HI.MAC_HI : Field := ⟨4, .block, 0x068, 1, 0, 16, .ro, .a, 0⟩
/-! Table 06-10 -/

/-- Table 06-10, LANE_STAT LINK_UP. -/
def Reg.LANE_STAT.LINK_UP : Field := ⟨4, .lane, 0x040, 1, 0, 1, .ro, .a, 0⟩
/-- Table 06-10, LANE_STAT SPEED. -/
def Reg.LANE_STAT.SPEED : Field := ⟨4, .lane, 0x040, 1, 1, 3, .ro, .a, 0⟩
/-- Table 06-10, LANE_STAT LPI. -/
def Reg.LANE_STAT.LPI : Field := ⟨4, .lane, 0x040, 1, 4, 1, .ro, .a, 0⟩
/-- Table 06-10, LANE_STAT AN_DONE. -/
def Reg.LANE_STAT.AN_DONE : Field := ⟨4, .lane, 0x040, 1, 5, 1, .ro, .a, 0⟩
/-- Table 06-10, LANE_STAT PORT. -/
def Reg.LANE_STAT.PORT : Field := ⟨4, .lane, 0x040, 1, 6, 3, .ro, .a, 0⟩
/-- Table 06-10, LANE_STAT IN_PORT. -/
def Reg.LANE_STAT.IN_PORT : Field := ⟨4, .lane, 0x040, 1, 9, 1, .ro, .a, 0⟩
/-- Table 06-10, FEC_CORR CORRECTED. -/
def Reg.FEC_CORR.CORRECTED : Field := ⟨4, .lane, 0x044, 1, 0, 32, .rc, .l, 0⟩
/-- Table 06-10, FEC_UNCORR UNCORRECTED. -/
def Reg.FEC_UNCORR.UNCORRECTED : Field := ⟨4, .lane, 0x048, 1, 0, 32, .rc, .l, 0⟩
/-! Table 06-12 -/

/-- Table 06-12, SKP_CFG SESSION_IDLE. -/
def Reg.SKP_CFG.SESSION_IDLE : Field := ⟨5, .block, 0x040, 1, 0, 16, .rw, .c, 300⟩
/-- Table 06-12, SKP_CFG HALF_OPEN_MAX. -/
def Reg.SKP_CFG.HALF_OPEN_MAX : Field := ⟨5, .block, 0x040, 1, 16, 9, .rw, .c, 256⟩
/-- Table 06-12, SKP_CFG SMALL_MTU_OK. -/
def Reg.SKP_CFG.SMALL_MTU_OK : Field := ⟨5, .block, 0x040, 1, 25, 1, .rw, .c, 1⟩
/-- Table 06-12, SKP_STAT OPEN. -/
def Reg.SKP_STAT.OPEN : Field := ⟨5, .block, 0x044, 1, 0, 13, .ro, .a, 0⟩
/-- Table 06-12, SKP_STAT HALF_OPEN. -/
def Reg.SKP_STAT.HALF_OPEN : Field := ⟨5, .block, 0x044, 1, 16, 9, .ro, .a, 0⟩
/-! Table 06-13 -/

/-- Table 06-13, SKP AUTH_FAIL. -/
def Reg.SKP.AUTH_FAIL : Field := ⟨5, .block, 0x048, 1, 0, 32, .rc, .l, 0⟩
/-- Table 06-13, SKP REPLAY_DROP. -/
def Reg.SKP.REPLAY_DROP : Field := ⟨5, .block, 0x04C, 1, 0, 32, .rc, .l, 0⟩
/-- Table 06-13, SKP CREDIT_DROP. -/
def Reg.SKP.CREDIT_DROP : Field := ⟨5, .block, 0x050, 1, 0, 32, .rc, .l, 0⟩
/-- Table 06-13, SKP RETX. -/
def Reg.SKP.RETX : Field := ⟨5, .block, 0x054, 1, 0, 32, .rc, .l, 0⟩
/-! Table 07-8 -/

/-- Table 07-8, CMD_STAT TAGS_LIVE. -/
def Reg.CMD_STAT.TAGS_LIVE : Field := ⟨6, .block, 0x040, 1, 0, 17, .ro, .a, 0⟩
/-- Table 07-8, CMD_STAT ADMIT_PAUSED. -/
def Reg.CMD_STAT.ADMIT_PAUSED : Field := ⟨6, .block, 0x040, 1, 17, 1, .ro, .a, 0⟩
/-- Table 07-8, CMD_QUEUE QUEUED. -/
def Reg.CMD_QUEUE.QUEUED : Field := ⟨6, .block, 0x044, 1, 0, 15, .ro, .a, 0⟩
/-- Table 07-8, CMD_QUEUE UPLOADS. -/
def Reg.CMD_QUEUE.UPLOADS : Field := ⟨6, .block, 0x044, 1, 15, 11, .ro, .a, 0⟩
/-! Table 07-9 -/

/-- Table 07-9, CMD_ADMIT_LO ADMITTED_LO. -/
def Reg.CMD_ADMIT_LO.ADMITTED_LO : Field := ⟨6, .block, 0x048, 1, 0, 32, .ro, .l, 0⟩
/-- Table 07-9, CMD_ADMIT_HI ADMITTED_HI. -/
def Reg.CMD_ADMIT_HI.ADMITTED_HI : Field := ⟨6, .block, 0x04C, 1, 0, 32, .ro, .l, 0⟩
/-! Table 07-10 -/

/-- Table 07-10, CMD_REFUSED BUSY. -/
def Reg.CMD_REFUSED.BUSY : Field := ⟨6, .block, 0x050, 1, 0, 16, .rc, .l, 0⟩
/-- Table 07-10, CMD_REFUSED STAMP. -/
def Reg.CMD_REFUSED.STAMP : Field := ⟨6, .block, 0x050, 1, 16, 16, .rc, .l, 0⟩
/-- Table 07-10, CMD_ABORTS ABORTED. -/
def Reg.CMD_ABORTS.ABORTED : Field := ⟨6, .block, 0x054, 1, 0, 16, .rc, .l, 0⟩
/-- Table 07-10, CMD_ABORTS TOO_LATE. -/
def Reg.CMD_ABORTS.TOO_LATE : Field := ⟨6, .block, 0x054, 1, 16, 16, .rc, .l, 0⟩
/-! Table 07-11 -/

/-- Table 07-11, CMD_CFG UPLOAD_IDLE. -/
def Reg.CMD_CFG.UPLOAD_IDLE : Field := ⟨6, .block, 0x058, 1, 0, 16, .rw, .c, 30⟩
/-! Table 08-11 -/

/-- Table 08-11, DIR_CFG RESEED_PCT. -/
def Reg.DIR_CFG.RESEED_PCT : Field := ⟨7, .block, 0x040, 1, 0, 8, .rw, .c, 25⟩
/-- Table 08-11, DIR_CFG SAVE_MIN. -/
def Reg.DIR_CFG.SAVE_MIN : Field := ⟨7, .block, 0x040, 1, 16, 11, .rw, .c, 60⟩
/-- Table 08-11, DIR_TIER DEMOTE_DAYS. -/
def Reg.DIR_TIER.DEMOTE_DAYS : Field := ⟨7, .block, 0x044, 1, 0, 4, .rw, .c, 7⟩
/-- Table 08-11, DIR_TIER RECALL_EN. -/
def Reg.DIR_TIER.RECALL_EN : Field := ⟨7, .block, 0x044, 1, 4, 1, .rw, .c, 1⟩
/-- Table 08-11, DIR_CACHE CACHE_MIB. -/
def Reg.DIR_CACHE.CACHE_MIB : Field := ⟨7, .block, 0x048, 1, 0, 13, .rwl, .c, 512⟩
/-! Table 08-12 -/

/-- Table 08-12, DIR_STAT STATE. -/
def Reg.DIR_STAT.STATE : Field := ⟨7, .block, 0x04C, 1, 0, 2, .ro, .a, 0⟩
/-- Table 08-12, DIR_STAT SEALED_START. -/
def Reg.DIR_STAT.SEALED_START : Field := ⟨7, .block, 0x04C, 1, 2, 1, .ro, .a, 0⟩
/-- Table 08-12, DIR_STAT SRAM_KEPT. -/
def Reg.DIR_STAT.SRAM_KEPT : Field := ⟨7, .block, 0x04C, 1, 3, 1, .ro, .a, 0⟩
/-- Table 08-12, DIR_STAT REBUILD_PCT. -/
def Reg.DIR_STAT.REBUILD_PCT : Field := ⟨7, .block, 0x04C, 1, 16, 7, .ro, .a, 0⟩
/-- Table 08-12, DIR_SEED SEED_CHECK. -/
def Reg.DIR_SEED.SEED_CHECK : Field := ⟨7, .block, 0x050, 1, 0, 32, .ro, .a, 0⟩
/-! Table 08-13 -/

/-- Table 08-13, DIR DIRECT_HITS. -/
def Reg.DIR.DIRECT_HITS : Field := ⟨7, .block, 0x054, 1, 0, 32, .rc, .l, 0⟩
/-- Table 08-13, DIR TOMB_HITS. -/
def Reg.DIR.TOMB_HITS : Field := ⟨7, .block, 0x058, 1, 0, 32, .rc, .l, 0⟩
/-- Table 08-13, DIR HEADER_ABSENT. -/
def Reg.DIR.HEADER_ABSENT : Field := ⟨7, .block, 0x05C, 1, 0, 32, .rc, .l, 0⟩
/-- Table 08-13, DIR LEAF_PATH. -/
def Reg.DIR.LEAF_PATH : Field := ⟨7, .block, 0x060, 1, 0, 32, .rc, .l, 0⟩
/-- Table 08-13, DIR REPLACED. -/
def Reg.DIR.REPLACED : Field := ⟨7, .block, 0x064, 1, 0, 32, .rc, .l, 0⟩
/-- Table 08-13, DIR CACHE_HITS. -/
def Reg.DIR.CACHE_HITS : Field := ⟨7, .block, 0x068, 1, 0, 32, .rc, .l, 0⟩
/-! Table 08-14 -/

/-- Table 08-14, DIR_KEYS_LO KEYS_LO. -/
def Reg.DIR_KEYS_LO.KEYS_LO : Field := ⟨7, .block, 0x06C, 1, 0, 32, .ro, .a, 0⟩
/-- Table 08-14, DIR_KEYS_HI KEYS_HI. -/
def Reg.DIR_KEYS_HI.KEYS_HI : Field := ⟨7, .block, 0x070, 1, 0, 32, .ro, .a, 0⟩
/-- Table 08-14, DIR_EXTENTS EXTENTS. -/
def Reg.DIR_EXTENTS.EXTENTS : Field := ⟨7, .block, 0x074, 1, 0, 30, .ro, .a, 0⟩
/-- Table 08-14, DIR_LEAVES LEAVES. -/
def Reg.DIR_LEAVES.LEAVES : Field := ⟨7, .block, 0x078, 1, 0, 27, .ro, .a, 0⟩
/-! Table 09-6 -/

/-- Table 09-6, CAM_TBLR FIRST_TILE. -/
def Reg.CAM_TBLR.FIRST_TILE : Field := ⟨8, .block, 0x040, 8, 0, 5, .ro, .a, 0⟩
/-- Table 09-6, CAM_TBL FIRST_TILE. -/
def Reg.CAM_TBL.FIRST_TILE : Field := ⟨8, .block, 0x060, 8, 0, 5, .rwl, .c, 0⟩
/-- Table 09-6, CAM_TBLR TILES. -/
def Reg.CAM_TBLR.TILES : Field := ⟨8, .block, 0x040, 8, 5, 6, .ro, .a, 0⟩
/-- Table 09-6, CAM_TBL TILES. -/
def Reg.CAM_TBL.TILES : Field := ⟨8, .block, 0x060, 8, 5, 6, .rwl, .c, 0⟩
/-- Table 09-6, CAM_TBLR WIDTH. -/
def Reg.CAM_TBLR.WIDTH : Field := ⟨8, .block, 0x040, 8, 11, 2, .ro, .a, 0⟩
/-- Table 09-6, CAM_TBL WIDTH. -/
def Reg.CAM_TBL.WIDTH : Field := ⟨8, .block, 0x060, 8, 11, 2, .rwl, .c, 0⟩
/-- Table 09-6, CAM_TBLR SEL_LSB. -/
def Reg.CAM_TBLR.SEL_LSB : Field := ⟨8, .block, 0x040, 8, 14, 10, .ro, .a, 0⟩
/-- Table 09-6, CAM_TBL SEL_LSB. -/
def Reg.CAM_TBL.SEL_LSB : Field := ⟨8, .block, 0x060, 8, 14, 10, .rwl, .c, 0⟩
/-- Table 09-6, CAM_TBLR SEL_BITS. -/
def Reg.CAM_TBLR.SEL_BITS : Field := ⟨8, .block, 0x040, 8, 24, 3, .ro, .a, 0⟩
/-- Table 09-6, CAM_TBL SEL_BITS. -/
def Reg.CAM_TBL.SEL_BITS : Field := ⟨8, .block, 0x060, 8, 24, 3, .rwl, .c, 0⟩
/-! Table 09-7 -/

/-- Table 09-7, CAM_MOVE TABLE. -/
def Reg.CAM_MOVE.TABLE : Field := ⟨8, .block, 0x080, 1, 0, 4, .ro, .a, 0⟩
/-- Table 09-7, CAM_MOVE ACTIVE. -/
def Reg.CAM_MOVE.ACTIVE : Field := ⟨8, .block, 0x080, 1, 4, 1, .ro, .a, 0⟩
/-- Table 09-7, CAM_MOVE CURSOR. -/
def Reg.CAM_MOVE.CURSOR : Field := ⟨8, .block, 0x080, 1, 13, 19, .ro, .a, 0⟩
/-- Table 09-7, CAM_SCRUB PARITY_ERRS. -/
def Reg.CAM_SCRUB.PARITY_ERRS : Field := ⟨8, .block, 0x084, 1, 0, 16, .rc, .l, 0⟩
/-! Table 09-8 -/

/-- Table 09-8, TILE_STAT TABLE. -/
def Reg.TILE_STAT.TABLE : Field := ⟨8, .inst, 0x040, 1, 0, 5, .ro, .a, 31⟩
/-- Table 09-8, TILE_STAT WIDTH. -/
def Reg.TILE_STAT.WIDTH : Field := ⟨8, .inst, 0x040, 1, 5, 2, .ro, .a, 0⟩
/-- Table 09-8, TILE_STAT RETAINED. -/
def Reg.TILE_STAT.RETAINED : Field := ⟨8, .inst, 0x040, 1, 7, 1, .ro, .a, 0⟩
/-- Table 09-8, TILE_STAT NET_CLOCK. -/
def Reg.TILE_STAT.NET_CLOCK : Field := ⟨8, .inst, 0x040, 1, 8, 1, .ro, .a, 0⟩
/-- Table 09-8, TILE_STAT VALID. -/
def Reg.TILE_STAT.VALID : Field := ⟨8, .inst, 0x040, 1, 9, 15, .ro, .a, 0⟩
/-- Table 09-8, SEARCHES_LO WORD. -/
def Reg.SEARCHES_LO.WORD : Field := ⟨8, .inst, 0x044, 1, 0, 32, .ro, .l, 0⟩
/-- Table 09-8, SEARCHES_HI WORD. -/
def Reg.SEARCHES_HI.WORD : Field := ⟨8, .inst, 0x048, 1, 0, 32, .ro, .l, 0⟩
/-! Table 10-6 -/

/-- Table 10-6, PAT_CFG SCAN_LANES. -/
def Reg.PAT_CFG.SCAN_LANES : Field := ⟨9, .block, 0x040, 1, 0, 5, .rw, .c, 12⟩
/-- Table 10-6, PAT_CFG WATCH_LANES. -/
def Reg.PAT_CFG.WATCH_LANES : Field := ⟨9, .block, 0x040, 1, 8, 4, .rw, .c, 2⟩
/-- Table 10-6, PAT_STORE USED. -/
def Reg.PAT_STORE.USED : Field := ⟨9, .block, 0x044, 1, 0, 13, .ro, .a, 0⟩
/-- Table 10-6, PAT_STORE IMAGES. -/
def Reg.PAT_STORE.IMAGES : Field := ⟨9, .block, 0x044, 1, 16, 8, .ro, .a, 0⟩
/-- Table 10-6, PAT_WATCH ARMED. -/
def Reg.PAT_WATCH.ARMED : Field := ⟨9, .block, 0x048, 1, 0, 13, .ro, .a, 0⟩
/-- Table 10-6, PAT_WSTATES STATES. -/
def Reg.PAT_WSTATES.STATES : Field := ⟨9, .block, 0x04C, 1, 0, 21, .ro, .a, 0⟩
/-! Table 10-7 -/

/-- Table 10-7, PAT SUBJECTS. -/
def Reg.PAT.SUBJECTS : Field := ⟨9, .block, 0x050, 1, 0, 32, .rc, .l, 0⟩
/-- Table 10-7, PAT DROPPED. -/
def Reg.PAT.DROPPED : Field := ⟨9, .block, 0x054, 1, 0, 32, .rc, .l, 0⟩
/-- Table 10-7, PAT EVENTS. -/
def Reg.PAT.EVENTS : Field := ⟨9, .block, 0x058, 1, 0, 32, .rc, .l, 0⟩
/-- Table 10-7, PAT EVENTS_LOST. -/
def Reg.PAT.EVENTS_LOST : Field := ⟨9, .block, 0x05C, 1, 0, 32, .rc, .l, 0⟩
/-! Table 10-8 -/

/-- Table 10-8, PAT_LANE_STAT BUSY. -/
def Reg.PAT_LANE_STAT.BUSY : Field := ⟨9, .inst, 0x040, 1, 0, 1, .ro, .a, 0⟩
/-- Table 10-8, PAT_LANE_STAT JOB. -/
def Reg.PAT_LANE_STAT.JOB : Field := ⟨9, .inst, 0x040, 1, 1, 2, .ro, .a, 0⟩
/-- Table 10-8, PAT_LANE_STAT IMAGE. -/
def Reg.PAT_LANE_STAT.IMAGE : Field := ⟨9, .inst, 0x040, 1, 3, 8, .ro, .a, 0⟩
/-- Table 10-8, LANE_BYTES_LO BYTES_LO. -/
def Reg.LANE_BYTES_LO.BYTES_LO : Field := ⟨9, .inst, 0x044, 1, 0, 32, .ro, .l, 0⟩
/-- Table 10-8, LANE_BYTES_HI BYTES_HI. -/
def Reg.LANE_BYTES_HI.BYTES_HI : Field := ⟨9, .inst, 0x048, 1, 0, 32, .ro, .l, 0⟩
/-! Table 11-9 -/

/-- Table 11-9, FLT_STATE TIER_STATE. -/
def Reg.FLT_STATE.TIER_STATE : Field := ⟨10, .block, 0x040, 1, 0, 2, .ro, .a, 0⟩
/-- Table 11-9, FLT_STATE CELL. -/
def Reg.FLT_STATE.CELL : Field := ⟨10, .block, 0x040, 1, 2, 2, .ro, .a, 0⟩
/-- Table 11-9, FLT_STATE PARITY. -/
def Reg.FLT_STATE.PARITY : Field := ⟨10, .block, 0x040, 1, 4, 1, .ro, .a, 0⟩
/-- Table 11-9, FLT_STATE GC_MANDATORY. -/
def Reg.FLT_STATE.GC_MANDATORY : Field := ⟨10, .block, 0x040, 1, 5, 1, .ro, .a, 0⟩
/-- Table 11-9, FLT_STATE DEMOTING. -/
def Reg.FLT_STATE.DEMOTING : Field := ⟨10, .block, 0x040, 1, 6, 1, .ro, .a, 0⟩
/-- Table 11-9, FLT_STATE CH_COUNT. -/
def Reg.FLT_STATE.CH_COUNT : Field := ⟨10, .block, 0x040, 1, 8, 6, .ro, .a, 0⟩
/-- Table 11-9, FLT_CHAN IN_SERVICE. -/
def Reg.FLT_CHAN.IN_SERVICE : Field := ⟨10, .block, 0x044, 1, 0, 32, .ro, .a, 0⟩
/-! Table 11-10 -/

/-- Table 11-10, FLT RAW_UNITS. -/
def Reg.FLT.RAW_UNITS : Field := ⟨10, .block, 0x048, 1, 0, 32, .ro, .a, 0⟩
/-- Table 11-10, FLT LOGICAL_UNITS. -/
def Reg.FLT.LOGICAL_UNITS : Field := ⟨10, .block, 0x04C, 1, 0, 32, .ro, .a, 0⟩
/-- Table 11-10, FLT MAPPED_UNITS. -/
def Reg.FLT.MAPPED_UNITS : Field := ⟨10, .block, 0x050, 1, 0, 32, .ro, .a, 0⟩
/-- Table 11-10, FLT SLC_TARGET. -/
def Reg.FLT.SLC_TARGET : Field := ⟨10, .block, 0x054, 1, 0, 32, .ro, .a, 0⟩
/-- Table 11-10, FLT SLC_HELD. -/
def Reg.FLT.SLC_HELD : Field := ⟨10, .block, 0x058, 1, 0, 32, .ro, .a, 0⟩
/-- Table 11-10, FLT SPARE_INIT. -/
def Reg.FLT.SPARE_INIT : Field := ⟨10, .block, 0x05C, 1, 0, 24, .ro, .a, 0⟩
/-! Table 11-11 -/

/-- Table 11-11, FLT_SPARE SPARE_NOW. -/
def Reg.FLT_SPARE.SPARE_NOW : Field := ⟨10, .block, 0x060, 1, 0, 24, .ro, .a, 0⟩
/-- Table 11-11, FLT_SPARE SPARE_PCT. -/
def Reg.FLT_SPARE.SPARE_PCT : Field := ⟨10, .block, 0x060, 1, 24, 8, .ro, .a, 0⟩
/-- Table 11-11, FLT_WEAR0 EC_MIN. -/
def Reg.FLT_WEAR0.EC_MIN : Field := ⟨10, .block, 0x064, 1, 0, 16, .ro, .a, 0⟩
/-- Table 11-11, FLT_WEAR0 EC_MAX. -/
def Reg.FLT_WEAR0.EC_MAX : Field := ⟨10, .block, 0x064, 1, 16, 16, .ro, .a, 0⟩
/-- Table 11-11, FLT_WEAR1 EC_MEAN. -/
def Reg.FLT_WEAR1.EC_MEAN : Field := ⟨10, .block, 0x068, 1, 0, 16, .ro, .a, 0⟩
/-- Table 11-11, FLT_WEAR1 WEAR_PCT. -/
def Reg.FLT_WEAR1.WEAR_PCT : Field := ⟨10, .block, 0x068, 1, 16, 8, .ro, .a, 0⟩
/-! Table 11-12 -/

/-- Table 11-12, FLT_CFG0 SPREAD_LIMIT. -/
def Reg.FLT_CFG0.SPREAD_LIMIT : Field := ⟨10, .block, 0x06C, 1, 0, 16, .rw, .c, 500⟩
/-- Table 11-12, FLT_CFG0 PROMOTE_PCT. -/
def Reg.FLT_CFG0.PROMOTE_PCT : Field := ⟨10, .block, 0x06C, 1, 16, 8, .rw, .c, 50⟩
/-- Table 11-12, FLT_CFG0 PATROL_DAYS. -/
def Reg.FLT_CFG0.PATROL_DAYS : Field := ⟨10, .block, 0x06C, 1, 24, 8, .rw, .c, 30⟩
/-- Table 11-12, FLT_CFG1 GC_START_PM. -/
def Reg.FLT_CFG1.GC_START_PM : Field := ⟨10, .block, 0x070, 1, 0, 8, .rw, .c, 20⟩
/-- Table 11-12, FLT_CFG1 DEMOTE_FORCE_PCT. -/
def Reg.FLT_CFG1.DEMOTE_FORCE_PCT : Field := ⟨10, .block, 0x070, 1, 8, 8, .rw, .c, 95⟩
/-- Table 11-12, FLT_CFG1 READ_LIMIT_K. -/
def Reg.FLT_CFG1.READ_LIMIT_K : Field := ⟨10, .block, 0x070, 1, 16, 16, .rw, .c, 0⟩
/-! Table 11-13 -/

/-- Table 11-13, FLT GC_UNITS. -/
def Reg.FLT.GC_UNITS : Field := ⟨10, .block, 0x074, 1, 0, 32, .rc, .l, 0⟩
/-- Table 11-13, FLT PROMOTED. -/
def Reg.FLT.PROMOTED : Field := ⟨10, .block, 0x078, 1, 0, 32, .rc, .l, 0⟩
/-- Table 11-13, FLT REFRESHED. -/
def Reg.FLT.REFRESHED : Field := ⟨10, .block, 0x07C, 1, 0, 32, .rc, .l, 0⟩
/-- Table 11-13, FLT UNCORR_READS. -/
def Reg.FLT.UNCORR_READS : Field := ⟨10, .block, 0x080, 1, 0, 32, .rc, .l, 0⟩
/-- Table 11-13, FLT REBUILDS. -/
def Reg.FLT.REBUILDS : Field := ⟨10, .block, 0x084, 1, 0, 32, .rc, .l, 0⟩
/-- Table 11-13, FLT HOST_UNITS_LO. -/
def Reg.FLT.HOST_UNITS_LO : Field := ⟨10, .block, 0x088, 1, 0, 32, .ro, .l, 0⟩
/-- Table 11-13, FLT HOST_UNITS_HI. -/
def Reg.FLT.HOST_UNITS_HI : Field := ⟨10, .block, 0x08C, 1, 0, 32, .ro, .l, 0⟩
/-- Table 11-13, FLT NAND_UNITS_LO. -/
def Reg.FLT.NAND_UNITS_LO : Field := ⟨10, .block, 0x090, 1, 0, 32, .ro, .l, 0⟩
/-- Table 11-13, FLT NAND_UNITS_HI. -/
def Reg.FLT.NAND_UNITS_HI : Field := ⟨10, .block, 0x094, 1, 0, 32, .ro, .l, 0⟩
/-- Table 11-13, FLT RETIRED. -/
def Reg.FLT.RETIRED : Field := ⟨10, .block, 0x098, 1, 0, 32, .ro, .a, 0⟩
/-! Table 11-14 -/

/-- Table 11-14, FLT_CH_STAT IN_SERVICE. -/
def Reg.FLT_CH_STAT.IN_SERVICE : Field := ⟨10, .inst, 0x040, 1, 0, 1, .ro, .a, 0⟩
/-- Table 11-14, FLT_CH_STAT TRAINED. -/
def Reg.FLT_CH_STAT.TRAINED : Field := ⟨10, .inst, 0x040, 1, 1, 1, .ro, .a, 0⟩
/-- Table 11-14, FLT_CH_STAT IFACE. -/
def Reg.FLT_CH_STAT.IFACE : Field := ⟨10, .inst, 0x040, 1, 2, 2, .ro, .a, 0⟩
/-- Table 11-14, FLT_CH_STAT RATE. -/
def Reg.FLT_CH_STAT.RATE : Field := ⟨10, .inst, 0x040, 1, 4, 12, .ro, .a, 0⟩
/-- Table 11-14, FLT_CH_STAT DIES. -/
def Reg.FLT_CH_STAT.DIES : Field := ⟨10, .inst, 0x040, 1, 16, 5, .ro, .a, 0⟩
/-- Table 11-14, CH_CORR CORRECTED. -/
def Reg.CH_CORR.CORRECTED : Field := ⟨10, .inst, 0x044, 1, 0, 32, .rc, .l, 0⟩
/-- Table 11-14, CH_RETRY RETRIED. -/
def Reg.CH_RETRY.RETRIED : Field := ⟨10, .inst, 0x048, 1, 0, 32, .rc, .l, 0⟩
/-- Table 11-14, CH_FAIL PROG_FAILS. -/
def Reg.CH_FAIL.PROG_FAILS : Field := ⟨10, .inst, 0x04C, 1, 0, 16, .rc, .l, 0⟩
/-- Table 11-14, CH_FAIL ERASE_FAILS. -/
def Reg.CH_FAIL.ERASE_FAILS : Field := ⟨10, .inst, 0x04C, 1, 16, 16, .rc, .l, 0⟩
/-! Table 12-10 -/

/-- Table 12-10, SRV_STATE DISK_STATE. -/
def Reg.SRV_STATE.DISK_STATE : Field := ⟨11, .block, 0x040, 1, 0, 3, .ro, .a, 0⟩
/-- Table 12-10, SRV_STATE WRITE_READY. -/
def Reg.SRV_STATE.WRITE_READY : Field := ⟨11, .block, 0x040, 1, 3, 1, .ro, .a, 0⟩
/-- Table 12-10, SRV_STATE FULL_CAL. -/
def Reg.SRV_STATE.FULL_CAL : Field := ⟨11, .block, 0x040, 1, 4, 1, .ro, .a, 0⟩
/-- Table 12-10, SRV_STATE HEADS_FOUND. -/
def Reg.SRV_STATE.HEADS_FOUND : Field := ⟨11, .block, 0x040, 1, 8, 5, .ro, .a, 0⟩
/-- Table 12-10, SRV_STATE HEADS_IN_SERVICE. -/
def Reg.SRV_STATE.HEADS_IN_SERVICE : Field := ⟨11, .block, 0x040, 1, 16, 5, .ro, .a, 0⟩
/-- Table 12-10, SRV_STATE SPINUP_TRIES. -/
def Reg.SRV_STATE.SPINUP_TRIES : Field := ⟨11, .block, 0x040, 1, 21, 2, .ro, .a, 0⟩
/-- Table 12-10, SRV_SPEED PERIOD_NS. -/
def Reg.SRV_SPEED.PERIOD_NS : Field := ⟨11, .block, 0x044, 1, 0, 24, .ro, .a, 0⟩
/-! Table 12-11 -/

/-- Table 12-11, SRV_HEADS IN_SERVICE. -/
def Reg.SRV_HEADS.IN_SERVICE : Field := ⟨11, .block, 0x048, 1, 0, 22, .ro, .a, 0⟩
/-- Table 12-11, SRV_PART PARTICIPATING. -/
def Reg.SRV_PART.PARTICIPATING : Field := ⟨11, .block, 0x04C, 1, 0, 22, .ro, .a, 0⟩
/-- Table 12-11, SRV_INHIBIT WRITE_INHIBIT. -/
def Reg.SRV_INHIBIT.WRITE_INHIBIT : Field := ⟨11, .block, 0x050, 1, 0, 22, .ro, .a, 0⟩
/-! Table 12-12 -/

/-- Table 12-12, SRV_CFG0 WRITE_LIMIT. -/
def Reg.SRV_CFG0.WRITE_LIMIT : Field := ⟨11, .block, 0x054, 1, 0, 10, .rwl, .c, 123⟩
/-- Table 12-12, SRV_CFG0 SETTLE_WR. -/
def Reg.SRV_CFG0.SETTLE_WR : Field := ⟨11, .block, 0x054, 1, 10, 10, .rwl, .c, 82⟩
/-- Table 12-12, SRV_CFG0 SETTLE_RD. -/
def Reg.SRV_CFG0.SETTLE_RD : Field := ⟨11, .block, 0x054, 1, 20, 10, .rwl, .c, 154⟩
/-- Table 12-12, SRV_CFG1 SHOCK_LIMIT. -/
def Reg.SRV_CFG1.SHOCK_LIMIT : Field := ⟨11, .block, 0x058, 1, 0, 10, .rwl, .c, 256⟩
/-! Table 12-13 -/

/-- Table 12-13, HEAD_STAT PES. -/
def Reg.HEAD_STAT.PES : Field := ⟨11, .block, 0x060, 22, 0, 16, .ro, .a, 0⟩
/-- Table 12-13, HEAD_STAT STROKE. -/
def Reg.HEAD_STAT.STROKE : Field := ⟨11, .block, 0x060, 22, 16, 14, .ro, .a, 0⟩
/-- Table 12-13, HEAD_STAT PART. -/
def Reg.HEAD_STAT.PART : Field := ⟨11, .block, 0x060, 22, 30, 1, .ro, .a, 0⟩
/-- Table 12-13, HEAD_STAT INHIBIT. -/
def Reg.HEAD_STAT.INHIBIT : Field := ⟨11, .block, 0x060, 22, 31, 1, .ro, .a, 0⟩
/-! Table 12-14 -/

/-- Table 12-14, SRV WRITE_INHIBITS. -/
def Reg.SRV.WRITE_INHIBITS : Field := ⟨11, .block, 0x0B8, 1, 0, 32, .rc, .l, 0⟩
/-- Table 12-14, SRV DROPOUTS. -/
def Reg.SRV.DROPOUTS : Field := ⟨11, .block, 0x0BC, 1, 0, 32, .rc, .l, 0⟩
/-- Table 12-14, SRV SAM_MISSES. -/
def Reg.SRV.SAM_MISSES : Field := ⟨11, .block, 0x0C0, 1, 0, 32, .rc, .l, 0⟩
/-- Table 12-14, SRV SUSPECT_SECTORS. -/
def Reg.SRV.SUSPECT_SECTORS : Field := ⟨11, .block, 0x0C4, 1, 0, 32, .rc, .l, 0⟩
/-- Table 12-14, SRV SEEK_FAIL. -/
def Reg.SRV.SEEK_FAIL : Field := ⟨11, .block, 0x0C8, 1, 0, 16, .rc, .l, 0⟩
/-! Table 12-15 -/

/-- Table 12-15, DSP_STAT HEADS. -/
def Reg.DSP_STAT.HEADS : Field := ⟨11, .inst, 0x040, 1, 0, 22, .ro, .a, 0⟩
/-- Table 12-15, DSP_STAT VCM. -/
def Reg.DSP_STAT.VCM : Field := ⟨11, .inst, 0x040, 1, 22, 1, .ro, .a, 0⟩
/-- Table 12-15, DSP_STAT LOAD_PCT. -/
def Reg.DSP_STAT.LOAD_PCT : Field := ⟨11, .inst, 0x040, 1, 24, 8, .ro, .a, 0⟩
/-! Table 13-7 -/

/-- Table 13-7, RDC_CFG TRACK_SKEW. -/
def Reg.RDC_CFG.TRACK_SKEW : Field := ⟨12, .block, 0x040, 1, 0, 6, .rwl, .c, 16⟩
/-- Table 13-7, RDC_CFG INLINE_ITER. -/
def Reg.RDC_CFG.INLINE_ITER : Field := ⟨12, .block, 0x040, 1, 8, 4, .rw, .c, 8⟩
/-- Table 13-7, RDC_CFG MAX_ITER. -/
def Reg.RDC_CFG.MAX_ITER : Field := ⟨12, .block, 0x040, 1, 16, 6, .rw, .c, 40⟩
/-- Table 13-7, RDC_CFG CLEAN_START_PCT. -/
def Reg.RDC_CFG.CLEAN_START_PCT : Field := ⟨12, .block, 0x040, 1, 24, 8, .rw, .c, 5⟩
/-! Table 13-8 -/

/-- Table 13-8, RDC_SLOTS SLOTS. -/
def Reg.RDC_SLOTS.SLOTS : Field := ⟨12, .block, 0x044, 1, 0, 23, .ro, .a, 0⟩
/-- Table 13-8, RDC_FREE FREE. -/
def Reg.RDC_FREE.FREE : Field := ⟨12, .block, 0x048, 1, 0, 23, .ro, .a, 0⟩
/-- Table 13-8, RDC_SPARE SPARE_INIT. -/
def Reg.RDC_SPARE.SPARE_INIT : Field := ⟨12, .block, 0x04C, 1, 0, 16, .ro, .a, 0⟩
/-- Table 13-8, RDC_SPARE SPARE_NOW. -/
def Reg.RDC_SPARE.SPARE_NOW : Field := ⟨12, .block, 0x04C, 1, 16, 16, .ro, .a, 0⟩
/-- Table 13-8, RDC_STATE WRITE_STOP. -/
def Reg.RDC_STATE.WRITE_STOP : Field := ⟨12, .block, 0x050, 1, 0, 1, .ro, .a, 0⟩
/-- Table 13-8, RDC_STATE CLEAN_MAND. -/
def Reg.RDC_STATE.CLEAN_MAND : Field := ⟨12, .block, 0x050, 1, 1, 1, .ro, .a, 0⟩
/-- Table 13-8, RDC_STATE FORMATTED. -/
def Reg.RDC_STATE.FORMATTED : Field := ⟨12, .block, 0x050, 1, 2, 1, .ro, .a, 0⟩
/-! Table 13-9 -/

/-- Table 13-9, RDC RUNG1. -/
def Reg.RDC.RUNG1 : Field := ⟨12, .block, 0x054, 1, 0, 32, .rc, .l, 0⟩
/-- Table 13-9, RDC REFRAMED. -/
def Reg.RDC.REFRAMED : Field := ⟨12, .block, 0x058, 1, 0, 32, .rc, .l, 0⟩
/-- Table 13-9, RDC ERASURE. -/
def Reg.RDC.ERASURE : Field := ⟨12, .block, 0x05C, 1, 0, 32, .rc, .l, 0⟩
/-- Table 13-9, RDC GROUP_REBUILT. -/
def Reg.RDC.GROUP_REBUILT : Field := ⟨12, .block, 0x060, 1, 0, 32, .rc, .l, 0⟩
/-- Table 13-9, RDC REREAD. -/
def Reg.RDC.REREAD : Field := ⟨12, .block, 0x064, 1, 0, 32, .rc, .l, 0⟩
/-- Table 13-9, RDC UNCORR_SECTORS. -/
def Reg.RDC.UNCORR_SECTORS : Field := ⟨12, .block, 0x068, 1, 0, 32, .rc, .l, 0⟩
/-- Table 13-9, RDC REMAPS. -/
def Reg.RDC.REMAPS : Field := ⟨12, .block, 0x06C, 1, 0, 32, .rc, .l, 0⟩
/-- Table 13-9, RDC CLEANED. -/
def Reg.RDC.CLEANED : Field := ⟨12, .block, 0x070, 1, 0, 32, .rc, .l, 0⟩
/-! Table 13-10 -/

/-- Table 13-10, RDC_CH_STAT HEAD. -/
def Reg.RDC_CH_STAT.HEAD : Field := ⟨12, .inst, 0x040, 1, 0, 5, .ro, .a, 31⟩
/-- Table 13-10, RDC_CH_STAT ZONE. -/
def Reg.RDC_CH_STAT.ZONE : Field := ⟨12, .inst, 0x040, 1, 5, 5, .ro, .a, 0⟩
/-- Table 13-10, RDC_CH_STAT RATE. -/
def Reg.RDC_CH_STAT.RATE : Field := ⟨12, .inst, 0x040, 1, 10, 12, .ro, .a, 0⟩
/-- Table 13-10, RDC_CH_STAT SPARE. -/
def Reg.RDC_CH_STAT.SPARE : Field := ⟨12, .inst, 0x040, 1, 22, 1, .ro, .a, 0⟩
/-- Table 13-10, RDC_CH_STAT IN_SERVICE. -/
def Reg.RDC_CH_STAT.IN_SERVICE : Field := ⟨12, .inst, 0x040, 1, 23, 1, .ro, .a, 0⟩
/-- Table 13-10, CH_WEIGHT WEIGHT_A. -/
def Reg.CH_WEIGHT.WEIGHT_A : Field := ⟨12, .inst, 0x044, 1, 0, 8, .ro, .a, 0⟩
/-- Table 13-10, CH_WEIGHT WEIGHT_B. -/
def Reg.CH_WEIGHT.WEIGHT_B : Field := ⟨12, .inst, 0x044, 1, 8, 8, .ro, .a, 0⟩
/-- Table 13-10, CH_DECODED DECODED. -/
def Reg.CH_DECODED.DECODED : Field := ⟨12, .inst, 0x048, 1, 0, 32, .rc, .l, 0⟩
/-- Table 13-10, CH_RETRIED RETRIED. -/
def Reg.CH_RETRIED.RETRIED : Field := ⟨12, .inst, 0x04C, 1, 0, 32, .rc, .l, 0⟩
/-! Table 14-7 -/

/-- Table 14-7, CRY_PHASE PHASE. -/
def Reg.CRY_PHASE.PHASE : Field := ⟨13, .block, 0x040, 1, 0, 2, .ro, .a, 0⟩
/-- Table 14-7, CRY_PHASE SUSPEND_EN. -/
def Reg.CRY_PHASE.SUSPEND_EN : Field := ⟨13, .block, 0x040, 1, 2, 1, .ro, .a, 0⟩
/-- Table 14-7, DEV_FIELD WORD. -/
def Reg.DEV_FIELD.WORD : Field := ⟨13, .block, 0x044, 1, 0, 32, .ro, .a, 0⟩
/-- Table 14-7, CRY_DRBG DRBG_STATE. -/
def Reg.CRY_DRBG.DRBG_STATE : Field := ⟨13, .block, 0x048, 1, 0, 2, .ro, .a, 0⟩
/-- Table 14-7, CRY_DRBG ES_OK. -/
def Reg.CRY_DRBG.ES_OK : Field := ⟨13, .block, 0x048, 1, 2, 1, .ro, .a, 0⟩
/-- Table 14-7, CRY_DRBG ES_RESTARTS. -/
def Reg.CRY_DRBG.ES_RESTARTS : Field := ⟨13, .block, 0x048, 1, 8, 8, .ro, .l, 0⟩
/-- Table 14-7, CRY_SVC PAGES_OWNED. -/
def Reg.CRY_SVC.PAGES_OWNED : Field := ⟨13, .block, 0x04C, 1, 0, 6, .ro, .a, 0⟩
/-- Table 14-7, CRY_SVC HELD_PLAIN. -/
def Reg.CRY_SVC.HELD_PLAIN : Field := ⟨13, .block, 0x04C, 1, 8, 4, .ro, .a, 0⟩
/-! Table 14-8 -/

/-- Table 14-8, CRY TAG_FAILS. -/
def Reg.CRY.TAG_FAILS : Field := ⟨13, .block, 0x050, 1, 0, 32, .rc, .l, 0⟩
/-- Table 14-8, CRY KEY_CHANGES. -/
def Reg.CRY.KEY_CHANGES : Field := ⟨13, .block, 0x054, 1, 0, 32, .rc, .l, 0⟩
/-- Table 14-8, CRY SUSPENSIONS. -/
def Reg.CRY.SUSPENSIONS : Field := ⟨13, .block, 0x058, 1, 0, 32, .rc, .l, 0⟩
/-- Table 14-8, CRY RESERVATIONS. -/
def Reg.CRY.RESERVATIONS : Field := ⟨13, .block, 0x05C, 1, 0, 32, .rc, .l, 0⟩
/-- Table 14-8, CRY SVC_OPS. -/
def Reg.CRY.SVC_OPS : Field := ⟨13, .block, 0x060, 1, 0, 32, .rc, .l, 0⟩
/-! Table 14-9 -/

/-- Table 14-9, CORE_LOCK CLASS_MASK. -/
def Reg.CORE_LOCK.CLASS_MASK : Field := ⟨13, .cipher, 0x040, 1, 0, 4, .rwl, .c, 15⟩
/-- Table 14-9, CORE_LOCK CUR_PAGE. -/
def Reg.CORE_LOCK.CUR_PAGE : Field := ⟨13, .cipher, 0x040, 1, 8, 6, .ro, .a, 0⟩
/-- Table 14-9, CORE_LOCK CUR_CLASS. -/
def Reg.CORE_LOCK.CUR_CLASS : Field := ⟨13, .cipher, 0x040, 1, 14, 2, .ro, .a, 0⟩
/-- Table 14-9, CORE_LOCK BUSY. -/
def Reg.CORE_LOCK.BUSY : Field := ⟨13, .cipher, 0x040, 1, 16, 1, .ro, .a, 0⟩
/-- Table 14-9, CORE_LOCK IN_SERVICE. -/
def Reg.CORE_LOCK.IN_SERVICE : Field := ⟨13, .cipher, 0x040, 1, 17, 1, .ro, .a, 0⟩
/-- Table 14-9, CORE_LOCK SUSPENDED. -/
def Reg.CORE_LOCK.SUSPENDED : Field := ⟨13, .cipher, 0x040, 1, 18, 5, .ro, .a, 0⟩
/-- Table 14-9, CORE_BYTES_LO BYTES_LO. -/
def Reg.CORE_BYTES_LO.BYTES_LO : Field := ⟨13, .cipher, 0x044, 1, 0, 32, .ro, .l, 0⟩
/-- Table 14-9, CORE_BYTES_HI BYTES_HI. -/
def Reg.CORE_BYTES_HI.BYTES_HI : Field := ⟨13, .cipher, 0x048, 1, 0, 32, .ro, .l, 0⟩
/-! Table 14-10 -/

/-- Table 14-10, HASH_STAT LANES_BUSY. -/
def Reg.HASH_STAT.LANES_BUSY : Field := ⟨13, .hash, 0x040, 1, 0, 4, .ro, .a, 0⟩
/-- Table 14-10, HASH_STAT IN_SERVICE. -/
def Reg.HASH_STAT.IN_SERVICE : Field := ⟨13, .hash, 0x040, 1, 4, 1, .ro, .a, 0⟩
/-- Table 14-10, HASH_BYTES_LO BYTES_LO. -/
def Reg.HASH_BYTES_LO.BYTES_LO : Field := ⟨13, .hash, 0x044, 1, 0, 32, .ro, .l, 0⟩
/-- Table 14-10, HASH_BYTES_HI BYTES_HI. -/
def Reg.HASH_BYTES_HI.BYTES_HI : Field := ⟨13, .hash, 0x048, 1, 0, 32, .ro, .l, 0⟩
/-! Table 15-8 -/

/-- Table 15-8, KEY_STAT PRESENT. -/
def Reg.KEY_STAT.PRESENT : Field := ⟨14, .block, 0x040, 1, 0, 11, .ro, .a, 0⟩
/-- Table 15-8, KEY_STAT VAULT_OK. -/
def Reg.KEY_STAT.VAULT_OK : Field := ⟨14, .block, 0x040, 1, 11, 1, .ro, .a, 0⟩
/-- Table 15-8, KEY_STAT ROOT_OK. -/
def Reg.KEY_STAT.ROOT_OK : Field := ⟨14, .block, 0x040, 1, 12, 1, .ro, .a, 0⟩
/-! Table 15-9 -/

/-- Table 15-9, SLOT_INFO GEN. -/
def Reg.SLOT_INFO.GEN : Field := ⟨14, .inst, 0x040, 128, 0, 16, .ro, .a, 0⟩
/-- Table 15-9, SLOT_INFO ATTR. -/
def Reg.SLOT_INFO.ATTR : Field := ⟨14, .inst, 0x040, 128, 16, 16, .ro, .a, 0⟩
/-! Table 15-11 -/

/-- Table 15-11, ENV_COUNT COUNT. -/
def Reg.ENV_COUNT.COUNT : Field := ⟨1, .block, 0x100, 1, 0, 5, .ro, .a, 0⟩
/-- Table 15-11, ENV_COUNT HOURS. -/
def Reg.ENV_COUNT.HOURS : Field := ⟨1, .block, 0x100, 1, 8, 5, .ro, .a, 0⟩
/-- Table 15-11, FUSE_STAT KILL. -/
def Reg.FUSE_STAT.KILL : Field := ⟨1, .block, 0x104, 1, 0, 1, .ro, .a, 0⟩
/-- Table 15-11, FUSE_STAT KILL_PENDING. -/
def Reg.FUSE_STAT.KILL_PENDING : Field := ⟨1, .block, 0x104, 1, 1, 1, .ro, .a, 0⟩
/-- Table 15-11, FUSE_STAT ENROLLED. -/
def Reg.FUSE_STAT.ENROLLED : Field := ⟨1, .block, 0x104, 1, 2, 1, .ro, .a, 0⟩
/-- Table 15-11, MEAS_DIGEST MEAS. -/
def Reg.MEAS_DIGEST.MEAS : Field := ⟨1, .block, 0x108, 12, 0, 32, .ro, .k, 0⟩
/-- Table 15-11, OPER_PK OPER. -/
def Reg.OPER_PK.OPER : Field := ⟨1, .block, 0x138, 8, 0, 32, .ro, .a, 0⟩
/-! Table 16-6 -/

/-- Table 16-6, SEA_TIME_LO DEV_TIME_LO. -/
def Reg.SEA_TIME_LO.DEV_TIME_LO : Field := ⟨15, .block, 0x040, 1, 0, 32, .ro, .k, 0⟩
/-- Table 16-6, SEA_TIME_HI DEV_TIME_HI. -/
def Reg.SEA_TIME_HI.DEV_TIME_HI : Field := ⟨15, .block, 0x044, 1, 0, 32, .ro, .k, 0⟩
/-- Table 16-6, SEA_TIME_STAT ADV_HOURS. -/
def Reg.SEA_TIME_STAT.ADV_HOURS : Field := ⟨15, .block, 0x048, 1, 0, 5, .ro, .a, 0⟩
/-- Table 16-6, SEA_TIME_STAT ADV_OK. -/
def Reg.SEA_TIME_STAT.ADV_OK : Field := ⟨15, .block, 0x048, 1, 5, 1, .ro, .a, 0⟩
/-- Table 16-6, SEA_TIME_STAT SLOW_COUNT. -/
def Reg.SEA_TIME_STAT.SLOW_COUNT : Field := ⟨15, .block, 0x048, 1, 6, 1, .ro, .a, 0⟩
/-- Table 16-6, SEA_TIME_STAT RESTORED. -/
def Reg.SEA_TIME_STAT.RESTORED : Field := ⟨15, .block, 0x048, 1, 7, 1, .ro, .a, 0⟩
/-- Table 16-6, SEA_ADV_TOTAL ADV_TOTAL. -/
def Reg.SEA_ADV_TOTAL.ADV_TOTAL : Field := ⟨15, .block, 0x04C, 1, 0, 32, .ro, .a, 0⟩
/-! Table 16-7 -/

/-- Table 16-7, SEA_STREAMS STREAMS. -/
def Reg.SEA_STREAMS.STREAMS : Field := ⟨15, .block, 0x050, 1, 0, 32, .ro, .a, 0⟩
/-- Table 16-7, SEA_RECORDS_LO RECORDS_LO. -/
def Reg.SEA_RECORDS_LO.RECORDS_LO : Field := ⟨15, .block, 0x054, 1, 0, 32, .ro, .a, 0⟩
/-- Table 16-7, SEA_RECORDS_HI RECORDS_HI. -/
def Reg.SEA_RECORDS_HI.RECORDS_HI : Field := ⟨15, .block, 0x058, 1, 0, 32, .ro, .a, 0⟩
/-! Table 16-8 -/

/-- Table 16-8, SEA APPENDS. -/
def Reg.SEA.APPENDS : Field := ⟨15, .block, 0x05C, 1, 0, 32, .rc, .l, 0⟩
/-- Table 16-8, SEA PURGED. -/
def Reg.SEA.PURGED : Field := ⟨15, .block, 0x060, 1, 0, 32, .rc, .l, 0⟩
/-- Table 16-8, SEA VOIDS. -/
def Reg.SEA.VOIDS : Field := ⟨15, .block, 0x064, 1, 0, 32, .rc, .l, 0⟩
/-- Table 16-8, SEA DIGEST_MISMATCH. -/
def Reg.SEA.DIGEST_MISMATCH : Field := ⟨15, .block, 0x068, 1, 0, 32, .rc, .l, 0⟩
/-! Table 17-12 -/

/-- Table 17-12, FAB_ADDR ADDRESS. -/
def Reg.FAB_ADDR.ADDRESS : Field := ⟨16, .block, 0x040, 1, 0, 16, .ro, .w, 0⟩
/-- Table 17-12, FAB_ADDR ADDR_VALID. -/
def Reg.FAB_ADDR.ADDR_VALID : Field := ⟨16, .block, 0x040, 1, 16, 1, .ro, .w, 0⟩
/-- Table 17-12, FAB_CFG JOINED. -/
def Reg.FAB_CFG.JOINED : Field := ⟨16, .block, 0x044, 1, 0, 1, .rwl, .c, 0⟩
/-- Table 17-12, FAB_CFG INHERIT_EN. -/
def Reg.FAB_CFG.INHERIT_EN : Field := ⟨16, .block, 0x044, 1, 1, 1, .rwl, .c, 1⟩
/-- Table 17-12, FAB_CFG GW_INDEX. -/
def Reg.FAB_CFG.GW_INDEX : Field := ⟨16, .block, 0x044, 1, 2, 2, .rwl, .c, 0⟩
/-- Table 17-12, FAB_CFG GW_MASK. -/
def Reg.FAB_CFG.GW_MASK : Field := ⟨16, .block, 0x044, 1, 4, 4, .rwl, .c, 1⟩
/-- Table 17-12, FAB_CFG FLOWLET_GAP. -/
def Reg.FAB_CFG.FLOWLET_GAP : Field := ⟨16, .block, 0x044, 1, 8, 8, .rw, .c, 20⟩
/-- Table 17-12, FAB_CFG SEED_PERIOD. -/
def Reg.FAB_CFG.SEED_PERIOD : Field := ⟨16, .block, 0x044, 1, 16, 16, .rw, .c, 60⟩
/-! Table 17-13 -/

/-- Table 17-13, FAB_SLED UP. -/
def Reg.FAB_SLED.UP : Field := ⟨16, .block, 0x048, 1, 0, 16, .ro, .a, 0⟩
/-- Table 17-13, FAB_SLED GW. -/
def Reg.FAB_SLED.GW : Field := ⟨16, .block, 0x048, 1, 16, 16, .ro, .a, 0⟩
/-- Table 17-13, FAB_MIRROR SETS. -/
def Reg.FAB_MIRROR.SETS : Field := ⟨16, .block, 0x04C, 1, 0, 9, .ro, .a, 0⟩
/-- Table 17-13, FAB_MIRROR NOT_IN_SYNC. -/
def Reg.FAB_MIRROR.NOT_IN_SYNC : Field := ⟨16, .block, 0x04C, 1, 16, 10, .ro, .a, 0⟩
/-! Table 17-14 -/

/-- Table 17-14, FAB TRANSIT. -/
def Reg.FAB.TRANSIT : Field := ⟨16, .block, 0x050, 1, 0, 32, .rc, .l, 0⟩
/-- Table 17-14, FAB ORIGINATED. -/
def Reg.FAB.ORIGINATED : Field := ⟨16, .block, 0x054, 1, 0, 32, .rc, .l, 0⟩
/-- Table 17-14, FAB TERMINATED. -/
def Reg.FAB.TERMINATED : Field := ⟨16, .block, 0x058, 1, 0, 32, .rc, .l, 0⟩
/-- Table 17-14, FAB DROPPED. -/
def Reg.FAB.DROPPED : Field := ⟨16, .block, 0x05C, 1, 0, 32, .rc, .l, 0⟩
/-- Table 17-14, FAB AUTH_FAIL. -/
def Reg.FAB.AUTH_FAIL : Field := ⟨16, .block, 0x060, 1, 0, 32, .rc, .l, 0⟩
/-- Table 17-14, FAB MSG_RETX. -/
def Reg.FAB.MSG_RETX : Field := ⟨16, .block, 0x064, 1, 0, 32, .rc, .l, 0⟩
/-- Table 17-14, FAB UNREACHABLE. -/
def Reg.FAB.UNREACHABLE : Field := ⟨16, .block, 0x068, 1, 0, 32, .rc, .l, 0⟩
/-! Table 17-15 -/

/-- Table 17-15, LINK_STAT LINK_STATE. -/
def Reg.LINK_STAT.LINK_STATE : Field := ⟨16, .inst, 0x040, 1, 0, 3, .ro, .w, 0⟩
/-- Table 17-15, LINK_STAT NEIGH_ADDR. -/
def Reg.LINK_STAT.NEIGH_ADDR : Field := ⟨16, .inst, 0x040, 1, 16, 16, .ro, .w, 0⟩
/-- Table 17-15, LINK_ERR CRC_ERRS. -/
def Reg.LINK_ERR.CRC_ERRS : Field := ⟨16, .inst, 0x044, 1, 0, 16, .rc, .w, 0⟩
/-- Table 17-15, LINK_ERR RETRIES. -/
def Reg.LINK_ERR.RETRIES : Field := ⟨16, .inst, 0x044, 1, 16, 16, .rc, .w, 0⟩
/-- Table 17-15, LINK_FLITS_LO FLITS_LO. -/
def Reg.LINK_FLITS_LO.FLITS_LO : Field := ⟨16, .inst, 0x048, 1, 0, 32, .ro, .w, 0⟩
/-- Table 17-15, LINK_FLITS_HI FLITS_HI. -/
def Reg.LINK_FLITS_HI.FLITS_HI : Field := ⟨16, .inst, 0x04C, 1, 0, 32, .ro, .w, 0⟩
/-! Table 18-12 -/

/-- Table 18-12, UPD_STAGE STAGE. -/
def Reg.UPD_STAGE.STAGE : Field := ⟨17, .block, 0x040, 1, 0, 3, .ro, .a, 0⟩
/-- Table 18-12, UPD_STAGE FROM_HOST. -/
def Reg.UPD_STAGE.FROM_HOST : Field := ⟨17, .block, 0x040, 1, 3, 1, .ro, .a, 0⟩
/-- Table 18-12, UPD_STAGE FROM_PEER. -/
def Reg.UPD_STAGE.FROM_PEER : Field := ⟨17, .block, 0x040, 1, 4, 1, .ro, .a, 0⟩
/-- Table 18-12, UPD_STAGE CHUNKS_TOTAL. -/
def Reg.UPD_STAGE.CHUNKS_TOTAL : Field := ⟨17, .block, 0x040, 1, 8, 9, .ro, .a, 0⟩
/-- Table 18-12, UPD_CHUNKS HELD. -/
def Reg.UPD_CHUNKS.HELD : Field := ⟨17, .block, 0x044, 1, 0, 9, .ro, .a, 0⟩
/-- Table 18-12, UPD_CHUNKS FIRST_MISSING. -/
def Reg.UPD_CHUNKS.FIRST_MISSING : Field := ⟨17, .block, 0x044, 1, 16, 9, .ro, .a, 0⟩
/-! Table 18-13 -/

/-- Table 18-13, UPD_SLOT ACTIVE. -/
def Reg.UPD_SLOT.ACTIVE : Field := ⟨17, .block, 0x048, 1, 0, 1, .ro, .a, 0⟩
/-- Table 18-13, UPD_SLOT TRIAL. -/
def Reg.UPD_SLOT.TRIAL : Field := ⟨17, .block, 0x048, 1, 1, 1, .ro, .a, 0⟩
/-- Table 18-13, UPD_SLOT REVERTED. -/
def Reg.UPD_SLOT.REVERTED : Field := ⟨17, .block, 0x048, 1, 2, 1, .ro, .a, 0⟩
/-- Table 18-13, UPD_SLOT FALLBACK. -/
def Reg.UPD_SLOT.FALLBACK : Field := ⟨17, .block, 0x048, 1, 3, 1, .ro, .a, 0⟩
/-- Table 18-13, UPD_SLOT TRIAL_STARTS. -/
def Reg.UPD_SLOT.TRIAL_STARTS : Field := ⟨17, .block, 0x048, 1, 4, 2, .ro, .a, 0⟩
/-- Table 18-13, UPD_SLOT A_RUNNABLE. -/
def Reg.UPD_SLOT.A_RUNNABLE : Field := ⟨17, .block, 0x048, 1, 8, 1, .ro, .a, 0⟩
/-- Table 18-13, UPD_SLOT B_RUNNABLE. -/
def Reg.UPD_SLOT.B_RUNNABLE : Field := ⟨17, .block, 0x048, 1, 9, 1, .ro, .a, 0⟩
/-- Table 18-13, UPD_SLOT TRIAL_HOURS. -/
def Reg.UPD_SLOT.TRIAL_HOURS : Field := ⟨17, .block, 0x048, 1, 16, 5, .ro, .a, 0⟩
/-- Table 18-13, UPD_GEN GENERATION. -/
def Reg.UPD_GEN.GENERATION : Field := ⟨17, .block, 0x04C, 1, 0, 32, .ro, .a, 0⟩
/-! Table 18-14 -/

/-- Table 18-14, UPD_VER_ACT ACTIVE_FUNC. -/
def Reg.UPD_VER_ACT.ACTIVE_FUNC : Field := ⟨17, .block, 0x050, 1, 0, 32, .ro, .a, 0⟩
/-- Table 18-14, UPD_VER_STG STAGED_FUNC. -/
def Reg.UPD_VER_STG.STAGED_FUNC : Field := ⟨17, .block, 0x054, 1, 0, 32, .ro, .a, 0⟩
/-- Table 18-14, UPD_SEC FUSE_COUNT. -/
def Reg.UPD_SEC.FUSE_COUNT : Field := ⟨17, .block, 0x058, 1, 0, 7, .ro, .a, 0⟩
/-- Table 18-14, UPD_SEC ACTIVE_SEC. -/
def Reg.UPD_SEC.ACTIVE_SEC : Field := ⟨17, .block, 0x058, 1, 8, 7, .ro, .a, 0⟩
/-- Table 18-14, UPD_SEC STAGED_SEC. -/
def Reg.UPD_SEC.STAGED_SEC : Field := ⟨17, .block, 0x058, 1, 16, 7, .ro, .a, 0⟩
/-- Table 18-14, UPD_CFG PEER_SERVE. -/
def Reg.UPD_CFG.PEER_SERVE : Field := ⟨17, .block, 0x05C, 1, 0, 1, .rwl, .c, 1⟩
/-- Table 18-14, UPD_CFG PEER_PUSH. -/
def Reg.UPD_CFG.PEER_PUSH : Field := ⟨17, .block, 0x05C, 1, 1, 1, .rwl, .c, 0⟩
/-- Table 18-14, UPD_CFG PEER_ACCEPT. -/
def Reg.UPD_CFG.PEER_ACCEPT : Field := ⟨17, .block, 0x05C, 1, 2, 1, .rwl, .c, 0⟩
/-! Table 19-5 -/

/-- Table 19-5, HLT_SUMMARY TEMP. -/
def Reg.HLT_SUMMARY.TEMP : Field := ⟨20, .block, 0x040, 1, 0, 1, .ro, .a, 0⟩
/-- Table 19-5, HLT_SUMMARY WEAR. -/
def Reg.HLT_SUMMARY.WEAR : Field := ⟨20, .block, 0x040, 1, 1, 1, .ro, .a, 0⟩
/-- Table 19-5, HLT_SUMMARY FLASH_SPARE. -/
def Reg.HLT_SUMMARY.FLASH_SPARE : Field := ⟨20, .block, 0x040, 1, 2, 1, .ro, .a, 0⟩
/-- Table 19-5, HLT_SUMMARY DISK_SPARE. -/
def Reg.HLT_SUMMARY.DISK_SPARE : Field := ⟨20, .block, 0x040, 1, 3, 1, .ro, .a, 0⟩
/-- Table 19-5, HLT_SUMMARY BALLAST. -/
def Reg.HLT_SUMMARY.BALLAST : Field := ⟨20, .block, 0x040, 1, 4, 1, .ro, .a, 0⟩
/-- Table 19-5, HLT_SUMMARY MEDIA. -/
def Reg.HLT_SUMMARY.MEDIA : Field := ⟨20, .block, 0x040, 1, 5, 1, .ro, .a, 0⟩
/-- Table 19-5, HLT_SUMMARY READ_ONLY. -/
def Reg.HLT_SUMMARY.READ_ONLY : Field := ⟨20, .block, 0x040, 1, 6, 1, .ro, .a, 0⟩
/-- Table 19-5, HLT_SUMMARY DISK_WRITE_STOP. -/
def Reg.HLT_SUMMARY.DISK_WRITE_STOP : Field := ⟨20, .block, 0x040, 1, 7, 1, .ro, .a, 0⟩
/-- Table 19-5, HLT_TEMP TEMP_NOW. -/
def Reg.HLT_TEMP.TEMP_NOW : Field := ⟨20, .block, 0x044, 1, 0, 8, .ro, .a, 0⟩
/-- Table 19-5, HLT_TEMP TEMP_MAX. -/
def Reg.HLT_TEMP.TEMP_MAX : Field := ⟨20, .block, 0x044, 1, 8, 8, .ro, .l, 128⟩
/-- Table 19-5, HLT_TEMP TEMP_LIFE. -/
def Reg.HLT_TEMP.TEMP_LIFE : Field := ⟨20, .block, 0x044, 1, 16, 8, .ro, .a, 0⟩
/-- Table 19-5, HLT_TEMP SENSOR. -/
def Reg.HLT_TEMP.SENSOR : Field := ⟨20, .block, 0x044, 1, 24, 8, .ro, .a, 0⟩
/-- Table 19-5, HLT_WEAR FLASH_WEAR. -/
def Reg.HLT_WEAR.FLASH_WEAR : Field := ⟨20, .block, 0x048, 1, 0, 8, .ro, .a, 0⟩
/-- Table 19-5, HLT_WEAR FLASH_SPARE_PCT. -/
def Reg.HLT_WEAR.FLASH_SPARE_PCT : Field := ⟨20, .block, 0x048, 1, 8, 8, .ro, .a, 0⟩
/-- Table 19-5, HLT_WEAR DISK_SPARE_PCT. -/
def Reg.HLT_WEAR.DISK_SPARE_PCT : Field := ⟨20, .block, 0x048, 1, 16, 8, .ro, .a, 0⟩
/-- Table 19-5, HLT_HOURS POWERED_HOURS. -/
def Reg.HLT_HOURS.POWERED_HOURS : Field := ⟨20, .block, 0x04C, 1, 0, 32, .ro, .a, 0⟩
/-! Table 19-6 -/

/-- Table 19-6, HLT FLASH_UNCORR. -/
def Reg.HLT.FLASH_UNCORR : Field := ⟨20, .block, 0x050, 1, 0, 32, .ro, .a, 0⟩
/-- Table 19-6, HLT DISK_UNCORR. -/
def Reg.HLT.DISK_UNCORR : Field := ⟨20, .block, 0x054, 1, 0, 32, .ro, .a, 0⟩
/-- Table 19-6, HLT TAG_FAILS_LIFE. -/
def Reg.HLT.TAG_FAILS_LIFE : Field := ⟨20, .block, 0x058, 1, 0, 32, .ro, .a, 0⟩
/-- Table 19-6, HLT MEDIA_DAY. -/
def Reg.HLT.MEDIA_DAY : Field := ⟨20, .block, 0x05C, 1, 0, 32, .ro, .a, 0⟩
/-- Table 19-6, HLT_THRESH TEMP_WARN. -/
def Reg.HLT_THRESH.TEMP_WARN : Field := ⟨20, .block, 0x060, 1, 0, 8, .rw, .c, 100⟩
/-- Table 19-6, HLT_THRESH WEAR_WARN. -/
def Reg.HLT_THRESH.WEAR_WARN : Field := ⟨20, .block, 0x060, 1, 8, 8, .rw, .c, 90⟩
/-- Table 19-6, HLT_THRESH MEDIA_WARN. -/
def Reg.HLT_THRESH.MEDIA_WARN : Field := ⟨20, .block, 0x060, 1, 16, 16, .rw, .c, 16⟩
/-! Table 19-7 -/

/-- Table 19-7, LOG_NEXT WORD. -/
def Reg.LOG_NEXT.WORD : Field := ⟨20, .block, 0x064, 1, 0, 32, .ro, .a, 0⟩
/-- Table 19-7, LOG_FIRST WORD. -/
def Reg.LOG_FIRST.WORD : Field := ⟨20, .block, 0x068, 1, 0, 32, .ro, .a, 0⟩
/-- Table 19-7, LOG_SEL WORD. -/
def Reg.LOG_SEL.WORD : Field := ⟨20, .block, 0x06C, 1, 0, 32, .rw, .a, 0⟩
/-! Table 20-7 -/

/-- Table 20-7, DBG_STAT LEVEL. -/
def Reg.DBG_STAT.LEVEL : Field := ⟨19, .block, 0x040, 1, 0, 2, .ro, .a, 0⟩
/-- Table 20-7, DBG_STAT PENDING. -/
def Reg.DBG_STAT.PENDING : Field := ⟨19, .block, 0x040, 1, 2, 1, .ro, .a, 0⟩
/-- Table 20-7, DBG_STAT NO_CHALLENGE. -/
def Reg.DBG_STAT.NO_CHALLENGE : Field := ⟨19, .block, 0x040, 1, 3, 1, .ro, .a, 0⟩
/-- Table 20-7, DBG_STAT PINS_HELD. -/
def Reg.DBG_STAT.PINS_HELD : Field := ⟨19, .block, 0x040, 1, 4, 1, .ro, .a, 0⟩
/-- Table 20-7, DBG_STAT BOOT_WAIT. -/
def Reg.DBG_STAT.BOOT_WAIT : Field := ⟨19, .block, 0x040, 1, 5, 1, .ro, .a, 0⟩
/-- Table 20-7, DBG_STAT HALTED. -/
def Reg.DBG_STAT.HALTED : Field := ⟨19, .block, 0x040, 1, 8, 8, .ro, .a, 0⟩
/-- Table 20-7, DBG_STAT FAILS. -/
def Reg.DBG_STAT.FAILS : Field := ⟨19, .block, 0x040, 1, 16, 5, .ro, .k, 0⟩
/-- Table 20-7, DBG_STAT LOCKOUT. -/
def Reg.DBG_STAT.LOCKOUT : Field := ⟨19, .block, 0x040, 1, 21, 11, .ro, .k, 0⟩
/-- Table 20-7, DBG_POLICY OBSERVE_EN. -/
def Reg.DBG_POLICY.OBSERVE_EN : Field := ⟨19, .block, 0x044, 1, 0, 1, .rwl, .c, 1⟩
/-- Table 20-7, DBG_POLICY FULL_EN. -/
def Reg.DBG_POLICY.FULL_EN : Field := ⟨19, .block, 0x044, 1, 1, 1, .rwl, .c, 1⟩

/-! The fields of each block. -/

/-- The block-specific fields of GLB. -/
def fieldsGLB : List Field :=
  [Reg.GLB_ID.PART, Reg.GLB_ID.STEPPING, Reg.GLB_IDCODE.IDCODE, Reg.SERIAL_LO.WORD, Reg.SERIAL_HI.WORD,
   Reg.COMPAT.PINNED, Reg.COMPAT.MAX_LEVEL, Reg.COMPAT_NOW.IN_FORCE, Reg.PROFILE.STRAP,
   Reg.PROFILE.IN_FORCE, Reg.PROFILE.SLOT, Reg.EVT_BLOCKS.PENDING, Reg.ALERT_CFG.ALERT_EN]

/-- The block-specific fields of AON. -/
def fieldsAON : List Field :=
  [Reg.START_REASON.KIND, Reg.START_REASON.COLD, Reg.START_REASON.ALARM_SRC, Reg.START_REASON.DETAIL,
   Reg.START_COUNT.STARTS, Reg.ENV_COUNT.COUNT, Reg.ENV_COUNT.HOURS, Reg.FUSE_STAT.KILL,
   Reg.FUSE_STAT.KILL_PENDING, Reg.FUSE_STAT.ENROLLED, Reg.MEAS_DIGEST.MEAS, Reg.OPER_PK.OPER]

/-- The block-specific fields of PWR. -/
def fieldsPWR : List Field :=
  [Reg.PWR_STATE.STATE, Reg.PWR_STATE.TARGET, Reg.PWR_STATE.ENTERING, Reg.PWR_STATE.SPINNING,
   Reg.PWR_CAP.CAP, Reg.PWR_CAP.EFF_CAP, Reg.PWR_CAP.THROTTLE, Reg.PWR_EST.EST1, Reg.PWR_EST.EST100,
   Reg.PWR_TIMERS.STANDBY_AFTER, Reg.PWR_TIMERS.SLEEP_AFTER, Reg.BAL_CFG0.RLOAD, Reg.BAL_CFG0.DIV,
   Reg.BAL_CFG1.VMIN, Reg.BAL_CFG1.EREQ, Reg.BAL_STAT.BAL_OK, Reg.BAL_STAT.TESTED,
   Reg.BAL_STAT.FAIL_REASON, Reg.BAL_STAT.CAP, Reg.BAL_MEAS.E_AVAIL, Reg.BAL_MEAS.V_OK,
   Reg.BAL_NOW.VHOLD, Reg.BAL_NOW.SNS_CODE, Reg.WAKE_SRC.HOST_FRAME, Reg.WAKE_SRC.FAB_FRAME,
   Reg.WAKE_SRC.SMBUS, Reg.WAKE_SRC.WAKE_PIN, Reg.WAKE_SRC.TIMER, Reg.WAKE_SRC.PWRFAIL,
   Reg.DOM_STAT.DOM_ON]

/-- The block-specific fields of RST. -/
def fieldsRST : List Field :=
  [Reg.RST_CTRL.KEY, Reg.RST_CTRL.CONTROLLER, Reg.WDT_CFG.WDT_PERIOD, Reg.WDT_CFG.WDT_EN,
   Reg.STALE_STAT.ACTIVE, Reg.STALE_STAT.REASON, Reg.STALE_STAT.STALE_DETAIL, Reg.START_TIME.SERVICE_MS,
   Reg.START_TIME.DISK_100MS, Reg.CFG_STAT.CURRENT, Reg.CFG_STAT.COPY0_VALID, Reg.CFG_STAT.COPY1_VALID,
   Reg.CFG_STAT.COMMIT_BUSY, Reg.CFG_GEN.GENERATION]

/-- The block-specific fields of NET. -/
def fieldsNET : List Field :=
  [Reg.NET_PORTMODE.QUAD0, Reg.NET_PORTMODE.QUAD1, Reg.NET_PORTMODE.AN_EN, Reg.NET_PORTMODE.EEE_EN,
   Reg.NET_PORTMODE.PAUSE_EN, Reg.NET_PORTMODE.CR_MEDIA, Reg.NET_UDP.SKP_PORT, Reg.NET_UDP.DSCP,
   Reg.NET_IPV4.IPV4, Reg.NET_IPV6.IPV6, Reg.NET_FAB.FAB_ETHERTYPE, Reg.NET_FAB.GATEWAY_EN,
   Reg.NET_VLAN.VID, Reg.NET_VLAN.VLAN_TAGGED, Reg.NET_MAC_LO.MAC_LO, Reg.NET_MAC_HI.MAC_HI,
   Reg.LANE_STAT.LINK_UP, Reg.LANE_STAT.SPEED, Reg.LANE_STAT.LPI, Reg.LANE_STAT.AN_DONE,
   Reg.LANE_STAT.PORT, Reg.LANE_STAT.IN_PORT, Reg.FEC_CORR.CORRECTED, Reg.FEC_UNCORR.UNCORRECTED]

/-- The block-specific fields of SKP. -/
def fieldsSKP : List Field :=
  [Reg.SKP_CFG.SESSION_IDLE, Reg.SKP_CFG.HALF_OPEN_MAX, Reg.SKP_CFG.SMALL_MTU_OK, Reg.SKP_STAT.OPEN,
   Reg.SKP_STAT.HALF_OPEN, Reg.SKP.AUTH_FAIL, Reg.SKP.REPLAY_DROP, Reg.SKP.CREDIT_DROP, Reg.SKP.RETX]

/-- The block-specific fields of CMD. -/
def fieldsCMD : List Field :=
  [Reg.CMD_STAT.TAGS_LIVE, Reg.CMD_STAT.ADMIT_PAUSED, Reg.CMD_QUEUE.QUEUED, Reg.CMD_QUEUE.UPLOADS,
   Reg.CMD_ADMIT_LO.ADMITTED_LO, Reg.CMD_ADMIT_HI.ADMITTED_HI, Reg.CMD_REFUSED.BUSY,
   Reg.CMD_REFUSED.STAMP, Reg.CMD_ABORTS.ABORTED, Reg.CMD_ABORTS.TOO_LATE, Reg.CMD_CFG.UPLOAD_IDLE]

/-- The block-specific fields of DIR. -/
def fieldsDIR : List Field :=
  [Reg.DIR_CFG.RESEED_PCT, Reg.DIR_CFG.SAVE_MIN, Reg.DIR_TIER.DEMOTE_DAYS, Reg.DIR_TIER.RECALL_EN,
   Reg.DIR_CACHE.CACHE_MIB, Reg.DIR_STAT.STATE, Reg.DIR_STAT.SEALED_START, Reg.DIR_STAT.SRAM_KEPT,
   Reg.DIR_STAT.REBUILD_PCT, Reg.DIR_SEED.SEED_CHECK, Reg.DIR.DIRECT_HITS, Reg.DIR.TOMB_HITS,
   Reg.DIR.HEADER_ABSENT, Reg.DIR.LEAF_PATH, Reg.DIR.REPLACED, Reg.DIR.CACHE_HITS,
   Reg.DIR_KEYS_LO.KEYS_LO, Reg.DIR_KEYS_HI.KEYS_HI, Reg.DIR_EXTENTS.EXTENTS, Reg.DIR_LEAVES.LEAVES]

/-- The block-specific fields of CAM. -/
def fieldsCAM : List Field :=
  [Reg.CAM_TBLR.FIRST_TILE, Reg.CAM_TBL.FIRST_TILE, Reg.CAM_TBLR.TILES, Reg.CAM_TBL.TILES,
   Reg.CAM_TBLR.WIDTH, Reg.CAM_TBL.WIDTH, Reg.CAM_TBLR.SEL_LSB, Reg.CAM_TBL.SEL_LSB,
   Reg.CAM_TBLR.SEL_BITS, Reg.CAM_TBL.SEL_BITS, Reg.CAM_MOVE.TABLE, Reg.CAM_MOVE.ACTIVE,
   Reg.CAM_MOVE.CURSOR, Reg.CAM_SCRUB.PARITY_ERRS, Reg.TILE_STAT.TABLE, Reg.TILE_STAT.WIDTH,
   Reg.TILE_STAT.RETAINED, Reg.TILE_STAT.NET_CLOCK, Reg.TILE_STAT.VALID, Reg.SEARCHES_LO.WORD,
   Reg.SEARCHES_HI.WORD]

/-- The block-specific fields of PAT. -/
def fieldsPAT : List Field :=
  [Reg.PAT_CFG.SCAN_LANES, Reg.PAT_CFG.WATCH_LANES, Reg.PAT_STORE.USED, Reg.PAT_STORE.IMAGES,
   Reg.PAT_WATCH.ARMED, Reg.PAT_WSTATES.STATES, Reg.PAT.SUBJECTS, Reg.PAT.DROPPED, Reg.PAT.EVENTS,
   Reg.PAT.EVENTS_LOST, Reg.PAT_LANE_STAT.BUSY, Reg.PAT_LANE_STAT.JOB, Reg.PAT_LANE_STAT.IMAGE,
   Reg.LANE_BYTES_LO.BYTES_LO, Reg.LANE_BYTES_HI.BYTES_HI]

/-- The block-specific fields of FLT. -/
def fieldsFLT : List Field :=
  [Reg.FLT_STATE.TIER_STATE, Reg.FLT_STATE.CELL, Reg.FLT_STATE.PARITY, Reg.FLT_STATE.GC_MANDATORY,
   Reg.FLT_STATE.DEMOTING, Reg.FLT_STATE.CH_COUNT, Reg.FLT_CHAN.IN_SERVICE, Reg.FLT.RAW_UNITS,
   Reg.FLT.LOGICAL_UNITS, Reg.FLT.MAPPED_UNITS, Reg.FLT.SLC_TARGET, Reg.FLT.SLC_HELD,
   Reg.FLT.SPARE_INIT, Reg.FLT_SPARE.SPARE_NOW, Reg.FLT_SPARE.SPARE_PCT, Reg.FLT_WEAR0.EC_MIN,
   Reg.FLT_WEAR0.EC_MAX, Reg.FLT_WEAR1.EC_MEAN, Reg.FLT_WEAR1.WEAR_PCT, Reg.FLT_CFG0.SPREAD_LIMIT,
   Reg.FLT_CFG0.PROMOTE_PCT, Reg.FLT_CFG0.PATROL_DAYS, Reg.FLT_CFG1.GC_START_PM,
   Reg.FLT_CFG1.DEMOTE_FORCE_PCT, Reg.FLT_CFG1.READ_LIMIT_K, Reg.FLT.GC_UNITS, Reg.FLT.PROMOTED,
   Reg.FLT.REFRESHED, Reg.FLT.UNCORR_READS, Reg.FLT.REBUILDS, Reg.FLT.HOST_UNITS_LO,
   Reg.FLT.HOST_UNITS_HI, Reg.FLT.NAND_UNITS_LO, Reg.FLT.NAND_UNITS_HI, Reg.FLT.RETIRED,
   Reg.FLT_CH_STAT.IN_SERVICE, Reg.FLT_CH_STAT.TRAINED, Reg.FLT_CH_STAT.IFACE, Reg.FLT_CH_STAT.RATE,
   Reg.FLT_CH_STAT.DIES, Reg.CH_CORR.CORRECTED, Reg.CH_RETRY.RETRIED, Reg.CH_FAIL.PROG_FAILS,
   Reg.CH_FAIL.ERASE_FAILS]

/-- The block-specific fields of SRV. -/
def fieldsSRV : List Field :=
  [Reg.SRV_STATE.DISK_STATE, Reg.SRV_STATE.WRITE_READY, Reg.SRV_STATE.FULL_CAL,
   Reg.SRV_STATE.HEADS_FOUND, Reg.SRV_STATE.HEADS_IN_SERVICE, Reg.SRV_STATE.SPINUP_TRIES,
   Reg.SRV_SPEED.PERIOD_NS, Reg.SRV_HEADS.IN_SERVICE, Reg.SRV_PART.PARTICIPATING,
   Reg.SRV_INHIBIT.WRITE_INHIBIT, Reg.SRV_CFG0.WRITE_LIMIT, Reg.SRV_CFG0.SETTLE_WR,
   Reg.SRV_CFG0.SETTLE_RD, Reg.SRV_CFG1.SHOCK_LIMIT, Reg.HEAD_STAT.PES, Reg.HEAD_STAT.STROKE,
   Reg.HEAD_STAT.PART, Reg.HEAD_STAT.INHIBIT, Reg.SRV.WRITE_INHIBITS, Reg.SRV.DROPOUTS,
   Reg.SRV.SAM_MISSES, Reg.SRV.SUSPECT_SECTORS, Reg.SRV.SEEK_FAIL, Reg.DSP_STAT.HEADS, Reg.DSP_STAT.VCM,
   Reg.DSP_STAT.LOAD_PCT]

/-- The block-specific fields of RDC. -/
def fieldsRDC : List Field :=
  [Reg.RDC_CFG.TRACK_SKEW, Reg.RDC_CFG.INLINE_ITER, Reg.RDC_CFG.MAX_ITER, Reg.RDC_CFG.CLEAN_START_PCT,
   Reg.RDC_SLOTS.SLOTS, Reg.RDC_FREE.FREE, Reg.RDC_SPARE.SPARE_INIT, Reg.RDC_SPARE.SPARE_NOW,
   Reg.RDC_STATE.WRITE_STOP, Reg.RDC_STATE.CLEAN_MAND, Reg.RDC_STATE.FORMATTED, Reg.RDC.RUNG1,
   Reg.RDC.REFRAMED, Reg.RDC.ERASURE, Reg.RDC.GROUP_REBUILT, Reg.RDC.REREAD, Reg.RDC.UNCORR_SECTORS,
   Reg.RDC.REMAPS, Reg.RDC.CLEANED, Reg.RDC_CH_STAT.HEAD, Reg.RDC_CH_STAT.ZONE, Reg.RDC_CH_STAT.RATE,
   Reg.RDC_CH_STAT.SPARE, Reg.RDC_CH_STAT.IN_SERVICE, Reg.CH_WEIGHT.WEIGHT_A, Reg.CH_WEIGHT.WEIGHT_B,
   Reg.CH_DECODED.DECODED, Reg.CH_RETRIED.RETRIED]

/-- The block-specific fields of CRY. -/
def fieldsCRY : List Field :=
  [Reg.CRY_PHASE.PHASE, Reg.CRY_PHASE.SUSPEND_EN, Reg.DEV_FIELD.WORD, Reg.CRY_DRBG.DRBG_STATE,
   Reg.CRY_DRBG.ES_OK, Reg.CRY_DRBG.ES_RESTARTS, Reg.CRY_SVC.PAGES_OWNED, Reg.CRY_SVC.HELD_PLAIN,
   Reg.CRY.TAG_FAILS, Reg.CRY.KEY_CHANGES, Reg.CRY.SUSPENSIONS, Reg.CRY.RESERVATIONS, Reg.CRY.SVC_OPS,
   Reg.CORE_LOCK.CLASS_MASK, Reg.CORE_LOCK.CUR_PAGE, Reg.CORE_LOCK.CUR_CLASS, Reg.CORE_LOCK.BUSY,
   Reg.CORE_LOCK.IN_SERVICE, Reg.CORE_LOCK.SUSPENDED, Reg.CORE_BYTES_LO.BYTES_LO,
   Reg.CORE_BYTES_HI.BYTES_HI, Reg.HASH_STAT.LANES_BUSY, Reg.HASH_STAT.IN_SERVICE,
   Reg.HASH_BYTES_LO.BYTES_LO, Reg.HASH_BYTES_HI.BYTES_HI]

/-- The block-specific fields of KEY. -/
def fieldsKEY : List Field :=
  [Reg.KEY_STAT.PRESENT, Reg.KEY_STAT.VAULT_OK, Reg.KEY_STAT.ROOT_OK, Reg.SLOT_INFO.GEN,
   Reg.SLOT_INFO.ATTR]

/-- The block-specific fields of SEA. -/
def fieldsSEA : List Field :=
  [Reg.SEA_TIME_LO.DEV_TIME_LO, Reg.SEA_TIME_HI.DEV_TIME_HI, Reg.SEA_TIME_STAT.ADV_HOURS,
   Reg.SEA_TIME_STAT.ADV_OK, Reg.SEA_TIME_STAT.SLOW_COUNT, Reg.SEA_TIME_STAT.RESTORED,
   Reg.SEA_ADV_TOTAL.ADV_TOTAL, Reg.SEA_STREAMS.STREAMS, Reg.SEA_RECORDS_LO.RECORDS_LO,
   Reg.SEA_RECORDS_HI.RECORDS_HI, Reg.SEA.APPENDS, Reg.SEA.PURGED, Reg.SEA.VOIDS,
   Reg.SEA.DIGEST_MISMATCH]

/-- The block-specific fields of FAB. -/
def fieldsFAB : List Field :=
  [Reg.FAB_ADDR.ADDRESS, Reg.FAB_ADDR.ADDR_VALID, Reg.FAB_CFG.JOINED, Reg.FAB_CFG.INHERIT_EN,
   Reg.FAB_CFG.GW_INDEX, Reg.FAB_CFG.GW_MASK, Reg.FAB_CFG.FLOWLET_GAP, Reg.FAB_CFG.SEED_PERIOD,
   Reg.FAB_SLED.UP, Reg.FAB_SLED.GW, Reg.FAB_MIRROR.SETS, Reg.FAB_MIRROR.NOT_IN_SYNC, Reg.FAB.TRANSIT,
   Reg.FAB.ORIGINATED, Reg.FAB.TERMINATED, Reg.FAB.DROPPED, Reg.FAB.AUTH_FAIL, Reg.FAB.MSG_RETX,
   Reg.FAB.UNREACHABLE, Reg.LINK_STAT.LINK_STATE, Reg.LINK_STAT.NEIGH_ADDR, Reg.LINK_ERR.CRC_ERRS,
   Reg.LINK_ERR.RETRIES, Reg.LINK_FLITS_LO.FLITS_LO, Reg.LINK_FLITS_HI.FLITS_HI]

/-- The block-specific fields of UPD. -/
def fieldsUPD : List Field :=
  [Reg.UPD_STAGE.STAGE, Reg.UPD_STAGE.FROM_HOST, Reg.UPD_STAGE.FROM_PEER, Reg.UPD_STAGE.CHUNKS_TOTAL,
   Reg.UPD_CHUNKS.HELD, Reg.UPD_CHUNKS.FIRST_MISSING, Reg.UPD_SLOT.ACTIVE, Reg.UPD_SLOT.TRIAL,
   Reg.UPD_SLOT.REVERTED, Reg.UPD_SLOT.FALLBACK, Reg.UPD_SLOT.TRIAL_STARTS, Reg.UPD_SLOT.A_RUNNABLE,
   Reg.UPD_SLOT.B_RUNNABLE, Reg.UPD_SLOT.TRIAL_HOURS, Reg.UPD_GEN.GENERATION,
   Reg.UPD_VER_ACT.ACTIVE_FUNC, Reg.UPD_VER_STG.STAGED_FUNC, Reg.UPD_SEC.FUSE_COUNT,
   Reg.UPD_SEC.ACTIVE_SEC, Reg.UPD_SEC.STAGED_SEC, Reg.UPD_CFG.PEER_SERVE, Reg.UPD_CFG.PEER_PUSH,
   Reg.UPD_CFG.PEER_ACCEPT]

/-- The block-specific fields of DRM. -/
def fieldsDRM : List Field :=
  []

/-- The block-specific fields of DBG. -/
def fieldsDBG : List Field :=
  [Reg.DBG_STAT.LEVEL, Reg.DBG_STAT.PENDING, Reg.DBG_STAT.NO_CHALLENGE, Reg.DBG_STAT.PINS_HELD,
   Reg.DBG_STAT.BOOT_WAIT, Reg.DBG_STAT.HALTED, Reg.DBG_STAT.FAILS, Reg.DBG_STAT.LOCKOUT,
   Reg.DBG_POLICY.OBSERVE_EN, Reg.DBG_POLICY.FULL_EN]

/-- The block-specific fields of HLT. -/
def fieldsHLT : List Field :=
  [Reg.HLT_SUMMARY.TEMP, Reg.HLT_SUMMARY.WEAR, Reg.HLT_SUMMARY.FLASH_SPARE, Reg.HLT_SUMMARY.DISK_SPARE,
   Reg.HLT_SUMMARY.BALLAST, Reg.HLT_SUMMARY.MEDIA, Reg.HLT_SUMMARY.READ_ONLY,
   Reg.HLT_SUMMARY.DISK_WRITE_STOP, Reg.HLT_TEMP.TEMP_NOW, Reg.HLT_TEMP.TEMP_MAX,
   Reg.HLT_TEMP.TEMP_LIFE, Reg.HLT_TEMP.SENSOR, Reg.HLT_WEAR.FLASH_WEAR, Reg.HLT_WEAR.FLASH_SPARE_PCT,
   Reg.HLT_WEAR.DISK_SPARE_PCT, Reg.HLT_HOURS.POWERED_HOURS, Reg.HLT.FLASH_UNCORR, Reg.HLT.DISK_UNCORR,
   Reg.HLT.TAG_FAILS_LIFE, Reg.HLT.MEDIA_DAY, Reg.HLT_THRESH.TEMP_WARN, Reg.HLT_THRESH.WEAR_WARN,
   Reg.HLT_THRESH.MEDIA_WARN, Reg.LOG_NEXT.WORD, Reg.LOG_FIRST.WORD, Reg.LOG_SEL.WORD]

/-- The block-specific fields of the block with a code (Table 05-1). -/
def blockFields : Nat → List Field
  | 0 => fieldsGLB
  | 1 => fieldsAON
  | 2 => fieldsPWR
  | 3 => fieldsRST
  | 4 => fieldsNET
  | 5 => fieldsSKP
  | 6 => fieldsCMD
  | 7 => fieldsDIR
  | 8 => fieldsCAM
  | 9 => fieldsPAT
  | 10 => fieldsFLT
  | 11 => fieldsSRV
  | 12 => fieldsRDC
  | 13 => fieldsCRY
  | 14 => fieldsKEY
  | 15 => fieldsSEA
  | 16 => fieldsFAB
  | 17 => fieldsUPD
  | 18 => fieldsDRM
  | 19 => fieldsDBG
  | 20 => fieldsHLT
  | _ => []

/-- Instance pages of the block with a code (Table 05-1). -/
def instances : Nat → Nat
  | 4 => 10
  | 5 => 4
  | 7 => 16
  | 8 => 32
  | 9 => 16
  | 10 => 32
  | 11 => 4
  | 12 => 24
  | 13 => 8
  | 14 => 8
  | 16 => 4
  | 18 => 2
  | _ => 0

/-! The event bits. -/

/-- Table 03-18. -/
def Ev.PWR.BAL_FAIL : Event := ⟨2, false, 0⟩
/-- Table 03-18. -/
def Ev.PWR.BAL_PASS : Event := ⟨2, false, 1⟩
/-- Table 03-18. -/
def Ev.PWR.CAP_MISS : Event := ⟨2, false, 2⟩
/-- Table 03-18. -/
def Ev.PWR.THERM_LIMIT : Event := ⟨2, false, 3⟩
/-- Table 03-18. -/
def Ev.PWR.ENTRY_ABANDONED : Event := ⟨2, false, 4⟩
/-- Table 03-18. -/
def Ev.PWR.PWRFAIL_SEEN : Event := ⟨2, false, 5⟩
/-- Table 03-18. -/
def Ev.PWR.REFCLK_SD_LOST : Event := ⟨2, false, 6⟩
/-- Table 03-18. -/
def Ev.PWR.CRYSTAL_FAIL : Event := ⟨2, false, 7⟩
/-- Table 04-15. -/
def Ev.RST.START_DONE : Event := ⟨3, false, 0⟩
/-- Table 04-15. -/
def Ev.RST.STALEMATE : Event := ⟨3, false, 1⟩
/-- Table 04-15. -/
def Ev.RST.CFG_COMMIT_FAIL : Event := ⟨3, false, 2⟩
/-- Table 04-15. -/
def Ev.RST.CFG_WEAR : Event := ⟨3, false, 3⟩
/-- Table 04-15. -/
def Ev.RST.DISK_READY : Event := ⟨3, false, 4⟩
/-- Table 05-10. -/
def Ev.GLB.PIN_COMMITTED : Event := ⟨0, false, 0⟩
/-- Table 05-10. -/
def Ev.GLB.OWNER_RELEASED : Event := ⟨0, false, 1⟩
/-- Table 06-11. -/
def Ev.NET.FAB_DISCARD : Event := ⟨4, false, 0⟩
/-- Table 06-11. -/
def Ev.NET_I.LINK_UP : Event := ⟨4, true, 0⟩
/-- Table 06-11. -/
def Ev.NET_I.LINK_DOWN : Event := ⟨4, true, 1⟩
/-- Table 06-11. -/
def Ev.NET_I.AN_FAIL : Event := ⟨4, true, 2⟩
/-- Table 06-11. -/
def Ev.NET_I.FEC_UNCORR : Event := ⟨4, true, 3⟩
/-- Table 06-14. -/
def Ev.SKP.SESSIONS_FULL : Event := ⟨5, false, 0⟩
/-- Table 06-14. -/
def Ev.SKP.AUTH_BURST : Event := ⟨5, false, 1⟩
/-- Table 06-14. -/
def Ev.SKP.RETX_END : Event := ⟨5, false, 2⟩
/-- Table 07-12. -/
def Ev.CMD.TAGS_FULL : Event := ⟨6, false, 0⟩
/-- Table 07-12. -/
def Ev.CMD.QUEUE_FULL : Event := ⟨6, false, 1⟩
/-- Table 07-12. -/
def Ev.CMD.STAMP_CONFLICT : Event := ⟨6, false, 2⟩
/-- Table 07-12. -/
def Ev.CMD.UPLOAD_EXPIRED : Event := ⟨6, false, 3⟩
/-- Table 08-15. -/
def Ev.DIR.RESEED : Event := ⟨7, false, 0⟩
/-- Table 08-15. -/
def Ev.DIR.REBUILD_DONE : Event := ⟨7, false, 1⟩
/-- Table 08-15. -/
def Ev.DIR.DIR_FAULT : Event := ⟨7, false, 2⟩
/-- Table 08-15. -/
def Ev.DIR.CAPACITY_90 : Event := ⟨7, false, 3⟩
/-- Table 09-9. -/
def Ev.CAM.CAM_PARITY : Event := ⟨8, false, 0⟩
/-- Table 09-9. -/
def Ev.CAM.TABLE_LOST : Event := ⟨8, false, 1⟩
/-- Table 10-9. -/
def Ev.PAT.IMAGE_LOADED : Event := ⟨9, false, 0⟩
/-- Table 10-9. -/
def Ev.PAT.RECORD_DROPPED : Event := ⟨9, false, 1⟩
/-- Table 10-9. -/
def Ev.PAT.WATCH_STATE_FULL : Event := ⟨9, false, 2⟩
/-- Table 10-9. -/
def Ev.PAT.EVENTS_LOST : Event := ⟨9, false, 3⟩
/-- Table 10-9. -/
def Ev.PAT.WATCH_LOST : Event := ⟨9, false, 4⟩
/-- Table 11-15. -/
def Ev.FLT.SPARE_LOW : Event := ⟨10, false, 0⟩
/-- Table 11-15. -/
def Ev.FLT.READ_ONLY : Event := ⟨10, false, 1⟩
/-- Table 11-15. -/
def Ev.FLT.CH_OFFLINE : Event := ⟨10, false, 2⟩
/-- Table 11-15. -/
def Ev.FLT.DIE_LOST : Event := ⟨10, false, 3⟩
/-- Table 11-15. -/
def Ev.FLT.UNCORR : Event := ⟨10, false, 4⟩
/-- Table 11-15. -/
def Ev.FLT.GC_MANDATORY : Event := ⟨10, false, 5⟩
/-- Table 11-15. -/
def Ev.FLT.FORCED_DEMOTE : Event := ⟨10, false, 6⟩
/-- Table 11-15. -/
def Ev.FLT.UNSUPPORTED_NAND : Event := ⟨10, false, 7⟩
/-- Table 11-15. -/
def Ev.FLT.JOURNAL_TRIMMED : Event := ⟨10, false, 8⟩
/-- Table 11-15. -/
def Ev.FLT_I.RETRAINED : Event := ⟨10, true, 0⟩
/-- Table 11-15. -/
def Ev.FLT_I.RATE_LOWERED : Event := ⟨10, true, 1⟩
/-- Table 11-15. -/
def Ev.FLT_I.BLOCK_RETIRED : Event := ⟨10, true, 2⟩
/-- Table 12-16. -/
def Ev.SRV.SPINUP_FAIL : Event := ⟨11, false, 0⟩
/-- Table 12-16. -/
def Ev.SRV.HEAD_DROPPED : Event := ⟨11, false, 1⟩
/-- Table 12-16. -/
def Ev.SRV.HEAD_OUT : Event := ⟨11, false, 2⟩
/-- Table 12-16. -/
def Ev.SRV.PREAMP_FAULT : Event := ⟨11, false, 3⟩
/-- Table 12-16. -/
def Ev.SRV.SHOCK : Event := ⟨11, false, 4⟩
/-- Table 12-16. -/
def Ev.SRV.CAL_DONE : Event := ⟨11, false, 5⟩
/-- Table 12-16. -/
def Ev.SRV.RETRACTED : Event := ⟨11, false, 6⟩
/-- Table 12-16. -/
def Ev.SRV.MOT_LINK_ERR : Event := ⟨11, false, 7⟩
/-- Table 13-11. -/
def Ev.RDC.DISK_SPARE_LOW : Event := ⟨12, false, 0⟩
/-- Table 13-11. -/
def Ev.RDC.DISK_WRITE_STOP : Event := ⟨12, false, 1⟩
/-- Table 13-11. -/
def Ev.RDC.DISK_UNCORR : Event := ⟨12, false, 2⟩
/-- Table 13-11. -/
def Ev.RDC.SHORT_BAND : Event := ⟨12, false, 3⟩
/-- Table 13-11. -/
def Ev.RDC.CLEAN_MANDATORY : Event := ⟨12, false, 4⟩
/-- Table 13-11. -/
def Ev.RDC.BAND_RETIRED : Event := ⟨12, false, 5⟩
/-- Table 13-11. -/
def Ev.RDC_I.SAMPLES_LOST : Event := ⟨12, true, 0⟩
/-- Table 14-11. -/
def Ev.CRY.ENTROPY_FAIL : Event := ⟨13, false, 0⟩
/-- Table 14-11. -/
def Ev.CRY.DRBG_STOPPED : Event := ⟨13, false, 1⟩
/-- Table 14-11. -/
def Ev.CRY.TAG_FAIL : Event := ⟨13, false, 2⟩
/-- Table 14-11. -/
def Ev.CRY.KEY_CHANGED : Event := ⟨13, false, 3⟩
/-- Table 14-11. -/
def Ev.CRY.NONCE_EXHAUSTED : Event := ⟨13, false, 4⟩
/-- Table 14-11. -/
def Ev.CRY.KAT_FAIL : Event := ⟨13, false, 5⟩
/-- Table 15-10. -/
def Ev.KEY.SLOT_CHANGED : Event := ⟨14, false, 0⟩
/-- Table 15-10. -/
def Ev.KEY.VAULT_FAULT : Event := ⟨14, false, 1⟩
/-- Table 15-10. -/
def Ev.KEY.ENROLLED : Event := ⟨14, false, 2⟩
/-- Table 16-9. -/
def Ev.SEA.TIME_ADVANCED : Event := ⟨15, false, 0⟩
/-- Table 16-9. -/
def Ev.SEA.TIME_RESTORED : Event := ⟨15, false, 1⟩
/-- Table 16-9. -/
def Ev.SEA.MIRROR_DIVERGED : Event := ⟨15, false, 2⟩
/-- Table 16-9. -/
def Ev.SEA.RETENTION_REFUSED : Event := ⟨15, false, 3⟩
/-- Table 17-16. -/
def Ev.FAB.ROUTE_CHANGED : Event := ⟨16, false, 0⟩
/-- Table 17-16. -/
def Ev.FAB.ROUTE_DEGRADED : Event := ⟨16, false, 1⟩
/-- Table 17-16. -/
def Ev.FAB.MIRROR_DEGRADED : Event := ⟨16, false, 2⟩
/-- Table 17-16. -/
def Ev.FAB.MIRROR_IN_SYNC : Event := ⟨16, false, 3⟩
/-- Table 17-16. -/
def Ev.FAB.INHERITED : Event := ⟨16, false, 4⟩
/-- Table 17-16. -/
def Ev.FAB.GW_LOST : Event := ⟨16, false, 5⟩
/-- Table 17-16. -/
def Ev.FAB_I.LINK_UP : Event := ⟨16, true, 0⟩
/-- Table 17-16. -/
def Ev.FAB_I.LINK_DOWN : Event := ⟨16, true, 1⟩
/-- Table 17-16. -/
def Ev.FAB_I.WIRING_FAULT : Event := ⟨16, true, 2⟩
/-- Table 17-16. -/
def Ev.FAB_I.KEY_MISMATCH : Event := ⟨16, true, 3⟩
/-- Table 17-16. -/
def Ev.FAB_I.NEIGH_STALEMATE : Event := ⟨16, true, 4⟩
/-- Table 18-15. -/
def Ev.UPD.STAGED_COMPLETE : Event := ⟨17, false, 0⟩
/-- Table 18-15. -/
def Ev.UPD.VERIFIED : Event := ⟨17, false, 1⟩
/-- Table 18-15. -/
def Ev.UPD.VERIFY_FAIL : Event := ⟨17, false, 2⟩
/-- Table 18-15. -/
def Ev.UPD.ACTIVATED : Event := ⟨17, false, 3⟩
/-- Table 18-15. -/
def Ev.UPD.CONFIRMED : Event := ⟨17, false, 4⟩
/-- Table 18-15. -/
def Ev.UPD.REVERTED : Event := ⟨17, false, 5⟩
/-- Table 18-15. -/
def Ev.UPD.FALLBACK : Event := ⟨17, false, 6⟩
/-- Table 18-15. -/
def Ev.UPD.SUPERSEDED : Event := ⟨17, false, 7⟩
/-- Table 19-8. -/
def Ev.HLT.TEMP_WARN : Event := ⟨20, false, 0⟩
/-- Table 19-8. -/
def Ev.HLT.WEAR_WARN : Event := ⟨20, false, 1⟩
/-- Table 19-8. -/
def Ev.HLT.SPARE_WARN : Event := ⟨20, false, 2⟩
/-- Table 19-8. -/
def Ev.HLT.BALLAST_WARN : Event := ⟨20, false, 3⟩
/-- Table 19-8. -/
def Ev.HLT.MEDIA_WARN : Event := ⟨20, false, 4⟩
/-- Table 19-8. -/
def Ev.HLT.LOG_WRAP : Event := ⟨20, false, 5⟩
/-- Table 19-8. -/
def Ev.HLT.LOG_VOLATILE : Event := ⟨20, false, 6⟩
/-- Table 19-8. -/
def Ev.HLT.INTERNAL : Event := ⟨20, false, 7⟩
/-- Table 20-8. -/
def Ev.DBG.UNLOCK_OBSERVE : Event := ⟨19, false, 0⟩
/-- Table 20-8. -/
def Ev.DBG.UNLOCK_FULL : Event := ⟨19, false, 1⟩
/-- Table 20-8. -/
def Ev.DBG.UNLOCK_FAIL : Event := ⟨19, false, 2⟩
/-- Table 20-8. -/
def Ev.DBG.CORE_HALTED : Event := ⟨19, false, 3⟩
/-- Table 20-8. -/
def Ev.DBG.PINS_HELD : Event := ⟨19, false, 4⟩

/-- The event bits that a page implements (R120): the block page and the instance pages of each block. -/
def evtMask : Nat → Bool → Nat
  | 0, false => 0x3
  | 2, false => 0xFF
  | 3, false => 0x1F
  | 4, false => 0x1
  | 4, true => 0xF
  | 5, false => 0x7
  | 6, false => 0xF
  | 7, false => 0xF
  | 8, false => 0x3
  | 9, false => 0x1F
  | 10, false => 0x1FF
  | 10, true => 0x7
  | 11, false => 0xFF
  | 12, false => 0x3F
  | 12, true => 0x1
  | 13, false => 0x3F
  | 14, false => 0x7
  | 15, false => 0xF
  | 16, false => 0x3F
  | 16, true => 0x1F
  | 17, false => 0xFF
  | 19, false => 0x1F
  | 20, false => 0xFF
  | _, _ => 0

end Sys2Proof.Machine
end

