-- ==== Sys2Proof/Machine/Ops.lean ====
section
/-! DEFINITION. The named operations every meaning is made of: sparse tables, byte memory, register fields,
events and the event log, what the device emits, and the byte-order helpers of R13 to R15. -/

namespace Sys2Proof.Machine

open Sys2Proof

/-! ## Sparse tables -/

/-- The entry at a key: `d` of the key where the table lists none. -/
def SMap.get {α : Type} (d : Nat → α) : SMap α → Nat → α
  | [], k => d k
  | (a, v) :: t, k => if k = a then v else if k < a then d k else SMap.get d t k

/-- The table with one entry written: keys stay rising, an entry equal to its default is not listed. -/
def SMap.set {α : Type} [DecidableEq α] (d : Nat → α) (k : Nat) (v : α) : SMap α → SMap α
  | [] => if v = d k then [] else [(k, v)]
  | (a, w) :: t =>
    if k < a then (if v = d k then (a, w) :: t else (k, v) :: (a, w) :: t)
    else if k = a then (if v = d k then t else (k, v) :: t)
    else (a, w) :: SMap.set d k v t

/-- The canonical form: keys above `lo` and strictly rising, no entry equal to its default. -/
def SMap.wfFrom {α : Type} [DecidableEq α] (d : Nat → α) : Nat → SMap α → Bool
  | _, [] => true
  | lo, (a, v) :: t => decide (lo ≤ a) && decide (v ≠ d a) && SMap.wfFrom d (a + 1) t

/-- The canonical form of a table. -/
def SMap.wf {α : Type} [DecidableEq α] (d : Nat → α) (m : SMap α) : Bool := SMap.wfFrom d 0 m

/-! ## Sorting -/

/-- An element put before the first one that it does not follow. -/
def insertBy {α : Type} (le : α → α → Bool) (x : α) : List α → List α
  | [] => [x]
  | y :: ys => if le x y then x :: y :: ys else y :: insertBy le x ys

/-- A list in the order `le`; elements that `le` does not part stay in their order. -/
def sortBy {α : Type} (le : α → α → Bool) (xs : List α) : List α := xs.foldr (insertBy le) []

/-! ## Byte memory of the debug port's address spaces (Table 20-5) -/

/-- What an unlisted byte reads as: log entry 7, DESIGN CHOICE. -/
def memDefault (_ : Nat) : Byte := 0

/-- One byte of a memory. -/
def Memory.read (m : Memory) (a : Nat) : Byte := SMap.get memDefault m a

/-- A memory with one byte written. -/
def Memory.write (m : Memory) (a : Nat) (b : Byte) : Memory := SMap.set memDefault a b m

/-- The canonical form of a memory. -/
def Memory.wf (m : Memory) : Bool := SMap.wf memDefault m

/-- `n` bytes from an address on. -/
def Memory.readBytes (m : Memory) (a : Nat) : Nat → Bytes
  | 0 => []
  | n + 1 => m.read a :: Memory.readBytes m (a + 1) n

/-- A run of bytes written from an address on. -/
def Memory.writeBytes (m : Memory) (a : Nat) : Bytes → Memory
  | [] => m
  | b :: bs => Memory.writeBytes (m.write a b) (a + 1) bs

/-! ## Byte order (R13, R15) and bit fields -/

/-- Little-endian value of a run of bytes. -/
def leNat : Bytes → Nat
  | [] => 0
  | b :: bs => b.toNat + 256 * leNat bs

/-- Big-endian value of a run of bytes. -/
def beNat (bs : Bytes) : Nat := bs.foldl (fun n b => 256 * n + b.toNat) 0

/-- `n` bytes of a value, little-endian. -/
def leBytes : Nat → Nat → Bytes
  | 0, _ => []
  | n + 1, v => BitVec.ofNat 8 v :: leBytes n (v / 256)

/-- `n` bytes of a value, big-endian. -/
def beBytes (n v : Nat) : Bytes := (leBytes n v).reverse

/-- Bytes `off` to `off + n − 1` of a run. -/
def sliceB (bs : Bytes) (off n : Nat) : Bytes := (bs.drop off).take n

/-- Little-endian field of `n` bytes at an offset. -/
def leAt (bs : Bytes) (off n : Nat) : Nat := leNat (sliceB bs off n)

/-- Big-endian field of `n` bytes at an offset. -/
def beAt (bs : Bytes) (off n : Nat) : Nat := beNat (sliceB bs off n)

/-- Every byte is zero: a reserved field (R20). -/
def allZero (bs : Bytes) : Bool := bs.all (fun b => b == 0)

/-- Bits `lo` to `lo + w − 1` of a number. -/
def bitsOf (v lo w : Nat) : Nat := (v >>> lo) % 2 ^ w

/-- One bit of a number. -/
def bitOf (v i : Nat) : Bool := Nat.testBit v i

/-- A count that holds at its greatest value. -/
def satAdd (w v n : Nat) : Nat := min (2 ^ w - 1) (v + n)

/-! ## Register words and fields (chapter 05) -/

/-- Whether a field stands on page `page` of its block (R116; NET lane pages are instances 2 to 9). -/
def Field.onPage (f : Field) (page : Nat) : Bool :=
  match f.page with
  | .block => page == 0
  | .inst => decide (1 ≤ page)
  | .lane => decide (3 ≤ page)
  | .cipher => decide (1 ≤ page) && decide (page ≤ 6)
  | .hash => decide (7 ≤ page)

/-- The fields of the block-specific register at an offset of a page. -/
def fieldsAt (block page off : Nat) : List Field :=
  (blockFields block).filter fun f =>
    f.onPage page && decide (f.off ≤ off) && decide (off < f.off + 4 * f.n)

/-- The block, page and offset an address names (R116). -/
def addrBlock (a : Nat) : Nat := a / 0x40000
def addrPage (a : Nat) : Nat := a / 0x1000 % 64
def addrOff (a : Nat) : Nat := a % 0x1000

/-- The address of a page (R116). -/
def pageAddr (block page : Nat) : Nat := block * 0x40000 + page * 0x1000

/-- The page is present (R116). -/
def pagePresent (block page : Nat) : Bool := decide (block < 21) && decide (page ≤ instances block)

/-- Header offsets (Table 05-2). -/
def hPageId : Nat := 0x000
def hCaps : Nat := 0x004
def hCtrl : Nat := 0x008
def hStatus : Nat := 0x00C
def hEvtStat : Nat := 0x010
def hEvtEn : Nat := 0x014
def hEvtForce : Nat := 0x018
def hErrCapt : Nat := 0x01C
def hOwner : Nat := 0x020
def hPwrReq : Nat := 0x024

/-- OWNER at a start (R125): PATH device firmware with LOCK and STICKY on KEY, SEA and UPD; else 0. -/
def ownerReset (block : Nat) : Nat :=
  if block = 14 ∨ block = 15 ∨ block = 17 then 0x33000 else 0

/-- The Reset value of the register at an address (Table 05-2 and the block tables). -/
def regReset (a : Nat) : Word :=
  let b := addrBlock a
  let off := addrOff a
  if off = hEvtEn then BitVec.ofNat 32 (evtMask b (addrPage a != 0))
  else if off = hOwner then BitVec.ofNat 32 (ownerReset b)
  else if off < 0x40 then 0
  else BitVec.ofNat 32 ((fieldsAt b (addrPage a) off).foldl (fun n f => n + f.reset * 2 ^ f.lo) 0)

/-- The mask of bits `lo` to `lo + w − 1`. -/
def fieldMask (lo w : Nat) : Word := BitVec.ofNat 32 ((2 ^ w - 1) * 2 ^ lo)

/-- A field of a word, as a number. -/
def wordGet (x : Word) (lo w : Nat) : Nat := bitsOf x.toNat lo w

/-- A word with a field replaced. -/
def wordPut (x : Word) (lo w v : Nat) : Word :=
  (x &&& ~~~(fieldMask lo w)) ||| BitVec.ofNat 32 ((v % 2 ^ w) * 2 ^ lo)

/-- The stored word at an address. -/
def State.word (s : State) (a : Nat) : Word := SMap.get regReset s.regs a

/-- The state with one stored word replaced. -/
def State.setWord (s : State) (a : Nat) (v : Word) : State :=
  { s with regs := SMap.set regReset a v s.regs }

/-- The address of a field's register: instance `i` (ignored on a block page), copy `k`. -/
def Field.addr (f : Field) (i k : Nat) : Nat :=
  match f.page with
  | .block => f.block * 0x40000 + f.off + 4 * k
  | _ => f.block * 0x40000 + (i + 1) * 0x1000 + f.off + 4 * k

/-- The stored value of a field, instance `i`, copy `k`. -/
def State.rdAt (s : State) (f : Field) (i k : Nat) : Nat := wordGet (s.word (f.addr i k)) f.lo f.width

/-- The stored value of a block-page field. -/
def State.rd (s : State) (f : Field) : Nat := s.rdAt f 0 0

/-- The state with a field's stored value replaced. -/
def State.wrAt (s : State) (f : Field) (i k v : Nat) : State :=
  s.setWord (f.addr i k) (wordPut (s.word (f.addr i k)) f.lo f.width v)

/-- The state with a block-page field's stored value replaced. -/
def State.wr (s : State) (f : Field) (v : Nat) : State := s.wrAt f 0 0 v

/-- A stored one-bit field, as a Bool. -/
def State.rdB (s : State) (f : Field) : Bool := s.rd f != 0

/-- A counter of a block page raised by `n`; it holds at its greatest value (chapters 06 to 19). -/
def State.count (s : State) (f : Field) (n : Nat) : State := s.wr f (satAdd f.width (s.rd f) n)

/-- A counter of an instance page raised by `n`. -/
def State.countAt (s : State) (f : Field) (i n : Nat) : State :=
  s.wrAt f i 0 (satAdd f.width (s.rdAt f i 0) n)

/-- A counter pair of R128 (low and high word) raised by `n`. -/
def State.count64 (s : State) (lo hi : Field) (i n : Nat) : State :=
  let v := s.rdAt lo i 0 + 2 ^ 32 * s.rdAt hi i 0 + n
  (s.wrAt lo i 0 v).wrAt hi i 0 (v / 2 ^ 32)

/-! ## Emitting, free values -/

/-- The device emits something. -/
def State.emit (s : State) (o : Output) : State := { s with out := s.out ++ [o] }

/-- The state after one free value has been taken: the value is a constant of Config applied to `s.free`
(log entry 6). -/
def State.tookFree (s : State) : State := { s with free := s.free + 1 }

/-- `n` bytes drawn from the DRBG (R347). -/
def State.draw (s : State) (n : Nat) : Bytes := (List.range n).map (Config.drbgByte s.free)

/-! ## Events and the event log (R120, R462 to R464, R466) -/

/-- The page of an event. -/
def Event.page (e : Event) (inst : Nat) : Nat := if e.inst then inst + 1 else 0

/-- The instance number an event record shows. -/
def Event.instNo (e : Event) (inst : Nat) : Nat := if e.inst then inst else 0

/-- The device is in stalemate, which a drain of R85 does not end: STALE_STAT.ACTIVE stays 1 through it (R111, R112). -/
def State.inStale (s : State) : Bool :=
  match s.dev.phase with
  | .stalemate => true
  | .drained _ => (s.word 0xC0048).getLsbD 0
  | _ => false

/-- The log keeps records in the DRAM ring only (R463): read-only, stalemate, or the tier not mounted. -/
def State.logVolatile (s : State) : Bool :=
  s.flash.readOnly || s.inStale || !s.flash.mounted

/-- Append to a bounded list, dropping the oldest; true when one was dropped. -/
def pushBounded {α : Type} (cap : Nat) (l : List α) (x : α) : List α × Bool :=
  if l.length < cap then (l ++ [x], false) else (l.drop (l.length + 1 - cap) ++ [x], true)

/-- The newest record held, if any. -/
def Log.newest (l : Log) : Option LogRec :=
  match l.buffer.getLast?, l.ring.getLast?, l.flash.getLast? with
  | some b, some r, _ => if b.seq < r.seq then some r else some b
  | some b, none, _ => some b
  | none, some r, some f => if f.seq < r.seq then some r else some f
  | none, some r, none => some r
  | none, none, f => f

/-- A log with one more record: in the buffer of 256, or in the ring of 4,096 (R463); true when a record was
overwritten or dropped. -/
def Log.push (l : Log) (isVolatile : Bool) (r : LogRec) : Log × Bool :=
  let p := if isVolatile then pushBounded 4096 l.ring r else pushBounded 256 l.buffer r
  if isVolatile then ({ l with ring := p.1, nextSeq := l.nextSeq + 1 }, p.2)
  else ({ l with buffer := p.1, nextSeq := l.nextSeq + 1 }, p.2)

/-- Raise REPEATS of the record with a sequence number (R464). -/
def Log.repeat (l : Log) (seq : Nat) : Log :=
  let up := fun (r : LogRec) => if r.seq = seq then { r with repeats := satAdd 16 r.repeats 1 } else r
  { l with flash := l.flash.map up, buffer := l.buffer.map up, ring := l.ring.map up }

/-- Make one log record (Table 19-2), set LOG_WRAP or LOG_VOLATILE where R463 says so; a record of these two
bits themselves is made only when the bit rises (log entry 20). -/
def State.logRecord (s : State) (block inst bit : Nat) (enabled forced : Bool) (status detail : Nat) : State :=
  let mk := fun (s : State) (block inst bit : Nat) (en fo : Bool) (status detail : Nat) =>
    ({ seq := s.log.nextSeq, startNo := (s.word 0x40044).toNat, time := s.sea.time, madeMs := s.dev.clockMs,
       block := block, inst := inst, bit := bit, enabled := en, forced := fo, status := status, repeats := 0,
       detail := detail } : LogRec)
  let note := fun (s : State) (bit : Nat) =>
    let a := 0x500010
    if (s.word a).getLsbD bit then s
    else
      let s := s.setWord a (s.word a ||| BitVec.ofNat 32 (2 ^ bit))
      let r := mk s 20 0 bit ((s.word 0x500014).getLsbD bit) false 0 0
      { s with log := (s.log.push s.logVolatile r).1 }
  let p := s.log.push s.logVolatile (mk s block inst bit enabled forced status detail)
  let isVol := s.logVolatile
  let s := { s with log := p.1 }
  let s := if p.2 then note s 5 else s
  if isVol then note s 6 else s

/-- A note of Table 19-3; notes are never merged (R464). -/
def State.note (s : State) (block code status detail : Nat) : State :=
  s.logRecord block 0 code false false status detail

/-- An event bit is set and its record made or merged (R120, R462, R464). -/
def State.raiseWith (s : State) (e : Event) (inst : Nat) (forced : Bool) (status detail : Nat) : State :=
  let base := pageAddr e.block (e.page inst)
  if bitOf (evtMask e.block e.inst) e.bit then
    let s := s.setWord (base + hEvtStat) (s.word (base + hEvtStat) ||| BitVec.ofNat 32 (2 ^ e.bit))
    match s.log.newest with
    | some r =>
      if r.block = e.block ∧ r.inst = e.instNo inst ∧ r.bit = e.bit ∧ s.dev.clockMs ≤ r.madeMs + 10 then
        { s with log := s.log.repeat r.seq }
      else s.logRecord e.block (e.instNo inst) e.bit ((s.word (base + hEvtEn)).getLsbD e.bit) forced status detail
    | none =>
      s.logRecord e.block (e.instNo inst) e.bit ((s.word (base + hEvtEn)).getLsbD e.bit) forced status detail
  else s

/-- An event of a block page. -/
def State.raise (s : State) (e : Event) : State := s.raiseWith e 0 false 0 0

/-- An event of an instance page. -/
def State.raiseI (s : State) (e : Event) (inst : Nat) : State := s.raiseWith e inst false 0 0

/-- A block reports an error with a status: ERR_CAPT captures the first, and counts the later ones (R118). -/
def State.capture (s : State) (block page status offset : Nat) : State :=
  let a := pageAddr block page + hErrCapt
  let w := s.word a
  if w.getLsbD 31 then s.setWord a (wordPut w 26 5 (satAdd 5 (wordGet w 26 5) 1))
  else s.setWord a (BitVec.ofNat 32 (2 ^ 31 + (offset / 4 % 1024) * 2 ^ 16 + status % 65536))

/-- A block reports an error: an event that concerns a status code, which its record carries (Table 19-2) and ERR_CAPT of its
block page captures (R118); no register is concerned, so OFFSET is 0 (log entry 172). -/
def State.report (s : State) (e : Event) (status : Nat) : State := (s.raiseWith e 0 false status 0).capture e.block 0 status 0

/-- A warning is raised, if it does not hold already: its HLT_SUMMARY bit and its event with DETAIL (R466). -/
def State.warn (s : State) (f : Field) (e : Event) (detail : Nat) : State :=
  if s.rdB f then s else (s.wr f 1).raiseWith e 0 false 0 detail

/-! ## What no command changes -/

/-- The outcome of a command whose effect takes the state to `t`. A command acts on everything but the queue (log entry
1). The memories that only the debug port reaches (R475) and the fuses (Table 15-1) stay as they are: the few commands that
change them end in `doneMem`, `doneBlown` or `doneStart`. -/
def State.done (s t : State) : Host.Outcome State Fault Refusal :=
  .next { t with pending := s.pending, sram := s.sram, dram := s.dram, key := { t.key with fuses := s.key.fuses } }

/-- The outcome of a command that writes the memories of the debug port. -/
def State.doneMem (s t : State) (sram dram : Memory) : Host.Outcome State Fault Refusal :=
  .next { t with pending := s.pending, sram := sram, dram := dram, key := { t.key with fuses := s.key.fuses } }

/-- Fuses after ENROL, OPER_PK or ROLLBACK bits have been blown: a blown bit stays blown (Table 15-1). -/
def Fuses.blown (a b : Fuses) : Fuses :=
  { a with enrolled := a.enrolled || b.enrolled, operPk := b.operPk, rollback := max a.rollback b.rollback }

/-- The outcome of a command that blows fuses. -/
def State.doneBlown (s t : State) : Host.Outcome State Fault Refusal :=
  .next { t with pending := s.pending, sram := s.sram, dram := s.dram,
                 key := { t.key with fuses := s.key.fuses.blown t.key.fuses } }

/-! ## Lists keyed by a property -/

/-- Replace the elements that satisfy `p`. -/
def updWhere {α : Type} (p : α → Bool) (f : α → α) (l : List α) : List α :=
  l.map fun x => if p x then f x else x

/-- Replace the element that satisfies `p`, or add it at the end. -/
def putWhere {α : Type} (p : α → Bool) (x : α) (l : List α) : List α :=
  if l.any p then l.map (fun y => if p y then x else y) else l ++ [x]

/-- Remove the elements that satisfy `p`. -/
def dropWhere {α : Type} (p : α → Bool) (l : List α) : List α := l.filter fun x => !p x

/-- Key order of R172: shorter first when one is a prefix of the other. -/
def bytesLt : Bytes → Bytes → Bool
  | [], [] => false
  | [], _ :: _ => true
  | _ :: _, [] => false
  | a :: as, b :: bs => if a = b then bytesLt as bs else decide (a.toNat < b.toNat)

/-- At or before in the order of byte strings. -/
def bytesLe (a b : Bytes) : Bool := !bytesLt b a

end Sys2Proof.Machine
end

