-- ==== Sys2Proof/Machine/Crypto.lean ====
section
/-! DEFINITION. The cryptographic functions that chapters 06, 11, 14, 15 and 18 name: AES and its modes of Table
14-1, SHA-256 and SHA-384 (R337), SipHash-2-4 (R191), CRC-32C and CRC-8, and HSS verification (R378). The spec
names the standards; the algorithms are taken from them (log entry 8, PRESUMED). Words are numbers, so that
Lean's kernel computes with them. -/

namespace Sys2Proof.Machine

open Sys2Proof

/-! ## AES (FIPS 197) -/

/-- The AES S-box (FIPS 197), byte x at bits 8x. -/
def aesSbox : Nat :=
  0x16BB54B00F2D99416842E6BF0D89A18CDF2855CEE9871E9B948ED9691198F8E19E1DC186B95735610EF6034866B53E708A8BBD4B1F74DDE8C6B4A61C2E2578BA08AE7A65EAF4566CA94ED58D6D37C8E779E4959162ACD3C25C2406490A3A32E0DB0B5EDE14B8EE4688902A22DC4F816073195D643D7EA7C41744975FEC130CCDD2F3FF1021DAB6BCF5389D928F40A351A89F3C507F02F94585334D43FBAAEFD0CF584C4A39BECB6A5BB1FC20ED00D153842FE329B3D63B52A05A6E1B1A2C830975B227EBE28012079A059618C323C7041531D871F1E5A534CCF73F362693FDB7C072A49CAFA2D4ADF04759FA7DC982CA76ABD7FE2B670130C56F6BF27B777C63

/-- The inverse AES S-box (FIPS 197), byte x at bits 8x. -/
def aesInvSbox : Nat :=
  0x7D0C2155631469E126D677BA7E042B17619953833CBBEBC8B0F52AAE4D3BE0A0EF9CC9939F7AE52D0D4AB519A97F51605FEC8027591012B131C7078833A8DD1FF45ACD78FEC0DB9A2079D2C64B3E56FC1BBE18AA0E62B76F89C5291D711AF1476EDF751CE837F9E28535ADE72274AC9673E6B4F0CECFF297EADC674F4111913A6B8A130103BDAFC1020F3FCA8F1E2CD00645B3B80558E4F70AD3BC8C00ABD890849D8DA75746155EDAB9EDFD5048706C92B6655DCC5CA4D41698688664F6F87225D18B6D49A25B76B224D92866A12E084EC3FA420B954CEE3D23C2A632947B54CBE9DEC444438E3487FF2F9B8239E37CFBD7F3819EA340BF38A53630D56A0952

/-- The SHA-256 constants (FIPS 180-4), word t at bits 32t. -/
def sha256K : Nat :=
  0xC67178F2BEF9A3F7A4506CEB90BEFFFA8CC7020884C8781478A5636F748F82EE682E6FF35B9CCA4F4ED8AA4A391C0CB334B0BCB52748774C1E376C0819A4C116106AA070F40E3585D6990624D192E819C76C51A3C24B8B70A81A664BA2BFE8A192722C8581C2C92E766A0ABB650A735453380D134D2C6DFC2E1B213827B70A851429296706CA6351D5A79147C6E00BF3BF597FC7B00327C8A831C66D983E515276F988DA5CB0A9DC4A7484AA2DE92C6F240CA1CC0FC19DC6EFBE4786E49B69C1C19BF1749BDC06A780DEB1FE72BE5D74550C7DC3243185BE12835B01D807AA98AB1C5ED5923F82A459F111F13956C25BE9B5DBA5B5C0FBCF71374491428A2F98

/-- The SHA-384 constants (FIPS 180-4), word t at bits 64t. -/
def sha512K : Nat :=
  0x6C44198C4A4758175FCB6FAB3AD6FAEC597F299CFC657E2A4CC5D4BECB3E42B6431D67C49C100D4C3C9EBE0A15C9BEBC32CAAB7B40C7249328DB77F523047D841B710B35131C471B113F9804BEF90DAE0A637DC5A2C898A606F067AA72176FBAF57D4F7FEE6ED178EADA7DD6CDE0EB1ED186B8C721C0C207CA273ECEEA26619CC67178F2E372532BBEF9A3F7B2C67915A4506CEBDE82BDE990BEFFFA23631E288CC702081A6439EC84C87814A1F0AB7278A5636F43172F60748F82EE5DEFB2FC682E6FF3D6B2B8A35B9CCA4F7763E3734ED8AA4AE3418ACB391C0CB3C5C95A6334B0BCB5E19B48A82748774CDF8EEB991E376C085141AB5319A4C116B8D2D0C8106AA07032BBD1B8F40E35855771202AD69906245565A910D192E819D6EF5218C76C51A30654BE30C24B8B70D0F89791A81A664BBC423001A2BFE8A14CF1036492722C851482353B81C2C92E47EDAEE6766A0ABB3C77B2A8650A73548BAF63DE53380D139D95B3DF4D2C6DFC5AC42AED2E1B21385C26C92627B70A8546D22FFC142929670A0E6E7006CA6351E003826FD5A79147930AA725C6E00BF33DA88FC2BF597FC7BEEF0EE4B00327C898FB213FA831C66D2DB43210983E5152EE66DFAB76F988DA831153B55CB0A9DCBD41FBD44A7484AA6EA6E4832DE92C6F592B0275240CA1CC77AC9C650FC19DC68B8CD5B5EFBE4786384F25E3E49B69C19EF14AD2C19BF174CF6926949BDC06A725C7123580DEB1FE3B1696B172BE5D74F27B896F550C7DC3D5FFB4E2243185BE4EE4B28C12835B0145706FBED807AA98A3030242AB1C5ED5DA6D8118923F82A4AF194F9B59F111F1B605D0193956C25BF348B538E9B5DBA58189DBBCB5C0FBCFEC4D3B2F7137449123EF65CD428A2F98D728AE22

/-- The SHA-256 initial value (FIPS 180-4). -/
def sha256H0 : List Nat :=
  [0x6A09E667, 0xBB67AE85, 0x3C6EF372, 0xA54FF53A, 0x510E527F, 0x9B05688C, 0x1F83D9AB, 0x5BE0CD19]

/-- The SHA-384 initial value (FIPS 180-4). -/
def sha384H0 : List Nat :=
  [0xCBBB9D5DC1059ED8,
   0x629A292A367CD507,
   0x9159015A3070DD17,
   0x152FECD8F70E5939,
   0x67332667FFC00B31,
   0x8EB44A8768581511,
   0xDB0C2E0D64F98FA7,
   0x47B5481DBEFA4FA4]

/-- The number of a byte string's bytes, as numbers. -/
def toNats (bs : Bytes) : List Nat := bs.map BitVec.toNat

/-- Numbers below 256 as bytes. -/
def ofNats (ns : List Nat) : Bytes := ns.map (BitVec.ofNat 8)

/-- Byte-wise exclusive or; the shorter run decides the length. -/
def xorN (a b : List Nat) : List Nat := List.zipWith (fun x y => x ^^^ y) a b

def subByte (x : Nat) : Nat := (aesSbox >>> (8 * x)) % 256
def invSubByte (x : Nat) : Nat := (aesInvSbox >>> (8 * x)) % 256

/-- Multiplication by x in GF(2^8). -/
def xtime (b : Nat) : Nat := if b < 128 then 2 * b else (2 * b) ^^^ 0x11B

/-- Multiplication of a byte by a small constant in GF(2^8). -/
def gmul (b : Nat) (k : Nat) : Nat :=
  let b2 := xtime b
  let b4 := xtime b2
  let b8 := xtime b4
  (if k % 2 = 1 then b else 0) ^^^ (if k / 2 % 2 = 1 then b2 else 0) ^^^
    (if k / 4 % 2 = 1 then b4 else 0) ^^^ (if k / 8 % 2 = 1 then b8 else 0)

/-- One column of MixColumns with coefficients c0 to c3. -/
def mixCol (c0 c1 c2 c3 : Nat) : List Nat → List Nat
  | [a, b, c, d] =>
    [gmul a c0 ^^^ gmul b c1 ^^^ gmul c c2 ^^^ gmul d c3,
     gmul a c3 ^^^ gmul b c0 ^^^ gmul c c1 ^^^ gmul d c2,
     gmul a c2 ^^^ gmul b c3 ^^^ gmul c c0 ^^^ gmul d c1,
     gmul a c1 ^^^ gmul b c2 ^^^ gmul c c3 ^^^ gmul d c0]
  | l => l

/-- MixColumns over a 16-byte block, column by column. -/
def mixCols (c0 c1 c2 c3 : Nat) (s : List Nat) : List Nat :=
  mixCol c0 c1 c2 c3 (s.take 4) ++ mixCol c0 c1 c2 c3 ((s.drop 4).take 4) ++
    mixCol c0 c1 c2 c3 ((s.drop 8).take 4) ++ mixCol c0 c1 c2 c3 ((s.drop 12).take 4)

/-- ShiftRows and its inverse, as a permutation of the 16 bytes. -/
def shiftRows : List Nat → List Nat
  | [a0, a1, a2, a3, b0, b1, b2, b3, c0, c1, c2, c3, d0, d1, d2, d3] =>
    [a0, b1, c2, d3, b0, c1, d2, a3, c0, d1, a2, b3, d0, a1, b2, c3]
  | l => l

def invShiftRows : List Nat → List Nat
  | [a0, a1, a2, a3, b0, b1, b2, b3, c0, c1, c2, c3, d0, d1, d2, d3] =>
    [a0, d1, c2, b3, b0, a1, d2, c3, c0, b1, a2, d3, d0, c1, b2, a3]
  | l => l

/-- Key expansion: `n` more words, after the words made so far (newest first), `i` the next word's number. -/
def expandGo (nk : Nat) : Nat → Nat → Nat → List (List Nat) → List (List Nat)
  | 0, _, _, ws => ws
  | n + 1, i, rc, ws =>
    let prev := ws.headD []
    let back := ws.getD (nk - 1) []
    let rot := fun (w : List Nat) => w.drop 1 ++ w.take 1
    if i % nk = 0 then
      let t := (rot prev).map subByte
      let t := xorN t [rc, 0, 0, 0]
      expandGo nk n (i + 1) (xtime rc) (xorN back t :: ws)
    else if nk > 6 ∧ i % nk = 4 then
      expandGo nk n (i + 1) rc (xorN back (prev.map subByte) :: ws)
    else expandGo nk n (i + 1) rc (xorN back prev :: ws)

/-- The words of a key, in order. -/
def keyWords : Nat → List Nat → List (List Nat)
  | 0, _ => []
  | n + 1, k => k.take 4 :: keyWords n (k.drop 4)

/-- A run of words cut into 16-byte round keys. -/
def roundKeys : Nat → List (List Nat) → List (List Nat)
  | 0, _ => []
  | n + 1, ws => ((ws.take 4).foldl (fun a w => a ++ w) []) :: roundKeys n (ws.drop 4)

/-- The round keys of a 16, 24 or 32-byte key. -/
def aesKeys (key : Bytes) : List (List Nat) :=
  let nk := key.length / 4
  let rounds := nk + 6
  let ws := expandGo nk (4 * (rounds + 1) - nk) nk 1 (keyWords nk (toNats key)).reverse
  roundKeys (rounds + 1) ws.reverse

/-- The rounds of encryption after the first key addition. -/
def encRounds : List (List Nat) → List Nat → List Nat
  | [], s => s
  | [k], s => xorN (shiftRows (s.map subByte)) k
  | k :: ks, s => encRounds ks (xorN (mixCols 2 3 1 1 (shiftRows (s.map subByte))) k)

/-- The rounds of decryption, keys from the last to the first. -/
def decRounds : List (List Nat) → List Nat → List Nat
  | [], s => s
  | [k], s => xorN ((invShiftRows s).map invSubByte) k
  | k :: ks, s => decRounds ks (mixCols 14 11 13 9 (xorN ((invShiftRows s).map invSubByte) k))

/-- One block encrypted with expanded keys. -/
def encBlock (ks : List (List Nat)) (b : List Nat) : List Nat :=
  match ks with
  | [] => b
  | k :: rest => encRounds rest (xorN b k)

/-- One block decrypted with expanded keys. -/
def decBlock (ks : List (List Nat)) (b : List Nat) : List Nat :=
  match ks.reverse with
  | [] => b
  | k :: rest => decRounds rest (xorN b k)

/-! ## Modes of Table 14-1 -/

/-- A run cut into chunks of `n`, the last possibly short; `fuel` bounds the number of chunks. -/
def chunksGo {α : Type} (n : Nat) : Nat → List α → List (List α)
  | 0, _ => []
  | fuel + 1, l => if l.isEmpty then [] else l.take n :: chunksGo n fuel (l.drop n)

def chunks {α : Type} (n : Nat) (l : List α) : List (List α) := chunksGo n l.length l

/-- A number as 16 bytes, big-endian, and back. -/
def blockOf (v : Nat) : List Nat := toNats (beBytes 16 v)
def natOf (b : List Nat) : Nat := b.foldl (fun n x => 256 * n + x) 0

/-- CBC (SP 800-38A). -/
def cbcEnc (ks : List (List Nat)) : List Nat → List (List Nat) → List Nat
  | _, [] => []
  | iv, b :: bs => let c := encBlock ks (xorN b iv); c ++ cbcEnc ks c bs

def cbcDec (ks : List (List Nat)) : List Nat → List (List Nat) → List Nat
  | _, [] => []
  | iv, c :: cs => xorN (decBlock ks c) iv ++ cbcDec ks c cs

/-- CFB-128 (SP 800-38A); a short last block takes the leading bytes of the output. -/
def cfbEnc (ks : List (List Nat)) : List Nat → List (List Nat) → List Nat
  | _, [] => []
  | iv, b :: bs => let c := xorN b (encBlock ks iv); c ++ cfbEnc ks c bs

def cfbDec (ks : List (List Nat)) : List Nat → List (List Nat) → List Nat
  | _, [] => []
  | iv, c :: cs => xorN c (encBlock ks iv) ++ cfbDec ks c cs

/-- CFB-8 (SP 800-38A): one byte per chain step. -/
def cfb8 (ks : List (List Nat)) (dec : Bool) : List Nat → List Nat → List Nat
  | _, [] => []
  | iv, x :: xs =>
    let y := x ^^^ (encBlock ks iv).headD 0
    y :: cfb8 ks dec (iv.drop 1 ++ [if dec then x else y]) xs

/-- OFB (SP 800-38A). -/
def ofb (ks : List (List Nat)) : List Nat → List (List Nat) → List Nat
  | _, [] => []
  | iv, b :: bs => let o := encBlock ks iv; xorN b o ++ ofb ks o bs

/-- The key stream blocks applied to a text, with a 32-bit block counter behind a 12-byte nonce. -/
def ctrGo (ks : List (List Nat)) (nonce : List Nat) : Nat → List (List Nat) → List Nat
  | _, [] => []
  | n, b :: bs =>
    xorN b (encBlock ks (nonce ++ toNats (beBytes 4 n))) ++ ctrGo ks nonce (n + 1) bs

/-- Doubling in GF(2^128) as CMAC uses it. -/
def dbl (v : Nat) : Nat := if v < 2 ^ 127 then 2 * v else ((2 * v) % 2 ^ 128) ^^^ 0x87

/-- The CBC-MAC chain. -/
def macChain (ks : List (List Nat)) : List Nat → List (List Nat) → List Nat
  | c, [] => c
  | c, b :: bs => macChain ks (encBlock ks (xorN b c)) bs

/-- AES-CMAC (SP 800-38B), 16 bytes. -/
def cmac (key msg : Bytes) : Bytes :=
  let ks := aesKeys key
  let k1 := dbl (natOf (encBlock ks (List.replicate 16 0)))
  let m := toNats msg
  let n := (m.length + 15) / 16
  let full := m.length % 16 = 0 ∧ m.length ≠ 0
  let head := chunks 16 (m.take (16 * (n - 1)))
  let tail := m.drop (16 * (n - 1))
  let last := if full then xorN tail (blockOf k1)
    else xorN (tail ++ [0x80] ++ List.replicate (15 - tail.length) 0) (blockOf (dbl k1))
  ofNats (macChain ks (List.replicate 16 0) (head ++ [last]))

/-- Multiplication in the field of GCM: `x` scanned from its most significant bit. -/
def gfMulGo (x : Nat) : Nat → Nat → Nat → Nat
  | 0, z, _ => z
  | i + 1, z, v =>
    gfMulGo x i (if Nat.testBit x i then z ^^^ v else z)
      (if v % 2 = 0 then v / 2 else (v / 2) ^^^ 0xE1000000000000000000000000000000)

def gfMul (x y : Nat) : Nat := gfMulGo x 128 0 y

/-- GHASH over 16-byte blocks, the last of a run zero-padded. -/
def ghash (h : Nat) (bs : List (List Nat)) (y : Nat) : Nat :=
  bs.foldl (fun y b => gfMul (y ^^^ natOf (b ++ List.replicate (16 - b.length) 0)) h) y

/-- GCM (SP 800-38D) with a 12-byte IV: the text through the key stream. -/
def gcmCrypt (ks : List (List Nat)) (iv : Bytes) (text : Bytes) : Bytes :=
  ofNats (ctrGo ks (toNats iv) 2 (chunks 16 (toNats text)))

/-- The 16-byte GCM tag over associated data and ciphertext. -/
def gcmTag (ks : List (List Nat)) (iv aad ct : Bytes) : Bytes :=
  let h := natOf (encBlock ks (List.replicate 16 0))
  let y := ghash h (chunks 16 (toNats aad)) 0
  let y := ghash h (chunks 16 (toNats ct)) y
  let y := gfMul (y ^^^ (8 * aad.length * 2 ^ 64 + 8 * ct.length)) h
  ofNats (xorN (encBlock ks (toNats iv ++ [0, 0, 0, 1])) (blockOf y))

/-- GCM encryption: ciphertext and tag. -/
def gcmEnc (key iv aad text : Bytes) : Bytes × Bytes :=
  let ks := aesKeys key
  let ct := gcmCrypt ks iv text
  (ct, gcmTag ks iv aad ct)

/-- GCM decryption with verification of a tag of 12 to 16 bytes. -/
def gcmDec (key iv aad ct tag : Bytes) : Option Bytes :=
  let ks := aesKeys key
  if (gcmTag ks iv aad ct).take tag.length = tag then some (gcmCrypt ks iv ct) else none

/-- The SP 800-108 KDF in counter mode with AES-CMAC: `n` blocks from counter `i` on. -/
def kdfGo (key fixed : Bytes) : Nat → Nat → Bytes
  | 0, _ => []
  | n + 1, i => cmac key (beBytes 4 i ++ fixed) ++ kdfGo key fixed n (i + 1)

/-- `len` bytes of the KDF, the fixed input being everything behind the counter. -/
def kdf (key fixed : Bytes) (len : Nat) : Bytes := (kdfGo key fixed ((len + 15) / 16) 1).take len

/-- The KDF input of R149, R362, R366 and R369: label, a zero byte, context, L as 32 bits. -/
def kdfFixed (label context : Bytes) (bits : Nat) : Bytes :=
  label ++ [0] ++ context ++ beBytes 4 bits

/-- One pass of the KW wrapping (SP 800-38F): `t` the step number, the registers in order. -/
def kwPass (ks : List (List Nat)) : Nat → Nat → List (List Nat) → Nat × List (List Nat)
  | _, a, [] => (a, [])
  | t, a, r :: rs =>
    let b := encBlock ks (toNats (beBytes 8 a) ++ r)
    let p := kwPass ks (t + 1) (natOf (b.take 8) ^^^ t) rs
    (p.1, b.drop 8 :: p.2)

def kwGo (ks : List (List Nat)) (n : Nat) : Nat → Nat → Nat → List (List Nat) → Nat × List (List Nat)
  | 0, _, a, rs => (a, rs)
  | j + 1, t, a, rs => let p := kwPass ks t a rs; kwGo ks n j (t + n) p.1 p.2

/-- One pass of the KW unwrapping, registers from the last to the first, `t` falling. -/
def kwUnPass (ks : List (List Nat)) : Nat → Nat → List (List Nat) → Nat × List (List Nat)
  | _, a, [] => (a, [])
  | t, a, r :: rs =>
    let b := decBlock ks (toNats (beBytes 8 (a ^^^ t)) ++ r)
    let p := kwUnPass ks (t - 1) (natOf (b.take 8)) rs
    (p.1, b.drop 8 :: p.2)

def kwUnGo (ks : List (List Nat)) (n : Nat) : Nat → Nat → Nat → List (List Nat) → Nat × List (List Nat)
  | 0, _, a, rs => (a, rs)
  | j + 1, t, a, rs => let p := kwUnPass ks t a rs; kwUnGo ks n j (t - n) p.1 p.2

def flat (l : List (List Nat)) : List Nat := l.foldl (fun a x => a ++ x) []

/-- The wrapping function W with its initial value `a` (SP 800-38F). -/
def wrapW (key : Bytes) (a : Nat) (text : Bytes) : Bytes :=
  let rs := chunks 8 (toNats text)
  let p := kwGo (aesKeys key) rs.length 6 1 a rs
  ofNats (toNats (beBytes 8 p.1) ++ flat p.2)

/-- The inverse of W: the recovered initial value and text. -/
def unwrapW (key : Bytes) (ct : Bytes) : Nat × Bytes :=
  let c := toNats ct
  let rs := chunks 8 (c.drop 8)
  let p := kwUnGo (aesKeys key) rs.length 6 (6 * rs.length) (natOf (c.take 8)) rs.reverse
  (p.1, ofNats (flat p.2.reverse))

/-- KW (SP 800-38F). -/
def kwWrap (key text : Bytes) : Bytes := wrapW key 0xA6A6A6A6A6A6A6A6 text

def kwUnwrap (key ct : Bytes) : Option Bytes :=
  let p := unwrapW key ct
  if p.1 = 0xA6A6A6A6A6A6A6A6 then some p.2 else none

/-- KWP (SP 800-38F): padded to 8 bytes; one block of padded text is a single AES block. -/
def kwpWrap (key text : Bytes) : Bytes :=
  let pad := (8 - text.length % 8) % 8
  let aiv := 0xA65959A6 * 2 ^ 32 + text.length
  let p := text ++ List.replicate pad 0
  if p.length ≤ 8 then ofNats (encBlock (aesKeys key) (toNats (beBytes 8 aiv ++ p)))
  else wrapW key aiv p

def kwpUnwrap (key ct : Bytes) : Option Bytes :=
  let p := if ct.length = 16 then
      let b := decBlock (aesKeys key) (toNats ct)
      (natOf (b.take 8), ofNats (b.drop 8))
    else unwrapW key ct
  let len := p.1 % 2 ^ 32
  if p.1 / 2 ^ 32 = 0xA65959A6 ∧ len ≤ p.2.length ∧ p.2.length < len + 8 ∧ allZero (p.2.drop len) then
    some (p.2.take len)
  else none

/-! ## SHA-256 and SHA-384 (FIPS 180-4) -/

def rotr (w x n : Nat) : Nat := (x >>> n) ||| ((x <<< (w - n)) % 2 ^ w)

/-- The parameters in which the two hashes differ: word width, rotations, round constants. -/
structure ShaKind where
  w  : Nat
  s0 : Nat × Nat × Nat
  s1 : Nat × Nat × Nat
  e0 : Nat × Nat × Nat
  e1 : Nat × Nat × Nat
  rounds : Nat
  k  : Nat
  deriving DecidableEq, Repr

def sha256Kind : ShaKind :=
  ⟨32, (7, 18, 3), (17, 19, 10), (2, 13, 22), (6, 11, 25), 64, sha256K⟩

def sha512Kind : ShaKind :=
  ⟨64, (1, 8, 7), (19, 61, 6), (28, 34, 39), (14, 18, 41), 80, sha512K⟩

def shaLow (c : ShaKind) (r : Nat × Nat × Nat) (x : Nat) : Nat :=
  rotr c.w x r.1 ^^^ rotr c.w x r.2.1 ^^^ (x >>> r.2.2)

def shaBig (c : ShaKind) (r : Nat × Nat × Nat) (x : Nat) : Nat :=
  rotr c.w x r.1 ^^^ rotr c.w x r.2.1 ^^^ rotr c.w x r.2.2

/-- The rounds; the window holds the 16 schedule words from `t` on. -/
def shaRounds (c : ShaKind) : Nat → Nat → List Nat → List Nat → List Nat
  | 0, _, _, v => v
  | n + 1, t, win, v =>
    match v with
    | [a, b, cc, d, e, f, g, h] =>
      let wt := win.headD 0
      let kt := (c.k >>> (c.w * t)) % 2 ^ c.w
      let ch := (e &&& f) ^^^ ((2 ^ c.w - 1 - e) &&& g)
      let maj := (a &&& b) ^^^ (a &&& cc) ^^^ (b &&& cc)
      let t1 := h + shaBig c c.e1 e + ch + kt + wt
      let t2 := shaBig c c.e0 a + maj
      let nw := (shaLow c c.s1 (win.getD 14 0) + win.getD 9 0 + shaLow c c.s0 (win.getD 1 0) + wt) % 2 ^ c.w
      shaRounds c n (t + 1) (win.drop 1 ++ [nw])
        [(t1 + t2) % 2 ^ c.w, a, b, cc, (d + t1) % 2 ^ c.w, e, f, g]
    | _ => v

/-- One block of 16 words joined to the chain value. -/
def shaBlock (c : ShaKind) (h : List Nat) (block : List Nat) : List Nat :=
  let ws := (chunks (c.w / 8) block).map natOf
  List.zipWith (fun x y => (x + y) % 2 ^ c.w) h (shaRounds c c.rounds 0 ws h)

/-- A padded message hashed; the result's words. -/
def shaGo (c : ShaKind) (h0 : List Nat) (msg : Bytes) : List Nat :=
  let bl := 2 * c.w
  let len := msg.length
  let z := (bl - (len + 1 + c.w / 4) % bl) % bl
  let padded := toNats msg ++ [0x80] ++ List.replicate z 0 ++ toNats (beBytes (c.w / 4) (8 * len))
  (chunks bl padded).foldl (shaBlock c) h0

/-- SHA-256 (R337). -/
def sha256 (msg : Bytes) : Bytes := ((shaGo sha256Kind sha256H0 msg).map (beBytes 4)).foldl (fun a x => a ++ x) []

/-- SHA-384 (R337). -/
def sha384 (msg : Bytes) : Bytes :=
  (((shaGo sha512Kind sha384H0 msg).map (beBytes 8)).foldl (fun a x => a ++ x) []).take 48

/-! ## SipHash-2-4 and checks -/

def add64 (a b : Nat) : Nat := (a + b) % 2 ^ 64
def rotl64 (x n : Nat) : Nat := rotr 64 x (64 - n)

/-- One SipRound. -/
def sipRound : Nat × Nat × Nat × Nat → Nat × Nat × Nat × Nat
  | (v0, v1, v2, v3) =>
    let v0 := add64 v0 v1
    let v1 := rotl64 v1 13 ^^^ v0
    let v0 := rotl64 v0 32
    let v2 := add64 v2 v3
    let v3 := rotl64 v3 16 ^^^ v2
    let v0 := add64 v0 v3
    let v3 := rotl64 v3 21 ^^^ v0
    let v2 := add64 v2 v1
    let v1 := rotl64 v1 17 ^^^ v2
    (v0, v1, rotl64 v2 32, v3)

/-- SipHash-2-4 of a message under a 128-bit key, the key's bytes in order. -/
def sipHash (key msg : Bytes) : Nat :=
  let k0 := leNat (key.take 8)
  let k1 := leNat ((key.drop 8).take 8)
  let st := (k0 ^^^ 0x736F6D6570736575, k1 ^^^ 0x646F72616E646F6D, k0 ^^^ 0x6C7967656E657261,
    k1 ^^^ 0x7465646279746573)
  let full := msg.length / 8
  let last := leNat (msg.drop (8 * full)) + (msg.length % 256) * 2 ^ 56
  let ws := (chunks 8 (msg.take (8 * full))).map leNat ++ [last]
  let st := ws.foldl (fun (s : Nat × Nat × Nat × Nat) m =>
    let r := sipRound (sipRound (s.1, s.2.1, s.2.2.1, s.2.2.2 ^^^ m))
    (r.1 ^^^ m, r.2)) st
  let st := (st.1, st.2.1, st.2.2.1 ^^^ 0xFF, st.2.2.2)
  let r := sipRound (sipRound (sipRound (sipRound st)))
  r.1 ^^^ r.2.1 ^^^ r.2.2.1 ^^^ r.2.2.2

/-- `n` shifts of a reflected CRC. -/
def crcShift (poly : Nat) : Nat → Nat → Nat
  | 0, c => c
  | n + 1, c => crcShift poly n (if c % 2 = 1 then (c / 2) ^^^ poly else c / 2)

/-- CRC-32C (reflected polynomial 0x82F63B78, initial value and final inversion all ones). -/
def crc32c (bs : Bytes) : Nat :=
  (bs.foldl (fun c b => crcShift 0x82F63B78 8 (c ^^^ b.toNat)) 0xFFFFFFFF) ^^^ 0xFFFFFFFF

/-- A CRC of width `w` over bits in the order sent: polynomial without its top term, initial value 0. -/
def crcBits (w poly : Nat) (bs : List Bool) : Nat :=
  bs.foldl (fun c b => let d := 2 * c % 2 ^ w; if (c.testBit (w - 1)) != b then d ^^^ poly else d) 0

/-- The bits of a number of `n` bits, most significant first. -/
def msbBits (n v : Nat) : List Bool := (List.range n).map fun i => v.testBit (n - 1 - i)

/-- CRC-4 of the RRO field (Table 12-1): x^4 + x + 1 over its 16 correction bits. -/
def crc4 (v : Nat) : Nat := crcBits 4 0x3 (msbBits 16 v)

/-- A linear map of 32-bit words, given by the images of the 32 bits, applied to a word. -/
def matVec (m : List Nat) (c : Nat) : Nat :=
  (List.zip (List.range 32) m).foldl (fun x p => if c.testBit p.1 then x ^^^ p.2 else x) 0

/-- `n` zero bytes into a CRC-32C, by repeated squaring of the map of one zero byte. -/
def crcZeros : Nat → List Nat → Nat → Nat → Nat
  | 0, _, _, c => c
  | fuel + 1, m, n, c =>
    if n = 0 then c else crcZeros fuel (m.map (matVec m)) (n / 2) (if n % 2 = 1 then matVec m c else c)

/-- The map of one zero byte. -/
def crcZeroByte : List Nat := (List.range 32).map fun i => crcShift 0x82F63B78 8 (2 ^ i)

/-- A sparse array of words of `w` bytes, `len` bytes in all, into a CRC-32C: `at_` bytes are in it already. -/
def crcCells (w len : Nat) : List (Nat × Nat) → Nat → Nat → Nat
  | [], at_, c => crcZeros 32 crcZeroByte (len - at_) c
  | x :: xs, at_, c =>
    let c := crcZeros 32 crcZeroByte (w * x.1 - at_) c
    crcCells w len xs (w * x.1 + w) ((leBytes w x.2).foldl (fun c b => crcShift 0x82F63B78 8 (c ^^^ b.toNat)) c)

/-- `n` shifts of a most-significant-bit-first CRC-8. -/
def crc8Shift (poly : Nat) : Nat → Nat → Nat
  | 0, c => c
  | n + 1, c => crc8Shift poly n (if c < 128 then 2 * c else ((2 * c) % 256) ^^^ poly)

/-- CRC-8 with a polynomial and an initial value. -/
def crc8 (poly init : Nat) (bs : Bytes) : Nat :=
  bs.foldl (fun c b => crc8Shift poly 8 (c ^^^ b.toNat)) init

/-- CRC-8 of the link frames (R304): x^8 + x^2 + x + 1, initial value 0. -/
def linkCrc (bs : Bytes) : Nat := crc8 0x07 0 bs

/-! ## HSS verification (RFC 8554, with the parameters of R378) -/

/-- LM-OTS types with SHA-256 and n = 32: w by type code. -/
def otsW : Nat → Option Nat
  | 1 => some 1
  | 2 => some 2
  | 3 => some 4
  | 4 => some 8
  | _ => none

/-- LMS types with SHA-256 and m = 32: the tree height by type code. -/
def lmsH : Nat → Option Nat
  | 5 => some 5
  | 6 => some 10
  | 7 => some 15
  | 8 => some 20
  | 9 => some 25
  | _ => none

/-- Number of w-bit digits of the digest and of the checksum, and the checksum's left shift. -/
def otsDigits : Nat → Nat × Nat × Nat
  | 1 => (256, 9, 7)
  | 2 => (128, 5, 6)
  | 4 => (64, 3, 4)
  | _ => (32, 2, 0)

/-- Digit `i` of width `w` of a byte string. -/
def coef (s : Bytes) (i w : Nat) : Nat :=
  ((s.getD (i * w / 8) 0).toNat >>> (8 - w - (i * w) % 8)) % 2 ^ w

/-- A hash chain from step `a` on, `n` steps. -/
def otsChain (idq : Bytes) (i : Nat) : Nat → Nat → Bytes → Bytes
  | 0, _, y => y
  | n + 1, a, y => otsChain idq i n (a + 1) (sha256 (idq ++ beBytes 2 i ++ beBytes 1 a ++ y))

/-- The candidate LM-OTS public key for a message, from a signature's C and y. -/
def otsCandidate (w : Nat) (idq c : Bytes) (ys : List Bytes) (msg : Bytes) : Bytes :=
  let q := sha256 (idq ++ [0x81, 0x81] ++ c ++ msg)
  let d := otsDigits w
  let sum := (List.range d.1).foldl (fun n i => n + (2 ^ w - 1 - coef q i w)) 0
  let qc := q ++ beBytes 2 ((sum * 2 ^ d.2.2) % 65536)
  let zs := (List.range (d.1 + d.2.1)).map fun i =>
    let a := coef qc i w
    otsChain idq i (2 ^ w - 1 - a) a (ys.getD i [])
  sha256 (idq ++ [0x80, 0x80] ++ zs.foldl (fun a x => a ++ x) [])

/-- The root that an authentication path leads to. -/
def lmsRoot (id : Bytes) : Nat → Bytes → List Bytes → Bytes
  | _, t, [] => t
  | node, t, p :: ps =>
    let parent := node / 2
    let l := if node % 2 = 1 then p ++ t else t ++ p
    lmsRoot id parent (sha256 (id ++ beBytes 4 parent ++ [0x83, 0x83] ++ l)) ps

/-- The length of an LMS signature that starts a byte string, if its types are those of R378. -/
def lmsSigLen (sig : Bytes) : Option Nat :=
  match otsW (beAt sig 4 4) with
  | none => none
  | some w =>
    let d := otsDigits w
    let o := 8 + 32 + 32 * (d.1 + d.2.1)
    match lmsH (beAt sig o 4) with
    | none => none
    | some h => some (o + 4 + 32 * h)

/-- Verification of one LMS signature of exactly its length under a 56-byte LMS public key. -/
def lmsVerify (pk msg sig : Bytes) : Bool :=
  match lmsH (beAt pk 0 4), otsW (beAt pk 4 4) with
  | some h, some w =>
    let d := otsDigits w
    let p := d.1 + d.2.1
    let o := 40 + 32 * p
    let q := beAt sig 0 4
    let id := sliceB pk 8 16
    if beAt sig 4 4 ≠ beAt pk 4 4 ∨ beAt sig o 4 ≠ beAt pk 0 4 ∨ sig.length ≠ o + 4 + 32 * h ∨ 2 ^ h ≤ q
      ∨ pk.length ≠ 56 then false
    else
      let kc := otsCandidate w (id ++ beBytes 4 q) (sliceB sig 8 32) (chunks 32 (sliceB sig 40 (32 * p))) msg
      let leaf := sha256 (id ++ beBytes 4 (2 ^ h + q) ++ [0x82, 0x82] ++ kc)
      decide (lmsRoot id (2 ^ h + q) leaf (chunks 32 (sig.drop (o + 4))) = pk.drop 24)
  | _, _ => false

/-- The levels of an HSS signature: signed public keys, then the message. -/
def hssGo (msg : Bytes) : Nat → Bytes → Bytes → Bool
  | 0, pk, sig => lmsVerify pk msg sig
  | n + 1, pk, sig =>
    match lmsSigLen sig with
    | none => false
    | some len =>
      let next := sliceB sig len 56
      lmsVerify pk next (sig.take len) && hssGo msg n next (sig.drop (len + 56))

/-- HSS verification under a 60-byte public key (R378: L from 1 to 3). -/
def hssVerify (pk msg sig : Bytes) : Bool :=
  let l := beAt pk 0 4
  decide (1 ≤ l) && decide (l ≤ 3) && decide (pk.length = 60) && decide (beAt sig 0 4 + 1 = l) &&
    hssGo msg (l - 1) (pk.drop 4) (sig.drop 4)

/-- The types of a 60-byte HSS public key lie within R378. -/
def hssTypesOk (pk : Bytes) : Bool :=
  decide (1 ≤ beAt pk 0 4) && decide (beAt pk 0 4 ≤ 3) && (lmsH (beAt pk 4 4)).isSome && (otsW (beAt pk 8 4)).isSome

end Sys2Proof.Machine
end

