-- ==== Sys2Proof/Machine/Channel.lean ====
section
/-! DEFINITION. The read channel (chapter 13): the layout of a physical sector and of a data region, the codeword, framing
by the sync and resume marks, the defect detector, min-sum decoding, and what a decoded sector must hold. Channel bits
stand in the order sent; a soft value is positive where the bit is more likely 0. What R312 and R316 leave open of the PRBS
register and of the decoder is log entry 168. -/

namespace Sys2Proof.Machine

open Sys2Proof

abbrev Bits := List Bool

/-- `n` bits of 0b1100 repeated. -/
def oscBits (n : Nat) : Bits := (List.range n).map fun i => decide (i % 4 < 2)

/-- The sync mark (Table 13-2) and the resume mark (R310), complements of each other (R314). -/
def syncMark : Nat := 0x0B4F2D9E
def resumeMark : Nat := 0xF4B0D261

/-- Bytes as bits, bit 7 of each first. -/
def byteBits (bs : Bytes) : Bits := (bs.map fun b => msbBits 8 b.toNat).flatten

/-- Bits as bytes, bit 7 of each first. -/
def bitBytes (n : Nat) (bits : Bits) : Bytes :=
  (List.range n).map fun i => BitVec.ofNat 8 (((bits.drop (8 * i)).take 8).foldl (fun v b => 2 * v + (if b then 1 else 0)) 0)

/-! ## The codeword (R312, R313) -/

/-- What a sector's metadata says of it, its checksum apart (Table 13-3). -/
structure SectorMeta where
  kind  : Nat
  band  : Nat
  index : Nat
  bseq  : Nat
  tier  : Nat
  deriving DecidableEq, Repr

/-- Metadata bytes 0 to 27. -/
def SectorMeta.head (m : SectorMeta) : Bytes :=
  leBytes 2 0x5344 ++ leBytes 1 m.kind ++ leBytes 1 0 ++ leBytes 4 (m.band % 2 ^ 22) ++ leBytes 4 m.index ++
    leBytes 8 m.bseq ++ leBytes 4 m.tier ++ leBytes 4 0

/-- SCRC: CRC-32C over the data and metadata bytes 0 to 27. -/
def SectorMeta.scrc (m : SectorMeta) (data : Bytes) : Nat := crc32c (data ++ m.head)

/-- The 33,024 information bits of a sector. -/
def SectorMeta.info (m : SectorMeta) (data : Bytes) : Bits := byteBits (data ++ m.head ++ leBytes 4 (m.scrc data))

/-- Seed of the scrambler of a physical slot. -/
def prbsSeed (slot band : Nat) : Nat := ((slot * 16384 ^^^ band) ||| 1) % 2 ^ 31

/-- `n` bits of the PRBS x^31 + x^28 + 1 from a register. -/
def prbs : Nat → Nat → Bits
  | 0, _ => []
  | n + 1, r => r.testBit 30 :: prbs n (2 * r % 2 ^ 31 + (if r.testBit 30 != r.testBit 27 then 1 else 0))

/-- Two bit strings XORed. -/
def xorBits (a b : Bits) : Bits := List.zipWith (fun x y => x != y) a b

/-- The shift of the circulant in row `i` of information column `j`. -/
def circShift (i j : Nat) : Nat := (17 * i * (j + 1) + 5 * j) % 128

/-- Information columns with a circulant in row `i`. -/
def infoCols (i : Nat) : List Nat :=
  (List.range 258).filter fun j => i == j % 30 || i == (j + 7) % 30 || i == (j + 15) % 30 || i == (j + 22) % 30

/-- A circulant of shift `s` times a block of 128 bits: row `r` has its 1 in column (r + s) mod 128. -/
def circMul (s : Nat) (v : Bits) : Bits := v.drop s ++ v.take s

/-- Block `j` of 128 bits. -/
def bitBlock (bits : Bits) (j : Nat) : Bits := (bits.drop (128 * j)).take 128

/-- What the information bits give base row `i`. -/
def rowSum (info : Bits) (i : Nat) : Bits :=
  (infoCols i).foldl (fun a j => xorBits a (circMul (circShift i j) (bitBlock info j))) (List.replicate 128 false)

/-- The 30 parity blocks: base row `k` holds parity columns 258 + k and, from row 1 on, 258 + k - 1. -/
def parityGo (info : Bits) : Nat → Nat → Bits → Bits
  | 0, _, _ => []
  | n + 1, i, prev => let p := xorBits (rowSum info i) prev; p ++ parityGo info n (i + 1) p

/-- The 36,864-bit codeword of scrambled information bits. -/
def ldpcEncode (info : Bits) : Bits := info ++ parityGo info 30 0 (List.replicate 128 false)

/-- A run-limit bit after every 32 bits: the complement of the 32nd. -/
def runLimit : Nat → Bits → Bits
  | 0, _ => []
  | n + 1, b => b.take 32 ++ [!b.getD 31 false] ++ runLimit n (b.drop 32)

/-- The 38,016 channel bits of CODE. -/
def codeBits (slot : Nat) (m : SectorMeta) (data : Bytes) : Bits :=
  runLimit 1152 (ldpcEncode (xorBits (m.info data) (prbs 33024 (prbsSeed slot m.band))))

/-- The 38,208 channel bits of a physical sector (Table 13-2). -/
def sectorBits (slot : Nat) (m : SectorMeta) (data : Bytes) : Bits :=
  oscBits 128 ++ msbBits 32 syncMark ++ codeBits slot m data ++ oscBits 32

/-- The resume field that begins a data region (R310). -/
def resumeField : Bits := oscBits 64 ++ msbBits 32 resumeMark

/-! ## Data regions (R309, R310) -/

/-- Rate of a zone, Mb/s, its bits in a data region, those that carry sectors, and its sectors per track. -/
def zoneRate (z : Nat) : Nat := 3600 - 24 * z
def zoneRaw (z : Nat) : Nat := zoneRate z * 118208 / 10000
def zoneBits (z : Nat) : Nat := zoneRaw z - 160
def zoneSpt (z : Nat) : Nat := 640 * zoneBits z / 38208

/-- The pieces of `n` bits from bit `at_` of the data regions of a zone: region, first bit in it, and bits there. -/
def piecesGo (d : Nat) : Nat → Nat → Nat → List (Nat × Nat × Nat)
  | 0, _, _ => []
  | fuel + 1, at_, n =>
    if n = 0 then []
    else
      let here := min n (d - at_ % d)
      (at_ / d, at_ % d, here) :: piecesGo d fuel (at_ + here) (n - here)

/-- The pieces of the sector at a position of a track. -/
def sectorPieces (z pos : Nat) : List (Nat × Nat × Nat) := piecesGo (zoneBits z) 4 (pos * 38208) 38208

/-- Bits written by pieces: those that begin a region follow its resume field. -/
def writePieces (start : Nat) : List (Nat × Nat × Nat) → Bits → List (Nat × Nat × Bits)
  | [], _ => []
  | (w, b, n) :: ps, bits =>
    ((start + w) % 640, b, (if b = 0 then resumeField else []) ++ bits.take n) :: writePieces start ps (bits.drop n)

/-- The sector positions of a track that data region `i` touches. -/
def regionRows (z i : Nat) : List Nat :=
  let lo := i * zoneBits z / 38208
  let hi := min (zoneSpt z) (((i + 1) * zoneBits z - 1) / 38208 + 1)
  List.range' lo (hi - lo)

/-! ## Signals (R315, R316) -/

/-- The sum of two soft values, weighted. -/
def softSum (wa wb : Nat) (a b : List Int) : List Int := List.zipWith (fun x y => wa * x + wb * y) a b

/-- The detector's soft values of a region: with one reader's signal alone, its weight is 1 (R315). -/
def regionSoft (wa wb : Nat) (r : RegionTrace) : List Int :=
  match r.readerA, r.readerB with
  | some a, some b => softSum wa wb a.soft b.soft
  | some a, none => a.soft
  | none, some b => b.soft
  | none, none => []

/-- Where an envelope stays below 40 % of its running mean: `sum` and `n` over the bits so far. -/
def lowGo : Nat → Nat → List Nat → Bits
  | _, _, [] => []
  | sum, n, e :: es => decide (5 * e * (n + 1) < 2 * (sum + e)) :: lowGo (sum + e) (n + 1) es

/-- The bits where every reader present is low. -/
def regionLow (r : RegionTrace) : Bits :=
  match r.readerA, r.readerB with
  | some a, some b => List.zipWith (fun x y => x && y) (lowGo 0 0 a.env) (lowGo 0 0 b.env)
  | some a, none => lowGo 0 0 a.env
  | none, some b => lowGo 0 0 b.env
  | none, none => []

/-- Runs of at least 16 low bits: first bit and length; `run` low bits stand just before bit `at_`. -/
def lowRuns : Nat → Nat → Bits → List (Nat × Nat)
  | at_, run, [] => if 16 ≤ run then [(at_ - run, run)] else []
  | at_, run, true :: bs => lowRuns (at_ + 1) (run + 1) bs
  | at_, run, false :: bs => (if 16 ≤ run then [(at_ - run, run)] else []) ++ lowRuns (at_ + 1) 0 bs

/-- The erasure pointers of a region (R316). -/
def erasureRuns (r : RegionTrace) : List (Nat × Nat) := lowRuns 0 0 (regionLow r)

/-- Soft values with those of the erasure runs at 0. -/
def eraseRuns (runs : List (Nat × Nat)) (l : List Int) : List Int :=
  l.zipIdx.map fun x => if runs.any fun r => decide (r.1 ≤ x.2 ∧ x.2 < r.1 + r.2) then 0 else x.1

/-! ## Framing (R314) -/

/-- Samples of a region before the place where its first bit of interest is predicted. -/
def traceLead : Nat := 96

/-- The hard value of a sample; a missing sample reads as 0. -/
def hardBit (l : List Int) (i : Nat) : Bool := decide (l.getD i 0 < 0)

/-- Bits of a mark in error where it is taken to begin at a sample. -/
def markErrors (l : List Int) (mark at_ : Nat) : Nat :=
  ((List.range 32).filter fun i => hardBit l (at_ + i) != mark.testBit (31 - i)).length

/-- The first place, as the bits pass, within ±`w` bits of sample `mid` where a mark has at most 3 bits in error: its offset. -/
def findMark (l : List Int) (mark mid w : Nat) : Option Int :=
  ((List.range (2 * w + 1)).find? fun k => decide (markErrors l mark (mid - w + k) ≤ 3)).map fun k => (k : Int) - w

/-- The place of each region's mark: the sync mark in the first, where it lies in it whole, else 0; the resume mark in the
others. -/
def findMarks (w : Nat) (soft : List (List Int)) (pieces : List (Nat × Nat × Nat)) : List (Option Int) :=
  ((soft.zip pieces).zipIdx).map fun x =>
    if x.2 = 0 then (if 160 ≤ x.1.2.2.2 then findMark x.1.1 syncMark (traceLead + 128) w else some 0)
    else findMark x.1.1 resumeMark (traceLead + 64) w

/-- The sector's soft values, its regions framed at offsets; a region that continues it begins with the resume field. -/
def frameSoft (soft : List (List Int)) (pieces : List (Nat × Nat × Nat)) (offs : List Int) : List Int :=
  (((soft.zip pieces).zip offs).zipIdx.map fun x =>
    let l := x.1.1.1
    let n := x.1.1.2.2.2
    let from_ := ((traceLead + (if x.2 = 0 then 0 else 96) : Nat) + x.1.2 : Int).toNat
    (List.range' from_ n).map fun i => l.getD i 0).flatten

/-! ## Decoding (R312, R316) -/

/-- Codeword bits out of the channel bits of CODE: the run-limit bits dropped. -/
def dropRunBits : Nat → List Int → List Int
  | 0, _ => []
  | n + 1, l => l.take 32 ++ dropRunBits n (l.drop 33)

/-- Codeword bits in row `r` of base row `i` of the parity-check matrix. -/
def checkBits (i r : Nat) : List Nat :=
  ((infoCols i).map fun j => 128 * j + (r + circShift i j) % 128) ++ [128 * (258 + i) + r] ++
    (if 0 < i then [128 * (257 + i) + r] else [])

/-- The 3,840 checks in order. -/
def allChecks : List (List Nat) := ((List.range 30).map fun i => (List.range 128).map fun r => checkBits i r).flatten

/-- Every check holds over the hard values. -/
def syndromeZero (l : Array Int) : Bool :=
  allChecks.all fun c => decide ((c.filter fun v => decide (l.getD v 0 < 0)).length % 2 = 0)

/-- What a check tells each of its bits: the sign of the others' product and the least of their magnitudes. -/
def minSumMsg (q : List Int) : List Int :=
  (List.range q.length).map fun k =>
    match q.eraseIdx k with
    | [] => 0
    | x :: xs =>
      let mag := xs.foldl (fun m y => min m y.natAbs) x.natAbs
      if ((x :: xs).filter fun y => decide (y < 0)).length % 2 = 0 then (mag : Int) else -(mag : Int)

/-- One iteration of layered min-sum: each check in turn takes its old messages out of its bits and puts its new ones in. -/
def minSumSweep : List (List Nat × List Int) → Array Int → List (List Nat × List Int) × Array Int
  | [], l => ([], l)
  | (c, m) :: cs, l =>
    let q := (c.zip m).map fun x => l.getD x.1 0 - x.2
    let n := minSumMsg q
    let l := ((c.zip q).zip n).foldl (fun (l : Array Int) x => l.setIfInBounds x.1.1 (x.1.2 + x.2)) l
    match minSumSweep cs l with
    | (r, l) => ((c, n) :: r, l)

/-- Layered min-sum for at most `n` iterations: the values once the syndrome is zero. -/
def minSum : Nat → List (List Nat × List Int) → Array Int → Option (Array Int)
  | 0, _, l => if syndromeZero l then some l else none
  | n + 1, cs, l =>
    if syndromeZero l then some l
    else match minSumSweep cs l with
      | (cs, l) => minSum n cs l

/-- What reading a sector needs to know of it (R309, R313): its zone and position, its physical slot, what the band map
says of its band, and the weights of the readers, of 128. -/
structure SectorAim where
  zone  : Nat
  pos   : Nat
  slot  : Nat
  band  : Nat
  bseq  : Nat
  tier  : Nat
  wa    : Nat
  wb    : Nat
  deriving DecidableEq, Repr

/-- The data of information bits that pass the checks of R313: SCRC, BAND, BSEQ and TIER. -/
def SectorAim.accept (a : SectorAim) (info : Bits) : Option Bytes :=
  let b := bitBytes 4128 info
  let data := b.take 4096
  let m := b.drop 4096
  if leNat ((m.drop 28).take 4) = crc32c (data ++ m.take 28) ∧ leNat ((m.drop 4).take 4) = a.band ∧
      leNat ((m.drop 12).take 8) = a.bseq ∧ leNat ((m.drop 20).take 4) = a.tier then some data
  else none

/-- A decode of framed soft values in at most `n` iterations. -/
def SectorAim.decodeSoft (a : SectorAim) (n : Nat) (l : List Int) : Option Bytes :=
  let c := dropRunBits 1152 ((l.drop 160).take 38016)
  match minSum n (allChecks.map fun c => (c, c.map fun _ => 0)) c.toArray with
  | none => none
  | some v => a.accept (xorBits ((v.toList.take 33024).map fun x => decide (x < 0)) (prbs 33024 (prbsSeed a.slot a.band)))

/-- A decode of a sector's regions with weights, framed at offsets, with its erasure runs at 0 or as sampled. -/
def SectorAim.decode (a : SectorAim) (n wa wb : Nat) (erase : Bool) (rs : List RegionTrace) (offs : List Int) : Option Bytes :=
  let soft := rs.map fun r => let l := regionSoft wa wb r; if erase then eraseRuns (erasureRuns r) l else l
  if rs.length = (sectorPieces a.zone a.pos).length then a.decodeSoft n (frameSoft soft (sectorPieces a.zone a.pos) offs)
  else none

/-- The marks of a sector's regions within ±`w` bits. -/
def SectorAim.marks (a : SectorAim) (wa wb w : Nat) (rs : List RegionTrace) : List (Option Int) :=
  findMarks w (rs.map fun r => regionSoft wa wb r) (sectorPieces a.zone a.pos)

/-- Offsets where every mark was found. -/
def allFound (l : List (Option Int)) : Option (List Int) := if l.all Option.isSome then some (l.map fun o => o.getD 0) else none

/-- The framings that rung 2 tries in order (Table 13-4): of a missed mark the search of ±64 bits, then the servo-timed position
with −8 to +8; of a found one −1, +1 to −4, +4 from its place. -/
def SectorAim.reframes (a : SectorAim) (wa wb : Nat) (rs : List RegionTrace) : List (List Int) :=
  match allFound (a.marks wa wb 16 rs) with
  | some offs => [-1, 1, -2, 2, -3, 3, -4, 4].map fun (d : Int) => offs.map fun o => o + d
  | none =>
    let wide := a.marks wa wb 64 rs
    (match allFound wide with
      | some offs => [offs]
      | none => []) ++
    (List.range 17).map fun k => wide.map fun o => o.getD ((k : Int) - 8)

/-- The framing without a try: the marks within ±16 bits, else within ±64, else the servo-timed place. -/
def SectorAim.framing (a : SectorAim) (wa wb : Nat) (rs : List RegionTrace) : List Int :=
  match allFound (a.marks wa wb 16 rs) with
  | some offs => offs
  | none => (a.marks wa wb 64 rs).map fun o => o.getD 0

/-- The inline decode and rungs 1 to 3 on one pass's samples: the rung that decoded and the data. `first` and `max` are
the iterations inline and in the rungs. -/
def SectorAim.rungs (a : SectorAim) (first max : Nat) (rs : List RegionTrace) : Option (Nat × Bytes) :=
  let found := allFound (a.marks a.wa a.wb 16 rs)
  let at_ := fun (n : Nat) => found.bind fun offs => a.decode n a.wa a.wb false rs offs
  match at_ first with
  | some d => some (0, d)
  | none =>
    match at_ max with
    | some d => some (1, d)
    | none =>
      match (a.reframes a.wa a.wb rs).findSome? fun offs => a.decode max a.wa a.wb false rs offs with
      | some d => some (2, d)
      | none => (a.decode max a.wa a.wb true rs (a.framing a.wa a.wb rs)).map fun d => (3, d)

/-- Samples of one reader over the passes so far, added (rung 7): a reader absent in a pass adds nothing. -/
def addTrace (a b : Option ReaderTrace) : Option ReaderTrace :=
  match a, b with
  | some x, some y => some ⟨List.zipWith (fun u v => u + v) x.soft y.soft, List.zipWith (fun u v => u + v) x.env y.env⟩
  | some x, none => some x
  | none, y => y

def addPass (a b : List RegionTrace) : List RegionTrace :=
  if a.isEmpty then b
  else List.zipWith (fun (x y : RegionTrace) => ⟨addTrace x.readerA y.readerA, addTrace x.readerB y.readerB⟩) a b

/-- The weights of rung 6, of 4. -/
def rung6Weights : List (Nat × Nat) := [(4, 0), (0, 4), (3, 1), (1, 3)]

/-- Rungs 5 to 7 over the passes of a sector after its first: the rung that decoded and the data. -/
def SectorAim.rereads (a : SectorAim) (max : Nat) (first : List RegionTrace) (again : List (List RegionTrace)) :
    Option (Nat × Bytes) :=
  match (again.take 4).findSome? fun p => a.rungs max max p with
  | some x => some (5, x.2)
  | none =>
    let six := again.getD 4 []
    match rung6Weights.findSome? fun w => a.decode max w.1 w.2 false six (a.framing w.1 w.2 six) with
    | some d => some (6, d)
    | none =>
      let sofar := (List.range' 6 8).filter fun k => decide (k ≤ again.length)
      (sofar.findSome? fun k =>
        let sum := (again.take k).foldl addPass first
        a.decode max a.wa a.wb false sum (a.framing a.wa a.wb sum)).map fun d => (7, d)

end Sys2Proof.Machine
end

