-- ==== Sys2Proof/Machine/Keys.lean ====
section
/-! DEFINITION. The key store as every family uses it: slots and their attributes (R364, R365), the namespace data
key (R366), nonces and their reservations (R343 to R345), and the IV they build. -/

namespace Sys2Proof.Machine

open Sys2Proof

/-! ## Status codes (Table 19-1) -/

def stOK : Nat := 0x0000
def stDegraded : Nat := 0x1001
def stAbandoned : Nat := 0x1002
def stAbsent : Nat := 0x1003
def stBadOpcode : Nat := 0x2001
def stBadField : Nat := 0x2002
def stBadKeyLen : Nat := 0x2003
def stBadValueLen : Nat := 0x2004
def stNsUnknown : Nat := 0x2005
def stNoSuchKey : Nat := 0x2006
def stKeyExists : Nat := 0x2007
def stCasMismatch : Nat := 0x2008
def stPatternInvalid : Nat := 0x2009
def stNotPermitted : Nat := 0x200A
def stSealed : Nat := 0x200B
def stRetention : Nat := 0x200C
def stDigest : Nat := 0x200D
def stStampConflict : Nat := 0x200E
def stMedia : Nat := 0x3001
def stWorn : Nat := 0x3002
def stDiskNotReady : Nat := 0x3003
def stAuth : Nat := 0x4001
def stSlotEmpty : Nat := 0x4002
def stKeyChanged : Nat := 0x4003
def stLengthLimit : Nat := 0x4004
def stEntropy : Nat := 0x4005
def stSignature : Nat := 0x4006
def stVersionLow : Nat := 0x4007
def stNonce : Nat := 0x4008
def stBusy : Nat := 0x5001
def stNsFull : Nat := 0x5002
def stDevFull : Nat := 0x5003
def stPatternFull : Nat := 0x5004
def stTagInUse : Nat := 0x5005
def stStagingBusy : Nat := 0x5006
def stAborted : Nat := 0x6001
def stTooLate : Nat := 0x6002
def stResetAborted : Nat := 0x6003
def stPackage : Nat := 0x6004
def stChunkCheck : Nat := 0x6005
def stNotVerified : Nat := 0x6006
def stStalemate : Nat := 0x6007
def stUnreachable : Nat := 0x7001
def stMirrorFailed : Nat := 0x7002
def stInternal : Nat := 0xF001

/-! ## Slots -/

/-- An unlisted slot: empty, GEN 0. -/
def slotDefault (_ : Nat) : Slot := ⟨0, 0, []⟩

/-- The live slot with an index. -/
def State.slot (s : State) (i : Nat) : Slot := SMap.get slotDefault s.key.slots i

/-- The slot holds a key (PRESENT, Table 15-4). -/
def Slot.present (k : Slot) : Bool := k.attr.getLsbD 10

/-- Attribute bits of Table 15-4. -/
def Slot.hostSession (k : Slot) : Bool := k.attr.getLsbD 0
def Slot.cryptoSvc (k : Slot) : Bool := k.attr.getLsbD 2
def Slot.seal (k : Slot) : Bool := k.attr.getLsbD 3
def Slot.encDisabled (k : Slot) : Bool := k.attr.getLsbD 11

/-- The live key of a slot, if it holds one. -/
def State.slotKey (s : State) (i : Nat) : Option Bytes :=
  if (s.slot i).present then some (s.slot i).key else none

/-- A live slot replaced. -/
def State.setSlot (s : State) (i : Nat) (k : Slot) : State :=
  { s with key := { s.key with slots := SMap.set slotDefault i k s.key.slots } }

def zeroNat (_ : Nat) : Nat := 0

/-- A live slot replaced, and the copy of its vault record that holds the lower SEQ: the commit point of a provision or
erase (R363, R371). -/
def State.commitSlot (s : State) (i : Nat) (k : Slot) : State :=
  { s with key := { s.key with slots := SMap.set slotDefault i k s.key.slots,
                               vault := SMap.set slotDefault i k s.key.vault,
                               vaultOld := SMap.set slotDefault i (SMap.get slotDefault s.key.vault i) s.key.vaultOld,
                               vaultSeq := SMap.set zeroNat i (SMap.get zeroNat s.key.vaultSeq i + 1) s.key.vaultSeq } }

/-- DEV_FIELD (R343). -/
def State.devField (s : State) : Nat := s.rd Reg.DEV_FIELD.WORD

/-- The KEK of a slot's record (R362): KDF under ROOT, label "HL6616 vault", context SLOT, GEN and DEV_FIELD. -/
def State.slotKek (s : State) (slot gen : Nat) : Bytes :=
  kdf s.key.fuses.root (kdfFixed (beBytes 12 0x484C36363136207661756C74)
    (beBytes 2 slot ++ beBytes 2 gen ++ beBytes 4 s.devField) 256) 32

/-- The 64 bytes of a slot's vault record (Table 15-2). -/
def State.vaultRecord (s : State) (slot seq : Nat) (k : Slot) : Bytes :=
  let w := if k.present then kwpWrap (s.slotKek slot k.gen) k.key else []
  let b := leBytes 2 0x4B56 ++ leBytes 2 slot ++ leBytes 2 k.gen ++ leBytes 2 k.attr.toNat ++ leBytes 4 seq ++
    (w ++ List.replicate (40 - w.length) 0) ++ List.replicate 8 0
  b ++ leBytes 4 (crc32c b)

/-- What the security processor finds in the vault's copy in force of a slot (R363): the record of `vaultRecord`. -/
def State.vaultCopy (s : State) (slot : Nat) : Bytes :=
  s.vaultRecord slot (SMap.get zeroNat s.key.vaultSeq slot) (SMap.get slotDefault s.key.vault slot)

/-- The data key of a namespace (R366): KDF under slot 3, label "HL6616 ns data", context NSID and the ASN of
its NS_CREATE. -/
def nsDataKey (root : Bytes) (nsid asn : Nat) : Bytes :=
  kdf root (kdfFixed (beBytes 14 0x484C36363136206E732064617461) (beBytes 2 nsid ++ beBytes 8 asn) 256) 32

/-- The data key of a namespace under the live storage root; none while slot 3 is empty. -/
def State.nsKey (s : State) (n : Ns) : Option Bytes :=
  (s.slotKey 3).map fun root => nsDataKey root n.nsid n.createAsn

/-! ## The DRBG (R347, R348) -/

/-- The DRBG gives output: it is running, with or without a healthy source. -/
def State.drbgOk (s : State) : Bool := s.cry.drbg = 1 || s.cry.drbg = 2

/-- `n` bytes of DRBG output and the state after the draw. -/
def State.random (s : State) (n : Nat) : Bytes × State := (s.draw n, s.tookFree)

/-! ## Nonces (R343 to R345) -/

/-- A slot's nonce counter. -/
def State.counter (s : State) (i : Nat) : Nat := SMap.get zeroNat s.key.counters i

/-- A slot's durable reservation limit. -/
def State.limit (s : State) (i : Nat) : Nat := SMap.get zeroNat s.key.limits i

/-- One more reservation of 2^20 made durable, up to the end of the counter space. -/
def State.reserve (s : State) (i : Nat) : State :=
  ({ s with key := { s.key with limits := SMap.set zeroNat i (min (2 ^ 64) (s.limit i + 2 ^ 20)) s.key.limits } }).count
    Reg.CRY.RESERVATIONS 1

/-- A slot becomes encrypt-disabled (R345). -/
def State.disableEnc (s : State) (i : Nat) : State :=
  let k := s.slot i
  (s.commitSlot i { k with attr := k.attr ||| 0x800 }).report Ev.CRY.NONCE_EXHAUSTED stNonce

/-- What an encryption that needs a counter value finds (R344, R345): the status that ends it, or the IV, with the
state after the value is consumed. -/
def State.nonce (s : State) (i : Nat) : Except Nat Bytes × State :=
  let c := s.counter i
  if (s.slot i).encDisabled ∨ 2 ^ 64 ≤ c then (.error stNonce, s)
  else if s.limit i ≤ c ∧ s.flash.readOnly then (.error stWorn, s)
  else
    let s := if s.limit i ≤ c then s.reserve i else s
    let iv := beBytes 4 s.devField ++ beBytes 8 c
    let s := { s with key := { s.key with counters := SMap.set zeroNat i (c + 1) s.key.counters } }
    let s := if c + 1 + 2 ^ 19 = s.limit i ∧ s.limit i < 2 ^ 64 ∧ !s.flash.readOnly then s.reserve i else s
    (.ok iv, if c + 1 = 2 ^ 64 then s.disableEnc i else s)

/-- The checks an encryption under a slot would meet, without consuming a value. -/
def State.nonceStatus (s : State) (i : Nat) : Option Nat :=
  match (s.nonce i).1 with
  | .error e => some e
  | .ok _ => none

end Sys2Proof.Machine
end

