-- ==== Sys2Proof/Machine/FlashOps.lean ====
section
/-! DEFINITION. The flash tier's shared operations: geometry, addresses and capacity (R257 to R260, R270), unit headers
(R264), streams, stripes, wordline groups and the placing of units (R261 to R265), retiring blocks and the spares (R282,
R284). Which physical blocks hold the drain reserve is not given: log entry 30. -/

namespace Sys2Proof.Machine

open Sys2Proof

/-! ## Geometry -/

/-- Units of a dense block: planes × pages (R257). -/
def profUpb (p : NandProfile) : Nat := p.planes * p.pagesDense

/-- Units of a block in SLC mode (R257). -/
def profSlc (p : NandProfile) : Nat := profUpb p / p.bits

/-- The profile in force, or one of no units. -/
def Flash.prof (f : Flash) : NandProfile := f.profile.getD ⟨3, 0, 0, 0, 0, 0, 0, 16384, 2048, 1, 1, true, [], 0, 0, 0⟩

/-- The read limit that a profile gives a dense block (Table 11-6). -/
def profReads (p : NandProfile) : Nat := if p.bits = 4 then 100000 else 200000

/-- A profile within the limits of Table 11-1 (R257, Table 11-5): the tier supports no other (log entry 163). -/
def profileOk (p : NandProfile) : Bool :=
  (p.bits == 3 || p.bits == 4) && p.slcMode && p.pageBytes == 16384 && decide (2048 ≤ p.spareBytes) &&
    ([2, 4, 6] : List Nat).contains p.planes && decide (p.pagesDense ≤ 4096) && decide (p.blocksPlane ≤ 8192) &&
    decide (1 ≤ p.luns) && decide (p.luns ≤ 4) && decide (1 ≤ p.targets) && decide (p.targets ≤ 4) &&
    decide (profUpb p * p.blocksPlane ≤ 2 ^ 23) && decide (p.retry.length ≤ 16)

/-! ## Training (R57) -/

/-- The rates of a channel's data interface in Table 02-14, MT/s: NV-LPDDR4 800 to 3,600, NV-DDR3 400 to 1,600; Toggle
devices run at the same rates as the interface of their electrical level (R56): DEDUCED, log entry 153. -/
def ifaceRate (iface rate : Nat) : Bool :=
  if iface = 2 then decide (400 ≤ rate) && decide (rate ≤ 1600)
  else if iface = 1 then decide (800 ≤ rate) && decide (rate ≤ 3600)
  else decide (400 ≤ rate) && decide (rate ≤ 3600)

/-- The series that training goes down from a rate: at it first, then at each lower rate of the interface. -/
def trainSeries (iface top : Nat) : List Nat :=
  [3600, 3200, 2400, 1600, 800, 400].filter fun r => decide (r ≤ top) && ifaceRate iface r

/-- The rate at which a channel's training passes: the first of its series at which it does; 0 where none does. -/
def Flash.rateOf (f : Flash) (c : ChannelFound) : Nat :=
  ((trainSeries f.prof.iface f.prof.rate).find? fun r => c.passes.contains r).getD 0

/-- A channel answers and trains at some rate of its series. -/
def Flash.trains (f : Flash) (c : ChannelFound) : Bool := c.answers && decide (f.rateOf c ≠ 0)

/-- Training fell back: it passed below the first rate of the series. -/
def Flash.fellBack (f : Flash) (c : ChannelFound) : Bool :=
  decide (f.rateOf c ≠ 0) && decide (f.rateOf c ≠ (trainSeries f.prof.iface f.prof.rate).headD 0)

/-- Channels in service, ascending. -/
def Flash.chs (f : Flash) : List Nat := (List.range 32).filter fun k => f.channels.getLsbD k

/-- In-service dies of a channel (R262). -/
def Flash.diesOn (f : Flash) (ch : Nat) : List Nat :=
  (List.range f.dieCh.length).filter fun d => f.dieCh.getD d 0 == ch && !f.diesLost.contains d

/-- Blocks formatted. -/
def Flash.nBlocks (f : Flash) : Nat := f.dieCh.length * f.blocksPerDie

/-- The die and the channel of a block. -/
def Flash.dieOf (f : Flash) (b : Nat) : Nat := if f.blocksPerDie = 0 then 0 else b / f.blocksPerDie
def Flash.chOf (f : Flash) (b : Nat) : Nat := f.dieCh.getD (f.dieOf b) 0

/-- A fresh block. -/
def freshBlock (id : Nat) : Block := ⟨id, .free, false, false, 0, 0, 0, false⟩

/-- The block with a number. -/
def Flash.block (f : Flash) (b : Nat) : Block := (f.blocks.find? fun x => x.id == b).getD (freshBlock b)

/-- A block replaced; a fresh block is not listed. -/
def Flash.setBlock (f : Flash) (b : Block) : Flash :=
  if b = freshBlock b.id then { f with blocks := dropWhere (fun x => x.id == b.id) f.blocks }
  else { f with blocks := putWhere (fun x => x.id == b.id) b f.blocks }

/-! ## Addresses (R259) -/

/-- The place of a die among those of its channel. -/
def Flash.dieRank (f : Flash) (d : Nat) : Nat := ((f.dieCh.take d).filter fun c => c == f.dieCh.getD d 0).length

/-- Target and LUN of a die, in the order of Table 11-2. -/
def Flash.tgtOf (f : Flash) (d : Nat) : Nat := f.dieRank d / max 1 f.prof.luns
def Flash.lunOf (f : Flash) (d : Nat) : Nat := f.dieRank d % max 1 f.prof.luns

/-- UNIT of Table 11-2: block × UPB + page × planes + plane; units of a block are numbered page × planes + plane. -/
def Flash.puaUnit (f : Flash) (b u : Nat) : Nat := b % max 1 f.blocksPerDie * profUpb f.prof + u

/-- The physical unit address of a unit of a block (Table 11-2). -/
def Flash.pua (f : Flash) (b u : Nat) : Nat :=
  let d := f.dieOf b
  f.chOf b % 32 * 2 ^ 27 + f.tgtOf d % 4 * 2 ^ 25 + f.lunOf d % 4 * 2 ^ 23 + f.puaUnit b u % 2 ^ 23

/-- The flash map's word for a logical map unit: its PUA, or that of an unmapped one. -/
def Flash.mapWord (f : Flash) (lmu : Nat) : Nat :=
  match f.map.find? fun e => e.lmu == lmu with
  | some e => f.pua e.block e.unit
  | none => 0xFFFFFFFF

/-- Units of a block in its cell mode; unit address 0x7F_FFFF is never used (Table 11-2). -/
def Flash.capOf (f : Flash) (b : Block) : Nat :=
  min (if b.slc then profSlc f.prof else profUpb f.prof) (0x7FFFFF - f.puaUnit b.id 0)

/-! ## Units and their headers (R264) -/

def UnitKind.code : UnitKind → Nat
  | .value => 1
  | .leaf => 2
  | .journal => 3
  | .checkpoint => 4
  | .parity => 5
  | .system => 6
  | .pad => 7

/-- The back-pointer of journal, parity and pad units. -/
def noLmu : Nat := 0xFFFFFFFF

def padInfo : UnitInfo := ⟨.pad, false, noLmu, 0⟩
def parityInfo : UnitInfo := ⟨.parity, false, noLmu, 0⟩

/-- The unit header of Table 11-4. -/
def FlashUnit.header (u : FlashUnit) (tierId : Nat) : Bytes :=
  let flags := (if u.info.relocated then 1 else 0) + (if u.slc then 2 else 0)
  let b := leBytes 2 0x5546 ++ leBytes 1 u.info.kind.code ++ leBytes 1 flags ++ leBytes 4 u.info.lmu ++ leBytes 8 u.wseq ++
    leBytes 8 tierId ++ leBytes 4 u.stripe
  b ++ leBytes 4 (crc32c b)

/-- The unit programmed at a place. -/
def Flash.unitAt (f : Flash) (b u : Nat) : Option FlashUnit := f.units.find? fun x => x.block == b && x.unit == u

/-- KIND of the unit that the map names for a map unit. -/
def Flash.kindOf (f : Flash) (e : MapEntry) : UnitKind :=
  match f.unitAt e.block e.unit with
  | some u => u.info.kind
  | none => .value

/-- A journal unit that holds a record not trimmed yet. -/
def Flash.keepsJournal (f : Flash) (u : FlashUnit) : Bool :=
  u.info.kind == .journal && decide (f.trimmed < u.info.jseq)

/-- Mapped units (m of R270). -/
def Flash.mapped (f : Flash) : Nat := f.map.length

/-- Units of a block that hold valid data: those that the map names, those staged, and the journal's. -/
def Flash.valid (f : Flash) (b : Nat) : Nat :=
  (f.map.filter fun e => e.block == b).length + (f.staged.filter fun e => e.block == b).length +
    (f.units.filter fun u => u.block == b && f.keepsJournal u).length

/-- A block erased: its units are gone. -/
def Flash.dropUnits (f : Flash) (b : Nat) : Flash := { f with units := f.units.filter fun u => u.block != b }

/-- Units mapped in SLC-mode blocks. -/
def Flash.slcHeld (f : Flash) : Nat := (f.map.filter fun e => (f.block e.block).slc).length

/-- Free blocks of the tier. -/
def Flash.freeCount (f : Flash) : Nat :=
  f.nBlocks - (f.blocks.filter fun b => b.state != .free).length

/-- Collection is mandatory at 10 ‰ free blocks (R272). -/
def Flash.gcMandatory (f : Flash) : Bool := f.formatted && decide (f.freeCount * 1000 ≤ 10 * f.nBlocks)

/-- Fill in basis points (R270). -/
def Flash.fill (f : Flash) : Nat := if f.n = 0 then 0 else f.mapped * 10000 / f.n

/-- The SLC buffer target s (R270). -/
def Flash.slcTarget (f : Flash) : Nat := f.raw * (120000 - 115 * f.fill / 10) / 1000000

/-- n for a raw capacity, a channel count and a DRAM size in GiB (R260). -/
def logicalUnits (raw c dramGib : Nat) : Nat :=
  min (if 4 ≤ c then raw * (c - 1) * 87 / (c * 100) else raw * 87 / 100) (if dramGib = 32 then 2 ^ 31 else 2 ^ 30)

/-- Blocks formatted on every die: as many as the profile gives, or the largest number that keeps the dense capacity
within 32 TiB (R258); a block is one erase block in each plane. -/
def blocksToFormat (p : NandProfile) (dies : Nat) : Nat :=
  if dies * profUpb p = 0 then 0 else min p.blocksPlane (2 ^ 31 / (dies * profUpb p))

/-! ## Placing units -/

/-- Stream numbering of a stream's cell mode: HOST and META in SLC mode (Table 11-3). -/
def WriteStream.slc : WriteStream → Bool
  | .host => true
  | .meta_ => true
  | _ => false

/-- Where a stream stands. -/
def Flash.pos (f : Flash) (st : WriteStream) : StreamPos :=
  (f.streams.find? fun p => p.stream == st).getD ⟨st, 0, []⟩

def Flash.setPos (f : Flash) (p : StreamPos) : Flash :=
  { f with streams := putWhere (fun x => x.stream == p.stream) p f.streams }

/-- The better of two free blocks for a stream: least worn, or most worn for COLD (R278); the lower number among
equals. -/
def betterBlock (st : WriteStream) (a b : Block) : Block :=
  let first := if st = .cold then decide (b.erase < a.erase) else decide (a.erase < b.erase)
  if first || (a.erase == b.erase && decide (a.id ≤ b.id)) then a else b

/-- The block a stream opens on a die (Table 11-3). -/
def Flash.pickFree (f : Flash) (st : WriteStream) (die : Nat) : Option Block :=
  ((List.range f.blocksPerDie).map fun i => f.block (die * f.blocksPerDie + i)).foldl
    (fun best b =>
      if b.state = .free then
        match best with
        | none => some b
        | some x => some (betterBlock st x b)
      else best) none

/-- A block as a stream opens it. -/
def Block.opened (st : WriteStream) (b : Block) : Block :=
  { b with state := BlockState.open_, slc := st.slc, cold := decide (st = .cold), used := 0 }

/-- The open block of a stream on a die. -/
def Flash.openBlock (f : Flash) (st : WriteStream) (die : Nat) : Option Nat :=
  ((f.pos st).openBlocks.find? fun x => x.1 == die).map fun x => x.2

/-- A stream opens a block on a die where it has none there and one is free (R261). -/
def Flash.openOn (f : Flash) (st : WriteStream) (die : Nat) : Flash :=
  match f.openBlock st die with
  | some _ => f
  | none =>
    match f.pickFree st die with
    | none => f
    | some b =>
      let p := f.pos st
      (f.setBlock (b.opened st)).setPos { p with openBlocks := p.openBlocks ++ [(die, b.id)] }

/-- The five streams of Table 11-3. -/
def allStreams : List WriteStream := [.host, .stream, .mutable_, .cold, .meta_]

/-- Each stream holds one open block on every in-service die (R261). -/
def Flash.openAll (f : Flash) : Flash :=
  let dies := (f.chs.map f.diesOn).flatten
  allStreams.foldl (fun f st => dies.foldl (fun (f : Flash) d => f.openOn st d) f) f

/-- Program one unit of a stream on the `k`-th in-service channel of a stripe: the block and unit used. A block that it
fills closes, and the stream opens the next. -/
def Flash.program (f : Flash) (st : WriteStream) (k stripe : Nat) (info : UnitInfo) : Option (Flash × Nat × Nat) :=
  let dies := f.diesOn (f.chs.getD k 0)
  match dies[stripe % dies.length]? with
  | none => none
  | some die =>
    let f := f.openOn st die
    match f.openBlock st die with
    | none => none
    | some id =>
      let b := f.block id
      let unit := b.used
      let wseq := f.wseq + 1
      let g : Flash := { f with wseq := wseq, units := f.units ++ [⟨id, unit, st, b.slc, wseq, stripe, info⟩] }
      if f.capOf b ≤ unit + 1 then
        let p := f.pos st
        let shut := { p with openBlocks := dropWhere (fun (x : Nat × Nat) => x.1 == die) p.openBlocks }
        some (((g.setBlock { b with used := unit + 1, state := .closed }).setPos shut).openOn st die, id, unit)
      else some (g.setBlock { b with used := unit + 1 }, id, unit)

/-- Data units of a stripe: one unit of each is parity while c ≥ 4 (R263). -/
def Flash.striped (f : Flash) : Bool := decide (4 ≤ f.chs.length)
def Flash.perStripe (f : Flash) : Nat := if f.striped then f.chs.length - 1 else f.chs.length

/-- Place one data unit of a stream in its stripe, and the stripe's parity behind its last data unit while c ≥ 4
(R262, R263): the block and unit it took. -/
def Flash.place (f : Flash) (st : WriteStream) (info : UnitInfo) : Option (Flash × Nat × Nat) :=
  let c := f.chs.length
  let per := f.perStripe
  if per = 0 then none
  else
    let u := (f.pos st).units
    let stripe := u / per
    let i := u % per
    let k := if f.striped && decide (stripe % c ≤ i) then i + 1 else i
    match f.program st k stripe info with
    | none => none
    | some (f, b, unit) =>
      let f := f.setPos { f.pos st with units := u + 1 }
      let f := if f.striped && i + 1 == per then
          match f.program st (stripe % c) stripe parityInfo with
          | some (f, _, _) => f
          | none => f
        else f
      some (f, b, unit)

/-- Streams with an open stripe: each has its running parity in the protected write buffer (R263). -/
def Flash.openStripes (f : Flash) : Nat :=
  if f.striped then (f.streams.filter fun p => p.units % f.perStripe != 0).length else 0

/-! ## Wordline groups (R265) -/

/-- Units of a wordline group of a block: an SLC-mode unit is its own; a dense group is the b pages of one wordline in
every plane (log entry 164). -/
def Flash.groupOf (f : Flash) (b : Block) : Nat := if b.slc then 1 else max 1 (f.prof.bits * f.prof.planes)

/-- An open block of the stream ends part-way through a group that holds data. -/
def Flash.partGroup (f : Flash) (st : WriteStream) : Bool :=
  (f.pos st).openBlocks.any fun x =>
    let b := f.block x.2
    let g := f.groupOf b
    b.used % g != 0 && f.units.any fun u =>
      u.block == b.id && decide (b.used / g * g ≤ u.unit) && u.info.kind != .pad && u.info.kind != .parity

/-- The stream's next units are pads until every group that holds data is whole, so that its units are on media (R265). -/
def Flash.padGo (st : WriteStream) : Nat → Flash → Flash
  | 0, f => f
  | k + 1, f =>
    if f.partGroup st then
      match f.place st padInfo with
      | some (f, _, _) => Flash.padGo st k f
      | none => f
    else f

def Flash.padStream (f : Flash) (st : WriteStream) : Flash :=
  Flash.padGo st (f.prof.bits * f.prof.planes * (f.dieCh.length + 1) * (f.chs.length + 1)) f

/-- The dense streams padded. -/
def Flash.padDense (f : Flash) : Flash := ((f.padStream .stream).padStream .mutable_).padStream .cold

/-! ## The map -/

/-- Program a unit where a stream puts it: the entry that the map is to take; none where no block is free. -/
def Flash.put (f : Flash) (st : WriteStream) (kind : UnitKind) (lmu : Nat) (relocated cold : Bool) :
    Option (Flash × MapEntry) :=
  (f.place st ⟨kind, relocated, lmu, 0⟩).map fun x => (x.1, ⟨lmu, x.2.1, x.2.2, f.wseq + 1, relocated, cold⟩)

/-- The map names a unit. -/
def Flash.mapTo (f : Flash) (e : MapEntry) : Flash := { f with map := putWhere (fun x => x.lmu == e.lmu) e f.map }

/-- Map a unit to the place a stream gives it; the map is unchanged where no block is free. Whoever writes units to a dense
stream pads it behind the last. -/
def Flash.write (f : Flash) (st : WriteStream) (kind : UnitKind) (lmu : Nat) (relocated cold : Bool) : Flash × Bool :=
  match f.put st kind lmu relocated cold with
  | none => (f, false)
  | some (g, e) => (g.mapTo e, true)

/-- Blocks that hold no valid unit any more become stale (R274). -/
def Flash.staleEmpty (f : Flash) : Flash :=
  { f with blocks := f.blocks.map fun b =>
      if b.state = .closed ∧ f.valid b.id = 0 then { b with state := .stale } else b }

/-- Units unmapped. -/
def Flash.unmap (f : Flash) (lmus : List Nat) : Flash :=
  Flash.staleEmpty { f with map := dropWhere (fun e => lmus.contains e.lmu) f.map }

/-- Units staged for commands that will not store them: they are garbage. -/
def Flash.unstage (f : Flash) (lmus : List Nat) : Flash :=
  Flash.staleEmpty { f with staged := dropWhere (fun e => lmus.contains e.lmu) f.staged }

/-- The stream that promotion and relocation of a unit take (R271, R274). -/
def moveStream (cold : Bool) : WriteStream := if cold then .cold else .mutable_

/-- The stream a drain takes: HOST while the SLC data held is below s, else by namespace kind (R271). -/
def Flash.drainStream (f : Flash) (cold : Bool) : WriteStream :=
  if f.slcHeld < f.slcTarget then .host else moveStream cold

/-- Units relocated one after another (R274): each copy keeps its KIND and back-pointer and carries RELOCATED, and the copies
are on media before the map names them. -/
def Flash.moveUnits (f : Flash) (stream : Bool → WriteStream) : List MapEntry → Flash
  | [] => f.padDense.staleEmpty
  | e :: es => Flash.moveUnits (f.write (stream e.cold) (f.kindOf e) e.lmu true e.cold).1 stream es

/-- Journal units programmed in a stream, newest record given; false where no block was free. -/
def Flash.putJournal (st : WriteStream) (relocated : Bool) (jseq : Nat) : Nat → Flash → Flash × Bool
  | 0, f => (f, true)
  | n + 1, f =>
    match f.place st ⟨.journal, relocated, noLmu, jseq⟩ with
    | none => (f, false)
    | some (f, _, _) => Flash.putJournal st relocated jseq n f

/-- The journal units of a block copied, each to the HOST stream. -/
def Flash.moveJournal (f : Flash) (b : Nat) : Flash :=
  (f.units.filter fun u => u.block == b && f.keepsJournal u).foldl (fun f u =>
    match Flash.putJournal .host true u.info.jseq 1 f with
    | (g, true) => { g with units := updWhere (fun x => x.block == u.block && x.unit == u.unit)
                              (fun x => { x with info := { x.info with jseq := 0 } }) g.units }
    | (_, false) => f) f

/-! ## The drain reserve and the root records (R267, R269, R284) -/

/-- The first block of the first die of the lowest in-service channel of a half of the channels. -/
def Flash.rootBlock (f : Flash) (half : List Nat) : Option Nat :=
  match half.find? fun ch => f.channels.getLsbD ch with
  | none => none
  | some ch => ((List.range f.dieCh.length).find? fun d => f.dieCh.getD d 0 == ch).map fun d => d * f.blocksPerDie

/-- The root blocks. -/
def Flash.rootBlocks (f : Flash) : List Nat :=
  (f.rootBlock (List.range 16)).toList ++ (f.rootBlock (List.range' 16 16)).toList

/-- SLC units that the reserve holds: two drains of 40 MiB and two directory images of 100 MiB with their seals. -/
def reserveUnits : Nat := 2 * 2560 + 2 * 6401

/-- The blocks of the drain reserve: from the last block of each die down, a die of every channel before the next die of one
(log entry 30). -/
def Flash.reserveBlocks (f : Flash) : List Nat :=
  let dies := ((List.range 16).map fun r => (List.range f.dieCh.length).filter fun d => f.dieRank d == r).flatten
  let rows := (List.range (f.blocksPerDie - 1)).map fun j => dies.map fun d => d * f.blocksPerDie + (f.blocksPerDie - 1 - j)
  rows.flatten.take ((reserveUnits + profSlc f.prof - 1) / max 1 (profSlc f.prof))

/-- Blocks set aside. -/
def Flash.setAside (f : Flash) (bs : List Nat) : Flash :=
  bs.foldl (fun f b => f.setBlock { f.block b with state := .reserved }) f

/-- A root record written over the older copy, in the root blocks in turn (R267). -/
def Flash.writeRoot (f : Flash) : Flash :=
  let seq := match f.roots.getLast? with
    | some r => r.seq + 1
    | none => 1
  let ckpt := match f.system.find? fun x => x.obj == .checkpoint with
    | some x => x.seq
    | none => 0
  let keep := f.roots.drop (f.roots.length + 1 - max 1 f.rootBlocks.length)
  { f with roots := keep ++ [⟨seq, ckpt, f.journalSeq, f.reserveBlocks, f.readOnly⟩] }

/-- Read-only as the root record of higher sequence says (R267, R284). -/
def Flash.rootReadOnly (f : Flash) : Bool :=
  match f.roots.getLast? with
  | some r => r.readOnly
  | none => f.readOnly

/-! ## Lost units (R263, R282) -/

/-- A unit lies on a die or a channel that has left service. -/
def Flash.unitLost (f : Flash) (b : Nat) : Bool :=
  f.diesLost.contains (f.dieOf b) || !f.channels.getLsbD (f.chOf b)

/-- The other units of a unit's stripe. -/
def Flash.mates (f : Flash) (b u : Nat) : List FlashUnit :=
  match f.unitAt b u with
  | none => []
  | some x => f.units.filter fun y => y.stream == x.stream && y.stripe == x.stripe && !(y.block == b && y.unit == u)

/-- Rung 4 can rebuild a unit: no other unit of its stripe is lost too. -/
def Flash.rebuilds (f : Flash) (b u : Nat) : Bool := (f.mates b u).all fun x => !f.unitLost x.block

/-- What the ladder of Table 11-5 makes of the media's answer for a unit: one on a lost die or channel decodes at rung 4
alone, and rung 4 needs parity and a stripe that has lost no other unit. -/
def Flash.ladder (f : Flash) (b u : Nat) (r : ReadResult) : ReadResult :=
  let four := f.striped && f.rebuilds b u
  match r with
  | .uncorrectable => .uncorrectable
  | .decoded rung flip =>
    if f.unitLost b ∨ rung = 4 then (if four then .decoded 4 flip else .uncorrectable) else .decoded rung flip

/-! ## Spares (R282, R284) and wear -/

/-- The spares as a percentage of SPARE_INIT (Table 11-11). -/
def Flash.sparePct (f : Flash) : Nat := if f.spareInit = 0 then 0 else min 100 (f.spareNow * 100 / f.spareInit)

/-- Erase counts of in-service blocks: highest, lowest, sum. -/
def Flash.eraseMax (f : Flash) : Nat :=
  (f.blocks.filter fun b => b.state != .retired).foldl (fun m b => max m b.erase) 0
def Flash.eraseSum (f : Flash) : Nat :=
  (f.blocks.filter fun b => b.state != .retired).foldl (fun m b => m + b.erase) 0
def Flash.inServiceBlocks (f : Flash) : Nat := f.nBlocks - (f.blocks.filter fun b => b.state == .retired).length
def Flash.eraseMin (f : Flash) : Nat :=
  let l := f.blocks.filter fun b => b.state != .retired
  if l.length < f.inServiceBlocks then 0
  else match l with
    | [] => 0
    | b :: bs => bs.foldl (fun m x => min m x.erase) b.erase
def Flash.eraseMean (f : Flash) : Nat := if f.inServiceBlocks = 0 then 0 else f.eraseSum / f.inServiceBlocks

/-- WEAR_PCT (R278): the mean erase count as a percentage of the rated cycles; it holds at 255. -/
def Flash.wearPct (f : Flash) : Nat := if f.prof.rated = 0 then 0 else min 255 (f.eraseMean * 100 / f.prof.rated)

/-- WEAR_WARN raised or cleared (Table 19-4). -/
def State.checkWear (s : State) : State :=
  let w := s.flash.wearPct
  if s.rd Reg.HLT_THRESH.WEAR_WARN ≤ w then s.warn Reg.HLT_SUMMARY.WEAR Ev.HLT.WEAR_WARN w
  else s.wr Reg.HLT_SUMMARY.WEAR 0

/-- A temperature as a signed byte. -/
def tempByte (t : Int) : Nat := (max (-128) (min 127 t) % 256).toNat

/-- TEMP_WARN is raised or cleared (Table 19-4). -/
def State.checkTemp (s : State) : State :=
  let limit : Int := s.rd Reg.HLT_THRESH.TEMP_WARN
  if limit ≤ s.dev.hottest then
    s.warn Reg.HLT_SUMMARY.TEMP Ev.HLT.TEMP_WARN (tempByte s.dev.hottest + s.rd Reg.HLT_TEMP.SENSOR * 256)
  else if s.dev.hottest ≤ limit - 5 then s.wr Reg.HLT_SUMMARY.TEMP 0
  else s

/-- A change of the thresholds of HLT_THRESH raises or clears the warnings that they decide (R466). -/
def State.checkThresholds (s : State) : State :=
  let d := s.rd Reg.HLT.MEDIA_DAY
  let t := s.checkWear.checkTemp
  if s.rd Reg.HLT_THRESH.MEDIA_WARN ≤ d then t.warn Reg.HLT_SUMMARY.MEDIA Ev.HLT.MEDIA_WARN d else t

/-- The flash spares have fallen to `spareNow`: SPARE_LOW with SPARE_WARN below 10 % of SPARE_INIT, read-only at 0
(R284, Table 19-4). -/
def State.checkSpares (s : State) (before : Nat) : State :=
  let f := s.flash
  let low := fun n => decide (n * 10 < f.spareInit)
  let s := if low f.spareNow && !low before then s.raise Ev.FLT.SPARE_LOW else s
  let s := if low f.spareNow then s.warn Reg.HLT_SUMMARY.FLASH_SPARE Ev.HLT.SPARE_WARN f.spareNow else s
  if f.spareNow = 0 ∧ !f.readOnly ∧ f.formatted then
    { (s.report Ev.FLT.READ_ONLY stWorn) with flash := { f with readOnly := true }.writeRoot }
  else s

/-- GC_MANDATORY is set where collection was not mandatory while the tier stood as `f` and now is (R272, Table 11-15). -/
def State.noteCollection (s : State) (f : Flash) : State :=
  if s.flash.gcMandatory && !f.gcMandatory then s.raise Ev.FLT.GC_MANDATORY else s

/-- A block is retired: it counts against the spares (R282); `lostOnly` when only its channel or die is lost. -/
def State.retireBlock (s : State) (b : Nat) (lostOnly : Bool) : State :=
  let f := s.flash
  let blk := f.block b
  if blk.state = .retired ∨ f.nBlocks ≤ b then s
  else
    let ps := f.streams.map fun p => { p with openBlocks := dropWhere (fun x => x.2 == b) p.openBlocks }
    let f := { f with streams := ps }.setBlock { blk with state := .retired, lostOnly := lostOnly }
    let before := f.spareNow
    let f := { f with spareNow := f.spareNow - 1, retired := f.retired + 1,
                      refresh := f.refresh.filter fun x => x != b }
    ((({ s with flash := f }).raiseI Ev.FLT_I.BLOCK_RETIRED (f.chOf b)).checkSpares before).noteCollection s.flash

/-- NAND_UNITS and HOST_UNITS raised by what has been programmed since the tier stood as `f` (Table 11-13). -/
def State.countUnits (s : State) (f : Flash) (host : Nat) : State :=
  let s := s.count64 Reg.FLT.NAND_UNITS_LO Reg.FLT.NAND_UNITS_HI 0 (s.flash.wseq - f.wseq)
  (s.count64 Reg.FLT.HOST_UNITS_LO Reg.FLT.HOST_UNITS_HI 0 host).noteCollection f

end Sys2Proof.Machine
end

