-- ==== Sys2Proof/Machine/DiskOps.lean ====
section
/-! DEFINITION. The disk tier's shared operations: zones and band slots (R309, R321), the band writer (R322 to R327),
locating a sector (R324), and whether the disk accepts writes (R208, R333). Which free slot the writer opens is not
given: the lowest-numbered one (log entry 48). -/

namespace Sys2Proof.Machine

open Sys2Proof

/-- A bit vector of numbers. -/
def maskOf (l : List Nat) : Nat := l.foldl (fun n h => n ||| 2 ^ h) 0

/-- The heads of a mask, ascending. -/
def maskHeads (m : Nat) : List Nat := (List.range 22).filter fun h => m.testBit h

/-- The head with a number. -/
def State.head? (s : State) (h : Nat) : Option Head := s.srv.heads.find? fun x => x.id == h

def State.setHead (s : State) (h : Head) : State :=
  { s with srv := { s.srv with heads := updWhere (fun x => x.id == h.id) (fun _ => h) s.srv.heads } }

/-! ## Zones and slots (R309, R321) -/

/-- The zone of a track (R291, R309): 32 equal ranges of a surface's tracks. -/
def zoneOf (tracks : Nat) (track : Int) : Nat := if tracks = 0 then 0 else min 31 (track.toNat * 32 / tracks)

/-- T(z): tracks of a band slot with `h` heads, its guard included. -/
def slotTracks (h z : Nat) : Nat := if h = 0 then 0 else (66560 + h * zoneSpt z - 1) / (h * zoneSpt z) + 1

/-- The first track that a zone's slots may use; tracks 0 to 63 are the calibration tracks. -/
def zoneFirst (tracks z : Nat) : Nat := max 64 (tracks * z / 32)

/-- Whole slots of a zone. -/
def zoneSlots (h tracks z : Nat) : Nat :=
  if h = 0 then 0 else (tracks * (z + 1) / 32 - zoneFirst tracks z) / slotTracks h z

/-- Slots of the tier at a format. -/
def formatSlots (h tracks : Nat) : Nat :=
  min 4194304 ((List.range 32).foldl (fun n z => n + zoneSlots h tracks z) 0)

/-- Zone and first track of a slot. -/
def slotPlace (h tracks : Nat) : List Nat → Nat → Nat × Nat
  | [], _ => (31, 0)
  | z :: zs, slot =>
    if slot < zoneSlots h tracks z then (z, zoneFirst tracks z + slot * slotTracks h z)
    else slotPlace h tracks zs (slot - zoneSlots h tracks z)

/-- Heads in service at the format. -/
def Rdc.headCount (r : Rdc) : Nat := (maskHeads r.headsAtFormat).length

def State.slotZone (s : State) (slot : Nat) : Nat := (slotPlace s.rdc.headCount s.srv.tracks (List.range 32) slot).1
def State.slotTrack (s : State) (slot : Nat) : Nat := (slotPlace s.rdc.headCount s.srv.tracks (List.range 32) slot).2

/-! ## Bands -/

def Rdc.band? (r : Rdc) (slot : Nat) : Option Band := r.bands.find? fun b => b.slot == slot

/-- A band replaced; a free one is not listed. -/
def Rdc.setBand (r : Rdc) (b : Band) : Rdc :=
  if b.state = .free then { r with bands := dropWhere (fun x => x.slot == b.slot) r.bands }
  else { r with bands := putWhere (fun x => x.slot == b.slot) b r.bands }

/-- Free slots, spares excluded (R321, R331). -/
def Rdc.freeSlots (r : Rdc) : Nat := r.slots - r.bands.length - r.spareNow

/-- The lowest-numbered free slot. -/
def Rdc.pickSlot (r : Rdc) : Option Nat :=
  if r.freeSlots = 0 then none else (List.range r.slots).find? fun i => (r.band? i).isNone

/-- Data sectors written in a band, and the logical slot of data sector d (R317). -/
def Band.data (b : Band) : Nat := 64 * (b.used / 65) + b.used % 65
def logicalSlot (d : Nat) : Nat := 65 * (d / 64) + d % 64

/-- Live data sectors of a band. -/
def State.bandLive (s : State) (slot : Nat) : Nat :=
  (s.kv.extents.filter fun e => e.inUse && e.disk && e.band == slot).foldl (fun n e =>
    n + (e.segs.foldl (fun k g => k + 28 + g.ct.length) 0 + 4095) / 4096) 0

/-- Participating heads of a segment, ascending. -/
def BandSegment.heads (g : BandSegment) : List Nat := maskHeads g.mask.toNat

/-- The band's last segment and those before it. -/
def Band.putLast (b : Band) (g : BandSegment) : Band := { b with segments := b.segments.dropLast ++ [g] }

/-- A new segment of a band. -/
def Band.newSegment (b : Band) (g : BandSegment) : Band := { b with segments := b.segments ++ [g], tail := 0, cut := false }

/-- The unwritten rest of the last row becomes void where a segment ends (R323). -/
def Band.endSegment (b : Band) (k rows : Nat) : Band :=
  let rest := k * rows - b.tail
  { b with voids := b.voids ++ List.range' b.phys rest, phys := b.phys + rest }

/-- The band track after the last one begins; none where the slot's tracks, guard excluded, are full. -/
def Band.nextTrack (tracks mask : Nat) (b : Band) : Option Band :=
  match b.segments.getLast? with
  | none => some (b.newSegment ⟨0, 0, 0, BitVec.ofNat 22 mask⟩)
  | some g => if g.track + 1 < tracks then some (b.newSegment ⟨g.track + 1, 0, 0, BitVec.ofNat 22 mask⟩) else none

/-- The last segment `g` ends: a new one begins at the next row on the heads that remain; a fifth change ends the track (R323). -/
def Band.nextSegment (tracks mask : Nat) (b : Band) (g : BandSegment) : Option Band :=
  let b := b.endSegment g.heads.length g.rows
  let now := mask &&& g.mask.toNat
  if (b.segments.filter fun x => x.track == g.track).length < 4 ∧ now ≠ 0 then
    some (b.newSegment ⟨g.track, g.row + g.rows, 0, BitVec.ofNat 22 now⟩)
  else b.nextTrack tracks mask

/-- Take `m` physical slots of a band for the heads of a mask (R322, R323); none where the slot's tracks, guard
excluded, are full. -/
def Band.advance (spt tracks mask : Nat) : Nat → Nat → Band → Option Band
  | 0, _, _ => none
  | fuel + 1, m, b =>
    if m = 0 then some b
    else
      match b.segments.getLast? with
      | none => (b.nextTrack tracks mask).bind (Band.advance spt tracks mask fuel m)
      | some g =>
        let k := g.heads.length
        if b.cut then (b.nextTrack tracks mask).bind (Band.advance spt tracks mask fuel m)
        else if mask &&& g.mask.toNat = g.mask.toNat then
          let room := k * (spt - g.row) - b.tail
          if room = 0 then (b.nextTrack tracks mask).bind (Band.advance spt tracks mask fuel m)
          else
            let take := min m room
            let tail := b.tail + take
            let g := { g with rows := (tail + k - 1) / k }
            Band.advance spt tracks mask fuel (m - take) ({ b with tail := tail, phys := b.phys + take }.putLast g)
        else (b.nextSegment tracks mask g).bind (Band.advance spt tracks mask fuel m)

/-- Write what is given into the next slots of a band: the band, and the physical slots taken. -/
def Band.store (spt tracks mask : Nat) (items : List SlotData) (b : Band) : Option (Band × List Nat) :=
  (Band.advance spt tracks mask 4096 items.length b).map fun c =>
    let ps := (List.range' b.phys (c.phys - b.phys)).filter fun p => !c.voids.contains p
    ({ c with sectors := c.sectors ++ ps.zip items }, ps)

/-- What a physical slot was written with. -/
def Band.held (b : Band) (p : Nat) : Option SlotData := (b.sectors.find? fun x => x.1 == p).map fun x => x.2

/-- The l-th physical slot that is neither void nor a remap copy (R324). -/
def Band.physical (b : Band) (l : Nat) : Nat :=
  (sortBy (fun x y => decide (x ≤ y)) (b.voids ++ b.copies)).foldl (fun p v => if v ≤ p then p + 1 else p) l

/-- Where a physical slot lies: band track, segment, head and sector position. -/
def locateGo : Nat → List BandSegment → Nat → Option (Nat × Nat × Nat × Nat)
  | _, [], _ => none
  | i, g :: gs, p =>
    let hs := g.heads
    let n := hs.length * g.rows
    if p < n then some (g.track, i, hs.getD (p % hs.length) 0, g.row + p / hs.length) else locateGo (i + 1) gs (p - n)

def Band.place (b : Band) (p : Nat) : Option (Nat × Nat × Nat × Nat) := locateGo 0 b.segments p

/-- The physical slot at a track, a head and a sector position. -/
def slotAtGo (track head pos : Nat) : Nat → List BandSegment → Option Nat
  | _, [] => none
  | base, g :: gs =>
    let hs := g.heads
    if g.track = track ∧ g.row ≤ pos ∧ pos < g.row + g.rows ∧ hs.contains head = true then
      some (base + (pos - g.row) * hs.length + hs.idxOf head)
    else slotAtGo track head pos (base + hs.length * g.rows) gs

def Band.slotAt (b : Band) (track head pos : Nat) : Option Nat := slotAtGo track head pos 0 b.segments

/-- The band and the physical slot that a data sector is read from: its remap copy where it has one (R320, R324). -/
def Rdc.resolve (r : Rdc) (band l : Nat) : Option (Band × Nat) :=
  match r.band? band with
  | none => none
  | some b =>
    match b.remap.find? fun x => x.1 == l with
    | some x => (r.band? x.2.1).map fun c => (c, x.2.2)
    | none => some (b, b.physical l)

/-- A remap copy that moved: every entry that named its old slot names the new one. -/
def remapMoved (band old new : Nat) (l : List (Nat × Nat × Nat)) : List (Nat × Nat × Nat) :=
  updWhere (fun x => x.2.1 == band && x.2.2 == old) (fun x => (x.1, band, new)) l

/-! ## Link frames (R304, R307) -/

/-- A write frame of a PAa link: CMD, DATA, CRC-8. -/
def paWrite (reg data : Nat) : Bytes := let b := beBytes 1 reg ++ beBytes 2 data; b ++ beBytes 1 (linkCrc b)

/-- What the device sends of a read frame: CMD and its CRC-8. -/
def paRead (reg : Nat) : Bytes := let b := beBytes 1 (0x80 + reg); b ++ beBytes 1 (linkCrc b)

/-- DATA of a read frame's answer, where its CRC-8 over CMD and DATA holds. -/
def paAnswer (reg : Nat) (r : BitVec 24) : Option (BitVec 16) :=
  let d := r.toNat / 256
  if r.toNat % 256 = linkCrc (beBytes 1 (0x80 + reg) ++ beBytes 2 d) then some (BitVec.ofNat 16 d) else none

/-- A MOT frame behind its start bit: CMD, payload, CRC-8 (Table 12-9). -/
def motBytes (cmd : Nat) (payload : Bytes) : Bytes := let b := beBytes 1 cmd ++ payload; b ++ beBytes 1 (linkCrc b)

/-- SPIN with [15:14]: 0 coast, 1 run, 2 brake. -/
def motSpin (code : Nat) : Bytes := motBytes 0x20 (beBytes 2 (code * 2 ^ 14))
def motRetract : Bytes := motBytes 0x30 (beBytes 2 0x5A5A)
def motStatus : Bytes := motBytes 0x40 []

/-- A signed number as a 16-bit field. -/
def field16 (v : Int) : Bytes := beBytes 2 (v % 65536).toNat

/-- The heads of an actuator armed (register 0x03 of Table 12-8): bit i for head i. -/
def preampArm (mask : Nat) : Bytes := paWrite 0x03 mask

/-! ## The heads that write -/

/-- A head that may write now: it participates, has settled for writing (R298) and is not inhibited (R299). -/
def Head.writes (h : Head) : Bool := h.part && h.inService && !h.inhibit && h.settledWr

def State.writeMask (s : State) : Nat := maskOf ((s.srv.heads.filter Head.writes).map fun h => h.id)

/-- The disk accepts writes for placement (R208, R302, R332, R333). -/
def State.diskAccepts (s : State) : Bool :=
  s.srv.disk == 4 && s.srv.writeReady && !s.rdc.writeStop && s.rdc.formatted && decide (s.writeMask ≠ 0) &&
    (decide (0 < s.rdc.freeSlots) || s.rdc.moveBand.isSome || s.rdc.streamBand.isSome)

/-- Every head in service at the format is in service now. -/
def State.allHeads (s : State) : Bool :=
  (maskHeads s.rdc.headsAtFormat).all fun h => s.srv.heads.any fun x => x.id == h && x.inService

/-- Both actuators reach a track (R298): a seek takes place within the command that needs it, and leaves strokes and
PES as they were (log entry 64). -/
def State.seekTo (s : State) (track : Nat) : State :=
  let go := fun (h : Head) =>
    if h.part then
      let d : Int := 1024 * track - h.target
      { h with target := h.target + d, x := h.x + d }
    else h
  { s with srv := { s.srv with heads := s.srv.heads.map go } }

/-! ## Writing -/

/-- A write stripe begins on the heads that may write: their preamplifiers are armed (R306). The stripe ends at each
head's next index wedge (log entry 64). -/
def State.armStripe (s : State) : State :=
  let ms := maskHeads s.writeMask
  let srv := s.srv
  let up := fun (a : Actuator) => if ms.any fun h => h / 11 == a.id then { a with armed := true } else a
  let srv := { srv with actuators := srv.actuators.map up,
                        heads := updWhere (fun h => ms.contains h.id) (fun h => { h with writing := true }) srv.heads }
  [0, 1].foldl (fun (s : State) a =>
    let bits := maskOf ((ms.filter fun h => h / 11 == a).map fun h => h % 11)
    if bits = 0 then s else s.emit (.paFrame a (preampArm bits))) { s with srv := srv }

/-- Tracks of a band slot that may be written, and sectors per track there. -/
def State.slotRoom (s : State) (slot : Nat) : Nat × Nat :=
  (zoneSpt (s.slotZone slot), slotTracks s.rdc.headCount (s.slotZone slot) - 1)

/-- The start wedge of a band track. -/
def Band.startWedge (b : Band) (track : Nat) : Nat := (b.w0 + track * b.skew) % 640

/-- What the metadata of a slot says (Table 13-3). -/
def State.slotMeta (s : State) (b : Band) (x : SlotData) : SectorMeta :=
  ⟨x.kind, b.slot, x.index, b.bseq, s.rdc.tierId % 2 ^ 32⟩

/-- The heads write slots of a band: the channel bits of each go out on its WD pair. -/
def State.wrote (s : State) (b : Band) : List (Nat × SlotData) → State
  | [] => s
  | (p, x) :: xs =>
    match b.place p with
    | none => s.wrote b xs
    | some (track, _, head, pos) =>
      (s.emit (.wdBits head (writePieces (b.startWedge track) (sectorPieces (s.slotZone b.slot) pos)
        (sectorBits p (s.slotMeta b x) x.data)))).wrote b xs

/-- Write what is given into a band. -/
def State.put (s : State) (b : Band) (items : List SlotData) : Option (Band × List Nat × State) :=
  (b.store (s.slotRoom b.slot).1 (s.slotRoom b.slot).2 s.writeMask items).map fun x => (x.1, x.2, s.wrote x.1 (x.2.zip items))

/-- Close a band (R327): its partial group ends with that group's parity sector (R317); `short` where its slot was full or the
remap limit was reached. -/
def State.closeBand (s : State) (b : Band) (short : Bool) : State :=
  let p := if b.used % 65 = 0 ∨ s.writeMask = 0 then (b, s)
    else match s.put b [⟨2, b.used / 65, b.parity⟩] with
      | some (c, _, t) => (c, t)
      | none => (b, s)
  let s := p.2
  let b := { p.1 with state := .closed, short := short, shortAllHeads := short && s.allHeads, parity := [] }
  let r := s.rdc.setBand b
  let r := { r with moveBand := if r.moveBand = some b.slot then none else r.moveBand
                    streamBand := if r.streamBand = some b.slot then none else r.streamBand }
  let s := { s with rdc := r }
  if short then s.raise Ev.RDC.SHORT_BAND else s

/-- Two byte strings XORed, the longer one's rest kept. -/
def xorBytes : Bytes → Bytes → Bytes
  | [], b => b
  | a, [] => a
  | x :: a, y :: b => (x ^^^ y) :: xorBytes a b

/-- The sectors of a value from data sector `d` on, with the parity sector of each group that they fill (R317), and the parity
of the group that they leave open; a last sector is filled up with zeros. -/
def dataItems : Nat → Nat → Bytes → Bytes → List SlotData × Bytes
  | 0, _, par, _ => ([], par)
  | n + 1, d, par, bytes =>
    let x := bytes.take 4096 ++ List.replicate (4096 - bytes.length) 0
    let q := xorBytes par x
    if d % 64 = 63 then
      match dataItems n (d + 1) [] (bytes.drop 4096) with
      | (l, r) => (⟨1, logicalSlot d, x⟩ :: ⟨2, d / 64, q⟩ :: l, r)
    else
      match dataItems n (d + 1) q (bytes.drop 4096) with
      | (l, r) => (⟨1, logicalSlot d, x⟩ :: l, r)

/-- The logical slot of what a physical slot holds. -/
def SlotData.logical (x : SlotData) : Nat := if x.kind = 2 then 65 * x.index + 64 else x.index

/-- The slots of a band's last track from the lowest row with a suspect sector on become void, the segment ends, and what they
held is written again in a new segment: data and parity in logical order, then remap copies (R323). -/
def State.rewriteRows (s : State) (b : Band) (bad : List Nat) : Option (Band × State) :=
  match b.segments.getLast? with
  | none => some (b, s)
  | some g =>
    let posOf := fun (p : Nat) => match b.place p with
      | some (t, _, _, pos) => if t = g.track then some pos else none
      | none => none
    match bad.filterMap posOf with
    | [] => some (b, s)
    | r :: rs =>
      let row := rs.foldl min r
      let low := fun (p : Nat) => match posOf p with
        | some pos => decide (row ≤ pos)
        | none => false
      let hit := b.sectors.filter fun (x : Nat × SlotData) => !b.voids.contains x.1 && low x.1
      let data := hit.filter fun (x : Nat × SlotData) => x.2.kind != 3
      let copies := hit.filter fun (x : Nat × SlotData) => x.2.kind == 3
      let b := { b with voids := b.voids ++ hit.map Prod.fst }
      match b.nextSegment (s.slotRoom b.slot).2 s.writeMask g with
      | none => none
      | some b =>
        match s.put b ((data ++ copies).map Prod.snd) with
        | none => none
        | some (b, ps, s) =>
          let new := ps.drop data.length
          let move := fun (l : List (Nat × Nat × Nat)) =>
            (copies.zip new).foldl (fun l (x : (Nat × SlotData) × Nat) => remapMoved b.slot x.1.1 x.2 l) l
          let rdc := { s.rdc with bands := s.rdc.bands.map fun (c : Band) => { c with remap := move c.remap } }
          some ({ b with copies := b.copies ++ new, remap := move b.remap }, { s with rdc := rdc })

/-- Remap copies of slots of a band or of one closed before it, written in the next slots of a band and entered in the band map
(R326). -/
def State.copySlots (s : State) (b : Band) (old : List (Nat × Nat)) : Option (Band × State) :=
  let found := old.filterMap fun x => (((if x.1 = b.slot then some b else s.rdc.band? x.1)).bind fun c => c.held x.2).map fun d => (x, d)
  match s.put b (found.map fun x => ⟨3, x.2.logical, x.2.data⟩) with
  | none => none
  | some (b, ps, s) =>
    let enter := fun (slot : Nat) (l : List (Nat × Nat × Nat)) => (found.zip ps).foldl (fun l x =>
      if x.1.1.1 = slot then putWhere (fun y => y.1 == x.1.2.logical) (x.1.2.logical, b.slot, x.2) l else l) l
    let rdc := { s.rdc with bands := s.rdc.bands.map fun (c : Band) => { c with remap := enter c.slot c.remap } }
    some ({ b with copies := b.copies ++ ps, remap := enter b.slot b.remap }, { s with rdc := rdc }.count Reg.RDC.REMAPS ps.length)

/-- Room of a band for remap copies of its own sectors. -/
def Band.remapRoom (b : Band) : Nat := 256 - (b.remap.filter fun x => x.2.1 == b.slot).length

/-- Write what R300 reported into a band: sectors of its own track again; remap copies of those of the track before and of bands
closed before, as many as the band's entries allow (R326). None where its slot has no room. -/
def State.mendBand (s : State) (b : Band) : Option (Band × State) :=
  let mine := fun (x : Nat × Nat) => x.1 == b.slot
  let cur := s.srv.suspects.filter mine
  let older := s.srv.suspectsPrev ++ dropWhere mine s.srv.suspects
  let own := older.filter mine
  let now := own.take b.remapRoom ++ dropWhere mine older
  let done := fun (s : State) => { s with srv := { s.srv with suspects := [], suspectsPrev := own.drop b.remapRoom } }
  if s.srv.suspects.isEmpty && s.srv.suspectsPrev.isEmpty then some (b, s)
  else
    match if cur.isEmpty then some (b, s) else s.rewriteRows b (cur.map fun x => x.2) with
    | none => none
    | some (b, s) => (s.copySlots b now).map fun x => (x.1, done x.2)

/-- Some sector of a band still waits for its remap copy: the entries were used up. -/
def State.pastRemaps (s : State) (b : Band) : Bool := s.srv.suspectsPrev.any fun x => x.1 == b.slot

/-- Write `n` data sectors into a band: its first new data sector, or none where they, with the parity of a group that they leave
open, do not fit (R325). -/
def State.fill (s : State) (b : Band) (bytes : Bytes) (n : Nat) : Option (Band × Nat × State) :=
  let d := b.data
  if 65536 < d + n then none
  else
    match dataItems n d b.parity bytes with
    | (items, par) =>
      match s.put b items with
      | none => none
      | some (c, _, t) =>
        let ends := decide ((d + n) % 64 = 0) ||
          (Band.advance (s.slotRoom b.slot).1 (s.slotRoom b.slot).2 s.writeMask 4096 1 c).isSome
        if ends then some ({ c with used := logicalSlot (d + n), parity := par }, d, t) else none

/-- A band opened on a slot: BSEQ rises by 1, TRACK_SKEW takes effect, and the writer chooses its start wedge. -/
def State.openBand (s : State) (slot : Nat) : Band × State :=
  (⟨slot, .open_, s.rdc.nextBseq, 0, 0, 0, Config.freeNat s.free % 640, s.rd Reg.RDC_CFG.TRACK_SKEW, [], [], [], [], false, false,
    false, false, [], []⟩,
   { s.tookFree with rdc := { s.rdc with nextBseq := s.rdc.nextBseq + 1 } })

/-- The writing of a band has begun: heads at its last track, armed. -/
def State.stripe (s : State) (slot : Nat) : State :=
  match s.rdc.band? slot with
  | none => s
  | some b =>
    let j := match b.segments.getLast? with
      | some g => g.track
      | none => 0
    { s with rdc := { s.rdc with writing := some slot } }.armStripe.seekTo (s.slotTrack slot + j)

/-- A band closes when its 66,560th logical slot is written (R327). -/
def State.closeFull (s : State) (b : Band) : State := if 66560 ≤ b.used then s.closeBand b false else s

/-- A band written on: what was suspect first, then `n` data sectors. -/
def State.writeBand (s : State) (b : Band) (bytes : Bytes) (n : Nat) : Option (Band × Nat × State) :=
  (s.mendBand b).bind fun x => if x.2.pastRemaps x.1 then none else x.2.fill x.1 bytes n

/-- A band in which an extent no longer fits is closed, with what was suspect in it written first (R325 to R327). -/
def State.closeWritten (s : State) (b : Band) (n : Nat) : State :=
  match s.mendBand b with
  | none => s.closeBand b true
  | some (c, t) =>
    let past := t.pastRemaps c
    t.closeBand { c with rung7 := c.rung7 || past } (past || decide (c.data + n ≤ 65536))

/-- Write `n` data sectors into the STREAM or the MOVE band (R325): the band, the first sector, and the state. -/
def State.diskWrite (s : State) (stream : Bool) (bytes : Bytes) (n : Nat) : Option (Nat × Nat × State) :=
  let cur := (if stream then s.rdc.streamBand else s.rdc.moveBand).bind s.rdc.band?
  let fresh := fun (s : State) =>
    match s.rdc.pickSlot with
    | none => none
    | some slot =>
      let p := s.openBand slot
      match p.2.writeBand p.1 bytes n with
      | none => none
      | some (b, d, s) =>
        let r := s.rdc.setBand b
        let r := if stream then { r with streamBand := some slot } else { r with moveBand := some slot }
        some (slot, d, ({ s with rdc := r }.stripe slot).closeFull b)
  if s.diskAccepts then
    match cur with
    | none => fresh s
    | some b =>
      match s.writeBand b bytes n with
      | some (b, d, s) => some (b.slot, d, ({ s with rdc := s.rdc.setBand b }.stripe b.slot).closeFull b)
      | none => fresh (s.closeWritten b n)
  else none

/-- A spin-up starts (R301): not in stalemate, not while PWRFAIL_N is low, and not in the 5 s before a retry. -/
def State.startSpin (s : State) : State :=
  if (s.srv.disk = 0 ∧ s.srv.attempts = 0 ∨ s.srv.disk = 5) ∧ s.dev.phase = .service ∧ !s.dev.pwrfailLow ∧
      s.cfg.hw.heads ≠ 0 then
    { s with srv := { s.srv with disk := 1, retracted := false }, dev := { s.dev with spinning := true } }.emit
      (.motFrame (motSpin 1))
  else s

/-! ## Reading from a lost head (R328) -/

/-- The head that a logical slot of a band is read from. -/
def Rdc.headOf (r : Rdc) (band l : Nat) : Option Nat :=
  (r.resolve band l).bind fun x => (x.1.place x.2).map fun y => y.2.2.1

/-- A head that is out of service or missing. -/
def State.headGone (s : State) (h : Nat) : Bool :=
  match s.head? h with
  | some x => !x.inService
  | none => true

/-- A data sector whose head is out of service and that its group cannot rebuild: the group holds another sector of
that head. -/
def State.sectorLost (s : State) (band d : Nat) : Bool :=
  match s.rdc.headOf band (logicalSlot d) with
  | none => false
  | some h => s.headGone h && (List.range 65).any fun i =>
      d / 64 * 65 + i != logicalSlot d && s.rdc.headOf band (d / 64 * 65 + i) == some h

/-- Some data sector from `first` on, `n` of them, is lost. -/
def State.sectorsLost (s : State) (band first n : Nat) : Bool :=
  if s.srv.heads.all fun h => h.inService then false
  else (List.range n).any fun i => s.sectorLost band (first + i)

end Sys2Proof.Machine
end

