-- ==== Sys2Proof/Machine/DiskRead.lean ====
section
/-! DEFINITION. Reading the disk tier (chapter 13): a sector's first pass, the retry ladder of Table 13-4, the sample buffers
and the counters. A sector that the operand of a command does not list is read as it was written. -/

namespace Sys2Proof.Machine

open Sys2Proof

/-- One more uncorrectable media read (R279, R318): lifetime and daily counts, MEDIA_WARN (Table 19-4). -/
def State.uncorrectable (s : State) (life : Field) : State :=
  let s := (s.count life 1).count Reg.HLT.MEDIA_DAY 1
  let d := s.rd Reg.HLT.MEDIA_DAY
  if s.rd Reg.HLT_THRESH.MEDIA_WARN ≤ d then s.warn Reg.HLT_SUMMARY.MEDIA Ev.HLT.MEDIA_WARN d else s

/-- Reads of which every one gives what was written. -/
def asWritten : MediaReads := ⟨[], [], []⟩

/-- What the heads give of a physical slot; none where it is read as it was written. -/
def mediaSector (rd : MediaReads) (band slot : Nat) : Option SectorRead :=
  (rd.sectors.find? fun x => x.1 == band && x.2.1 == slot).map fun x => x.2.2

/-- The weights of a head's readers in a zone, of 128: in proportion to their signal-to-noise ratios (R315). -/
def calWeights (c : HeadCal) (zone : Nat) : Nat × Nat :=
  let a := c.snrA.getD zone 0
  let b := c.snrB.getD zone 0
  if a + b = 0 then (0, 0) else ((256 * a + (a + b)) / (2 * (a + b)), 128 - (256 * a + (a + b)) / (2 * (a + b)))

/-- What reading a physical slot needs to know, and the head that it lies under; none where that head is gone or the slot was
not written. -/
def State.aimAt (s : State) (b : Band) (p : Nat) : Option (SectorAim × Nat) :=
  match b.place p with
  | none => none
  | some (_, _, hid, pos) =>
    match if (b.held p).isSome && !s.headGone hid then s.head? hid else none with
    | none => none
    | some h =>
      let z := s.slotZone b.slot
      some (⟨z, pos, p, b.slot, b.bseq, s.rdc.tierId % 2 ^ 32, (calWeights h.cal z).1, (calWeights h.cal z).2⟩, hid)

/-- The bits in which decoded data differ from what a slot was written with. -/
def Band.differs (b : Band) (p : Nat) (data : Bytes) : Bytes :=
  match b.held p with
  | some x => if data = x.data then [] else xorBytes data x.data
  | none => data

/-- A slot's first pass and rungs 1 to 3, which lost samples leave out (R319): the rung that decoded it and the bits that differ. -/
def State.firstPass (s : State) (rd : MediaReads) (b : Band) (p : Nat) : Option (Nat × Bytes) :=
  match s.aimAt b p with
  | none => none
  | some (a, _) =>
    match mediaSector rd b.slot p with
    | none => some (0, [])
    | some r =>
      match a.rungs (s.rd Reg.RDC_CFG.INLINE_ITER) (s.rd Reg.RDC_CFG.MAX_ITER) r.first with
      | some (k, d) => if r.lost ∧ 0 < k then none else some (k, b.differs p d)
      | none => none

/-- The slots of a group beside a logical slot, its parity's among them; none where the group's parity is not written yet. -/
def Rdc.groupMates (r : Rdc) (band l : Nat) : Option (List (Option (Band × Nat))) :=
  match r.band? band with
  | none => none
  | some b =>
    let g := l / 65
    let data := ((List.range' (65 * g) 64).filter fun i => i != l && decide (i < b.used)).map fun i => r.resolve band i
    let par := if 65 * g + 64 < b.used then r.resolve band (65 * g + 64)
      else ((b.sectors.filter fun x => x.2.kind == 2 && x.2.index == g && !b.voids.contains x.1).getLast?).map fun x => (b, x.1)
    par.map fun p => data ++ [some p]

/-- XOR of the differences of a group's other sectors, each decoded by rung 3 at most. -/
def State.matesDiffer (s : State) (rd : MediaReads) : List (Option (Band × Nat)) → Option Bytes
  | [] => some []
  | none :: _ => none
  | some (b, p) :: ms =>
    match s.firstPass rd b p, State.matesDiffer s rd ms with
    | some (_, f), some g => some (xorBytes f g)
    | _, _ => none

/-- Rung 4: the sector rebuilt from the group's others must pass SCRC (Table 13-4); the bits that differ. -/
def State.rebuildSector (s : State) (rd : MediaReads) (band l : Nat) (b : Band) (p : Nat) : Option Bytes :=
  match (s.rdc.groupMates band l).bind (s.matesDiffer rd), b.held p with
  | some f, some x =>
    if f.all fun v => v == 0 then some []
    else if (s.slotMeta b x).scrc (xorBytes x.data f) = (s.slotMeta b x).scrc x.data then some f
    else none
  | _, _ => none

/-- Rungs 5 to 7. -/
def State.rereadSector (s : State) (rd : MediaReads) (b : Band) (p : Nat) : Option (Nat × Bytes) :=
  match s.aimAt b p, mediaSector rd b.slot p with
  | some (a, _), some r => (a.rereads (s.rd Reg.RDC_CFG.MAX_ITER) r.first r.again).map fun x => (x.1, b.differs p x.2)
  | _, _ => none

/-- The ladder of Table 13-4 for the slot that a logical slot is read from. -/
def State.climb (s : State) (rd : MediaReads) (band l : Nat) (b : Band) (p : Nat) : ReadResult :=
  match s.firstPass rd b p with
  | some (k, f) => .decoded k f
  | none =>
    let lost := match mediaSector rd b.slot p with
      | some r => r.lost
      | none => false
    match if lost then none else s.rebuildSector rd band l b p with
    | some f => .decoded 4 f
    | none =>
      match s.rereadSector rd b p with
      | some (k, f) => .decoded k f
      | none => .uncorrectable

/-- The bound channel of a slot's head keeps the samples of its last 4 sectors (R316). -/
def State.sampled (s : State) (rd : MediaReads) (b : Band) (p hid : Nat) : State :=
  let x : ChannelSample := match mediaSector rd b.slot p with
    | none => ⟨hid, b.slot, p, none, []⟩
    | some r => ⟨hid, b.slot, p, some r.first, r.first.map erasureRuns⟩
  let mine := s.rdc.samples.filter fun y => y.head == hid
  let rest := s.rdc.samples.filter fun y => y.head != hid
  { s with rdc := { s.rdc with samples := (x :: mine).take 4 ++ rest } }

/-- A slot decoded inline or by rung 1 to 3: the counts of its head's channel and of spare detector 22, which takes a failing
sector (R319, log entry 63). -/
def State.countPass (s : State) (hid k : Nat) : State :=
  if k = 0 then s.countAt Reg.CH_DECODED.DECODED hid 1
  else ((s.countAt Reg.CH_RETRIED.RETRIED hid 1).countAt Reg.CH_DECODED.DECODED 22 1).count
    (if k = 1 then Reg.RDC.RUNG1 else if k = 2 then Reg.RDC.REFRAMED else Reg.RDC.ERASURE) 1

/-- The reads of the group's other sectors for rung 4. -/
def State.readMates (s : State) (rd : MediaReads) (l : List (Option (Band × Nat))) : State :=
  l.foldl (fun (s : State) m => match m with
    | none => s
    | some (b, p) =>
      match s.aimAt b p, s.firstPass rd b p with
      | some (_, hid), some (k, _) => (s.sampled rd b p hid).countPass hid k
      | _, _ => s) s

/-- What the read of a slot counts, by the rung that completed it (Table 13-4, Table 13-9), and the band queued for retirement
where rung 7 failed (R318). -/
def State.noteSector (s : State) (rd : MediaReads) (band l : Nat) (b : Band) (p : Nat) (r : ReadResult) : State :=
  let hid := match b.place p with
    | some (_, _, h, _) => h
    | none => 0
  let s := match s.aimAt b p with
    | some _ => s.sampled rd b p hid
    | none => s
  let lost := match mediaSector rd b.slot p with
    | some r => r.lost && (s.firstPass rd b p).isNone
    | none => false
  let s := if lost then s.raiseI Ev.RDC_I.SAMPLES_LOST hid else s
  match r with
  | .decoded k _ =>
    if k ≤ 3 then s.countPass hid k
    else
      let s := s.countAt Reg.CH_RETRIED.RETRIED hid 1
      if k = 4 then (s.readMates rd ((s.rdc.groupMates band l).getD [])).count Reg.RDC.GROUP_REBUILT 1
      else (s.countAt Reg.CH_DECODED.DECODED hid 1).count Reg.RDC.REREAD 1
  | .uncorrectable =>
    let s := s.countAt Reg.CH_RETRIED.RETRIED hid 1
    let s := (s.count Reg.RDC.UNCORR_SECTORS 1).report Ev.RDC.DISK_UNCORR stMedia
    let s := s.uncorrectable Reg.HLT.DISK_UNCORR
    { s with rdc := s.rdc.setBand { b with rung7 := true } }

/-- One data sector read: the heads go to its band track, and it passes the ladder. -/
def State.readSector (s : State) (rd : MediaReads) (band d : Nat) : ReadResult × State :=
  match s.rdc.resolve band (logicalSlot d) with
  | none => (.uncorrectable, s)
  | some (b, p) =>
    let track := match b.place p with
      | some x => x.1
      | none => 0
    let r := s.climb rd band (logicalSlot d) b p
    (r, (s.seekTo (s.slotTrack b.slot + track)).noteSector rd band (logicalSlot d) b p r)

/-- Data sectors read in order until one fails: the bits in which they differ from what was written. -/
def State.readSectors (s : State) (rd : MediaReads) (band : Nat) : List Nat → ReadResult × State
  | [] => (.decoded 0 [], s)
  | d :: ds =>
    match s.readSector rd band d with
    | (.uncorrectable, s) => (.uncorrectable, s)
    | (.decoded _ f, s) =>
      match s.readSectors rd band ds with
      | (.uncorrectable, s) => (.uncorrectable, s)
      | (.decoded _ g, s) =>
        if f.isEmpty && g.isEmpty then (.decoded 0 [], s)
        else (.decoded 0 (f ++ List.replicate (4096 - f.length) 0 ++ g), s)

end Sys2Proof.Machine
end

