-- ==== Sys2Proof/Machine/Store.lean ====
section
/-! DEFINITION. Keys, values, the key directory and placement (chapter 08): extents and their segments, leaf pages
and the leaf map, the directory, the read cache, and the two operations every command uses: finding a key's record
and making a record current. -/

namespace Sys2Proof.Machine

open Sys2Proof

/-! ## Namespaces -/

/-- The namespace with an ID. -/
def State.ns? (s : State) (id : Nat) : Option Ns := s.kv.namespaces.find? fun n => n.nsid == id

/-- A namespace replaced, or added. -/
def State.setNs (s : State) (n : Ns) : State :=
  { s with kv := { s.kv with namespaces := putWhere (fun x => x.nsid == n.nsid) n s.kv.namespaces } }

/-- The records of a key, newest pair first. -/
def Ns.recs (n : Ns) (key : Bytes) : List Rec :=
  match n.keys.find? fun e => e.key == key with
  | some e => e.recs
  | none => []

/-- The current record of a key, if the key is present. -/
def Ns.current (n : Ns) (key : Bytes) : Option Rec :=
  match n.recs key with
  | r :: _ => if r.deleted then none else some r
  | [] => none

/-- The record that a read with a stamp selects: the greatest pair below the stamp (R202). -/
def Ns.atStamp (n : Ns) (key : Bytes) (t : Nat) : Option Rec :=
  match (n.recs key).find? fun r => decide (r.stamp < t) with
  | some r => if r.deleted then none else some r
  | none => none

/-- Insert or replace a key's entry, keys ascending. -/
def putKey (e : KeyEntry) : List KeyEntry → List KeyEntry
  | [] => [e]
  | x :: xs =>
    if x.key = e.key then e :: xs
    else if bytesLt e.key x.key then e :: x :: xs
    else x :: putKey e xs

/-- A key's records replaced; a key without records is dropped. -/
def Ns.setRecs (n : Ns) (key : Bytes) (recs : List Rec) : Ns :=
  { n with keys := if recs.isEmpty then n.keys.filter (fun e => e.key != key) else putKey ⟨key, recs⟩ n.keys }

/-- Pair order of R179: stamp first, then session. -/
def pairLt (a b : Nat × Nat) : Bool := decide (a.1 < b.1) || (a.1 == b.1 && decide (a.2 < b.2))

/-- A record put in its place in descending pair order (R202). -/
def insRec (r : Rec) : List Rec → List Rec
  | [] => [r]
  | x :: xs => if pairLt (r.stamp, r.session) (x.stamp, x.session) then x :: insRec r xs else r :: x :: xs

/-! ## Extents -/

/-- The extent with an index. -/
def State.ext? (s : State) (i : Nat) : Option Extent := s.kv.extents.find? fun e => e.index == i

def State.setExt (s : State) (e : Extent) : State :=
  { s with kv := { s.kv with extents := putWhere (fun x => x.index == e.index) e s.kv.extents } }

/-- The extent that part `k` of an object, or the value itself, lies in. -/
def Loc.extents : Loc → Nat → List Nat
  | .inline _, _ => []
  | .extent i, _ => [i]
  | .object i _ _, parts => (List.range parts).map fun k => i + k

/-- Number of parts of an upload or object (R174). -/
def partCount (total mib : Nat) : Nat := (total + mib * 1048576 - 1) / (mib * 1048576)

/-- The extents of a locator. -/
def Loc.exts : Loc → List Nat
  | .inline _ => []
  | .extent i => [i]
  | .object i total mib => (List.range (partCount total mib)).map fun k => i + k

/-- The length of the value a locator names. -/
def State.locLen (s : State) : Loc → Nat
  | .inline b => b.length
  | .extent i => match s.ext? i with
    | some e => e.vlen
    | none => 0
  | .object _ total _ => total

/-- Logical map units in use: of extents on flash, of leaf pages, of operands that stream and of the system area. -/
def State.lmusUsed (s : State) : List Nat :=
  s.kv.extents.foldl (fun l e => if e.inUse && !e.disk then l ++ e.lmus else l)
    (s.kv.leaves.map (fun x => x.lmu) ++ (s.kv.early.map fun e => e.2.1).flatten ++
      (s.flash.system.map fun x => x.lmus).flatten)

/-- The lowest run of `k` consecutive logical map units that are not in use: ADDR names the first (Table 08-7; log entry
31). -/
def State.freshLmus (s : State) (k : Nat) : List Nat :=
  let used := s.lmusUsed
  let top := used.foldl (fun m i => max m (i + 1)) 0
  let free := fun i => (List.range k).all fun j => !used.contains (i + j)
  List.range' (((List.range (top + 1)).find? free).getD top) k

/-- Indices that an open upload reserves (PART_BEGIN reserves all the part indices of its upload). -/
def Upload.reserves (u : Upload) (i : Nat) : Bool :=
  decide (u.firstExtent ≤ i) && decide (i < u.firstExtent + partCount u.totalLen u.partMib)

/-- The lowest extent index from which `n` consecutive ones hold no value and are not reserved (log entry 31). -/
def State.freshExtents (s : State) (n : Nat) : Nat :=
  let used := (s.kv.extents.filter fun e => e.inUse).map fun e => e.index
  let top := used.foldl (fun m i => max m (i + 1)) 0
  let top := s.cmd.uploads.foldl (fun m u => max m (u.firstExtent + partCount u.totalLen u.partMib)) top
  let free := fun i => !used.contains i && !(s.cmd.uploads.any fun u => u.reserves i)
  ((List.range (top + 1)).find? fun i => (List.range n).all fun k => free (i + k)).getD top

/-- Bytes an extent takes on media: each segment with its IV and tag, in granules of 256 bytes. -/
def Extent.stored (e : Extent) : Nat :=
  (e.segs.foldl (fun n g => n + 28 + g.ct.length) 0 + 255) / 256 * 256

/-- Units an extent of a stored length takes; an extent starts at a unit of its own (log entry 31). -/
def unitsFor (stored : Nat) : Nat := (stored + 16383) / 16384

/-- The stored length of a value of `vlen` bytes under a key of `klen` bytes. -/
def storedLen (klen vlen : Nat) : Nat :=
  (32 + klen + 28 + vlen + 28 * ((vlen + 1048575) / 1048576) + 255) / 256 * 256

/-- DRAM fitted decides the capacities of Table 08-8. -/
def State.maxExtents (s : State) : Nat := if s.cfg.hw.dramGib = 32 then 536870912 else 268435456
def State.maxLeaves (s : State) : Nat := if s.cfg.hw.dramGib = 32 then 67108864 else 33554432
def maxKeys : Nat := 2147483648
def State.maxSeparators (s : State) : Nat := if s.cfg.hw.dramGib = 32 then 2147483648 else 1073741824

/-- Bytes of the separators (R199); the inner nodes are not counted (log entry 145). -/
def State.separators (s : State) : Nat := s.kv.leaves.foldl (fun n l => n + l.low.length) 0

/-- An extent-table entry (Table 08-7), 128 bits: ADDR, GRANULES, IN_USE, DISK, HEAT, LEAF and GEN. -/
def Extent.entry (e : Extent) : Nat :=
  let addr := if e.disk then e.band * 2 ^ 16 + e.sector % 2 ^ 16 else e.lmus.headD 0 % 2 ^ 31 * 2 ^ 6
  addr % 2 ^ 38 + e.stored / 256 % 2 ^ 19 * 2 ^ 38 + (if e.inUse then 2 ^ 57 else 0) + (if e.disk then 2 ^ 58 else 0) +
    e.heat % 16 * 2 ^ 59 + e.leaf % 2 ^ 26 * 2 ^ 64 + e.gen % 2 ^ 16 * 2 ^ 90

/-! ## The journal (R266) -/

/-- A leaf map entry: the page's index, map unit, namespace, leaf-range tag and low key. -/
def Leaf.word (l : Leaf) : Nat := l.lmu + l.nsid * 2 ^ 32 + l.tag * 2 ^ 48 + beNat l.low * 2 ^ 64

/-- Items of 64 bits, one after another. -/
def packed (l : List Nat) : Nat := l.foldl (fun n x => n * 2 ^ 64 + x % 2 ^ 64) 0

/-- A band map entry (R324): the state of a slot, what is written of it, BSEQ, where its tracks start, its segments, voids and
remap entries. -/
def Band.word (b : Band) : Nat :=
  let code := match b.state with
    | .free => 0
    | .open_ => 1
    | .closed => 2
    | .stale => 3
    | .retired => 4
  let flags := [b.short, b.shortAllHeads, b.rung7].foldl (fun n x => 2 * n + (if x then 1 else 0)) 0
  packed ([code + flags * 8 + b.segments.length * 2 ^ 16 + b.voids.length * 2 ^ 32 + b.remap.length * 2 ^ 52, b.bseq,
      b.used + b.phys * 2 ^ 32, b.w0 + b.skew * 2 ^ 16 + b.tail * 2 ^ 32] ++
    (b.segments.map fun g => g.row + g.rows * 2 ^ 10 + g.mask.toNat * 2 ^ 20 + g.track * 2 ^ 42) ++ b.voids ++
    (b.remap.map fun x => x.1 + x.2.2 * 2 ^ 20 + x.2.1 * 2 ^ 40))

/-- The entries of one map that differ from an older one, and those that are gone with the word of an absent entry. -/
def mapDiff (table : MapTable) (absent : Nat) (old new : List (Nat × Nat)) : List JChange :=
  ((new.filter fun x => !old.contains x).map fun x => ⟨table, x.1, x.2⟩) ++
    ((old.filter fun x => !(new.any fun y => y.1 == x.1)).map fun x => ⟨table, x.1, absent⟩)

/-- What a commit that takes `s` to `t` changes in the four maps. -/
def State.mapChanges (s t : State) : List JChange :=
  let units := fun (u : State) => u.flash.map.map fun e => (e.lmu, u.flash.pua e.block e.unit)
  let exts := fun (u : State) => (u.kv.extents.filter fun e => e.inUse).map fun e => (e.index, e.entry)
  let leaves := fun (u : State) => u.kv.leaves.map fun l => (l.index, l.word)
  let bands := fun (u : State) => u.rdc.bands.map fun b => (b.slot, b.word)
  mapDiff .flashMap 0xFFFFFFFF (units s) (units t) ++ mapDiff .extentTable 0 (exts s) (exts t) ++
    mapDiff .leafMap 0 (leaves s) (leaves t) ++ mapDiff .bandMap 0 (bands s) (bands t)

def MapTable.code : MapTable → Nat
  | .flashMap => 0
  | .extentTable => 1
  | .leafMap => 2
  | .bandMap => 3
  | .erased => 4

/-- Bytes of a change's word. -/
def JChange.wordBytes (c : JChange) : Nat := Nat.log2 c.word / 8 + 1

/-- A record's bytes before its CRC-32C: the layout is the model's (log entry 165). -/
def recBody (seq : Nat) (cs : List JChange) : Bytes :=
  leBytes 8 seq ++ leBytes 4 cs.length ++ (cs.map fun c => leBytes 1 c.table.code ++ leBytes 8 c.key ++
    leBytes 2 c.wordBytes ++ leBytes c.wordBytes c.word).flatten

/-- Bytes that a record takes. -/
def JournalRec.size (r : JournalRec) : Nat := r.changes.foldl (fun n c => n + 11 + c.wordBytes) 16

def mkJournal (seq : Nat) (host : Bool) (cs : List JChange) : JournalRec := ⟨seq, host, cs, crc32c (recBody seq cs)⟩

/-- A record stands as it was written. -/
def JournalRec.valid (r : JournalRec) : Bool := r.crc == crc32c (recBody r.seq r.changes)

/-- The records that a replay applies: up to the first whose CRC fails or whose number does not follow. -/
def journalPrefix : Nat → List JournalRec → List JournalRec
  | _, [] => []
  | seq, r :: rs => if r.seq = seq + 1 ∧ r.valid then r :: journalPrefix r.seq rs else []

/-- The next journal record. -/
def Flash.record (f : Flash) (host : Bool) (cs : List JChange) : Flash :=
  { f with journalSeq := f.journalSeq + 1, journal := f.journal ++ [mkJournal (f.journalSeq + 1) host cs] }

/-- The commit that takes `s` to `t` is one journal record, of the HOST stream where it is a host's (R266). -/
def State.journal (s t : State) (host : Bool) : State :=
  { t with flash := t.flash.record host (s.mapChanges t) }

/-- Keys present, in every namespace (Table 08-14). -/
def State.keysPresent (s : State) : Nat :=
  s.kv.namespaces.foldl (fun n ns =>
    n + ns.streams.length + (ns.keys.filter fun e => (ns.current e.key).isSome).length) 0

/-- Extents in use. -/
def State.extentsUsed (s : State) : Nat := (s.kv.extents.filter fun e => e.inUse).length

/-- Extents in use, and those that open uploads reserve for parts not stored yet. -/
def State.extentsHeld (s : State) : Nat :=
  s.cmd.uploads.foldl (fun n u => n + (partCount u.totalLen u.partMib - u.stored.length)) s.extentsUsed

/-- The capacities of Table 08-8 and the map units of R272: what is held of each, and its limit. -/
def State.capacities (s : State) : List (Nat × Nat) :=
  [(s.keysPresent, maxKeys), (s.extentsHeld, s.maxExtents), (s.kv.leaves.length, s.maxLeaves),
   (s.separators, s.maxSeparators), (s.lmusUsed.length, s.flash.n)]

/-- A write that takes `s` to `t` exceeds no capacity; one that raises none fails for none (R204, R272). -/
def State.fits (s t : State) : Bool :=
  (List.zip s.capacities t.capacities).all fun x => decide (x.2.1 ≤ x.2.2) || decide (x.2.1 ≤ x.1.1)

/-! ## Cipher work on the cores (R335, R339, R349) -/

/-- A cipher core that may run a class: in service, and its CLASS_MASK allows it. -/
def State.coreFor (s : State) (cls : Nat) : Option Nat :=
  (List.range 6).find? fun c => !s.cry.coreOut.contains c && bitOf (s.rdAt Reg.CORE_LOCK.CLASS_MASK c 0) cls

/-- Work of a class run on the lowest-numbered core that allows it; CORE_BYTES counts it (log entry 32). -/
def State.cipher (s : State) (cls bytes : Nat) : State :=
  match s.coreFor cls with
  | some c => s.count64 Reg.CORE_BYTES_LO.BYTES_LO Reg.CORE_BYTES_HI.BYTES_HI c bytes
  | none => s

/-! ### The gondola (R350 to R352)

128 frames of 64 KiB, 21 to each cipher core's share; frames 126 and 127 are the context store, whose contents are the
suspended operations. A segment's frames are taken, released and freed within the command that reads it. -/

/-- Frames of a core's share. -/
def shareFrames (c : Nat) : List Nat := List.range' (21 * c) 21

/-- Frames that a decryption of `n` bytes takes. -/
def framesFor (n : Nat) : Nat := (n + 65535) / 65536

/-- Frames of the shares that are not free: those of suspended decryptions and of held plaintext results. -/
def State.framesHeld (s : State) : List Nat :=
  (s.cry.suspended.map fun x => x.frames).flatten ++ (s.cry.pages.map fun p => p.frames).flatten

/-- The free frames of a core's share, in the order in which a decryption takes them. -/
def State.freeFrames (s : State) (c : Nat) : List Nat := dropWhere s.framesHeld.contains (shareFrames c)

/-- The core that starts a decryption of a class: the lowest-numbered one allowed whose share has the frames for all of it. -/
def State.decryptCore (s : State) (cls n : Nat) : Option Nat :=
  (List.range 6).find? fun c => !s.cry.coreOut.contains c && bitOf (s.rdAt Reg.CORE_LOCK.CLASS_MASK c 0) cls &&
    decide (framesFor n ≤ (s.freeFrames c).length)

/-- A decryption run on its core. -/
def State.decipher (s : State) (cls bytes : Nat) : State :=
  match s.decryptCore cls bytes with
  | some c => s.count64 Reg.CORE_BYTES_LO.BYTES_LO Reg.CORE_BYTES_HI.BYTES_HI c bytes
  | none => s

/-- A command that reads stored values waits: no core of class 2 has frames for a whole segment. -/
def State.gondolaFull (s : State) : Bool := (s.coreFor 2).isSome && (s.decryptCore 2 1048576).isNone

/-- Outside SERVICE an operation's text is at most 65,536 bytes (R342). -/
def State.textLimit (s : State) (n : Nat) : Bool := s.cry.phase != 1 && decide (65536 < n)

/-- Bytes hashed on the lower-numbered hash core in service. -/
def State.hashed (s : State) (bytes : Nat) : State :=
  match (List.range 2).find? fun h => !s.cry.coreOut.contains (6 + h) with
  | some h => s.count64 Reg.HASH_BYTES_LO.BYTES_LO Reg.HASH_BYTES_HI.BYTES_HI (6 + h) bytes
  | none => s

/-- No hash core passed its known-answer tests: an operation that needs one completes with `INTERNAL_FAULT` (R349). -/
def State.noHash (s : State) : Bool := (List.range 2).all fun h => s.cry.coreOut.contains (6 + h)

/-- No cipher core passed its known-answer test: an operation that needs one completes with `INTERNAL_FAULT` (R349). -/
def State.noCipher (s : State) : Bool := (List.range 6).all fun c => s.cry.coreOut.contains c

/-! ## Values into segments and back -/

/-- Encrypt texts as segments under a namespace key, each with a nonce of slot 3 (R343, R366). -/
def encSegs (key : Bytes) : List Bytes → State → Except Nat (List Seg) × State
  | [], s => (.ok [], s)
  | t :: ts, s =>
    match if s.textLimit t.length then (.error stLengthLimit, s) else s.nonce 3 with
    | (.error e, s) => (.error e, s)
    | (.ok iv, s) =>
      let p := gcmEnc key iv [] t
      match encSegs key ts (s.cipher 2 t.length) with
      | (.error e, s) => (.error e, s)
      | (.ok gs, s) => (.ok (⟨iv, p.1, p.2⟩ :: gs), s)

/-- The body of a value header segment (chapter 08). -/
def valueHeader (nsid : Nat) (key : Bytes) (vlen asn stamp session : Nat) : Bytes :=
  leBytes 2 nsid ++ leBytes 2 key.length ++ leBytes 4 vlen ++ leBytes 8 asn ++ leBytes 8 stamp ++
    leBytes 2 session ++ List.replicate 6 0 ++ key

/-- Make an extent at an index, in the protected write buffer: GEN rises at each reuse of the index. -/
def State.makeExtent (s : State) (n : Ns) (index leaf : Nat) (key value : Bytes) (asn stamp session : Nat) :
    Except Nat Unit × State :=
  match s.nsKey n with
  | none => (.error stSlotEmpty, s)
  | some k =>
    match encSegs k (valueHeader n.nsid key value.length asn stamp session :: chunks 1048576 value) s with
    | (.error e, s) => (.error e, s)
    | (.ok segs, s) =>
      let gen := match s.ext? index with
        | some e => (e.gen + 1) % 65536
        | none => 0
      let lmus := s.freshLmus (unitsFor (storedLen key.length value.length))
      (.ok (), s.setExt ⟨index, true, false, 15, leaf, gen, n.nsid, key, value.length, asn, stamp, session, segs,
        lmus, 0, 0, true, 0⟩)

/-- What media hold of a segment, and of an extent (chapter 08). -/
def Seg.bytes (g : Seg) : Bytes := g.iv ++ g.ct ++ g.tag
def Extent.media (e : Extent) : Bytes := (e.segs.map Seg.bytes).flatten

/-- Live data sectors a disk extent takes. -/
def Extent.sectors (e : Extent) : Nat := (e.stored + 4095) / 4096

/-- Extents released: their units are unmapped. -/
def State.freeExtents (s : State) (is : List Nat) : State :=
  let gone := s.kv.extents.filter fun e => is.contains e.index && e.inUse
  let lmus := gone.foldl (fun l e => if e.disk then l else l ++ e.lmus) []
  let clear := fun (e : Extent) => { e with inUse := false, segs := [], lmus := [], buffered := false }
  { s with kv := { s.kv with extents := updWhere (fun e => is.contains e.index) clear s.kv.extents }
           flash := if lmus.isEmpty then s.flash else s.flash.unmap lmus }

/-- Units already programmed for commands that will not store them: they are garbage (R161, Table 11-8). -/
def State.dropEarly (s : State) (p : TagId → Bool) : State :=
  let gone := (s.kv.early.filter fun e => p e.1).foldl (fun l e => l ++ e.2.1) []
  { s with kv := { s.kv with early := s.kv.early.filter fun e => !p e.1 }
           flash := if gone.isEmpty then s.flash else s.flash.unstage gone }

/-- The value a record named is released. -/
def State.freeLoc (s : State) (l : Loc) : State := s.freeExtents l.exts

/-! ## Draining the protected write buffer (R85, R271) -/

/-- Units of a list written to flash by a drain; false where no block was free. -/
def drainUnits (kind : UnitKind) (cold : Bool) : List Nat → Flash → Flash × Bool
  | [], f => (f, true)
  | l :: ls, f =>
    match f.write (f.drainStream cold) kind l false cold with
    | (f, true) => drainUnits kind cold ls f
    | (f, false) => (f, false)

/-- Sealed and distribution namespaces are cold (R271). -/
def State.coldNs (s : State) (nsid : Nat) : Bool :=
  match s.ns? nsid with
  | some n => decide (n.kind ≠ .mutable_)
  | none => false

/-- Drain one extent. -/
def State.drainExtent (s : State) (e : Extent) : State :=
  match drainUnits .value (s.coldNs e.nsid) e.lmus s.flash with
  | (f, true) => { s with flash := f }.setExt { e with buffered := false }
  | (_, false) => s

/-- Drain one leaf page; its unit is written anew. -/
def State.drainLeaf (s : State) (l : Leaf) : State :=
  match drainUnits .leaf (s.coldNs l.nsid) [l.lmu] s.flash with
  | (f, true) =>
    let clear := fun (x : Leaf) => { x with buffered := false }
    { s with flash := f.staleEmpty
             kv := { s.kv with leaves := updWhere (fun x => x.index == l.index) clear s.kv.leaves } }
  | (_, false) => s

/-- The buffer holds nothing. -/
def State.drained (s : State) : Bool :=
  !(s.kv.extents.any fun e => e.inUse && e.buffered) && !(s.kv.leaves.any fun l => l.buffered)

/-- The maps as they stand on media are kept before the buffer takes a change (R85). -/
def State.backUp (s : State) : State :=
  match s.kv.back with
  | some _ => s
  | none =>
    let k := s.kv
    { s with kv := { k with back := some ⟨k.namespaces, k.extents, k.leaves, k.retired, s.flash.map, s.cmd.uploads,
      s.pat.states, s.rdc, s.flash.journalSeq⟩ } }

/-- A change that a loss of the write buffer must not undo: it is on media at once. -/
def State.onBack (s : State) (f : Back → Back) : State := { s with kv := { s.kv with back := s.kv.back.map f } }

/-- Nothing is newer than what media hold, once the buffer is empty. -/
def State.settleBack (s : State) : State := if s.drained then { s with kv := { s.kv with back := none } } else s

/-- A namespace as media hold it, with the horizon and the highest stamp that it had reached: H never falls (R180). -/
def State.keepHorizon (s : State) (n : Ns) : Ns :=
  match s.ns? n.nsid with
  | some m => { n with horizon := max n.horizon m.horizon, highest := max n.highest m.highest }
  | none => n

/-- Blocks whose erase record is among some records. -/
def erasedIn (rs : List JournalRec) : List Nat :=
  (rs.map fun r => (r.changes.filter fun c => c.table == .erased).map fun c => c.key).flatten

/-- The protected write buffer is lost (R85): the maps fall back to what media hold, and the journal ends at the last record
there (R266). A block that the maps name again is closed; one whose erase record is lost is to be erased again (R275). An open
band goes on at the first band track after the last row that the band map on media records (R330). -/
def State.loseBuffer (s : State) : State :=
  match s.kv.back with
  | none => s
  | some b =>
    let kept := s.flash.journal.filter fun r => decide (r.seq ≤ b.journalSeq)
    let undone := erasedIn (s.flash.journal.filter fun r => decide (b.journalSeq < r.seq))
    let again := fun (x : Block) => x.state == .stale && b.map.any fun e => e.block == x.id
    let blocks := updWhere again (fun x => { x with state := .closed }) s.flash.blocks
    let blocks := updWhere (fun x => x.state == .free && undone.contains x.id) (fun x => { x with state := .stale }) blocks
    let bands := updWhere (fun (x : Band) => x.state == .open_ && !x.segments.isEmpty) (fun x => { x with cut := true }) b.rdc.bands
    let kv := { s.kv with back := none, namespaces := b.namespaces.map s.keepHorizon, extents := b.extents, leaves := b.leaves,
                          retired := b.retired, dirLog := s.kv.dirLog.filter fun x => decide (x.2.2 ≤ b.journalSeq),
                          saved := s.kv.saved.filter fun d => decide (d.dirSeal.journalSeq ≤ b.journalSeq) }
    { s with kv := kv, rdc := { b.rdc with bands := bands, samples := s.rdc.samples }, cmd := { s.cmd with uploads := b.uploads }, pat := { s.pat with states := b.states },
             flash := { s.flash with map := b.map, blocks := blocks, journal := kept, journalSeq := b.journalSeq } }

/-- The buffer's power is gone: what no drain with a valid marker holds is lost (R85, R269). -/
def State.dropBuffer (s : State) : State := if s.flash.drainMark then s else s.loseBuffer

/-- Units that the journal records still in the buffer take in a stream. -/
def State.journalUnits (s : State) (host : Bool) : Nat :=
  match s.kv.back with
  | none => 0
  | some b =>
    let rs := s.flash.journal.filter fun r => decide (b.journalSeq < r.seq) && r.host == host
    (rs.foldl (fun n r => n + r.size) 0 + 16383) / 16384

/-- The journal records in the buffer programmed, those of host commits in the HOST stream and the others in META; false where
no block was free. -/
def State.drainJournal (s : State) : State × Bool :=
  let seq := s.flash.journalSeq
  match Flash.putJournal .host false seq (s.journalUnits true) s.flash with
  | (f, false) => ({ s with flash := f }, false)
  | (f, true) =>
    match Flash.putJournal .meta_ false seq (s.journalUnits false) f with
    | (f, ok) => ({ s with flash := f }, ok)

/-- The protected write buffer written to flash: its units, their map changes as one journal record, and the records. -/
def State.drain (s : State) : State :=
  let f := s.flash
  let es := s.kv.extents.filter fun e => e.inUse && e.buffered
  let ls := s.kv.leaves.filter fun l => l.buffered
  let host := es.foldl (fun n e => n + e.lmus.length) ls.length
  let t := ls.foldl State.drainLeaf (es.foldl State.drainExtent s)
  let t := { t with flash := t.flash.padDense }
  let t := if t.flash.wseq = f.wseq then t else s.journal t true
  let data := if t.flash.wseq = f.wseq then 0 else host
  match t.drainJournal with
  | (u, ok) =>
    let u := u.countUnits f (data + t.journalUnits true)
    if ok then u.settleBack else u

/-! ## The system area (Table 11-3) -/

/-- KIND of an object's units. -/
def SysObj.kind : SysObj → UnitKind
  | .checkpoint => .checkpoint
  | _ => .system

/-- Units of an object programmed in the META stream; none where no block was free. -/
def sysUnits (kind : UnitKind) : List Nat → Flash → Option Flash
  | [], f => some f
  | l :: ls, f =>
    match f.write .meta_ kind l false false with
    | (f, true) => sysUnits kind ls f
    | (_, false) => none

/-- The map units of the copies that a predicate names. -/
def Flash.sysLmus (f : Flash) (p : SysObj → Bool) : List Nat := ((f.system.filter fun x => p x.obj).map fun x => x.lmus).flatten

/-- Another object of `bytes` bytes would take the mapped units above n (R272). -/
def State.sysFull (s : State) (bytes : Nat) : Bool := decide (s.flash.n < s.lmusUsed.length + unitsFor bytes)

/-- Copies in the system area removed, in what a loss of the buffer falls back to too: such a commit is durable at once. -/
def State.forgetSys (s : State) (p : SysObj → Bool) : State :=
  let gone : List Nat := s.flash.sysLmus p
  if gone.isEmpty then s
  else
    let f := { s.flash.unmap gone with system := s.flash.system.filter fun x => !p x.obj }
    s.journal ({ s with flash := f }.onBack fun b => { b with map := b.map.filter fun (e : MapEntry) => !gone.contains e.lmu }) false

/-- An object of `bytes` bytes saved in place of its older copy; that commit is durable at once. Nothing is programmed while the
tier is not mounted or has no room. -/
def State.saveSys (s : State) (obj : SysObj) (bytes : Nat) : State :=
  let lmus := s.freshLmus (unitsFor bytes)
  match if s.flash.mounted && !s.sysFull bytes then sysUnits obj.kind lmus s.flash else none with
  | none => s
  | some f =>
    let old := f.sysLmus fun o => o == obj
    let g := { f.unmap old with system := putWhere (fun x => x.obj == obj) ⟨obj, lmus, f.journalSeq + 1⟩ f.system }
    let new := g.map.filter fun (e : MapEntry) => lmus.contains e.lmu
    (s.journal ({ s with flash := g }.onBack fun b =>
      { b with map := (b.map.filter fun (e : MapEntry) => !old.contains e.lmu) ++ new }) false).countUnits s.flash 0

/-! ## Media reads (R205, R279, R280, R318) -/

/-- The default read limit of a block (Table 11-6). -/
def State.readLimit (s : State) (b : Block) : Nat :=
  let k := s.rd Reg.FLT_CFG1.READ_LIMIT_K
  let dense := if k ≠ 0 then k * 1000 else profReads s.flash.prof
  if b.slc then 5 * dense else dense

/-- A block is queued for refresh. -/
def State.queueRefresh (s : State) (b : Nat) : State :=
  if s.flash.refresh.contains b then s else { s with flash := { s.flash with refresh := s.flash.refresh ++ [b] } }

/-- One unit of a block read: its read counter, and its refresh at the limit (R280). -/
def State.readUnit (s : State) (b : Nat) : State :=
  let blk := s.flash.block b
  let s := { s with flash := s.flash.setBlock { blk with reads := blk.reads + 1 } }
  if s.readLimit blk ≤ blk.reads + 1 then s.queueRefresh b else s

/-- What the ladder makes of the media's answer for the unit that the map names. -/
def State.flashSays (s : State) (lmu : Nat) (r : ReadResult) : ReadResult :=
  match s.flash.map.find? fun e => e.lmu == lmu with
  | none => r
  | some e => s.flash.ladder e.block e.unit r

/-- A read that reached rung 4: it completed there, or failed there. -/
def reachesRung4 : ReadResult → Bool
  | .decoded rung _ => rung == 4
  | .uncorrectable => true

/-- What one flash read counts, by the rung that completed it (Table 11-5, Table 11-13, Table 11-14); rung 4 reads the other
units of the stripe (R280). -/
def State.noteFlash (s : State) (lmu : Nat) (r : ReadResult) : State :=
  match s.flash.map.find? fun e => e.lmu == lmu with
  | none => s
  | some e =>
    let ch := s.flash.chOf e.block
    let mates := if reachesRung4 r && s.flash.striped then s.flash.mates e.block e.unit else []
    let s := mates.foldl (fun (s : State) u => s.readUnit u.block) (s.readUnit e.block)
    match r with
    | .decoded rung _ =>
      if rung = 0 then s
      else if rung = 1 then s.countAt Reg.CH_CORR.CORRECTED ch 1
      else if rung = 2 then s.countAt Reg.CH_RETRY.RETRIED ch 1
      else if rung = 3 then (s.countAt Reg.CH_RETRY.RETRIED ch 1).queueRefresh e.block
      else if rung = 5 then (s.countAt Reg.CH_CORR.CORRECTED ch 1).queueRefresh e.block
      else (s.count Reg.FLT.REBUILDS 1).queueRefresh e.block
    | .uncorrectable =>
      let s := (s.count Reg.FLT.UNCORR_READS 1).report Ev.FLT.UNCORR stMedia
      (s.uncorrectable Reg.HLT.FLASH_UNCORR).queueRefresh e.block

/-- The media's answer to the read of one segment of an extent. -/
def mediaSeg (rd : MediaReads) (ext seg : Nat) : ReadResult :=
  match rd.segs.find? fun x => x.1 == ext && x.2.1 == seg with
  | some x => x.2.2
  | none => .decoded 0 []

/-- The media's answer to the read of a leaf page. -/
def mediaLeaf (rd : MediaReads) (leaf : Nat) : ReadResult :=
  match rd.leaves.find? fun x => x.1 == leaf with
  | some x => x.2
  | none => .decoded 0 []

/-- The segment that bytes hold whose ciphertext is `n` bytes. -/
def segOf (n : Nat) (b : Bytes) : Seg := ⟨b.take 12, (b.drop 12).take n, b.drop (12 + n)⟩

/-- A segment as a read gives it, with the bits flipped that the read flips. -/
def Seg.flipped (g : Seg) (flip : Bytes) : Seg :=
  if flip.isEmpty then g else segOf g.ct.length (xorBytes g.bytes (flip.take g.bytes.length))

/-- A leaf page as a read gives it: IV, header, ciphertext and tag (Table 08-5). -/
def LeafPage.flipped (p : LeafPage) (flip : Bytes) : LeafPage :=
  if flip.isEmpty then p
  else
    let b := p.iv ++ p.hdr ++ p.ct ++ p.tag
    let b := xorBytes b (flip.take b.length)
    ⟨b.take 12, (b.drop 12).take 16, (b.drop 28).take p.ct.length, b.drop (28 + p.ct.length)⟩

/-- The read cache holds an item. -/
def State.cached (s : State) (leaf : Bool) (index gen : Nat) : Bool :=
  s.kv.cache.any fun c => c.isLeaf == leaf && c.index == index && c.gen == gen

/-- Bring an item to the front of the read cache, evicting the least recently used beyond CACHE_MIB. -/
def cacheTrim (limit : Nat) : Nat → List CacheItem → List CacheItem
  | _, [] => []
  | used, c :: cs => if used + c.bytes ≤ limit then c :: cacheTrim limit (used + c.bytes) cs else []

def State.cachePut (s : State) (it : CacheItem) : State :=
  let l := it :: dropWhere (fun c => c.isLeaf == it.isLeaf && c.index == it.index) s.kv.cache
  { s with kv := { s.kv with cache := cacheTrim (s.rd Reg.DIR_CACHE.CACHE_MIB * 1048576) 0 l } }

/-- A media read of an item: the cache admits it at its second media read within 60 s (R210). -/
def State.cacheNote (s : State) (leaf : Bool) (index gen bytes : Nat) : State :=
  if s.rd Reg.DIR_CACHE.CACHE_MIB = 0 ∨ 4194304 < bytes then s
  else
    let now := s.dev.clockMs
    let again := s.kv.readOnce.any fun x => x.1 == leaf && x.2.1 == index && x.2.2.1 == gen &&
      decide (now ≤ x.2.2.2 + 60000)
    let once := dropWhere (fun (x : Bool × Nat × Nat × Nat) => x.1 == leaf && x.2.1 == index) s.kv.readOnce
    if again then { s with kv := { s.kv with readOnce := once } }.cachePut ⟨leaf, index, gen, bytes⟩
    else { s with kv := { s.kv with readOnce := once ++ [(leaf, index, gen, now)] } }

/-- A segment or leaf page that failed its tag (R353): counts, TAG_FAIL and the note TAG_FAIL_AT (Table 19-3). -/
def State.tagFail (s : State) (index : Nat) (leaf : Bool) (seg nsid : Nat) : State :=
  let s := ((s.count Reg.CRY.TAG_FAILS 1).count Reg.HLT.TAG_FAILS_LIFE 1).report Ev.CRY.TAG_FAIL stAuth
  s.note 0x0D 0x82 stAuth (index + (if leaf then 2 ^ 29 else 0) + seg * 2 ^ 32 + nsid * 2 ^ 48)

/-- The map units of an extent that segment `j` lies in. -/
def Extent.segUnits (e : Extent) (j : Nat) : List Nat :=
  let at_ := (e.segs.take j).foldl (fun n g => n + 28 + g.ct.length) 0
  let len := match e.segs[j]? with
    | some g => 28 + g.ct.length
    | none => 0
  (e.lmus.drop (at_ / 16384)).take ((at_ + len + 16383) / 16384 - at_ / 16384)

/-- The worse of two answers; the first one's flipped bits stand. -/
def worseRead : ReadResult → ReadResult → ReadResult
  | .decoded a f, .decoded b _ => .decoded (if b = 4 then 4 else a) f
  | _, _ => .uncorrectable

/-- The units of a segment read: the media's answer is that of its first unit, the others decode at rung 1 where they lie on
a die in service. -/
def State.readUnits (s : State) : List Nat → ReadResult → State × ReadResult
  | [], r => (s, r)
  | [u], r => (s.noteFlash u (s.flashSays u r), s.flashSays u r)
  | u :: us, r =>
    match State.readUnits (s.noteFlash u (s.flashSays u r)) us (.decoded 0 []) with
    | (t, q) => (t, worseRead (s.flashSays u r) q)

/-- The data sectors that segment `j` of a disk extent lies in. -/
def Extent.segSectors (e : Extent) (j : Nat) : List Nat :=
  let at_ := (e.segs.take j).foldl (fun n g => n + 28 + g.ct.length) 0
  let len := match e.segs[j]? with
    | some g => 28 + g.ct.length
    | none => 0
  List.range' (e.sector + at_ / 4096) ((at_ + len + 4095) / 4096 - at_ / 4096)

/-- A segment of a disk extent read, sector by sector: the bits of it that differ. -/
def State.readDiskSeg (s : State) (rd : MediaReads) (e : Extent) (j : Nat) : State × ReadResult :=
  let at_ := (e.segs.take j).foldl (fun n g => n + 28 + g.ct.length) 0
  match s.readSectors rd e.band (e.segSectors j) with
  | (.decoded k f, s) => (s, .decoded k (f.drop (at_ % 4096)))
  | (.uncorrectable, s) => (s, .uncorrectable)

/-- What reading a value gave: the bytes of the segments that verified, in order, and the status that ended it. -/
structure ReadOut where
  bytes : Bytes
  err   : Option Nat
  deriving DecidableEq, Repr

/-- Segments `j` on of an extent, read and decrypted under a key (R353): stop at the first that fails. -/
def readSegs (key : Bytes) (rd : MediaReads) (e : Extent) (hit : Bool) : Nat → List Seg → State → ReadOut × State
  | _, [], s => (⟨[], none⟩, s)
  | j, g :: gs, s =>
    let p := if hit ∨ e.buffered then (s, .decoded 0 [])
      else if e.disk then s.readDiskSeg rd e j
      else s.readUnits (e.segUnits j) (mediaSeg rd e.index j)
    let s := p.1
    match p.2 with
    | .uncorrectable => (⟨[], some stMedia⟩, s)
    | .decoded _ flip =>
      if s.textLimit g.ct.length then (⟨[], some stLengthLimit⟩, s)
      else
      match gcmDec key (g.flipped flip).iv [] (g.flipped flip).ct (g.flipped flip).tag with
      | none => (⟨[], some stAuth⟩, s.tagFail e.index false j e.nsid)
      | some t =>
        match readSegs key rd e hit (j + 1) gs (s.decipher 2 t.length) with
        | (o, s) => (⟨t ++ o.bytes, o.err⟩, s)

/-- Read `n` bytes from an offset of an extent: its header segment, then the segments touched (R205, chapter 08). -/
def State.readExtent (s : State) (rd : MediaReads) (i off n : Nat) : ReadOut × State :=
  match s.ext? i with
  | none => (⟨[], some stInternal⟩, s)
  | some e =>
    match s.ns? e.nsid with
    | none => (⟨[], some stInternal⟩, s)
    | some ns =>
      match if s.noCipher then none else s.nsKey ns with
      | none => (⟨[], some (if s.noCipher then stInternal else stSlotEmpty)⟩, s)
      | some k =>
        let hit := s.cached false e.index e.gen
        let s := if hit then s.count Reg.DIR.CACHE_HITS 1 else s
        let s := if hit then s.cachePut ⟨false, e.index, e.gen, e.stored⟩
          else if e.buffered then s
          else (s.setExt { e with heat := 15 }).cacheNote false e.index e.gen e.stored
        match e.segs with
        | [] => (⟨[], some stInternal⟩, s)
        | h :: rest =>
          match readSegs k rd e hit 0 [h] s with
          | (⟨_, some err⟩, s) => (⟨[], some err⟩, s)
          | (⟨_, none⟩, s) =>
            let a := off / 1048576
            let b := (off + n + 1048575) / 1048576
            match readSegs k rd e hit (1 + a) ((rest.drop a).take (b - a)) s with
            | (o, s) => (⟨(o.bytes.drop (off - a * 1048576)).take n, o.err⟩, s)

/-- Read `n` bytes from an offset of an object whose parts are `size` bytes, part `k` at a time (R205). -/
def readParts (rd : MediaReads) (first size : Nat) : Nat → Nat → Nat → Nat → State → ReadOut × State
  | 0, _, _, _, s => (⟨[], none⟩, s)
  | fuel + 1, k, off, n, s =>
    if n = 0 then (⟨[], none⟩, s)
    else
      let here := min n (size - off)
      match s.readExtent rd (first + k) off here with
      | (⟨b, some err⟩, s) => (⟨b, some err⟩, s)
      | (⟨b, none⟩, s) =>
        match readParts rd first size fuel (k + 1) 0 (n - here) s with
        | (o, s) => (⟨b ++ o.bytes, o.err⟩, s)

/-- Read `n` bytes from an offset of a stored value. The bytes of an inline value are those that the opened leaf page
gave (`State.opened`). -/
def State.readLoc (s : State) (rd : MediaReads) (l : Loc) (off n : Nat) : ReadOut × State :=
  match l with
  | .inline b => (⟨(b.drop off).take n, none⟩, s)
  | .extent i => if n = 0 then (⟨[], none⟩, s) else s.readExtent rd i off n
  | .object i total mib =>
    let size := mib * 1048576
    readParts rd i size (partCount total mib + 1) (off / size) (off % size) n s

/-! ## Leaf pages and the leaf map (R199 to R202) -/

/-- A leaf record's bytes (Table 08-6). -/
def Rec.size (r : Rec) (klen : Nat) (stamped : Bool) : Nat :=
  8 + klen + (if stamped then 10 else 0) +
    (match r.loc with
     | .inline b => b.length
     | .extent _ => 0
     | .object _ _ _ => 9)

/-- Record bytes of a key's records. -/
def KeyEntry.size (stamped : Bool) (e : KeyEntry) : Nat := e.recs.foldl (fun n r => n + r.size e.key.length stamped) 0

/-- Leaf pages of a namespace in key order. -/
def State.leavesOf (s : State) (nsid : Nat) : List Leaf :=
  (sortBy (fun a b => bytesLe a.low b.low) (s.kv.leaves.filter fun l => l.nsid == nsid))

/-- The leaf whose range holds a key (R194). -/
def State.leafOf (s : State) (nsid : Nat) (key : Bytes) : Option Leaf :=
  ((s.leavesOf nsid).filter fun l => bytesLe l.low key).getLast?

/-- Whether a key lies in the range of a leaf-map index (R194). -/
def State.inRange (s : State) (leaf nsid : Nat) (key : Bytes) : Bool :=
  match s.leafOf nsid key with
  | some l => l.index == leaf
  | none => false

/-- The leaf records of a key: its own, and one for each record of its stream (log entry 33). -/
def Ns.leafRecs (n : Ns) (key : Bytes) : List Rec :=
  n.recs key ++ (match n.streams.find? fun t => t.key == key with
    | some t => t.recs.map fun r => ⟨0, 0, false, r.loc⟩
    | none => [])

/-- The keys of a namespace with the record bytes of each, streams included. -/
def Ns.sizes (n : Ns) : List (Bytes × Nat) :=
  (n.keys.map fun e => e.key) ++ (n.streams.map fun t => t.key) |>.map fun k => (k, KeyEntry.size n.stamped ⟨k, n.leafRecs k⟩)

/-- Keys of a namespace in one leaf, ascending, with their record bytes. -/
def State.leafKeys (s : State) (l : Leaf) : List (Bytes × Nat) :=
  match s.ns? l.nsid with
  | none => []
  | some n => sortBy (fun a b => bytesLe a.1 b.1) (n.sizes.filter fun k => s.inRange l.index l.nsid k.1)

/-- Record bytes in use in a leaf (USED of Table 08-5). -/
def State.leafUsed (s : State) (l : Leaf) : Nat := (s.leafKeys l).foldl (fun n k => n + k.2) 0

/-- The lowest leaf-map index that names no leaf and is not retired. -/
def State.freshLeaf (s : State) : Nat :=
  let used := (s.kv.leaves.map fun l => l.index) ++ s.kv.retired
  ((List.range (used.length + 1)).find? fun i => !used.contains i).getD used.length

def State.setLeaf (s : State) (l : Leaf) : State :=
  { s with kv := { s.kv with leaves := putWhere (fun x => x.index == l.index) l s.kv.leaves } }

/-- The shortest prefix of `key` that sorts above `prev` (R199). -/
def separator (prev key : Bytes) : Bytes :=
  ((List.range (key.length + 1)).map fun n => key.take n).find? (fun p => bytesLt prev p) |>.getD key

/-- Where a page splits: the number of leading keys whose bytes come nearest to half of all, at least one key on
either side (R201). -/
def splitAt (total : Nat) : Nat → Nat → List (Bytes × Nat) → Nat × Nat → Nat
  | _, _, [], best => best.1
  | i, acc, k :: ks, best =>
    let acc := acc + k.2
    let d := if 2 * acc ≤ total then total - 2 * acc else 2 * acc - total
    splitAt total (i + 1) acc ks (if ks.isEmpty then best else if d < best.2 then (i + 1, d) else best)

/-- LEAF of every extent of a namespace follows the leaf that holds its key (R201). -/
def State.relabel (s : State) (nsid : Nat) : State :=
  let up := fun (e : Extent) =>
    if e.nsid = nsid ∧ e.inUse then
      match s.leafOf nsid e.key with
      | some l => { e with leaf := l.index }
      | none => e
    else e
  { s with kv := { s.kv with extents := s.kv.extents.map up } }

/-- A page that the commit under way writes and has not sealed yet. -/
def unsealed : LeafPage := ⟨[], [], [], []⟩

/-- Split a leaf whose records exceed a page (R201): the lower half keeps its index and its tag rises, the upper
half takes a new index. One key's records stay together (log entry 160). -/
def State.splitLeaf (s : State) (l : Leaf) : State :=
  let ks := s.leafKeys l
  let total := ks.foldl (fun n k => n + k.2) 0
  if total ≤ 16340 ∨ ks.length < 2 then s
  else
    let i := splitAt total 0 0 ks (1, total + 1)
    let prev := (ks.getD (i - 1) ([], 0)).1
    let first := (ks.getD i ([], 0)).1
    let upper : Leaf := ⟨s.freshLeaf, l.nsid, separator prev first, 0, (s.freshLmus 1).getD 0 0, true, unsealed⟩
    ((s.setLeaf { l with tag := (l.tag + 1) % 16384, buffered := true, page := unsealed }).setLeaf upper).relabel l.nsid

/-- Merge a leaf with its upper neighbour when together they use at most 8,170 record bytes (R201): a new index,
both old ones retire. -/
def State.mergeLeaf (s : State) (l : Leaf) : State :=
  match ((s.leavesOf l.nsid).filter fun x => bytesLt l.low x.low).head? with
  | none => s
  | some r =>
    if s.leafUsed l + s.leafUsed r ≤ 8170 then
      let m : Leaf := ⟨s.freshLeaf, l.nsid, l.low, 0, (s.freshLmus 1).getD 0 0, true, unsealed⟩
      let kept := dropWhere (fun (x : Leaf) => x.index == l.index || x.index == r.index) s.kv.leaves
      let kv := { s.kv with leaves := kept ++ [m], retired := s.kv.retired ++ [l.index, r.index] }
      { s with kv := kv, flash := s.flash.unmap [l.lmu, r.lmu] }.relabel l.nsid
    else s

/-- A written leaf page is a new copy: the read cache no longer holds it (R210). -/
def State.forgetLeaf (s : State) (i : Nat) : State :=
  let other := fun (x : Bool × Nat × Nat × Nat) => !(x.1 && x.2.1 == i)
  { s with kv := { s.kv with cache := s.kv.cache.filter fun c => !(c.isLeaf && c.index == i)
                             readOnce := s.kv.readOnce.filter other } }

/-- The leaf of a key changed in DRAM: made where the namespace has none, split or merged as R201 says. The pages that this
writes are marked `unsealed`. -/
def State.changeLeaf (s : State) (nsid : Nat) (key : Bytes) : State :=
  match s.leafOf nsid key with
  | none =>
    (s.setLeaf ⟨s.freshLeaf, nsid, [], 0, (s.freshLmus 1).getD 0 0, true, unsealed⟩).relabel nsid
  | some l =>
    let l := { l with buffered := true, page := unsealed }
    let s := (s.forgetLeaf l.index).setLeaf l
    let s := s.splitLeaf l
    match s.leafOf nsid key with
    | none => s
    | some l =>
      let s := s.mergeLeaf l
      match ((s.leavesOf nsid).filter fun x => bytesLt x.low l.low).getLast? with
      | some p => if s.kv.leaves.any (fun x => x.index == l.index) then s.mergeLeaf p else s
      | none => s

/-- LOC of a leaf record (Tables 08-3 and 08-6). -/
def State.recLoc (s : State) : Loc → Nat
  | .inline b => b.length
  | .extent i => i % 2 ^ 29 + (match s.ext? i with
    | some e => if e.disk then 2 ^ 29 else 0
    | none => 0)
  | .object i _ _ => i % 2 ^ 29 + 3 * 2 ^ 29

/-- A leaf record before its value: all of it where the value is not inline (Table 08-6; a DELETED record is inline with no
value, log entry 160). -/
def State.recHead (s : State) (stamped prior : Bool) (key : Bytes) (r : Rec) : Bytes :=
  let flags := (match r.loc with
    | .inline _ => 1
    | .extent _ => 0
    | .object _ _ _ => 2) + (if r.deleted then 4 else 0) + (if prior then 8 else 0)
  leBytes 2 key.length ++ leBytes 2 flags ++ leBytes 4 (s.recLoc r.loc) ++ key ++
    (if stamped then leBytes 8 r.stamp ++ leBytes 2 r.session else []) ++
    (match r.loc with
     | .object _ total mib => leBytes 8 total ++ leBytes 1 mib
     | _ => [])

/-- The value bytes of a record that holds its value. -/
def Rec.held (r : Rec) : Bytes :=
  match r.loc with
  | .inline b => b
  | _ => []

/-- The records of a leaf page in order: key, whether another of its key comes before it, and the record. -/
def State.leafRecs (s : State) (n : Ns) (l : Leaf) : List (Bytes × Bool × Rec) :=
  ((s.leafKeys l).map fun k => match n.leafRecs k.1 with
    | [] => []
    | r :: rs => (k.1, false, r) :: rs.map fun x => (k.1, n.stamped, x)).flatten

/-- RECORDS of Table 08-5 as it is sealed: the records, then zero fill to 16,340 bytes. -/
def State.leafText (s : State) (n : Ns) (l : Leaf) : Bytes :=
  let b := ((s.leafRecs n l).map fun x => s.recHead n.stamped x.2.1 x.1 x.2.2 ++ x.2.2.held).flatten
  b ++ List.replicate (16340 - b.length) 0

/-- The 16-byte header of a leaf page (Table 08-5). -/
def State.leafHdr (s : State) (n : Ns) (l : Leaf) : Bytes :=
  leBytes 2 0x4C46 ++ leBytes 2 l.nsid ++ leBytes 4 l.index ++ leBytes 2 (s.leafRecs n l).length ++
    leBytes 2 (s.leafUsed l) ++ [0, 0, 0, 0]

/-- A leaf page sealed under the namespace key, with a nonce of slot 3 (R200, R366). -/
def State.sealLeaf (s : State) (n : Ns) (l : Leaf) : Except Nat Unit × State :=
  match s.nsKey n with
  | none => (.error stSlotEmpty, s)
  | some k =>
    match if s.noCipher then (.error stInternal, s) else s.nonce 3 with
    | (.error e, s) => (.error e, s)
    | (.ok iv, s) =>
      let hdr := s.leafHdr n l
      let p := gcmEnc k iv hdr (s.leafText n l)
      (.ok (), (s.cipher 2 16340).setLeaf { l with page := ⟨iv, hdr, p.1, p.2⟩ })

/-- Pages sealed one after another. -/
def sealLeaves (n : Ns) : List Leaf → State → Except Nat Unit × State
  | [], s => (.ok (), s)
  | l :: ls, s =>
    match s.sealLeaf n l with
    | (.error e, s) => (.error e, s)
    | (.ok _, s) => sealLeaves n ls s

/-- The pages of a namespace that the commit writes, sealed. -/
def State.sealWritten (s : State) (nsid : Nat) : Except Nat Unit × State :=
  match s.ns? nsid with
  | none => (.ok (), s)
  | some n => sealLeaves n ((s.leavesOf nsid).filter fun l => l.page == unsealed) s

/-- Where the value of a record begins in the bytes that a leaf page seals. -/
def State.valueAt (s : State) (stamped : Bool) (key : Bytes) (r : Rec) : List (Bytes × Bool × Rec) → Nat → Nat
  | [], at_ => at_
  | x :: xs, at_ =>
    let v := at_ + (s.recHead stamped x.2.1 x.1 x.2.2).length
    if x.1 = key ∧ x.2.2 = r then v else s.valueAt stamped key r xs (v + x.2.2.held.length)

/-- A record as its opened leaf page gives it: an inline value is the bytes of the page. -/
def State.opened (s : State) (n : Ns) (l : Leaf) (text : Bytes) (key : Bytes) (r : Rec) : Rec :=
  match r.loc with
  | .inline b => { r with loc := .inline ((text.drop (s.valueAt n.stamped key r (s.leafRecs n l) 0)).take b.length) }
  | _ => r

/-! ## The directory (R191 to R198, R206, R207, R214) -/

/-- The directory seed: slot 1 of the key store (Table 15-3). -/
def State.seed (s : State) : Bytes := (s.slot 1).key

/-- The directory hash of a key (R191). -/
def State.dirHash (s : State) (nsid : Nat) (key : Bytes) : Nat := sipHash s.seed (leBytes 2 nsid ++ key)

/-- The fields of Table 08-1: the two candidate buckets and the fingerprint. -/
def bucket1 (h : Nat) : Nat := bitsOf h 0 7 * 16384 + bitsOf h 7 14
def bucket2 (h : Nat) : Nat := ((bitsOf h 0 7 + 1 + bitsOf h 21 7 % 127) % 128) * 16384 + bitsOf h 28 14
def fingerprint (h : Nat) : Nat := bitsOf h 42 14

def dirFree (_ : Nat) : BitVec 48 := 0

/-- The directory word of a slot of a bucket (R192). -/
def State.dirWord (s : State) (bucket slot : Nat) : Nat := (SMap.get dirFree s.kv.dir (8 * bucket + slot)).toNat

def State.setDir (s : State) (bucket slot w : Nat) : State :=
  { s with kv := { s.kv with dir := SMap.set dirFree (8 * bucket + slot) (BitVec.ofNat 48 w) s.kv.dir } }

/-- The fields of a directory entry (Table 08-2), and an entry of given fields. -/
def entKind (w : Nat) : Nat := bitsOf w 46 2
def entFp (w : Nat) : Nat := bitsOf w 32 14
def entTier (w : Nat) : Nat := bitsOf w 29 3
def entHandle (w : Nat) : Nat := bitsOf w 0 29
def mkEntry (kind fp tier handle : Nat) : Nat := kind * 2 ^ 46 + fp * 2 ^ 32 + tier * 2 ^ 29 + handle % 2 ^ 29

/-- The slots a lookup examines, in order (R195). -/
def State.probe (s : State) (h : Nat) : List (Nat × Nat × Nat) :=
  let one := fun b => (List.range 7).map fun k => (b, k, s.dirWord b k)
  one (bucket1 h) ++ one (bucket2 h)

/-- Whether an entry decides the lookup of a key (Table 08-4). -/
def State.decides (s : State) (h nsid : Nat) (key : Bytes) (w : Nat) : Bool :=
  if entKind w = 3 then entFp w == fingerprint h && s.inRange (bitsOf w 0 26) nsid key
  else if entKind w = 1 then
    entFp w == fingerprint h &&
      (if entTier w = 2 then s.inRange (entHandle w) nsid key
       else match s.ext? (entHandle w) with
         | some e => s.inRange e.leaf nsid key
         | none => true)
  else false

/-- The entry that decides a lookup, if any: bucket, slot, word. -/
def State.decidingEntry (s : State) (nsid : Nat) (key : Bytes) : Option (Nat × Nat × Nat) :=
  let h := s.dirHash nsid key
  (s.probe h).find? fun x => s.decides h nsid key x.2.2

/-- A key's own direct entry, if it holds one: the direct entry that names its inline leaf or its extent. -/
def State.ownEntry (s : State) (nsid : Nat) (key : Bytes) (l : Loc) : Option (Nat × Nat) :=
  let h := s.dirHash nsid key
  ((s.probe h).find? fun x =>
    let w := x.2.2
    entKind w == 1 && entFp w == fingerprint h &&
      (match l with
       | .inline _ => entTier w == 2 && s.inRange (entHandle w) nsid key
       | .extent i => decide (entTier w ≤ 1) && entHandle w == i
       | .object _ _ _ => false)).map fun x => (x.1, x.2.1)

/-- Direct-eligible: no other key in its leaf has the same fingerprint, and it is no object (R194). -/
def State.eligible (s : State) (nsid : Nat) (key : Bytes) (l : Loc) : Bool :=
  (match l with
   | .object _ _ _ => false
   | _ => true) &&
  (match s.leafOf nsid key, s.ns? nsid with
   | some lf, some n =>
     let fp := fingerprint (s.dirHash nsid key)
     !(n.keys.any fun e => e.key != key && s.inRange lf.index nsid e.key &&
        fingerprint (s.dirHash nsid e.key) == fp)
   | _, _ => false)

/-- The locator word part of a record for a direct entry (Table 08-3). -/
def State.locator (s : State) (nsid : Nat) (key : Bytes) : Loc → Nat × Nat
  | .inline _ => (2, match s.leafOf nsid key with
    | some l => l.index
    | none => 0)
  | .extent i => ((match s.ext? i with
    | some e => if e.disk then 1 else 0
    | none => 0), i)
  | .object i _ _ => (3, i)

/-- The hand and REQ counter of a bucket (R214). -/
def sideZero (_ : Nat) : BitVec 16 := 0
def State.sideWord (s : State) (b : Nat) : Nat := (SMap.get sideZero s.kv.side b).toNat
def State.setSide (s : State) (b w : Nat) : State :=
  { s with kv := { s.kv with side := SMap.set sideZero b (BitVec.ofNat 16 w) s.kv.side } }

/-- Every REQ counter to 0; the hands stay. -/
def State.clearReq (s : State) : State :=
  let side := (s.kv.side.map fun p => (p.1, p.2 &&& 0xFF)).filter fun p => p.2 != 0
  { s with kv := { s.kv with side := side } }

/-- A window of 1,048,576 requests ends and the next begins (R214). -/
def State.nextWindow (s : State) : State :=
  let t := s.clearReq
  { t with kv := { t.kv with reqCount := 0, hotCount := 0 } }

/-- An hour has passed since the last reseed. -/
def State.reseedFree (s : State) : Bool :=
  match s.kv.lastReseedMs with
  | some t => decide (t + 3600000 ≤ s.dev.clockMs)
  | none => true

/-- One more direct-entry request of two buckets (R214); the first of a window when the one before it is full. -/
def State.countReq (s : State) (b1 b2 : Nat) : State :=
  let s := if 1048576 ≤ s.kv.reqCount then s.nextWindow else s
  let up := fun (s : State) b => let w := s.sideWord b; s.setSide b (w % 256 + 256 * min 255 (w / 256 + 1))
  let s := up (up s b1) b2
  let hot := s.kv.hotCount + (if s.sideWord b1 / 256 = 255 ∧ s.sideWord b2 / 256 = 255 then 1 else 0)
  let due := decide (s.rd Reg.DIR_CFG.RESEED_PCT * 1048576 ≤ hot * 100) && s.reseedFree
  { s with kv := { s.kv with reqCount := s.kv.reqCount + 1, hotCount := hot, reseedOwed := s.kv.reseedOwed || due } }

/-- The slot a new direct entry takes (R207): the lowest free slot of the first bucket, else its lowest tombstone,
else the same in the second. -/
def State.slotFor (s : State) (h : Nat) : Option (Nat × Nat) :=
  let pick := fun b k => ((List.range 7).find? fun i => entKind (s.dirWord b i) == k).map fun i => (b, i)
  match pick (bucket1 h) 0 with
  | some x => some x
  | none =>
    match pick (bucket1 h) 3 with
    | some x => some x
    | none =>
      match pick (bucket2 h) 0 with
      | some x => some x
      | none => pick (bucket2 h) 3

/-- A direct entry for a key, in a slot that R207 names; `replace` says that where no slot is found the entry at the first
bucket's hand gives way. -/
def State.placeDirect (s : State) (nsid : Nat) (key : Bytes) (l : Loc) (replace : Bool) : State :=
  let h := s.dirHash nsid key
  let loc := s.locator nsid key l
  let w := mkEntry 1 (fingerprint h) loc.1 loc.2
  match s.slotFor h with
  | some (b, i) => s.setDir b i w
  | none =>
    if replace then
      let b := bucket1 h
      let sw := s.sideWord b
      let hand := sw % 8
      ((s.setDir b hand w).setSide b (sw - hand + (hand + 1) % 7)).count Reg.DIR.REPLACED 1
    else s

/-- A direct-entry request for an eligible key (R207, R214); a read replaces the entry at the first bucket's hand where no
slot is found, a commit creates none. -/
def State.makeDirect (s : State) (nsid : Nat) (key : Bytes) (l : Loc) (read : Bool) : State :=
  if s.eligible nsid key l then
    let h := s.dirHash nsid key
    (s.countReq (bucket1 h) (bucket2 h)).placeDirect nsid key l read
  else s

/-- Free every entry of a bucket pair that a predicate names. -/
def State.freeEntries (s : State) (h : Nat) (p : Nat → Bool) : State :=
  (s.probe h).foldl (fun s x => if p x.2.2 then s.setDir x.1 x.2.1 0 else s) s

/-- The other keys of the pages that a commit wrote: one that held a direct entry before it and stays eligible has its
locator rewritten, one that lost its eligibility loses the entry (R194, R206). `s` is the state before. -/
def State.followLeaves (s t : State) (nsid : Nat) (key : Bytes) : State :=
  let leaf := fun (u : State) (k : Bytes) => (u.leafOf nsid k).map fun l => l.index
  match t.ns? nsid with
  | none => t
  | some n =>
    (n.keys.filter fun e => e.key != key && (leaf t e.key == leaf t key || leaf t e.key != leaf s e.key)).foldl (fun t e =>
      match n.current e.key with
      | none => t
      | some r =>
        match s.ownEntry nsid e.key r.loc with
        | none => t
        | some (b, i) =>
          if t.eligible nsid e.key r.loc then
            let loc := t.locator nsid e.key r.loc
            t.setDir b i (mkEntry 1 (fingerprint (t.dirHash nsid e.key)) loc.1 loc.2)
          else t.setDir b i 0) t

/-- The leaf of a key is written in the protected write buffer, with the pages that a split or merge writes; each is sealed
(R200, R201) and the direct entries of its keys follow. -/
def State.touchLeaf (s : State) (nsid : Nat) (key : Bytes) : Except Nat Unit × State :=
  match (s.changeLeaf nsid key).sealWritten nsid with
  | (.error e, t) => (.error e, t)
  | (.ok _, t) => (.ok (), s.followLeaves t nsid key)

/-- Leaves of keys written one after another. -/
def touchLeaves (nsid : Nat) : List Bytes → State → Except Nat Unit × State
  | [], s => (.ok (), s)
  | k :: ks, s =>
    match s.touchLeaf nsid k with
    | (.error e, s) => (.error e, s)
    | (.ok _, s) => touchLeaves nsid ks s

/-- One more directory-changing commit (R211, R212), which the next journal record carries. -/
def State.dirCommit (s : State) (nsid : Nat) (key : Bytes) : State :=
  { s with kv := { s.kv with dirCommits := s.kv.dirCommits + 1, dirChanges := s.kv.dirChanges + 1,
                             dirLog := s.kv.dirLog ++ [(nsid, key, s.flash.journalSeq + 1)] } }

/-- A leaf page opened: the bytes of its records, or `AUTH_FAILED` where its tag fails (R353). -/
def State.openLeaf (s : State) (l : Leaf) (flip : Bytes) : Except Nat Bytes × State :=
  match if s.noCipher then none else (s.ns? l.nsid).bind s.nsKey with
  | none => (.error (if s.noCipher then stInternal else stSlotEmpty), s)
  | some k =>
    match gcmDec k (l.page.flipped flip).iv (l.page.flipped flip).hdr (l.page.flipped flip).ct (l.page.flipped flip).tag with
    | none => (.error stAuth, s.tagFail l.index true 0 l.nsid)
    | some t => (.ok t, s.decipher 2 t.length)

/-- A leaf page read from the buffer, the cache or the media, and opened (R200, R205, R279). -/
def State.readLeaf (s : State) (l : Leaf) (rd : MediaReads) : Except Nat Bytes × State :=
  if l.buffered then s.openLeaf l []
  else if s.cached true l.index l.tag then
    ((s.count Reg.DIR.CACHE_HITS 1).cachePut ⟨true, l.index, l.tag, 16384⟩).openLeaf l []
  else
    match (s.cacheNote true l.index l.tag 16384).readUnits [l.lmu] (mediaLeaf rd l.index) with
    | (s, .uncorrectable) => (.error stMedia, s)
    | (s, .decoded _ flip) => s.openLeaf l flip

/-- The leaf path (R197): the shortcut or the walk, the leaf read, and the bucket's slot 7 rewritten. `direct` says
that a record found makes a direct entry for the key's value (R207). -/
def State.leafPath (s : State) (n : Ns) (key : Bytes) (pick : Option Rec) (rd : MediaReads) (direct : Bool) :
    Except Nat (Option Rec) × State :=
  let h := s.dirHash n.nsid key
  let s := s.count Reg.DIR.LEAF_PATH 1
  match s.leafOf n.nsid key with
  | none => (.ok none, s)
  | some l =>
    let s := s.setDir (bucket1 h) 7 (mkEntry 2 l.tag 7 l.index)
    match s.readLeaf l rd with
    | (.error e, s) => (.error e, s)
    | (.ok text, s) =>
      match pick with
      | none => (.ok none, s)
      | some r =>
        (.ok (some (s.opened n l text key r)), match if direct then n.current key else none with
          | some c => s.makeDirect n.nsid key c.loc true
          | none => s)

/-- An entry that R196 finds wrong: freed, DIR_FAULT set, and its bucket in bits [20:0] of ERR_CAPT (log entry 160). -/
def State.dirFault (s : State) (bucket slot : Nat) : State :=
  ((s.setDir bucket slot 0).raise Ev.DIR.DIR_FAULT).capture 7 0 (bucket % 65536) (4 * (bucket / 65536))

/-- Find a key's current record by the directory or the leaf path (R195, R196): an entry that names an extent has the
extent's value header read. `direct` says that a record found on the leaf path makes a direct entry (R207). -/
def State.lookup (s : State) (n : Ns) (key : Bytes) (rd : MediaReads) (direct : Bool) :
    Except Nat (Option Rec) × State :=
  if n.stamped then s.leafPath n key (n.current key) rd direct
  else
    match s.decidingEntry n.nsid key with
    | none => s.leafPath n key (n.current key) rd direct
    | some (b, i, w) =>
      if entKind w = 3 then (.ok none, s.count Reg.DIR.TOMB_HITS 1)
      else if entTier w = 2 then
        let s := s.count Reg.DIR.DIRECT_HITS 1
        match s.leafOf n.nsid key with
        | none => (.ok none, s)
        | some l =>
          match s.readLeaf l rd with
          | (.error e, s) => (.error e, s)
          | (.ok text, s) =>
            match n.current key with
            | some r => (.ok (some (s.opened n l text key r)), s)
            | none => (.ok none, s.count Reg.DIR.HEADER_ABSENT 1)
      else
        match s.ext? (entHandle w) with
        | some e =>
          if e.inUse && e.nsid == n.nsid then
            let s := s.count Reg.DIR.DIRECT_HITS 1
            if e.key = key then (.ok (some ⟨e.stamp, e.session, false, .extent e.index⟩), s)
            else
              match s.readExtent rd e.index 0 0 with
              | (⟨_, some err⟩, s) => (.error err, s)
              | (⟨_, none⟩, s) => (.ok none, s.count Reg.DIR.HEADER_ABSENT 1)
          else (s.dirFault b i).leafPath n key (n.current key) rd direct
        | none => (s.dirFault b i).leafPath n key (n.current key) rd direct

/-- CAPACITY_90 (Table 08-15): keys, extents, leaf pages or separator space passed 90 % of Table 08-8. -/
def State.capacity90 (s t : State) : State :=
  let past := fun (x : State) => decide (maxKeys * 9 < x.keysPresent * 10) ||
    decide (x.maxExtents * 9 < x.extentsUsed * 10) || decide (x.maxLeaves * 9 < x.kv.leaves.length * 10) ||
    decide (x.maxSeparators * 9 < x.separators * 10)
  if past t && !past s then t.raise Ev.DIR.CAPACITY_90 else t

/-- The directory changes of one commit on a key's own entries (R194, R206, R207): `s` is the state before it, `t` after its
leaf-page change; `direct` says that the commit is one of R207. -/
def State.setEntries (s t : State) (n n' : Ns) (key : Bytes) (direct : Bool) : State :=
  let h := s.dirHash n.nsid key
  let own := match n.current key with
    | some r => s.ownEntry n.nsid key r.loc
    | none => none
  let leafNow := match t.leafOf n.nsid key with
    | some l => l.index
    | none => 0
  let named := fun w => bitsOf w 0 26 == leafNow || (match s.leafOf n.nsid key with
    | some l => bitsOf w 0 26 == l.index
    | none => false)
  let t := if (n.current key).isNone && (n'.current key).isSome then t.freeEntries h fun w => entKind w == 3 && entFp w == fingerprint h && named w else t
  match n'.current key, own with
  | none, some (b, i) => t.setDir b i (mkEntry 3 (fingerprint h) 6 (leafNow % 2 ^ 26))
  | none, none => t
  | some r, some (b, i) =>
    if t.eligible n.nsid key r.loc then
      let loc := t.locator n.nsid key r.loc
      t.setDir b i (mkEntry 1 (fingerprint h) loc.1 loc.2)
    else t.setDir b i 0
  | some r, none => if direct then t.makeDirect n.nsid key r.loc false else t

/-- Make a key's records those given: the leaf-page change and the directory changes of one commit (R194, R206,
R207). `direct` says that the commit is one of R207. -/
def State.setRecs (s : State) (n : Ns) (key : Bytes) (recs : List Rec) (direct : Bool) : Except Nat Unit × State :=
  let n' := n.setRecs key recs
  match (s.setNs n').touchLeaf n.nsid key with
  | (.error e, t) => (.error e, t)
  | (.ok _, t) => (.ok (), s.capacity90 ((s.setEntries t n n' key direct).dirCommit n.nsid key))

/-! ## Usage (R483) -/

/-- A namespace's usage: key and value bytes as R483 counts them. -/
def State.usage (s : State) (n : Ns) : Nat :=
  let keys := n.keys.foldl (fun t e =>
    t + e.recs.foldl (fun u r => u + e.key.length + (if r.deleted then 0 else s.locLen r.loc)) 0) 0
  let ups := (s.cmd.uploads.filter fun u => u.nsid == n.nsid).foldl (fun t u =>
    t + u.key.length + u.stored.foldl (fun x k => x + s.locLen (.extent (u.firstExtent + k))) 0) 0
  let streams := n.streams.foldl (fun t st =>
    t + st.key.length + st.recs.foldl (fun u r => u + r.hdr.rlen) 0) 0
  keys + ups + streams

end Sys2Proof.Machine
end

