-- ==== Sys2Proof/Machine/FabFrames.lean ====
section
/-! DEFINITION. Frames that this device puts on the fabric (R403, R407, R410 to R412): the bodies of messages, frames and
their fragments, the seal under slot 2, local injection, and the flits of a link as they lie on the line. -/

namespace Sys2Proof.Machine

open Sys2Proof

/-! ## Flits on the line (R403) -/

/-- KIND and CODE of Table 17-2. -/
inductive FlitKind where
  | idle | tether | retry | wake | quiet
  | data (poison : Bool)
  deriving DecidableEq, Repr

def FlitKind.kind : FlitKind → Nat
  | .idle => 0
  | .data _ => 2
  | _ => 1

def FlitKind.code : FlitKind → Nat
  | .idle => 0
  | .tether => 1
  | .retry => 2
  | .wake => 3
  | .quiet => 4
  | .data p => if p then 1 else 0

/-- The link header (Table 17-2). -/
def linkHeader (k : FlitKind) (head tail : Bool) (vc fseq ack cr0 cr1 : Nat) : Nat :=
  k.kind * 2 ^ 30 + (if head then 2 ^ 29 else 0) + (if tail then 2 ^ 28 else 0) + vc % 2 * 2 ^ 27 + fseq % 256 * 2 ^ 19 +
    ack % 256 * 2 ^ 11 + cr0 % 16 * 2 ^ 7 + cr1 % 16 * 2 ^ 3 + k.code

/-- The 64 bytes of a flit: link header, payload, and the CRC-32C over both. -/
def flitBytes (header : Nat) (payload : Bytes) : Bytes :=
  let b := beBytes 4 header ++ payload.take 56 ++ List.replicate (56 - payload.length) 0
  b ++ beBytes 4 (crc32c b)

/-- A data flit. -/
def flitOnLine (f : Flit) : Bytes :=
  flitBytes (linkHeader (.data f.poison) f.head f.tail f.vc f.fseq f.ack f.cr0 f.cr1) f.payload

/-- A control or idle flit: its ACK, its credits and its payload. -/
def ctlFlit (k : FlitKind) (ack cr0 cr1 : Nat) (payload : Bytes) : Bytes :=
  flitBytes (linkHeader k false false 0 0 ack cr0 cr1) payload

/-- The payload of a tether (Table 17-3). -/
def tetherBytes (t : Tether) : Bytes :=
  let bit := fun (b : Bool) (k : Nat) => if b then 2 ^ k else 0
  beBytes 2 (if t.addrValid then t.addr else 0) ++
    beBytes 2 (bit t.addrValid 0 + bit t.stalemate 1 + bit t.departing 2 + bit t.unjoined 3 + bit t.gateway 4 + bit t.quiet 5) ++
    beBytes 1 (t.slot % 16 + t.link % 16 * 16) ++ [0] ++ beBytes 4 t.keyCheck ++ beBytes 8 t.serial ++ beBytes 4 t.cfgGen ++
    beBytes 4 t.tseq ++ List.replicate 30 0

/-! ## Frames (R410, R411) -/

/-- The 36-byte frame header (Table 17-5). -/
def frameHeader (f : FabFrame) : Bytes :=
  beBytes 2 f.dst ++ beBytes 2 f.src ++ beBytes 1 f.ftype ++
    beBytes 1 ((if f.isLocal then 1 else 0) + (if f.lastFrag then 2 else 0)) ++ beBytes 1 f.hops ++
    beBytes 1 (f.gwSlot % 16 + (if f.gwValid then 128 else 0)) ++ beBytes 4 f.flow ++ beBytes 8 f.msgId ++
    beBytes 2 f.payload.length ++ beBytes 2 f.frag ++ f.iv

/-- Header, payload and tag. -/
def frameBytes (f : FabFrame) : Bytes := frameHeader f ++ f.payload ++ f.tag

/-- The associated data of a protected frame: its header with HOPS and GW_SLOT taken as 0. -/
def frameAad (f : FabFrame) : Bytes := frameHeader { f with hops := 0, gwSlot := 0, gwValid := false }

/-- Frame types that travel under the fabric key (Table 17-6). -/
def protectedType (ftype : Nat) : Bool := ftype != 0x12 && ftype != 0x13

/-! ## Bodies of messages

Chapter 18 lays out UPDATE. The others, which the spec leaves to the device, are their fields in order, a count before each
list and a length before each string of bytes (log entry 170). -/

/-- A string of bytes behind its length. -/
def lengthed (b : Bytes) : Bytes := leBytes 4 b.length ++ b

def flagByte (b : Bool) : Bytes := [if b then 1 else 0]

/-- A list behind its count. -/
def counted {α : Type} (f : α → Bytes) (l : List α) : Bytes := leBytes 4 l.length ++ (l.map f).flatten

/-- A value, or none for a deletion. -/
def valueBytes : Option Bytes → Bytes
  | some v => 1 :: lengthed v
  | none => [0]

/-- The 88-byte header of a record (Table 16-2). -/
def exportHdr (h : RecordHdr) : Bytes :=
  leBytes 8 h.seq ++ leBytes 8 h.asn ++ leBytes 8 h.appendTime ++ leBytes 8 h.expiry ++ leBytes 4 h.rlen ++
    leBytes 1 (if h.void then 1 else 0) ++ leBytes 1 h.rclass ++ [0, 0] ++ h.chain ++ h.cmac

/-- A record with its stream and its header (R399). -/
def recordBytes (x : Bytes × RecordHdr × Bytes) : Bytes := lengthed x.1 ++ exportHdr x.2.1 ++ lengthed x.2.2

def mirrorBytes : MirrorBody → Bytes
  | .keys xs => 0 :: counted (fun x => lengthed x.key ++ valueBytes x.value) xs
  | .record t h b => 1 :: recordBytes (t, h, b)
  | .purge ps => 2 :: counted (fun p => lengthed p.1 ++ leBytes 8 p.2) ps

/-- What a keeper record's digest covers, and the record with its digest. -/
def keeperBytes (k : KeeperRec) : Bytes :=
  leBytes 8 k.serial ++ leBytes 1 k.profile ++ leBytes 2 k.fabAddrHi ++ leBytes 2 k.compatPin ++
    counted (fun r => leBytes 4 r.1 ++ leBytes 4 r.2.toNat) k.regs ++
    counted (fun x => leBytes 2 x.1 ++ flagByte x.2.1 ++ counted (leBytes 2) x.2.2) k.sets ++
    counted (fun x => leBytes 2 x.1 ++ leBytes 2 x.2) k.binds ++ counted (fun x => leBytes 2 x.1 ++ leBytes 2 x.2) k.copies

/-- The head of an UPDATE message (R445). -/
def updateHead (kind : Nat) (digest : Bytes) : Bytes := leBytes 1 kind ++ [0, 0, 0] ++ digest

/-- The body of a message, little-endian; a response begins with the MSG_ID of its request, an UPDATE excepted. -/
def payloadBytes : FabPayload → Bytes
  | .bytes b => b
  | .mirrorWrite mm b => [0] ++ leBytes 2 mm.nsid ++ leBytes 8 mm.asn ++ leBytes 8 mm.stamp ++ leBytes 4 mm.session ++
      flagByte mm.media ++ leBytes 8 mm.prevAsn ++ mirrorBytes b
  | .mirrorAck nsid asn ok => leBytes 2 nsid ++ leBytes 8 asn ++ flagByte ok
  | .resync nsid asn first last from_ items records => leBytes 2 nsid ++ leBytes 8 asn ++ flagByte first ++ flagByte last ++
      lengthed from_ ++
      counted (fun i => lengthed i.key ++ leBytes 8 i.stamp ++ leBytes 4 i.session ++ valueBytes i.value) items ++
      counted recordBytes records
  | .keeper k => keeperBytes k ++ k.digest
  | .copyCreate nsid d => [1] ++ leBytes 2 nsid ++ d
  | .copyRelease nsid => [2] ++ leBytes 2 nsid
  | .query => []
  | .sled slot seq gateway links => leBytes 1 slot ++ leBytes 8 seq ++ flagByte gateway ++ leBytes 1 links.toNat
  | .hello sled index => leBytes 2 sled ++ leBytes 1 index
  | .accept digest => digest
  | .abortRelay reqId => leBytes 8 reqId
  | .offer digest len func sec => updateHead 1 digest ++ leBytes 4 len ++ leBytes 4 func ++ leBytes 1 sec
  | .chunkReq digest index => updateHead 2 digest ++ leBytes 4 index
  | .chunk digest index crc b => updateHead 3 digest ++ leBytes 4 index ++ leBytes 4 crc ++ b
  | .updRefuse digest status => updateHead 4 digest ++ leBytes 2 status
  | .busy => leBytes 2 stBusy

def replyBytes (ftype reqId : Nat) (p : FabPayload) : Bytes :=
  if ftype = 0x09 then payloadBytes p else leBytes 8 reqId ++ payloadBytes p

/-! ## Sending (R34, R343, R412) -/

/-- Where a frame goes: to an address, or LOCAL on a link; the other fields that the source chooses. -/
structure FrameTo where
  dst   : Nat
  ftype : Nat
  link  : Option Nat
  flow  : Nat
  deriving DecidableEq, Repr

/-- The frames of a message, before their seal: more than 8,192 bytes go in fragments. -/
def messageFrames (src msgId : Nat) (dest : FrameTo) (body : Bytes) : List FabFrame :=
  let parts := if body.isEmpty then [[]] else chunks 8192 body
  parts.zipIdx.map fun x =>
    { dst := dest.dst, src := src, ftype := dest.ftype, isLocal := dest.link.isSome, lastFrag := x.2 + 1 == parts.length, hops := 0,
      gwSlot := 0, gwValid := false, flow := dest.flow % 2 ^ 32, msgId := msgId, frag := x.2, iv := List.replicate 12 0,
      payload := x.1, tag := List.replicate 16 0 }

/-- The fabric key that KEY_CHECK shows: while a warm start runs, the router island holds the check of slot 2 as its
wrapped record has it (R92). -/
def State.islandKey (s : State) : Option Bytes :=
  let k := SMap.get slotDefault s.key.vault 2
  match s.dev.phase with
  | .starting _ => if k.present then some k.key else none
  | _ => s.slotKey 2

/-- A protected frame sealed under slot 2: one pass of class 1. -/
def State.sealFrame (s : State) (key : Bytes) (f : FabFrame) : Option FabFrame × State :=
  match s.nonce 2 with
  | (.error _, s) => (none, s)
  | (.ok iv, s) =>
    let f := { f with iv := iv }
    let c := gcmEnc key iv (frameAad f) f.payload
    (some { f with payload := c.1, tag := c.2 }, s.cipher 1 f.payload.length)

/-- The frames of a message sealed; those that follow one that cannot be are not sent. -/
def sealFrames (key : Bytes) : List FabFrame → State → List FabFrame × State
  | [], s => ([], s)
  | f :: fs, s =>
    match s.sealFrame key f with
    | (none, s) => ([], s)
    | (some f, s) =>
      match sealFrames key fs s with
      | (l, s) => (f :: l, s)

/-- A message made up: its MSG_ID rises by 1 per message. Without a key in slot 2 or a cipher core nothing protected can be
sent. -/
def State.makeFrames (s : State) (dest : FrameTo) (body : Bytes) : List FabFrame × State :=
  let fs := messageFrames s.fab.addr s.fab.nextMsg dest body
  let s := { s with fab := { s.fab with nextMsg := s.fab.nextMsg + 1 } }
  if !protectedType dest.ftype then (fs, s)
  else
    match s.islandKey with
    | none => ([], s)
    | some k => if s.noCipher then ([], s) else sealFrames k fs s

/-- Frames wait for the router at local injection (R417); a frame that the device originates wakes a quiet island (R82). -/
def State.inject (s : State) (link : Option Nat) (fs : List FabFrame) : State :=
  { s with dev := { s.dev with routerQuiet := false }
           fab := { s.fab with inject := s.fab.inject ++ fs.map fun f => (link, f) } }

/-- A source without a gateway in its map cannot reach another sled (R416). -/
def State.noRoute (s : State) (dst : Nat) : Bool :=
  decide (dst / 16 ≠ s.fab.addr / 16) && !(s.fab.sled.any fun e => e.present && e.gateway)

/-- A request message sent, to an address or LOCAL on a link; it waits for its response. Where the source has no gateway for
its sled the destination is unreachable at once (R416). -/
def State.fabAsk (s : State) (dest : FrameTo) (p : FabPayload) (tag : Option TagId) (nsid asn : Nat) : State :=
  if dest.link.isNone && s.noRoute dest.dst then s.count Reg.FAB.UNREACHABLE 1
  else
    let id := s.fab.nextMsg
    match s.makeFrames dest (payloadBytes p) with
    | (fs, s) =>
      let m : OutMsg := ⟨id, dest.dst, dest.ftype, p, fs, dest.link, 0, tag, nsid, asn⟩
      { s with fab := { s.fab with outMsgs := s.fab.outMsgs ++ [m] } }.inject dest.link fs

def State.fabRequest (s : State) (dst ftype : Nat) (p : FabPayload) (tag : Option TagId) (nsid asn : Nat) : State :=
  s.fabAsk ⟨dst, ftype, none, Config.fabFlow dst nsid⟩ p tag nsid asn

/-- A message that awaits no response. -/
def State.fabTell (s : State) (dest : FrameTo) (p : FabPayload) : State :=
  match s.makeFrames dest (payloadBytes p) with
  | (fs, s) => s.inject dest.link fs

/-- A response to a fabric message: sent, and kept for a repeat of the request (R412). -/
def State.fabReply (s : State) (dst ftype reqId : Nat) (p : FabPayload) : State :=
  match s.makeFrames ⟨dst, ftype, none, Config.fabFlow dst 0⟩ (replyBytes ftype reqId p) with
  | (fs, s) =>
    let keep := fun (e : SourceEntry) => { e with replies := putWhere (fun r => r.1 == reqId) (reqId, fs) e.replies }
    { s with fab := { s.fab with sources := updWhere (fun e => e.src == dst) keep s.fab.sources } }.inject none fs

end Sys2Proof.Machine
end

