-- ==== Sys2Proof/Machine/Transport.lean ====
section
/-! DEFINITION. The Sahti Key Protocol's shared operations (R145 to R162): frames, credit, acknowledgement and
retransmission, responses as fragments, and the end of a session (R152, R124, R180). -/

namespace Sys2Proof.Machine

open Sys2Proof

/-- A ballast is fitted: RLOAD and DIV are not 0 (chapter 03). -/
def State.ballastFitted (s : State) : Bool :=
  decide (s.rd Reg.BAL_CFG0.RLOAD ≠ 0) && decide (s.rd Reg.BAL_CFG0.DIV ≠ 0)

/-- BUFFERED acknowledgement is allowed (R87). -/
def State.bufferedOk (s : State) : Bool := s.rdB Reg.BAL_STAT.BAL_OK && s.ballastFitted

/-- The fragment payload size P (R147). -/
def Session.frag (x : Session) : Nat := if x.smallMtu then 1024 else 8192

/-- Bytes that held frames and reassembly take of read staging (R157, Table 01-4); what has streamed to media no longer
stands there (R161). -/
def State.staged (s : State) : Nat :=
  s.sessions.foldl (fun n x => (x.held.foldl (fun n h => n + h.bytes.length) n) +
    x.assembling.foldl (fun n a => n + a.parts.foldl (fun n p => n + p.2.length) 0) 0) 0 -
  s.kv.early.foldl (fun n e => n + 16384 * e.2.2) 0

/-- The credit the device grants (R154): none while the receive queues are full, the least that lets a message complete
while read staging is full (R157), else the most it may (log entry 40). -/
def State.grant (s : State) : Nat :=
  if 16384 ≤ s.cmd.queue.length then 0 else if 16777216 ≤ s.staged then 1 else 1024

/-- The 24-byte frame header (Table 06-2). -/
def skpHeader (type session seq ackSeq credit len : Nat) : Bytes :=
  [0x01, BitVec.ofNat 8 type] ++ beBytes 2 session ++ beBytes 8 seq ++ beBytes 8 ackSeq ++ beBytes 2 credit ++
    beBytes 2 len

/-- A protected frame from the device (R146). -/
def Session.frame (x : Session) (grant type seq : Nat) (body : Bytes) : Bytes :=
  let h := skpHeader type x.id seq x.inOrder grant body.length
  let p := gcmEnc x.txKey (x.txSalt ++ beBytes 8 seq) h body
  h ++ p.1 ++ p.2

def State.session? (s : State) (id : Nat) : Option Session := s.sessions.find? fun x => x.id == id

/-- A session replaced, or opened. -/
def State.setSession (s : State) (x : Session) : State :=
  { s with sessions := putWhere (fun y => y.id == x.id) x s.sessions }

/-! ## The headers of what a port sends (R140 to R143) -/

/-- A port's MAC address: the fused base address plus the port number. -/
def State.portMac (s : State) (p : Nat) : Nat :=
  (s.rd Reg.NET_MAC_LO.MAC_LO + 2 ^ 32 * s.rd Reg.NET_MAC_HI.MAC_HI + p) % 2 ^ 48

/-- The device's IPv6 address: NET_IPV6_0 holds bits [127:96]. -/
def State.ipv6 (s : State) : Nat := (List.range 4).foldl (fun n k => n * 2 ^ 32 + s.rdAt Reg.NET_IPV6.IPV6 0 k) 0

/-- The device's address of an IP version; 0 disables the version (R141). -/
def State.ownIp (s : State) (v6 : Bool) : Nat := if v6 then s.ipv6 else s.rd Reg.NET_IPV4.IPV4

/-- A frame to a MAC address on a port: tagged with VID while VLAN_TAGGED is 1 (R140). -/
def State.ethTo (s : State) (port : Nat) (mac : BitVec 48) : EthHead :=
  ⟨port, BitVec.ofNat 48 (s.portMac port), mac,
    if s.rdB Reg.NET_VLAN.VLAN_TAGGED then some (s.rd Reg.NET_VLAN.VID) else none⟩

/-- A datagram to an address: DF on IPv4, a hop limit of 64 and the DSCP of NET_UDP (R142). -/
def State.ipTo (s : State) (port : Nat) (mac : BitVec 48) (v6 : Bool) (ip : BitVec 128) : IpHead :=
  ⟨s.ethTo port mac, v6, BitVec.ofNat 128 (s.ownIp v6), ip, !v6, 64, s.rd Reg.NET_UDP.DSCP⟩

/-- The sum of 16-bit words, the last byte padded. -/
def sum16 : Bytes → Nat
  | [] => 0
  | [a] => a.toNat * 256
  | a :: b :: rest => a.toNat * 256 + b.toNat + sum16 rest

/-- One's complement of the one's complement sum; 0 is sent as 0xFFFF (PRESUMED from RFC 768, log entry 158). -/
def foldSum (n : Nat) : Nat :=
  let a := n % 65536 + n / 65536
  let c := 65535 - (a % 65536 + a / 65536)
  if c = 0 then 65535 else c

/-- The UDP checksum: the pseudo-header of the IP version, the UDP header and the payload. -/
def udpSum (h : IpHead) (src dst : Nat) (b : Bytes) : Nat :=
  let n := if h.v6 then 16 else 4
  let len := 8 + b.length
  foldSum (sum16 (beBytes n h.srcIp.toNat ++ beBytes n h.dstIp.toNat) + 17 + 2 * len + src + dst + sum16 b)

/-- A UDP datagram to a host, from SKP_PORT (log entry 158). -/
def State.udpTo (s : State) (port : Nat) (mac : BitVec 48) (v6 : Bool) (ip : BitVec 128) (dst : Nat) (b : Bytes) : UdpHead :=
  let h := s.ipTo port mac v6 ip
  let src := s.rd Reg.NET_UDP.SKP_PORT
  ⟨h, src, dst, udpSum h src dst b⟩

/-- Where a session's frames go: the headers of its latest authenticated frame (R143). -/
def State.toHost (s : State) (x : Session) (b : Bytes) : UdpHead :=
  s.udpTo x.port x.hostMac x.hostV6 x.hostIp x.hostPort b

/-- A port holds transmission: a PAUSE is obeyed (R138). -/
def State.paused (s : State) (port : Nat) : Bool :=
  match s.ports[port]? with
  | some p => decide (0 < p.pauseQuanta)
  | none => false

def EthHead.size (h : EthHead) : Nat := if h.vlan.isSome then 18 else 14
def IpHead.size (h : IpHead) : Nat := h.eth.size + if h.v6 then 40 else 20

/-- Bytes that a frame for a host port takes in the fabric and network buffers. -/
def Output.netBytes : Output → Nat
  | .helloReply dest _ b => dest.ip.size + 8 + b.length
  | .refuse dest b => dest.ip.size + 8 + b.length
  | .frame dest _ _ b => dest.ip.size + 8 + b.length
  | .ackFrame dest _ _ b => dest.ip.size + 8 + b.length
  | .arpReply dest _ => dest.size + 28
  | .neighbourAdvert dest _ => dest.size + 72
  | .echoReply dest b => dest.size + 8 + b.length
  | .ethFabric dest _ b => dest.size + b.length
  | _ => 0

/-- A frame leaves on a port. While the port is paused it waits in the fabric and network buffers of Table 01-4; one that
finds them full is lost, as a frame on the wire may be (log entry 158). -/
def State.sendOn (s : State) (port : Nat) (o : Output) : State :=
  if s.paused port then
    if s.portQueue.foldl (fun n x => n + x.2.netBytes) o.netBytes ≤ 8388608 then
      { s with portQueue := s.portQueue ++ [(port, o)] }
    else s
  else s.emit o

/-- A PAUSE frame on every host port that is up, while PAUSE_EN is 1 (R138); MAC control frames do not wait. -/
def State.pauseHosts (s : State) (quanta : Nat) : State :=
  if s.rdB Reg.NET_PORTMODE.PAUSE_EN then
    (s.ports.zipIdx.filter fun x => x.1.up).foldl (fun s x => s.emit (.pauseOut x.2 quanta)) s
  else s

/-! ## The end of a session (R152, R124, R128, R180) -/

/-- H of a STAMPED namespace after an admission or a session end (R180). -/
def Ns.advance (n : Ns) : Ns :=
  match n.latest with
  | [] => { n with horizon := max n.horizon n.highest }
  | (_, l) :: rest => { n with horizon := max n.horizon (rest.foldl (fun m p => min m p.2) l) }

/-- Pages owned by a session are released (R124): PATH, SESSION and, unless STICKY holds, LOCK. -/
def State.releasePages (s : State) (id : Nat) : State :=
  let owned := s.regs.filter fun p =>
    addrOff p.1 == hOwner && wordGet p.2 12 3 == 1 && wordGet p.2 0 12 == id
  let free := fun (w : Word) => if w.getLsbD 17 then w &&& 0x30000 else 0
  let t := owned.foldl (fun (s : State) p => s.setWord p.1 (free p.2)) s
  if owned.isEmpty then t else t.raise Ev.GLB.OWNER_RELEASED

/-- The context of a session's commands once it has ended: when it was opened, and its ID (R179). -/
def orphanCtx (x : Session) : Ctx := .orphan (x.opened * 4096 + x.id % 4096)

/-- What a session's entries become when the session ends: posted ones are freed, the others run on (R152). -/
def orphaned (x : Session) (tags : List TagEntry) : List TagEntry :=
  (tags.filter fun e => !(e.id.ctx == .session x.id && e.state == .posted)).map fun e =>
    if e.id.ctx = .session x.id then { e with id := ⟨orphanCtx x, e.id.tag⟩ } else e

/-- The name under which an entry goes on once its session has ended. -/
def orphanName (x : Session) (t : TagId) : TagId := if t.ctx = .session x.id then ⟨orphanCtx x, t.tag⟩ else t

/-- Whoever waits for an entry's command knows it by its new name. -/
def State.renameTags (s : State) (f : TagId → TagId) : State :=
  let wait := fun (w : Waiter) => match w with
    | .tag t => Waiter.tag (f t)
    | _ => w
  let pend := fun (p : CfgPending) => { p with waiter := wait p.waiter }
  { s with dev := { s.dev with enterTags := s.dev.enterTags.map f, resetWaiter := s.dev.resetWaiter.map wait }
           kv := { s.kv with early := s.kv.early.map fun e => (f e.1, e.2) }
           cfg := { s.cfg with under := s.cfg.under.map pend, waiting := s.cfg.waiting.map pend }
           fab := { s.fab with outMsgs := s.fab.outMsgs.map fun m => { m with tag := m.tag.map f } }
           fw := { s.fw with activating := s.fw.activating.map f } }

/-- A session ends. -/
def State.endSession (s : State) (id : Nat) : State :=
  match s.session? id with
  | none => s
  | some x =>
    let lapse := fun (n : Ns) =>
      if n.stamped then Ns.advance { n with latest := n.latest.filter fun p => p.1 != id } else n
    let q := s.cmd.queue.map fun c =>
      if c.ctx = .session id then { c with ctx := orphanCtx x } else c
    let s := (s.dropEarly fun e => e.ctx == .session id && x.assembling.any fun a => a.tag == e.tag).renameTags (orphanName x)
    let s := { s with
      sessions := dropWhere (fun y => y.id == id) s.sessions
      cmd := { s.cmd with tags := orphaned x s.cmd.tags, queue := q }
      kv := { s.kv with namespaces := s.kv.namespaces.map lapse }
      latches := s.latches.filter fun l => l.reader != Path.skp id
      cry := { s.cry with pages := s.cry.pages.filter fun p => p.owner != Ctx.session id } }
    s.releasePages id

/-! ## Sending -/

/-- A next SEQ has left its space (R146). -/
def Session.spent (x : Session) : Bool := decide (2 ^ 63 ≤ x.nextSeq) || decide (2 ^ 64 ≤ x.nextAckSeq)

/-- A CLOSE received is among the frames that ACK_SEQ acknowledges. -/
def Session.closeAcked (x : Session) : Bool :=
  match x.closing with
  | some q => decide (q ≤ x.inOrder)
  | none => false

/-- Send the fragments that wait, in order, as far as the peer's credit (R154) and read staging (R157) go: the session and
the frames. -/
def pumpGo (grant : Nat) : List OutFrag → Nat → Session → Session × List (Nat × Bytes)
  | [], _, x => ({ x with outbox := [] }, [])
  | f :: fs, room, x =>
    if x.nextSeq ≤ x.peerAck + x.peerCredit ∧ x.nextSeq < 2 ^ 63 ∧ f.body.length + 40 ≤ room then
      let seq := x.nextSeq
      let b := x.frame grant 0x03 seq f.body
      let x := { x with nextSeq := seq + 1, held := x.held ++ [⟨seq, f.tag, b, 1, false⟩], ackDue := false,
                        ackSent := x.inOrder, creditSent := grant }
      let p := pumpGo grant fs (room - (f.body.length + 40)) x
      (p.1, (seq, b) :: p.2)
    else ({ x with outbox := f :: fs }, [])

/-- Frames of a session leave, each a cipher pass of the session class (R34). -/
def State.sendFrames (s : State) (x : Session) (fs : List (Nat × Bytes)) : State :=
  fs.foldl (fun s f => (s.sendOn x.port (.frame (s.toHost x f.2) x.id f.1 f.2)).cipher 0 f.2.length) s

/-- Send what waits on a session. A DATA frame that acknowledges a CLOSE ends the session (R152), and so does the last SEQ
of its space (R146). -/
def State.pump (s : State) (id : Nat) : State :=
  match s.session? id with
  | none => s
  | some x =>
    if s.paused x.port then s
    else
      let p := pumpGo s.grant x.outbox (16777216 - s.staged) x
      let t := (s.setSession p.1).sendFrames p.1 p.2
      if !p.2.isEmpty && (p.1.closeAcked || p.1.spent) then t.endSession id else t

/-- Every session that has fragments waiting: read staging has room again (R157). -/
def State.pumpAll (s : State) : State :=
  ((s.sessions.filter fun x => !x.outbox.isEmpty).map fun x => x.id).foldl State.pump s

/-- The selective bitmap of an ACK frame (R155). -/
def Session.bitmap (x : Session) : Bytes :=
  (List.range 128).map fun i =>
    BitVec.ofNat 8 ((List.range 8).foldl (fun n j =>
      2 * n + (if x.seen.contains (x.inOrder + 1 + (8 * i + j)) then 1 else 0)) 0)

/-- Send an ACK frame now. -/
def State.sendAck (s : State) (x : Session) : State :=
  let b := x.frame s.grant 0x04 x.nextAckSeq x.bitmap
  let y := { x with nextAckSeq := x.nextAckSeq + 1, ackDue := false, ackSent := x.inOrder, creditSent := s.grant }
  ((s.setSession y).sendOn x.port (.ackFrame (s.toHost x b) x.id x.nextAckSeq b)).cipher 0 b.length

/-! ## Responses -/

/-- A fragment header (Table 06-6). -/
def fragHeader (kind flags tag msgLen off len : Nat) : Bytes :=
  [BitVec.ofNat 8 kind, BitVec.ofNat 8 flags] ++ beBytes 2 tag ++ beBytes 4 msgLen ++ beBytes 4 off ++
    beBytes 2 len ++ [0, 0]

/-- The 24-byte completion header (Table 06-7). -/
def Completion.header (c : Completion) : Bytes :=
  beBytes 2 c.status ++ beBytes 2 (if c.more then 0x20 else 0) ++ beBytes 8 c.asn ++ beBytes 4 c.dataLen ++
    (c.param ++ List.replicate (8 - c.param.length) 0).take 8

/-- The fragments of a response, and its trailer (R162). -/
def Completion.frags (c : Completion) (p tag : Nat) (owner : Option Nat) : List OutFrag :=
  let msgLen := 24 + c.dataLen
  let msg := c.header ++ c.data
  let go := (chunks p msg).foldl (fun (st : Nat × List OutFrag) b =>
    (st.1 + b.length, st.2 ++ [⟨owner, fragHeader 2 0 tag msgLen st.1 b.length ++ b⟩])) (0, [])
  match c.trailer with
  | none => go.2
  | some (st, n) =>
    go.2 ++ [⟨owner, fragHeader 2 1 tag msgLen msg.length 8 ++ beBytes 2 st ++ [0, 0] ++ beBytes 4 n⟩]

/-- A completion without data. -/
def doneWith (status asn : Nat) (param : Bytes) : Completion := ⟨status, false, asn, param, 0, [], none⟩

/-- A completion with data. -/
def doneData (status asn : Nat) (param data : Bytes) : Completion := ⟨status, false, asn, param, data.length, data, none⟩

/-- Counters and events that follow a completion's status (Table 07-10, Table 07-12). -/
def State.countStatus (s : State) (status : Nat) : State :=
  if status = stBusy then s.count Reg.CMD_REFUSED.BUSY 1
  else if status = stStampConflict then (s.count Reg.CMD_REFUSED.STAMP 1).report Ev.CMD.STAMP_CONFLICT stStampConflict
  else if status = stAborted then s.count Reg.CMD_ABORTS.ABORTED 1
  else if status = stTooLate then s.count Reg.CMD_ABORTS.TOO_LATE 1
  else s

/-- The completion header and data that a forwarded command's source is given: where the response ended with a trailer, its
STATUS and DELIVERED stand in the header (R162; log entry 158). -/
def Completion.settled (c : Completion) : Completion :=
  match c.trailer with
  | some (st, n) => { c with status := st, dataLen := n, trailer := none }
  | none => c

/-- A completion goes to whoever holds the tag: an SKP session's response, a FORWARD_RESP, or nobody (R152).
`live` says that the response belongs to the tag's own entry. -/
def State.respond (s : State) (t : TagId) (c : Completion) (live : Bool) : State :=
  let s := s.countStatus c.status
  match t.ctx with
  | .session id =>
    match s.session? id with
    | none => s
    | some x =>
      let s := s.emit (.completion t c)
      (s.setSession { x with outbox := x.outbox ++ c.frags x.frag t.tag (if live then some t.tag else none) }).pump id
  | .forward src => s.fabReply src 0x04 t.tag (.bytes (c.settled.header ++ c.data))
  | .orphan _ => s

/-! ## Freeing tags (R157, R165) -/

/-- A session still holds or will send a frame of a tag's response. -/
def Session.busyTag (x : Session) (tag : Nat) : Bool :=
  (x.held.any fun h => h.tag == some tag) || (x.outbox.any fun f => f.tag == some tag)

/-- Tags of a session whose whole response has been acknowledged are freed; a message that completed with `BAD_FIELD`
may begin anew (R160). -/
def State.freeTags (s : State) (id : Nat) : State :=
  match s.session? id with
  | none => s
  | some x =>
    let gone := fun (e : TagEntry) => e.id.ctx == .session id && e.state == .posted && !x.busyTag e.id.tag
    let s := { s with cmd := { s.cmd with tags := dropWhere gone s.cmd.tags } }
    s.setSession { x with assembling := x.assembling.filter fun a => !(a.failed && !x.busyTag a.tag) }

/-! ## Acknowledgements from the host (R154 to R157) -/

/-- Frame `seq` is marked received by the selective bitmap that follows `ack`. -/
def marked (ack : Nat) (map : Bytes) (seq : Nat) : Bool :=
  decide (ack < seq) && (let i := seq - ack - 1; (map.getD (i / 8) 0).getLsbD (7 - i % 8))

/-- An acknowledgement taken: what it acknowledges is no longer held, and each held frame before a later one received
is sent again once (R156). An acknowledgement below one already taken is not the latest. -/
def State.takeAck (s : State) (id ack credit : Nat) (map : Bytes) : State :=
  match s.session? id with
  | none => s
  | some x =>
    let x := if x.peerAck ≤ ack then { x with peerAck := ack, peerCredit := credit } else x
    let held := x.held.filter fun h => !(decide (h.seq ≤ ack) || marked ack map h.seq)
    let top := x.held.foldl (fun m h => if decide (h.seq ≤ ack) || marked ack map h.seq then max m h.seq else m) 0
    let again := fun (h : HeldFrame) => decide (h.seq < top) && !h.fastDone && decide (h.sent < 16)
    let resent := (held.filter again).map fun h => (h.seq, h.bytes)
    let held := updWhere again (fun h => { h with sent := h.sent + 1, fastDone := true }) held
    let s := s.setSession { x with held := held }
    let s := (s.sendFrames x resent).count Reg.SKP.RETX resent.length
    ((s.freeTags id).pump id).pumpAll

/-! ## Receiving -/

/-- A frame failed its check: AUTH_FAIL, and AUTH_BURST once it has risen by 1,000 within 1 s (Table 06-14). -/
def State.authFail (s : State) : State :=
  let s := s.count Reg.SKP.AUTH_FAIL 1
  let ts := (s.dev.clockMs :: s.authTimes).filter fun t => decide (s.dev.clockMs ≤ t + 1000)
  if 1000 ≤ ts.length then { s with authTimes := [] }.raise Ev.SKP.AUTH_BURST else { s with authTimes := ts }

/-- The highest SEQ received in order, given those seen. -/
def inOrderGo (seen : List Nat) : Nat → Nat → Nat
  | 0, k => k
  | fuel + 1, k => if seen.contains (k + 1) then inOrderGo seen fuel (k + 1) else k

/-- A DATA-space SEQ accepted; a DATA frame ends the half-open state, a CLOSE does not (R151). -/
def Session.accept (x : Session) (data : Bool) (seq : Nat) : Session :=
  let seen := seq :: x.seen
  let k := inOrderGo seen seen.length x.inOrder
  { x with high := max x.high seq, seen := seen.filter fun q => decide (k < q), inOrder := k, ackDue := true,
           halfOpen := x.halfOpen && !data }

/-- A SEQ was accepted before. -/
def Session.wasSeen (x : Session) (seq : Nat) : Bool := decide (seq ≤ x.inOrder) || x.seen.contains seq

/-- What the checks of R153 give for a DATA-space frame. -/
inductive Received where
  | replay
  | beyondCredit
  | badTag
  | body (plain : Bytes)
  deriving DecidableEq, Repr

/-- The checks of R153, in order. -/
def Session.check (x : Session) (type : Nat) (f : SkpFrame) : Received :=
  if f.seq + 1024 ≤ x.high ∨ x.wasSeen f.seq then .replay
  else if x.ackSent + x.creditSent < f.seq then .beyondCredit
  else
    match gcmDec x.rxKey (x.rxSalt ++ beBytes 8 f.seq)
        (skpHeader type f.session f.seq f.ackSeq f.credit f.bodyLen) f.body f.tag with
    | none => .badTag
    | some b => .body b

end Sys2Proof.Machine
end

