-- ==== Sys2Proof/Machine/CamOps.lean ====
section
/-! DEFINITION. The associative tiles (chapter 09): tables and their geometry, FIRST and ALL searches, the
classifier, and the checks and changes of CAM_WRITE (R234, R228, R229). -/

namespace Sys2Proof.Machine

open Sys2Proof

/-- The profile in force is Fabric (R37). -/
def State.fabric (s : State) : Bool := s.rd Reg.PROFILE.IN_FORCE = 2

/-- The profile in force is Edge. -/
def State.edge (s : State) : Bool := s.rd Reg.PROFILE.IN_FORCE = 1

/-- An empty word. -/
def camNone (_ : Nat) : Option CamEntry := none

/-- Where a table lies (R217, R226): first tile, tiles, width code, selector. -/
structure TableCfg where
  first : Nat
  tiles : Nat
  code  : Nat
  lsb   : Nat
  bits  : Nat
  deriving DecidableEq, Repr

/-- The tiles of a table (Table 09-2, Table 09-6). -/
def State.tableCfg (s : State) (t : Nat) : TableCfg :=
  if t = 0 then ⟨0, if s.fabric then 1 else 0, 0, 0, 0⟩
  else if t = 1 then ⟨1, 1, 1, 0, 0⟩
  else if t = 2 then ⟨2, 4, 1, 0, 0⟩
  else if 8 ≤ t ∧ t ≤ 15 then
    ⟨s.rdAt Reg.CAM_TBL.FIRST_TILE 0 (t - 8), s.rdAt Reg.CAM_TBL.TILES 0 (t - 8), s.rdAt Reg.CAM_TBL.WIDTH 0 (t - 8),
     s.rdAt Reg.CAM_TBL.SEL_LSB 0 (t - 8), s.rdAt Reg.CAM_TBL.SEL_BITS 0 (t - 8)⟩
  else ⟨0, 0, 0, 0, 0⟩

/-- Entry width in bits, entries per tile and in the table (Table 09-1). -/
def TableCfg.width (c : TableCfg) : Nat := 80 * 2 ^ c.code
def TableCfg.perTile (c : TableCfg) : Nat := 16384 / 2 ^ c.code
def TableCfg.size (c : TableCfg) : Nat := c.tiles * c.perTile

/-- The bank group of a table index (R217). -/
def TableCfg.group (c : TableCfg) (i : Nat) : Nat := i % c.perTile / 1024

/-- The entries of a table. -/
def State.table (s : State) (t : Nat) : SMap (Option CamEntry) :=
  match s.cam.tables.find? fun x => x.1 == t with
  | some x => x.2
  | none => []

/-- The entries of a table replaced, in its tiles, which leave retention (R227). -/
def State.setTable (s : State) (t : Nat) (m : SMap (Option CamEntry)) : State :=
  let c := s.tableCfg t
  { s with cam := { s.cam with tables := putWhere (fun x => x.1 == t) (t, m) s.cam.tables,
                               retained := s.cam.retained.filter fun k => decide (k < c.first) || decide (c.first + c.tiles ≤ k) } }

/-- Bytes of a table's copy: 64 for each entry (log entry 165). -/
def tableBytes (m : SMap (Option CamEntry)) : Nat := 64 * m.length

/-- The copy in the flash system area brought up to date (R235, R236); table 0 has none. -/
def State.saveTable (s : State) (t : Nat) (m : SMap (Option CamEntry)) : State :=
  if t = 0 then s
  else { s with cam := { s.cam with saved := putWhere (fun x => x.1 == t) (t, m) s.cam.saved } }.saveSys (.camTable t)
    (tableBytes m)

/-- Every compared bit equals the key bit (R215). -/
def CamEntry.hits (e : CamEntry) (key : Nat) : Bool := (e.value ^^^ key) &&& e.mask == 0

/-- The matching entries in ascending index (R218, R220, R226). -/
def camFind (c : TableCfg) (m : SMap (Option CamEntry)) (key : Nat) : List (Nat × CamEntry) :=
  m.filterMap fun x =>
    match x.2 with
    | none => none
    | some e =>
      if c.bits ≠ 0 ∧ c.group x.1 ≠ bitsOf key c.lsb c.bits then none
      else if x.1 < c.size ∧ e.hits key then some (x.1, e) else none

/-- One search counted on every tile of a table; a tile leaves retention (R227). -/
def State.noteSearch (s : State) (c : TableCfg) (n : Nat) : State :=
  let s := (List.range c.tiles).foldl (fun s k => s.count64 Reg.SEARCHES_LO.WORD Reg.SEARCHES_HI.WORD (c.first + k) n) s
  if n = 0 then s
  else
    let out := s.cam.retained.filter fun t => decide (t < c.first) || decide (c.first + c.tiles ≤ t)
    { s with cam := { s.cam with retained := out } }

/-- A FIRST search. -/
def State.searchFirst (s : State) (t key : Nat) : Option (Nat × CamEntry) × State :=
  let c := s.tableCfg t
  ((camFind c (s.table t) key).head?, s.noteSearch c 1)

/-! ## The classifier (R223) -/

/-- Big-endian value of `n` bytes of a key, a missing byte 0. -/
def keyBytes (key : Bytes) (n : Nat) : Nat := beNat ((key ++ List.replicate n 0).take n)

/-- The classifier's search key (Table 09-3). -/
def classKey (nsid : Nat) (key : Bytes) : Nat :=
  let present := (2 ^ 16 - 1) - (2 ^ (16 - min 16 key.length) - 1)
  nsid * 2 ^ 148 + present * 2 ^ 128 + keyBytes key 16

/-- The classification of a write (R223). -/
def State.classify (s : State) (nsid : Nat) (key : Bytes) : Classified × State :=
  match s.searchFirst 2 (classKey nsid key) with
  | (none, s) => (⟨0, 0, 0, 0⟩, s)
  | (some (_, e), s) => (⟨bitsOf e.data 0 8, bitsOf e.data 8 8, bitsOf e.data 16 16, bitsOf e.data 32 16⟩, s)

/-! ## CAM_WRITE (R233 to R235) -/

/-- The PARAM of CAM_WRITE. -/
structure CamCmd where
  op    : Nat
  table : Nat
  count : Nat
  index : Nat
  end_  : Nat
  deriving DecidableEq, Repr

def camCmd (param : Bytes) : CamCmd :=
  ⟨beAt param 0 1, beAt param 1 1, beAt param 2 2, beAt param 4 4, beAt param 8 4⟩

/-- Bytes of one operand record at a width. -/
def TableCfg.recLen (c : TableCfg) : Nat := c.width / 4 + 8

/-- The records of an operand. -/
def camRecords (c : TableCfg) (value : Bytes) : List CamEntry :=
  (chunks c.recLen value).map fun b =>
    ⟨leAt b 0 (c.width / 8), leAt b (c.width / 8) (c.width / 8), leAt b (c.width / 4) 8⟩

/-- The operand length an operation takes. -/
def CamCmd.opLen (k : CamCmd) (c : TableCfg) : Nat :=
  if k.op = 1 then k.count * c.recLen
  else if k.op = 3 then c.recLen
  else if k.op = 6 then c.width / 8
  else 0

/-- The reserved key bits of a table (Tables 09-3 and 09-4, R225). -/
def reservedKey (t : Nat) : Nat :=
  if t = 0 then 2 ^ 61 - 1 else if t = 1 then 2 ^ 13 - 1 else if t = 2 then 15 * 2 ^ 144 else 0

/-- A DATA word that its table does not allow. -/
def dataBad (t data : Nat) : Bool :=
  if t = 0 then decide (32 ≤ data) || decide (1 < bitsOf data 0 3)
  else if t = 1 then decide (8 ≤ data)
  else if t = 2 then decide (2 ^ 48 ≤ data) || decide (4 < bitsOf data 0 8) || decide (15 < bitsOf data 8 8)
  else decide (512 ≤ data) || decide (bitsOf data 0 8 = 0) || decide (63 < bitsOf data 0 8)

/-- A classifier entry that names a mirror set not defined (R425). -/
def State.setUnknown (s : State) (t : Nat) (e : CamEntry) : Bool :=
  let m := bitsOf e.data 16 16
  t == 2 && s.fabric && m != 0 && m != 0xFFFF && !(s.fab.sets.any fun x => x.1 == m)

/-- An entry at an index breaks the selector rule of R226. -/
def breaksSel (c : TableCfg) (i : Nat) (e : CamEntry) : Bool :=
  c.bits != 0 && (bitsOf e.mask c.lsb c.bits != 2 ^ c.bits - 1 || bitsOf e.value c.lsb c.bits != c.group i)

/-- A move would carry a valid entry into another bank group (R234). -/
def moveBreaks (c : TableCfg) (m : SMap (Option CamEntry)) (k : CamCmd) : Bool :=
  c.bits != 0 && (m.any fun x => x.2.isSome && decide (k.index ≤ x.1) && decide (x.1 ≤ k.end_) &&
    (if k.op = 3 then c.group x.1 != c.group (x.1 + 1)
     else decide (k.index < x.1) && c.group x.1 != c.group (x.1 - 1)))

/-- The conditions of R234 in its order: whether each is tested at the change's turn, whether it holds, its status.
What depends on the geometry of a field-filter table is tested at the turn (log entry 41). -/
def State.camChecks (s : State) (value : Bytes) (k : CamCmd) : List (Bool × Bool × Nat) :=
  let c := s.tableCfg k.table
  let flt := decide (8 ≤ k.table)
  let m := s.table k.table
  let recs := if k.op = 1 ∨ k.op = 3 then camRecords c value else []
  let move := decide (k.op = 3) || decide (k.op = 4)
  let sized := flt && decide (c.tiles = 0)
  [(false, decide (k.op = 0) || decide (6 < k.op), stBadField),
   (false, (decide (3 ≤ k.table) && decide (k.table ≤ 7)) || decide (15 < k.table), stBadField),
   (false, !flt && decide (c.tiles = 0), stBadField),
   (true, sized, stBadField),
   (false, (if k.op = 6 then decide (1 < k.count) else if move then decide (k.count ≠ 1)
            else decide (k.count = 0) || decide (256 < k.count)), stBadField),
   (flt, decide (k.op ≠ 6) && decide (c.size < k.index + k.count), stBadField),
   (false, decide (k.op = 6) && decide (k.index ≠ 0), stBadField),
   (false, !move && decide (k.end_ ≠ 0), stBadField),
   (false, move && decide (k.end_ ≤ k.index), stBadField),
   (flt, move && decide (c.size ≤ k.end_), stBadField),
   (true, decide (k.op = 3) && (SMap.get camNone m k.end_).isSome, stBadField),
   (true, move && moveBreaks c m k, stBadField),
   (false, decide (43008 < value.length), stBadValueLen),
   (flt && (k.op == 1 || k.op == 3 || k.op == 6), decide (value.length ≠ k.opLen c), stBadField),
   (flt, recs.any fun e => e.value &&& e.mask != e.value, stBadField),
   (flt, recs.any fun e => e.mask &&& reservedKey k.table != 0, stBadField),
   (flt, recs.any fun e => dataBad k.table e.data, stBadField),
   (true, (recs.zipIdx.any fun x => breaksSel c (k.index + x.2) x.1), stBadField),
   (true, recs.any fun e => s.setUnknown k.table e, stBadField),
   (false, decide (k.table = 0) && decide (k.op ≤ 4), stNotPermitted)]

/-- The first condition of R234 that fails, among those tested at admission or at the turn. -/
def State.camCheck (s : State) (value : Bytes) (k : CamCmd) (turn : Bool) : Option Nat :=
  ((s.camChecks value k).find? fun x => x.1 == turn && x.2.1).map fun x => x.2.2

/-- Entries written from an index on. -/
def camWriteAt (m : SMap (Option CamEntry)) (i : Nat) : List CamEntry → SMap (Option CamEntry)
  | [] => m
  | e :: es => camWriteAt (SMap.set camNone i (some e) m) (i + 1) es

/-- Entries invalidated. -/
def camDrop (m : SMap (Option CamEntry)) (i n : Nat) : SMap (Option CamEntry) :=
  m.filter fun x => decide (x.1 < i) || decide (i + n ≤ x.1)

/-- A block move (R229): insertion shifts INDEX to END − 1 up by one, removal shifts INDEX + 1 to END down. -/
def camShift (k : CamCmd) (m : SMap (Option CamEntry)) : SMap (Option CamEntry) :=
  if k.op = 3 then
    m.map fun x => if k.index ≤ x.1 ∧ x.1 < k.end_ then (x.1 + 1, x.2) else x
  else
    (m.filter fun x => x.1 != k.index).map fun x => if k.index < x.1 ∧ x.1 ≤ k.end_ then (x.1 - 1, x.2) else x

/-- The whole change of an operation 0x01 to 0x04. -/
def camApply (c : TableCfg) (k : CamCmd) (value : Bytes) (m : SMap (Option CamEntry)) : SMap (Option CamEntry) :=
  if k.op = 1 then camWriteAt m k.index (camRecords c value)
  else if k.op = 2 then camDrop m k.index k.count
  else if k.op = 3 then camWriteAt (camShift k m) k.index (camRecords c value)
  else camShift k m

/-- The data of a READ (Table 09-5); what an invalid entry's words hold is a free value (log entry 146). -/
def camReadData (c : TableCfg) (m : SMap (Option CamEntry)) (free i n : Nat) : Bytes :=
  ((List.range n).map fun j =>
    match SMap.get camNone m (i + j) with
    | some e => [1] ++ List.replicate 7 0 ++ leBytes (c.width / 8) e.value ++ leBytes (c.width / 8) e.mask ++
        leBytes 8 e.data
    | none => List.replicate 8 0 ++ (List.range c.recLen).map fun b => Config.freeByte free (j * c.recLen + b)).foldl (fun a b => a ++ b) []

/-- The PARAM and data of a SEARCH. -/
def camSearchData (hits : List (Nat × CamEntry)) (all : Bool) : Bytes × Bytes :=
  let got := if all then hits.take 64 else hits.take 1
  let more := all && decide (64 < hits.length)
  (beBytes 4 got.length ++ [if more then 1 else 0, 0, 0, 0],
   (got.map fun h => leBytes 4 h.1 ++ [0, 0, 0, 0] ++ leBytes 8 h.2.data).foldl (fun a b => a ++ b) [])

end Sys2Proof.Machine
end

