-- ==== Sys2Proof/Machine/PatOps.lean ====
section
/-! DEFINITION. The pattern automata (chapter 10): the image format and its checks (R239, R244), and a lane's run over
one subject (R240 to R242). -/

namespace Sys2Proof.Machine

open Sys2Proof

/-! ## The image (Tables 10-1 to 10-3) -/

def imgClasses (b : Bytes) : Nat := leAt b 6 1
def imgCounters (b : Bytes) : Nat := leAt b 7 1
def imgStates (b : Bytes) : Nat := leAt b 8 4
def imgReports (b : Bytes) : Nat := leAt b 12 4
def imgField (b : Bytes) : Bool := leAt b 16 1 == 1
def imgSep (b : Bytes) : Byte := b.getD 17 0
def imgFilter (b : Bytes) : Nat := leAt b 18 1
def imgAll (b : Bytes) : Bool := leAt b 19 1 == 1
def imgLen (b : Bytes) : Nat := leAt b 20 4
def imgStart (b : Bytes) : Nat := leAt b 24 4
def imgTransOff : Nat := 320
def imgRptOff (b : Bytes) : Nat := 320 + imgStates b * imgClasses b * 4
def imgCtrOff (b : Bytes) : Nat := imgRptOff b + imgReports b * 8

/-- The length that R239 gives an image of this header. -/
def imgWant (b : Bytes) : Nat :=
  320 + imgStates b * imgClasses b * 4 + imgReports b * 8 + imgCounters b * 16

/-- A header field outside Table 10-1, or a length that breaks R239. -/
def imgHeaderBad (b : Bytes) : Bool :=
  decide (b.length < 320) || leAt b 0 4 != 0x564C4F47 || leAt b 4 2 != 1 ||
  decide (imgClasses b = 0) || decide (64 < imgClasses b) || decide (8 < imgCounters b) ||
  decide (imgStates b = 0) || decide (65536 < imgStates b) || decide (1048576 < imgReports b) ||
  decide (1 < leAt b 16 1) || decide (1 < leAt b 19 1) ||
  (if imgField b then decide (imgFilter b < 8) || decide (15 < imgFilter b)
   else leAt b 17 3 != 0) ||
  !allZero (sliceB b 28 4) || decide (imgLen b ≠ imgWant b) || decide (b.length ≠ imgLen b)

/-- The fields of a report entry. -/
def rptPattern (v : Nat) : Nat := bitsOf v 0 12
def rptAction (v : Nat) : Nat := bitsOf v 12 3
def rptLast (v : Nat) : Bool := bitOf v 15
def rptCounter (v : Nat) : Nat := bitsOf v 16 3
def rptOperand (v : Nat) : Nat := bitsOf v 24 24

/-- A report entry that R244 refuses. -/
def rptBad (b : Bytes) (v : Nat) : Bool :=
  let a := rptAction v
  bitsOf v 19 5 != 0 || bitsOf v 48 16 != 0 || decide (4 < a) ||
  (a != 0 && decide (imgCounters b ≤ rptCounter v)) || (a != 1 && a != 4 && rptOperand v != 0) ||
  (!imgField b && (a == 2 || a == 4))

/-- A counter program entry that R244 refuses. -/
def ctrBad (c : Bytes) : Bool :=
  decide (16777214 < leAt c 0 4) || decide (4095 < leAt c 4 2) || decide (1 < leAt c 6 1) || !allZero (c.drop 7)

/-- The highest report entry that ends a chain: a chain that begins above it runs past the table. -/
def lastEnd : Nat → Nat → List Nat → Nat
  | best, _, [] => best
  | best, i, v :: vs => lastEnd (if rptLast v then i else best) (i + 1) vs

/-- A load that completes with `PATTERN_INVALID` (R244); `tiles` says that the FILTER table has tiles. -/
def imgInvalid (b : Bytes) (tiles : Bool) : Bool :=
  imgHeaderBad b || sliceB b 32 32 != sha256 (b.drop 64) ||
  (let rpts := (chunks 8 (sliceB b (imgRptOff b) (imgReports b * 8))).map leNat
   let top := lastEnd 0 1 rpts
   ((chunks 4 (sliceB b imgTransOff (imgStates b * imgClasses b * 4))).any fun t =>
      decide (imgStates b ≤ leAt t 0 2) || decide (top < leAt t 2 2)) ||
   decide (top < imgStart b) || rpts.any (rptBad b) ||
   (chunks 16 (b.drop (imgCtrOff b))).any ctrBad) ||
  (imgField b && !tiles)

/-! ## Running a subject -/

/-- A lane within a subject: state, the eight counters, and the reports so far, newest first. -/
structure Lane where
  state : Nat
  ctrs  : List Nat
  rpts  : List (Nat × Nat)
  deriving DecidableEq, Repr

/-- Counter `k` of a lane. -/
def Lane.ctr (l : Lane) (k : Nat) : Nat := l.ctrs.getD k 0

/-- Raise a counter; crossing LIMIT emits CPATTERN at the offset (R241). -/
def Lane.raise (l : Lane) (b : Bytes) (k amount off : Nat) : Lane :=
  let lim := leAt b (imgCtrOff b + 16 * k) 3
  let new := min 16777215 (l.ctr k + amount)
  let l' := { l with ctrs := l.ctrs.set k new }
  if l.ctr k ≤ lim ∧ lim < new then { l' with rpts := (off, leAt b (imgCtrOff b + 16 * k + 4) 2) :: l'.rpts } else l'

/-- One entry of a chain (R241). -/
def Lane.act (l : Lane) (b : Bytes) (v value off : Nat) : Lane :=
  let k := rptCounter v
  match rptAction v with
  | 0 => { l with rpts := (off, rptPattern v) :: l.rpts }
  | 1 => l.raise b k (rptOperand v) off
  | 2 => l.raise b k value off
  | 3 => { l with ctrs := l.ctrs.set k 0 }
  | 4 => if rptOperand v ≤ value then { l with ctrs := l.ctrs.set k 0 } else l
  | _ => l

/-- A report chain from entry `i` (from 1) on. -/
def Lane.chain (b : Bytes) (value off : Nat) : Nat → Nat → Lane → Lane
  | 0, _, l => l
  | fuel + 1, i, l =>
    if i = 0 ∨ imgReports b < i then l
    else
      let v := leAt b (imgRptOff b + 8 * (i - 1)) 8
      let l := l.act b v value off
      if rptLast v then l else Lane.chain b value off fuel (i + 1) l

/-- The transition entry of a state and class; for a class at or above CLASSES, which the spec gives no row, it is a
free value (log entry 42). -/
def transition (b : Bytes) (free off st cls : Nat) : Nat × Nat :=
  if cls < imgClasses b then
    let o := imgTransOff + 4 * (st * imgClasses b + cls)
    (leAt b o 2, leAt b (o + 2) 2)
  else
    let w := (Config.freeWord free off).toNat
    (w % 65536 % imgStates b, w / 65536 % (imgReports b + 1))

/-- One symbol. -/
def Lane.step (b : Bytes) (free off cls value : Nat) (l : Lane) : Lane :=
  let t := transition b free off l.state cls
  Lane.chain b value off (imgReports b) t.2 { l with state := t.1 }

/-- Byte mode: one symbol a byte, its offset just past the byte. -/
def runBytes (b : Bytes) (free : Nat) : Nat → Bytes → Lane → Lane
  | _, [], l => l
  | off, x :: xs, l => runBytes b free (off + 1) xs (l.step b free (off + 1) (leAt b (64 + x.toNat) 1) 0)

/-- The fields of a subject: number, bytes, and the offset past the end (R240). -/
def splitFields (sep : Byte) : Nat → Nat → Bytes → Bytes → List (Nat × Bytes × Nat)
  | n, off, acc, [] => [(n, acc.reverse, off)]
  | n, off, acc, x :: xs =>
    if x = sep ∧ n < 63 then (n, acc.reverse, off) :: splitFields sep (n + 1) (off + 1) [] xs
    else splitFields sep n (off + 1) (x :: acc) xs

def isDigit (b : Byte) : Bool := decide (0x30 ≤ b.toNat) && decide (b.toNat ≤ 0x39)

/-- The last run of digits of a field, read backwards: the last 7 at most. -/
def lastDigits (rev : Bytes) : Bytes := (((rev.dropWhile fun b => !isDigit b).takeWhile isDigit).take 7).reverse

/-- The value of a field (R240). -/
def fieldValue (f : Bytes) : Nat :=
  min 16777215 ((lastDigits f.reverse).foldl (fun n b => 10 * n + (b.toNat - 0x30)) 0)

/-- The key of a field (Table 10-4). -/
def fieldKey (c : TableCfg) (n : Nat) (f : Bytes) : Nat :=
  let w := c.width
  n * 2 ^ (w - 8) + min 255 f.length * 2 ^ (w - 16) + keyBytes f ((w - 16) / 8)

/-- The symbols of a field: class and value. -/
def fieldSyms (b : Bytes) (c : TableCfg) (m : SMap (Option CamEntry)) (n : Nat) (f : Bytes) : List (Nat × Nat) :=
  let hits := camFind c m (fieldKey c n f)
  let hits := if imgAll b then hits.take 64 else hits.take 1
  if hits.isEmpty then [(0, 0)]
  else hits.map fun h =>
    let sym := bitsOf h.2.data 0 8
    if imgClasses b ≤ sym then (0, 0) else (sym, if bitOf h.2.data 8 then fieldValue f else 0)

/-- Field mode. -/
def runFields (b : Bytes) (free : Nat) (c : TableCfg) (m : SMap (Option CamEntry)) :
    List (Nat × Bytes × Nat) → Lane → Lane
  | [], l => l
  | (n, f, off) :: fs, l =>
    runFields b free c m fs ((fieldSyms b c m n f).foldl (fun l x => l.step b free off x.1 x.2) l)

/-- The order of R242. -/
def rptLe (a b : Nat × Nat) : Bool := decide (a.1 < b.1) || (a.1 == b.1 && decide (a.2 ≤ b.2))

/-- What one subject gave: its reports in the order of R242, each once per offset, and the counters after it. -/
structure SubjectOut where
  rpts : List (Nat × Nat)
  ctrs : List Nat
  deriving DecidableEq, Repr

/-- Run an image over one subject with the stream-scope counters given (R241). In the START_RPT chain, where there is no
current symbol, ADD_VALUE and RESET_IF_GE take the value 0 (DESIGN CHOICE, log entry 162). -/
def runImage (b : Bytes) (free : Nat) (c : TableCfg) (m : SMap (Option CamEntry)) (ctrs : List Nat) (subject : Bytes) :
    SubjectOut :=
  let start := (List.range 8).map fun k =>
    if k < imgCounters b ∧ leAt b (imgCtrOff b + 16 * k + 6) 1 = 1 then ctrs.getD k 0 else 0
  let l := Lane.chain b 0 0 (imgReports b) (imgStart b) ⟨0, start, []⟩
  let l := if imgField b then runFields b free c m (splitFields (imgSep b) 0 0 [] subject) l
    else runBytes b free 0 subject l
  ⟨(sortBy rptLe l.rpts).eraseDups, l.ctrs⟩

/-- Some counter of an image is of scope stream. -/
def imgStreamScope (b : Bytes) : Bool :=
  (List.range (imgCounters b)).any fun k => leAt b (imgCtrOff b + 16 * k + 6) 1 == 1

/-- Run a subject on the lowest-numbered lane: SUBJECTS, the lane's bytes and the filter searches are counted. -/
def State.runSubject (s : State) (b : Bytes) (ctrs : List Nat) (subject : Bytes) : SubjectOut × State :=
  let c := s.tableCfg (imgFilter b)
  let o := runImage b s.free c (s.table (imgFilter b)) ctrs subject
  let s := (s.tookFree.count Reg.PAT.SUBJECTS 1).count64 Reg.LANE_BYTES_LO.BYTES_LO Reg.LANE_BYTES_HI.BYTES_HI 0
    subject.length
  (o, if imgField b then s.noteSearch c (splitFields (imgSep b) 0 0 [] subject).length else s)

/-- Store units of an image (R237) and those in use. -/
def Image.units (i : Image) : Nat := (i.bytes.length + 4095) / 4096

/-- Something uses a version of an image (R245, R253): it is current, a watch is bound to it, or a SCAN or WATCH_ARM that
names it is admitted and has not ended. -/
def State.imageUsed (s : State) (i : Image) : Bool :=
  i.current || s.pat.watches.any (fun w => w.imageId == i.id && w.version == i.version) ||
    s.cmd.tags.any (fun e => e.state != .posted && e.version == i.version &&
      ((e.msg.opcode == 0x07 && i.id == beAt e.msg.param 4 2) || (e.msg.opcode == 0x10 && i.id == beAt e.msg.param 2 2)))

/-- Store units in use: those of versions that something uses. -/
def State.storeUsed (s : State) : Nat := (s.pat.images.filter s.imageUsed).foldl (fun n i => n + i.units) 0

/-- The current version of an image ID. -/
def State.image? (s : State) (id : Nat) : Option Image := s.pat.images.find? fun i => i.id == id && i.current

/-- A version of an image ID. -/
def State.imageVer? (s : State) (id ver : Nat) : Option Image :=
  s.pat.images.find? fun i => i.id == id && i.version == ver

/-- Versions that nothing uses any more are freed (R245). -/
def State.freeImages (s : State) : State :=
  let kept := s.pat.images.filter s.imageUsed
  { s with pat := { s.pat with images := kept } }.forgetSys fun o => match o with
    | .image i v => !(kept.any fun x => x.id == i && x.version == v)
    | _ => false

end Sys2Proof.Machine
end

