-- ==== Sys2Proof/Machine/Engine.lean ====
section
/-! DEFINITION. The command engine (chapter 07): tag-table entries and their states, what waits for what (R178 to
R182), commit points, mirrored writes (R427, R428) and the posting of completions (R183, R184). -/

namespace Sys2Proof.Machine

open Sys2Proof

/-! ## Tag-table entries -/

def State.entry? (s : State) (t : TagId) : Option TagEntry := s.cmd.tags.find? fun e => e.id == t

/-- An entry replaced, or added. -/
def State.setEntry (s : State) (e : TagEntry) : State :=
  { s with cmd := { s.cmd with tags := putWhere (fun x => x.id == e.id) e s.cmd.tags } }

/-- The session ID that a stamped write carries in its pair (R179), kept when its session has ended; a forwarding context
has none. -/
def tagSess (t : TagId) : Nat :=
  match t.ctx with
  | .session id => id
  | .orphan k => k % 4096
  | .forward _ => 0

/-- An `INTERNAL_FAULT`, in the status or the trailer, sets INTERNAL and makes the note INTERNAL_AT (R460, Table 19-3). -/
def State.noteInternal (s : State) (e : TagEntry) (c : Completion) : State :=
  let at_ := match c.trailer with
    | some (st, _) => st
    | none => c.status
  if at_ = stInternal then
    (s.report Ev.HLT.INTERNAL stInternal).note 6 0x84 stInternal
      (e.msg.opcode + tagSess e.id * 2 ^ 8 + e.id.tag * 2 ^ 32 + e.msg.nsid * 2 ^ 48)
  else s

/-- A live entry leaves the tag table, under whichever name it stands. -/
def State.dropEntry (s : State) (e : TagEntry) : State :=
  { s with cmd := { s.cmd with tags := dropWhere (fun x => x.id == e.id || x.order == e.order) s.cmd.tags } }

/-- An entry is posted with its result, which goes to its session or forwarding source. An entry of a session stays
live until its response is acknowledged (R165); any other, and one whose session has just ended, is freed. -/
def State.post (s : State) (e : TagEntry) (c : Completion) : State :=
  let s := (s.noteInternal e c).dropEarly fun t => t == e.id
  match e.id.ctx with
  | .session id =>
    if (s.session? id).isSome then (s.setEntry { e with state := .posted, result := some c }).respond e.id c true
    else (s.dropEntry e).respond e.id c true
  | _ => (s.dropEntry e).respond e.id c true

/-- An entry is posted with a status and PARAM, its own ASN and no data. -/
def State.finish (s : State) (e : TagEntry) (status : Nat) (param : Bytes) : State :=
  s.post e (doneWith status e.asn param)

/-- An entry is posted with data. -/
def State.finishData (s : State) (e : TagEntry) (status : Nat) (param data : Bytes) : State :=
  s.post e (doneData status e.asn param data)

/-! ## Flags of a command (Table 06-7) -/

def CmdMsg.ordered (m : CmdMsg) : Bool := m.flags.getLsbD 0
def CmdMsg.fua (m : CmdMsg) : Bool := m.flags.getLsbD 1
def CmdMsg.createOnly (m : CmdMsg) : Bool := m.flags.getLsbD 2
def CmdMsg.supersede (m : CmdMsg) : Bool := m.flags.getLsbD 3
def CmdMsg.countOnly (m : CmdMsg) : Bool := m.flags.getLsbD 4
def CmdMsg.more (m : CmdMsg) : Bool := m.flags.getLsbD 5

/-! ## Ranges (R172) and batches (R173) -/

/-- A range of keys. -/
structure KeyRange where
  lo   : Bytes
  excl : Bool
  hi   : Bytes
  deriving DecidableEq, Repr

/-- The range operand: bounds, the start exclusive with MORE. -/
def CmdMsg.range (m : CmdMsg) : KeyRange :=
  let a := leAt m.value 0 2
  let b := leAt m.value 2 2
  ⟨sliceB m.value 4 a, m.more, sliceB m.value (4 + a) b⟩

def KeyRange.has (r : KeyRange) (k : Bytes) : Bool :=
  (r.lo.isEmpty || (if r.excl then bytesLt r.lo k else bytesLe r.lo k)) && (r.hi.isEmpty || bytesLt k r.hi)

/-- One entry of a BATCH. -/
structure BatchEntry where
  op     : Nat
  flags  : Nat
  key    : Bytes
  operand : Bytes
  expect : Nat
  deriving DecidableEq, Repr

/-- The entries of a BATCH operand, as many as PARAM says. -/
def batchEntries : Nat → Bytes → List BatchEntry
  | 0, _ => []
  | n + 1, b =>
    let k := leAt b 2 2
    let v := leAt b 4 4
    ⟨leAt b 0 1, leAt b 1 1, sliceB b 12 k, sliceB b (12 + k) v, leAt b 8 4⟩ :: batchEntries n (b.drop (12 + k + v))

/-- The entries of a BATCH command. -/
def CmdMsg.batch (m : CmdMsg) : List BatchEntry := batchEntries (beAt m.param 0 2) m.value

/-! ## Conflicts (R178) -/

/-- The keys a command names. -/
inductive Span where
  | nothing
  | keys (l : List Bytes)
  | range (r : KeyRange)
  | all
  deriving DecidableEq, Repr

/-- The upload a PART_PUT or PART_COMMIT names. -/
def State.upload? (s : State) (id : Nat) : Option Upload := s.cmd.uploads.find? fun u => u.id == id

/-- What a command names, and whether it writes. -/
def State.span (s : State) (m : CmdMsg) : Span × Bool :=
  match m.opcode with
  | 0x01 => (.keys [m.key], false)
  | 0x05 => (.keys [m.key], false)
  | 0x02 => (.keys [m.key], true)
  | 0x03 => (.keys [m.key], true)
  | 0x04 => (.keys [m.key], true)
  | 0x08 => (.keys [m.key], true)
  | 0x06 => (.range m.range, false)
  | 0x07 => (.range m.range, false)
  | 0x09 => (.keys (m.batch.map fun x => x.key), true)
  | 0x0E => match s.upload? (beAt m.param 0 8) with
    | some u => (.keys [u.key], true)
    | none => (.nothing, true)
  | 0x12 => if m.key.isEmpty then (.all, true) else (.keys [m.key], true)
  | _ => (.nothing, false)

/-- Two spans share a key. -/
def Span.meets : Span → Span → Bool
  | .nothing, _ => false
  | _, .nothing => false
  | .all, _ => true
  | _, .all => true
  | .keys a, .keys b => a.any fun k => b.contains k
  | .keys a, .range r => a.any r.has
  | .range r, .keys b => b.any r.has
  | .range _, .range _ => false

/-- Two commands whose order R174, R253, R254, R370 or R437 gives by ASN though neither is in the list of R178: a part and
a part or commit of one upload, a WATCH command and an APPEND (log entry 45), key commands, and update commands but for
two FW_CHUNKs and FW_STATUS. -/
def followsAsn (a b : CmdMsg) : Bool :=
  let part := fun (m : CmdMsg) => m.opcode == 0x0D || m.opcode == 0x0E
  let watch := fun (m : CmdMsg) => m.opcode == 0x10 || m.opcode == 0x11
  let keys := fun (m : CmdMsg) => m.opcode == 0x50 || m.opcode == 0x51
  let table := fun (m : CmdMsg) => m.opcode == 0x59
  let upd := fun (m : CmdMsg) => decide (0x60 ≤ m.opcode) && decide (m.opcode ≤ 0x66) && m.opcode != 0x62
  (part a && part b && beAt a.param 0 8 == beAt b.param 0 8) || (watch a && (watch b || b.opcode == 0x08)) ||
    (watch b && a.opcode == 0x08) || (keys a && keys b) || (a.opcode == 0x58 && b.opcode == 0x58) ||
    (table a && table b && beAt a.param 1 1 == beAt b.param 1 1) ||
    (upd a && upd b && !(a.opcode == 0x61 && b.opcode == 0x61))

/-- Two commands that always follow one another in ASN order: those of `followsAsn`, and NS_CREATE and NS_DELETE, which
conflict with every command of their namespace (R175, R176). -/
def inTurn (a b : CmdMsg) : Bool :=
  let life := fun (m : CmdMsg) => m.opcode == 0x40 || m.opcode == 0x41
  life a || life b || followsAsn a b

/-- One of two commands writes, and they share a key (R178). -/
def State.share (s : State) (a b : CmdMsg) : Bool :=
  let x := s.span a
  let y := s.span b
  (x.2 || y.2) && x.1.meets y.1

/-- Two commands conflict (R178). -/
def State.conflict (s : State) (a b : CmdMsg) : Bool := a.nsid == b.nsid && (inTurn a b || s.share a b)

/-! ## Waiting (R178, R181, R182) -/

/-- A plain PUT, or a BATCH of plain PUT entries: in a STAMPED namespace it waits for nothing (R181). -/
def CmdMsg.plainPut (m : CmdMsg) : Bool :=
  ((m.opcode == 0x02 || m.opcode == 0x0E) && !m.createOnly) ||
    (m.opcode == 0x09 && m.batch.all fun x => x.op == 0x02 && x.flags % 2 == 0)

/-- A state-dependent write (R181). -/
def CmdMsg.dependent (m : CmdMsg) : Bool :=
  m.opcode == 0x03 || m.opcode == 0x04 || ((m.opcode == 0x02 || m.opcode == 0x0E) && m.createOnly) ||
    (m.opcode == 0x09 && !m.plainPut)

/-- A read (R181). -/
def CmdMsg.reads (m : CmdMsg) : Bool := m.opcode == 1 || m.opcode == 5 || m.opcode == 6 || m.opcode == 7

/-- The command is in a STAMPED namespace. -/
def State.stampedCmd (s : State) (m : CmdMsg) : Bool :=
  match s.ns? m.nsid with
  | some n => n.stamped
  | none => false

/-- The stamp conditions of R181 hold. -/
def State.stampReady (s : State) (m : CmdMsg) : Bool :=
  match s.ns? m.nsid with
  | none => true
  | some n =>
    if !n.stamped || m.stamp = 0 then true
    else if m.reads then decide (m.stamp ≤ n.horizon)
    else if m.dependent then decide (m.stamp < n.horizon)
    else true

/-- A command has not passed its commit point or ended. -/
def TagEntry.before (e : TagEntry) : Bool := e.state == .admitted || e.state == .executing

/-- No command of lower ASN that conflicts is before its commit point (R178). -/
def State.asnClear (s : State) (e : TagEntry) : Bool :=
  !(s.cmd.tags.any fun f => f.before && decide (f.asn < e.asn) && s.conflict e.msg f.msg)

/-- An ORDERED command finds every earlier command of its session POSTED (R182). -/
def State.orderClear (s : State) (e : TagEntry) : Bool :=
  !e.msg.ordered ||
    !(s.cmd.tags.any fun f => f.id.ctx == e.id.ctx && decide (f.order < e.order) && f.state != .posted)

/-- Nothing that a stamped command of a STAMPED namespace waits for is outstanding (R181): a read waits for every write
below its stamp, a state-dependent write for every write of lower pair, whichever ASN they have, and a write for a read
of STAMP 0 and lower ASN that could start (log entry 144). -/
def State.stampClear (s : State) (e : TagEntry) : Bool :=
  !(s.cmd.tags.any fun f => f.before && e.msg.nsid == f.msg.nsid &&
    ((inTurn e.msg f.msg && decide (f.asn < e.asn)) ||
      (s.share e.msg f.msg &&
        (if f.msg.stamp = 0 then decide (f.asn < e.asn) && s.asnClear f && s.orderClear f
         else if e.msg.reads then decide (f.msg.stamp < e.msg.stamp)
         else e.msg.dependent && pairLt (f.msg.stamp, tagSess f.id) (e.msg.stamp, tagSess e.id)))))

/-- A register access or a command that commits the configuration record: REG_READ, REG_WRITE, CONFIG_WRITE,
CONFIG_FACTORY. -/
def CmdMsg.access (m : CmdMsg) : Bool := decide (0x48 ≤ m.opcode) && decide (m.opcode ≤ 0x4B)

/-- SKP accesses reach the arbiter, and class C writes join their commits, in ASN order (R10, R102, R126): none of lower ASN
is still to reach it. One that waits for its commit has reached it. -/
def State.arbiterClear (s : State) (e : TagEntry) : Bool :=
  !e.msg.access || !(s.cmd.tags.any fun f => f.state == .admitted && decide (f.asn < e.asn) && f.msg.access)

/-- Ordering lets an entry start (R126, R178 to R182). -/
def State.canStart (s : State) (e : TagEntry) : Bool :=
  e.before && (s.dev.phase == .service || s.dev.phase == .stalemate) && s.arbiterClear e && s.stampReady e.msg &&
  (if s.stampedCmd e.msg ∧ e.msg.stamp ≠ 0 then s.stampClear e else s.asnClear e) && s.orderClear e &&
  (e.msg.nsid == 0 || !s.gondolaFull)

/-- Run an admitted command: where its entry names the opcode and ordering lets it start, it executes; else the state
is unchanged. -/
def State.runCmd (s : State) (t : TagId) (opcode : Nat) (body : TagEntry → State → State) : State :=
  match s.entry? t with
  | none => s
  | some e =>
    if e.msg.opcode = opcode ∧ s.canStart e then
      let e := { e with state := .executing }
      body e (s.setEntry e)
    else s

/-- The namespace that an entry's command names, 0 where there is no such entry. -/
def State.entryNs (s : State) (t : TagId) : Nat :=
  match s.entry? t with
  | some e => e.msg.nsid
  | none => 0

/-- A command that needs the flash tier and finds it unsupported completes with `MEDIA_ERROR` (R258). -/
def State.noTier (s : State) : Bool := s.flash.unsupported

/-- Run a command that names a namespace, which needs the flash tier; in namespace 0 the data opcodes belong to the host crypto service (R354). -/
def State.runNs (s : State) (t : TagId) (opcode : Nat) (body : TagEntry → Ns → State → State) : State :=
  if s.entryNs t = 0 then s
  else
    s.runCmd t opcode fun e s =>
      if s.noTier then s.finish e stMedia []
      else
        match s.ns? e.msg.nsid with
        | none => s.finish e stNsUnknown []
        | some n => body e n s

/-! ## Acknowledgement policy (R183) -/

/-- A write that is acknowledged under MEDIA whatever R87 allows. -/
def mediaCmd (n : Ns) (m : CmdMsg) : Bool :=
  n.media || m.fua ||
    ((m.opcode == 0x02 || m.opcode == 0x04 || m.opcode == 0x0D) && decide (4194304 < m.value.length))

/-! ## Fabric requests and mirrors (R412, R427, R428) -/

/-- The mirror set a write goes to: the classifier's, else the binding (R223, R425). -/
def State.mirrorSetOf (s : State) (n : Ns) (named : Nat) : Option (Bool × List Nat) :=
  let find := fun (k : Nat) => (s.fab.sets.find? fun x => x.1 == k).map fun x => x.2
  if !s.fabric || named = 0xFFFF then none
  else
    match if named = 0 then none else find named with
    | some x => some x
    | none => n.mirrorSet.bind find

/-- A member's record for a namespace. -/
def State.member? (s : State) (nsid addr : Nat) : Option MirrorMember :=
  s.fab.members.find? fun m => m.nsid == nsid && m.addr == addr

def State.setMember (s : State) (m : MirrorMember) : State :=
  { s with fab := { s.fab with members := putWhere (fun x => x.nsid == m.nsid && x.addr == m.addr) m s.fab.members } }

/-- The member is IN_SYNC, or the set has not yet sent it anything. -/
def State.inSync (s : State) (nsid addr : Nat) : Bool :=
  match s.member? nsid addr with
  | some m => m.state == .inSync
  | none => true

/-- A STRICT set of which no member is IN_SYNC (R428). -/
def State.mirrorBlocked (s : State) (n : Ns) (named : Nat) : Bool :=
  match s.mirrorSetOf n named with
  | some (strict, addrs) => strict && !(addrs.any fun a => s.inSync n.nsid a)
  | none => false

/-- A namespace's descriptor (Table 07-6). -/
def Ns.descriptor (n : Ns) : Bytes :=
  let kind := match n.kind with
    | .mutable_ => 1
    | .sealed => 2
    | .distribution => 3
  let param := match n.kind with
    | .mutable_ => List.replicate 16 0
    | .sealed => leBytes 2 n.sealSlot ++ leBytes 1 n.rclass ++ List.replicate 13 0
    | .distribution => leBytes 1 1 ++ List.replicate 15 0
  leBytes 1 kind ++ leBytes 1 (if n.stamped then 2 else 1) ++ leBytes 1 (if n.media then 2 else 1) ++
    leBytes 1 n.tier ++ [0, 0, 0, 0] ++ leBytes 8 n.quota ++ param ++ List.replicate 32 0

/-- One member is sent a write: the descriptor first where it has received nothing (R426), then the MIRROR_WRITE. -/
def State.mirrorOne (s : State) (n : Ns) (e : TagEntry) (media : Bool) (body : MirrorBody) (addr : Nat) : State :=
  let s := match s.member? n.nsid addr with
    | some _ => s
    | none => (s.fabRequest addr 0x01 (.copyCreate n.nsid n.descriptor) none n.nsid 0).setMember
        ⟨n.nsid, addr, .inSync, 0, false⟩
  match s.member? n.nsid addr with
  | none => s
  | some m =>
    if m.state = .degraded then s
    else
      let mm : MirrorMeta := ⟨n.nsid, e.asn, e.msg.stamp, tagSess e.id, media, m.lastAsn⟩
      (s.fabRequest addr 0x01 (.mirrorWrite mm body) none n.nsid e.asn).setMember { m with lastAsn := e.asn }

/-- The effects that one member receives of a write, together (R427). -/
def joinBodies : MirrorBody → MirrorBody → MirrorBody
  | .keys a, .keys b => .keys (a ++ b)
  | a, _ => a

/-- What each member is sent of a write whose parts go to the mirror sets named with them (R223, R427). -/
def State.mirrorPlan (s : State) (n : Ns) (parts : List (Nat × MirrorBody)) : List (Nat × MirrorBody) :=
  parts.foldl (fun plan p =>
    match s.mirrorSetOf n p.1 with
    | none => plan
    | some (_, addrs) => addrs.foldl (fun plan a =>
        match plan.find? fun x => x.1 == a with
        | some (_, b) => updWhere (fun x => x.1 == a) (fun _ => (a, joinBodies b p.2)) plan
        | none => plan ++ [(a, p.2)]) plan) []

/-- A member that is not DEGRADED yet becomes so. -/
def State.degradeMember (s : State) (nsid addr : Nat) : State :=
  match s.member? nsid addr with
  | some m =>
    if m.state = .degraded then s
    else (s.setMember { m with state := .degraded }).raise Ev.FAB.MIRROR_DEGRADED
  | none => s

/-- A member that no gateway of this sled's map leads to: the message is unreachable at once, and the member DEGRADED
(R416, R428). -/
def State.cutMember (s : State) (n : Ns) (addr : Nat) : State :=
  if s.noRoute addr ∧ s.inSync n.nsid addr then
    let s := s.count Reg.FAB.UNREACHABLE 1
    if (s.member? n.nsid addr).isSome then s.degradeMember n.nsid addr
    else (s.setMember ⟨n.nsid, addr, .degraded, 0, false⟩).raise Ev.FAB.MIRROR_DEGRADED
  else s

/-- The write goes to every member (R427): the state, the members awaited, and whether one is not IN_SYNC. -/
def State.mirrorOut (s : State) (n : Ns) (e : TagEntry) (media : Bool) (parts : List (Nat × MirrorBody)) :
    State × List Nat × Bool :=
  let plan := s.mirrorPlan n parts
  let s := plan.foldl (fun (s : State) p => s.cutMember n p.1) s
  let wait := (plan.map fun p => p.1).filter fun a => s.inSync n.nsid a
  (plan.foldl (fun s p => s.mirrorOne n e media p.2 p.1) s, wait, decide (wait.length < plan.length))

/-! ## Commit points and posting -/

/-- A write passes its commit point: COMMITTED with its result fixed, its mirrors awaited. -/
def State.commitEntry (s : State) (e : TagEntry) (c : Completion) (media : Bool) (wait : List Nat) (degraded : Bool) :
    State :=
  s.setEntry { e with state := .committed, result := some c, media := media, mirrors := wait, degraded := degraded }

/-- A write that has its effect in the state passes its commit point and goes to its mirrors, part by part. -/
def State.commitWrite (s : State) (n : Ns) (e : TagEntry) (c : Completion) (parts : List (Nat × MirrorBody)) : State :=
  let media := mediaCmd n e.msg
  let p := s.mirrorOut n e (media || !s.bufferedOk) parts
  p.1.commitEntry e c media p.2.1 p.2.2

/-- A write that changes nothing stored: posted at once, but where it has mirrors only as R184 says (log entry 159). -/
def State.commitNone (s : State) (n : Ns) (e : TagEntry) (c : Completion) (named : List Nat) : State :=
  if (s.mirrorPlan n (named.map fun k => (k, .keys []))).isEmpty then s.post e c
  else s.commitWrite n e c (named.map fun k => (k, .keys []))

/-- The mirror set that an entry's classification names: the first search's, 0 where none was made. -/
def TagEntry.mirror (e : TagEntry) : Nat :=
  match e.classed with
  | c :: _ => c.mirror
  | [] => 0

/-- The tier of an entry's classification, 0 for the descriptor's. -/
def TagEntry.tier (e : TagEntry) : Nat :=
  match e.classed with
  | c :: _ => c.tier
  | [] => 0

/-- A mirror set that bars a write (R428): of those that its searches named, or the binding's where it made none. -/
def State.writeBlocked (s : State) (n : Ns) (cs : List Classified) : Bool :=
  if cs.isEmpty then s.mirrorBlocked n 0 else cs.any fun c => s.mirrorBlocked n c.mirror

/-- A write starts: it makes its searches of the classifier, each once (R223), and completes with `MIRROR_FAILED` where a
STRICT set has no member IN_SYNC (R428). -/
def State.startWrite (s : State) (n : Ns) (e : TagEntry) (search : State → List Classified × State)
    (go : TagEntry → State → State) : State :=
  if !e.classed.isEmpty then go e s
  else
    match search s with
    | (cs, s) =>
      let e := { e with classed := cs }
      if s.writeBlocked n cs then s.finish e stMirrorFailed []
      else go e (s.setEntry e)

/-- The completion with which a committed write is posted: `OK_DEGRADED_MIRROR` stands for `OK` and `OK_ABSENT` where a
member was not IN_SYNC (R184, R428). -/
def TagEntry.posting (e : TagEntry) : Completion :=
  let c := e.result.getD (doneWith stOK e.asn [])
  if e.degraded && (c.status == stOK || c.status == stAbsent) then { c with status := stDegraded } else c

/-- The commit point of operations 0x01 to 0x04 (R235): the whole change goes to the flash system area before any word
changes; a block move begins at its first index (R229). -/
def camCommit (e : TagEntry) (s : State) : State :=
  let k := camCmd e.msg.param
  let t := s.saveTable k.table (camApply (s.tableCfg k.table) k e.msg.value (s.table k.table))
  let at_ := if k.op = 3 then some (k.table, k.end_) else if k.op = 4 then some (k.table, k.index) else none
  { t with cam := { t.cam with moving := some (e.id, at_) } }.commitEntry e (doneWith stOK e.asn []) false [] false

/-- A committed `CAM_WRITE` has its change applied in full (R235). -/
def State.camEnd (s : State) (e : TagEntry) : State :=
  match s.cam.moving with
  | none => s
  | some (t, _) =>
    if t = e.id then
      let k := camCmd e.msg.param
      let s := s.setTable k.table (camApply (s.tableCfg k.table) k e.msg.value (s.table k.table))
      { s with cam := { s.cam with moving := none } }
    else s

/-- A committed entry whose acknowledgement condition holds is posted (R183, R184); under MEDIA the protected write
buffer is written to media first. -/
def State.acknowledge (s : State) (e : TagEntry) : State :=
  if e.state = .committed ∧ e.mirrors = [] then
    let s := s.camEnd e
    if e.media || !s.bufferedOk then
      let s := s.drain
      if s.drained then s.post e e.posting else s
    else s.post e e.posting
  else s

/-! ## Writes (R87, R175, R204, R272, R284) -/

/-- Usage of a namespace by ID (R483). -/
def State.usageOf (s : State) (nsid : Nat) : Nat :=
  match s.ns? nsid with
  | some n => s.usage n
  | none => 0

/-- The protected write buffer holds 32 MiB (Table 01-4): the bytes of the extents and leaf pages that it holds. -/
def State.bufferBytes (s : State) : Nat :=
  (s.kv.extents.filter fun e => e.inUse && e.buffered).foldl (fun n e => n + e.stored)
    (16384 * (s.kv.leaves.filter fun l => l.buffered).length)

/-- What a write leaves in the buffer drains where it would exceed it. -/
def State.bufferFit (s : State) : State := if s.bufferBytes ≤ 33554432 then s else s.drain

/-- A write tried: its own failure, `NAMESPACE_FULL`, `DEVICE_FULL`, then `WRITE_PROTECTED_WORN`, which R284 tests
last; where it fails nothing changes. `space` says that the write may fail for lack of space (R175). -/
def State.tryWrite (s : State) (n : Ns) (space : Bool) (f : State → Except Nat Unit × State) :
    Except Nat Unit × State :=
  let r := if s.noCipher then (.error stInternal, s)
    else f { s.backUp with flash := { s.flash with readOnly := false } }
  match r.1 with
  | .error e => (.error e, s)
  | .ok _ =>
    let after := r.2.usageOf n.nsid
    if space ∧ n.quota ≠ 0 ∧ n.quota < after ∧ s.usageOf n.nsid < after then (.error stNsFull, s)
    else if space ∧ !s.fits r.2 then (.error stDevFull, s)
    else if s.flash.readOnly then (.error stWorn, s)
    else (.ok (), (s.journal r.2 true).bufferFit)

/-! ## PRIOR and DELETED records (R202) -/

/-- The records of a key that stay: `gone t` says that a record superseded at stamp `t` may be dropped. -/
def keepRecs (gone : Nat → Bool) : List Rec → List Rec
  | [] => []
  | [r] => if r.deleted && gone r.stamp then [] else [r]
  | r :: p :: rest =>
    let tail := keepRecs gone (p :: rest)
    let tail := if gone r.stamp then tail.filter fun x => x != p else tail
    if r.deleted && gone r.stamp then tail else r :: tail

/-- A record superseded at stamp `t` can be selected by no read, and by no state-dependent write that waits (log entry 144). -/
def State.priorGone (s : State) (n : Ns) (t : Nat) : Bool :=
  let reads := s.cmd.tags.filter fun e =>
    e.msg.nsid == n.nsid && (e.msg.reads || e.msg.dependent) && e.msg.stamp != 0 && e.before
  decide (t < n.horizon) && reads.all fun e => decide (t < e.msg.stamp)

/-- The keys of a STAMPED namespace that hold a record to be dropped. -/
def State.staleKeys (s : State) (n : Ns) : List Bytes :=
  if n.stamped then
    (n.keys.filter fun k => decide (keepRecs (s.priorGone n) k.recs ≠ k.recs)).map fun k => k.key
  else []

/-- The device drops the records of a STAMPED namespace that nothing can select any more. -/
def State.dropPriors (s : State) (nsid : Nat) : State :=
  match s.ns? nsid with
  | none => s
  | some n =>
    if (s.staleKeys n).isEmpty ∨ s.flash.readOnly then s
    else
      let keep := keepRecs (s.priorGone n)
      let keys := n.keys.map fun k => { k with recs := keep k.recs }
      let lost := n.keys.foldl (fun l k => l ++ ((k.recs.filter fun r => !((keep k.recs).contains r)).map fun r => r.loc)) []
      match touchLeaves nsid (s.staleKeys n) (s.setNs { n with keys := keys.filter fun k => !k.recs.isEmpty }) with
      | (.error _, _) => s
      | (.ok _, t) => lost.foldl State.freeLoc t

/-- The same as a commit of its own, where a command has ended or H has risen. -/
def State.sweepPriors (s : State) (nsid : Nat) : State :=
  match s.ns? nsid with
  | none => s
  | some n =>
    if (s.staleKeys n).isEmpty ∨ s.flash.readOnly then s else (s.journal (s.backUp.dropPriors nsid) true).bufferFit

end Sys2Proof.Machine
end

