-- ==== Sys2Proof/Machine/KvOps.lean ====
section
/-! DEFINITION. What the data commands share (chapters 07, 08, 10, 16): storing a value and making a record current,
reading under a stamp, PRIOR records (R202), listing, scanning, sealed streams with their chains and receipts, and
watches. -/

namespace Sys2Proof.Machine

open Sys2Proof

/-! ## Writing one key -/

/-- The record a state-dependent write is decided against: the current one, or in a STAMPED namespace the greatest
below the write's own pair (R181). -/
def Ns.seenBy (n : Ns) (key : Bytes) (stamp session : Nat) : Option Rec :=
  if n.stamped then
    match (n.recs key).find? fun r => pairLt (r.stamp, r.session) (stamp, session) with
    | some r => if r.deleted then none else some r
    | none => none
  else n.current key

/-- The key's records after a write of a record, and the locators that the write releases. -/
def Ns.withRec (n : Ns) (key : Bytes) (r : Rec) : List Rec × List Loc :=
  if n.stamped then (insRec r (n.recs key), [])
  else (if r.deleted then [] else [r], (n.recs key).map fun x => x.loc)

/-- Make a key's records those given and release what they replace. -/
def State.putRecs (s : State) (n : Ns) (key : Bytes) (recs : List Rec) (gone : List Loc) (direct : Bool) :
    Except Nat Unit × State :=
  match s.setRecs n key recs direct with
  | (.error e, s) => (.error e, s)
  | (.ok _, s) => (.ok (), (gone.foldl State.freeLoc s).dropPriors n.nsid)

/-- Store a value under the pair of its write (steps 4 to 7 of Table 01-5): inline up to 256 bytes, else an extent. -/
def State.storeKey (s : State) (nsid : Nat) (key value : Bytes) (asn stamp session : Nat) (direct : Bool) :
    Except Nat Unit × State :=
  match s.ns? nsid with
  | none => (.error stNsUnknown, s)
  | some n =>
    match s.nonceStatus 3, s.slotKey 3 with
    | some e, _ => (.error e, s)
    | none, none => (.error stSlotEmpty, s)
    | none, some _ =>
      let put := fun (s : State) (l : Loc) =>
        let p := n.withRec key ⟨stamp, session, false, l⟩
        s.putRecs n key p.1 p.2 direct
      if value.length ≤ 256 then put s (.inline value)
      else
        let i := s.freshExtents 1
        let leaf := match s.leafOf nsid key with
          | some l => l.index
          | none => 0
        match s.makeExtent n i leaf key value asn stamp session with
        | (.error e, s) => (.error e, s)
        | (.ok _, s) => put s (.extent i)

/-- Remove a key: no record in an ARRIVAL namespace, a DELETED record in a STAMPED one. -/
def State.removeKey (s : State) (nsid : Nat) (key : Bytes) (stamp session : Nat) : Except Nat Unit × State :=
  match s.ns? nsid with
  | none => (.error stNsUnknown, s)
  | some n =>
    match s.nonceStatus 3 with
    | some e => (.error e, s)
    | none =>
      let p := n.withRec key ⟨stamp, session, true, .inline []⟩
      s.putRecs n key p.1 p.2 false

/-- The SHA-256 of a chunk is not its key (R397). -/
def badDigest (n : Ns) (key value : Bytes) : Bool := n.kind == .distribution && sha256 value != key

/-- The effective tier policy of an extent (R208, R223). -/
def State.policy (s : State) (e : Extent) : Nat :=
  if e.tier ≠ 0 then e.tier
  else
    match s.ns? e.nsid with
    | some n => n.tier
    | none => 0

/-- Units programmed in the STREAM stream for a command that has not stored them, one after another, until one finds no block
free: how many were. No map names them yet (R265). -/
def earlyUnits (cold : Bool) : List Nat → Flash → Flash × Nat
  | [], f => (f, 0)
  | l :: ls, f =>
    match f.put .stream .value l false cold with
    | some (f, e) =>
      let r := earlyUnits cold ls { f with staged := f.staged ++ [e] }
      (r.1, r.2 + 1)
    | none => (f, 0)

/-- The units of a long value stored: those that have streamed are mapped where they lie, the others are programmed in the
STREAM stream, and pads fill the wordline groups begun (R265). -/
def streamUnits (cold : Bool) : List Nat → Flash → Flash
  | [], f => f.padStream .stream
  | l :: ls, f =>
    match f.staged.find? fun e => e.lmu == l with
    | some e => streamUnits cold ls ({ f with staged := dropWhere (fun x => x.lmu == l) f.staged }.mapTo e)
    | none => streamUnits cold ls (f.write .stream .value l false cold).1

/-- What has streamed of a command's operand: its run of map units, and how many are programmed. -/
def State.earlyOf (s : State) (t : TagId) : List Nat × Nat :=
  ((s.kv.early.find? fun e => e.1 == t).map fun e => e.2).getD ([], 0)

/-- The units that the whole segments in the first `got` of the `total` bytes of an operand fill are programmed, in the run
that the whole value will take, unless the value is to stream to disk (Table 08-10) or the device is read-only. -/
def State.streamEarly (s : State) (t : TagId) (nsid klen got total : Nat) : State :=
  match s.ns? nsid with
  | none => s
  | some n =>
    let old := s.earlyOf t
    let run := if old.1.isEmpty then s.freshLmus (unitsFor (storedLen klen total)) else old.1
    let want := storedLen klen (got / 1048576 * 1048576) / 16384 - old.2
    if n.kind ≠ .mutable_ ∨ n.tier = 4 ∨ s.flash.readOnly ∨ !s.flash.mounted ∨ got < 1048576 ∨ want = 0 then s
    else
      let r := earlyUnits (s.coldNs nsid) ((run.drop old.2).take want) s.flash
      ({ s with flash := r.1, kv := { s.kv with early := putWhere (fun e => e.1 == t) (t, run, old.2 + r.2) s.kv.early } }).countUnits
        s.flash r.2

/-- An extent above 4 MiB goes to media as it is written (step 5 of Table 01-5, Table 11-3): to the STREAM band for a
`PUT` under DISK_STREAM while the disk accepts writes, else to the STREAM stream, after the units that have streamed
already (R161). -/
def State.streamExtent (s : State) (t : TagId) (i : Nat) (toDisk : Bool) : State :=
  match s.ext? i with
  | none => s
  | some e =>
    if 4194304 < e.vlen ∧ e.buffered then
      match if toDisk && s.policy e == 4 then s.diskWrite true e.media e.sectors else none with
      | some (band, d, s) => s.setExt { e with buffered := false, disk := true, band := band, sector := d, lmus := [] }
      | none =>
        let old := s.earlyOf t
        let lmus := if old.1.length < e.lmus.length then e.lmus else old.1.take e.lmus.length
        let left := if old.1.length < e.lmus.length then lmus else lmus.drop old.2
        let f := streamUnits (s.coldNs e.nsid) lmus s.flash
        let rest := old.1.filter fun l => !lmus.contains l
        let s := { s with kv := { s.kv with early := s.kv.early.filter fun x => x.1 != t } }
        let written := lmus.all fun l => f.map.any fun x => x.lmu == l
        ({ s with flash := if rest.isEmpty then f else f.unstage rest }.setExt
          { e with buffered := !written, lmus := lmus }).countUnits s.flash left.length
    else s

/-- An extent takes a tier. -/
def State.tierExt (s : State) (i tier : Nat) : State :=
  match s.ext? i with
  | some e => s.setExt { e with tier := tier }
  | none => s

/-- The extents of a key's current value take the tier of its classification (R223). -/
def State.setTier (s : State) (nsid : Nat) (key : Bytes) (tier : Nat) : State :=
  match (s.ns? nsid).bind fun n => n.current key with
  | some r => r.loc.exts.foldl (fun s i => s.tierExt i tier) s
  | none => s

/-- The value just stored under a key takes the tier of its classification, and streams to media where it is long. -/
def State.streamOut (s : State) (t : TagId) (nsid : Nat) (key : Bytes) (tier : Nat) (put : Bool) : State :=
  let s := s.setTier nsid key tier
  match (s.ns? nsid).bind fun n => n.current key with
  | some ⟨_, _, _, .extent i⟩ => s.streamExtent t i put
  | _ => s

/-! ## Reading one key -/

/-- Find the record that a read selects: by the directory, or through the leaf page under a stamp (R198, R202). `get`
says that the read is a GET, which may make a direct entry (R207). -/
def State.findRec (s : State) (n : Ns) (key : Bytes) (stamp : Nat) (rd : MediaReads) (get : Bool) :
    Except Nat (Option Rec) × State :=
  if stamp ≠ 0 then s.leafPath n key (n.atStamp key stamp) rd false else s.lookup n key rd get

/-- A response that carries data: whole, or ended by the trailer where a segment failed its tag or its key changed (R30,
R353), or where a later segment met another failure (R461); where the first one met that, the status stands alone (log
entry 43). -/
def readDone (asn : Nat) (param : Bytes) (announced : Nat) (o : ReadOut) : Completion :=
  match o.err with
  | none => doneData stOK asn param o.bytes
  | some st =>
    if o.bytes.isEmpty ∧ st ≠ stAuth ∧ st ≠ stKeyChanged then doneWith st asn []
    else ⟨stOK, false, asn, param, announced, o.bytes, some (st, o.bytes.length)⟩

/-! ## Sealed streams (R383 to R388) -/

def Ns.stream? (n : Ns) (key : Bytes) : Option Stream := n.streams.find? fun t => t.key == key

/-- Insert or replace a stream, stream keys ascending. -/
def putStream (t : Stream) : List Stream → List Stream
  | [] => [t]
  | x :: xs =>
    if x.key = t.key then t :: xs
    else if bytesLt t.key x.key then t :: x :: xs
    else x :: putStream t xs

/-- The genesis value chain(0) (R385). -/
def chainZero (nsid : Nat) (key : Bytes) : Bytes :=
  sha256 (beBytes 16 0x484C363631362073747265616D207631 ++ leBytes 2 nsid ++ leBytes 2 key.length ++ key)

/-- A stream before its first APPEND. -/
def freshStream (nsid : Nat) (key : Bytes) : Stream := ⟨key, 1, chainZero nsid key, chainZero nsid key, 0, []⟩

/-- The stream of a key, or a fresh one. -/
def Ns.streamOr (n : Ns) (key : Bytes) : Stream := (n.stream? key).getD (freshStream n.nsid key)

/-- chain(s) (R385). -/
def chainNext (prev : Bytes) (seq time expiry : Nat) (void : Bool) (rclass : Nat) (bytes : Bytes) : Bytes :=
  sha256 (prev ++ leBytes 8 seq ++ leBytes 8 time ++ leBytes 8 expiry ++ leBytes 1 (if void then 1 else 0) ++
    leBytes 1 rclass ++ leBytes 4 bytes.length ++ bytes)

/-- The receipt CMAC (R386). -/
def receiptMac (sealKey : Bytes) (seq : Nat) (chain : Bytes) : Bytes := cmac sealKey (leBytes 8 seq ++ chain)

/-- Days of a retention class (Table 16-5). -/
def classDays (c : Nat) : Nat := [0, 1, 7, 28, 91, 182, 365, 730, 1095, 1826, 2557, 3652, 5479, 7305, 10958].getD c 0

/-- EXPIRY (R384). -/
def expiryOf (time rclass : Nat) : Nat := if rclass = 15 then 2 ^ 64 - 1 else time + classDays rclass * 86400

/-- FIRST_SEQ: the lowest record not purged. -/
def Stream.firstSeq (t : Stream) : Nat :=
  match t.recs with
  | r :: _ => r.hdr.seq
  | [] => t.nextSeq

/-- The stream head (Table 16-3). -/
def Stream.head (t : Stream) : Bytes :=
  leBytes 8 t.firstSeq ++ leBytes 8 t.nextSeq ++ leBytes 8 t.recs.length ++
    leBytes 8 (t.recs.foldl (fun n r => n + r.hdr.rlen) 0) ++ t.baseChain ++ t.headChain ++ leBytes 8 t.lastTime

/-- A stream with one record more (steps 2 to 5 of Table 01-8). -/
def Stream.push (t : Stream) (r : SealedRec) : Stream :=
  { t with recs := t.recs ++ [r], nextSeq := r.hdr.seq + 1, headChain := r.hdr.chain, lastTime := r.hdr.appendTime }

/-- The header of the next record of a stream. -/
def Stream.nextHdr (t : Stream) (sealKey : Bytes) (asn time rclass : Nat) (void : Bool) (bytes : Bytes) : RecordHdr :=
  let expiry := expiryOf time rclass
  let chain := chainNext t.headChain t.nextSeq time expiry void rclass bytes
  ⟨t.nextSeq, asn, time, expiry, bytes.length, void, rclass, chain, receiptMac sealKey t.nextSeq chain⟩

/-- Store a record's bytes, under a tier of its classification (0: the descriptor's), and make the record the last of its
stream. -/
def State.storeRecord (s : State) (nsid : Nat) (key : Bytes) (hdr : RecordHdr) (bytes : Bytes) (tier : Nat) :
    Except Nat Unit × State :=
  match s.ns? nsid with
  | none => (.error stNsUnknown, s)
  | some n =>
    match s.nonceStatus 3, s.slotKey 3 with
    | some e, _ => (.error e, s)
    | none, none => (.error stSlotEmpty, s)
    | none, some _ =>
      let fin := fun (t : State) (l : Loc) =>
        match (t.setNs { n with streams := putStream ((n.streamOr key).push ⟨hdr, l⟩) n.streams }).touchLeaf nsid key with
        | (.error e, t) => (.error e, t)
        | (.ok _, t) => (.ok (), s.capacity90 t)
      if bytes.length ≤ 256 then fin s (.inline bytes)
      else
        let i := s.freshExtents 1
        let leaf := match s.leafOf nsid key with
          | some l => l.index
          | none => 0
        match s.makeExtent n i leaf key bytes hdr.asn 0 0 with
        | (.error e, s) => (.error e, s)
        | (.ok _, s) => fin (s.tierExt i tier) (.extent i)

/-- A void record takes the place of a record whose sequence number was assigned (R32, R387). -/
def State.voidRecord (s : State) (e : TagEntry) : State :=
  match s.ns? e.msg.nsid, e.seqNo with
  | some n, some _ =>
    match s.slotKey n.sealSlot with
    | none => s
    | some k =>
      let t := n.streamOr e.msg.key
      let rclass := match e.classed with
        | c :: _ => if c.rclass = 0 then n.rclass else c.rclass
        | [] => n.rclass
      let h := t.nextHdr k e.asn e.stepTime rclass true []
      let s := s.journal (s.backUp.storeRecord n.nsid e.msg.key h [] 0).2 true
      (s.count Reg.SEA.APPENDS 1).count Reg.SEA.VOIDS 1
  | _, _ => s

/-- Leaf pages read: those opened, by leaf-map index, with the bytes of their records. -/
abbrev Texts := List (Nat × Bytes)

/-- A record as the leaf pages read give it. -/
def State.seenIn (s : State) (n : Ns) (texts : Texts) (key : Bytes) (r : Rec) : Rec :=
  match s.leafOf n.nsid key with
  | none => r
  | some l =>
    match texts.find? fun x => x.1 == l.index with
    | some x => s.opened n l x.2 key r
    | none => r

/-- A stream's records with the values that its leaf page, read by a command, holds inline. -/
def State.seenRecs (s : State) (n : Ns) (texts : Texts) (t : Stream) (rs : List SealedRec) : List SealedRec :=
  rs.map fun r => { r with loc := (s.seenIn n texts t.key ⟨0, 0, false, r.loc⟩).loc }

/-- Read one record's bytes. -/
def State.readRecord (s : State) (rd : MediaReads) (r : SealedRec) : ReadOut × State := s.readLoc rd r.loc 0 r.hdr.rlen

/-- The leaf page of a stream read on the leaf path (R197, R205). -/
def State.readStreamLeaf (s : State) (n : Ns) (key : Bytes) (rd : MediaReads) : Except Nat Texts × State :=
  let s := s.count Reg.DIR.LEAF_PATH 1
  match s.leafOf n.nsid key with
  | none => (.ok [], s)
  | some l =>
    match (s.setDir (bucket1 (s.dirHash n.nsid key)) 7 (mkEntry 2 l.tag 7 l.index)).readLeaf l rd with
    | (.error e, s) => (.error e, s)
    | (.ok text, s) => (.ok [(l.index, text)], s)

/-- The exports of consecutive records (R388): up to `n` of them and 64 MiB; the bytes sent, what ended them, and the
bytes announced. -/
def exportGo (rd : MediaReads) : Nat → Nat → List SealedRec → State → ReadOut × Nat × State
  | 0, _, _, s => (⟨[], none⟩, 0, s)
  | _ + 1, _, [], s => (⟨[], none⟩, 0, s)
  | n + 1, used, r :: rs, s =>
    let size := 88 + r.hdr.rlen
    if 67108864 < used + size then (⟨[], none⟩, 0, s)
    else
      match s.readRecord rd r with
      | (⟨b, some err⟩, s) => (⟨exportHdr r.hdr ++ b, some err⟩, size, s)
      | (⟨b, none⟩, s) =>
        match exportGo rd n (used + size) rs s with
        | (o, m, s) => (⟨exportHdr r.hdr ++ b ++ o.bytes, o.err⟩, size + m, s)

/-! ## LIST (R172, R198) -/

/-- Of leaf pages in key order, those whose ranges meet a range. -/
def leavesMeeting (r : KeyRange) : List Leaf → List Leaf
  | [] => []
  | l :: ls =>
    let starts := r.hi.isEmpty || bytesLt l.low r.hi
    let ends := match ls with
      | [] => true
      | next :: _ => bytesLt r.lo next.low
    if starts && ends then l :: leavesMeeting r ls else leavesMeeting r ls

/-- The leaf pages that a LIST or SCAN reads. -/
def State.leavesIn (s : State) (nsid : Nat) (r : KeyRange) : List Leaf := leavesMeeting r (s.leavesOf nsid)

/-- The leaf path of a range: each leaf page that it meets is read, up to the first that fails (R198). -/
def readLeaves (rd : MediaReads) : List Leaf → State → Except Nat Texts × State
  | [], s => (.ok [], s)
  | l :: ls, s =>
    match s.readLeaf l rd with
    | (.error st, s) => (.error st, s)
    | (.ok t, s) =>
      match readLeaves rd ls s with
      | (.ok ts, s) => (.ok ((l.index, t) :: ts), s)
      | x => x

/-- The keys present in a namespace as a read with a stamp sees them, ascending. -/
def Ns.keysAt (n : Ns) (stamp : Nat) : List Bytes :=
  if n.kind = .sealed then n.streams.map fun t => t.key
  else
    (n.keys.filter fun e => if stamp = 0 then (n.current e.key).isSome else (n.atStamp e.key stamp).isSome).map
      fun e => e.key

/-- The keys that a LIST returns: up to LIMIT and 64 MiB. -/
def listGo : Nat → Nat → List Bytes → List Bytes
  | 0, _, _ => []
  | _ + 1, _, [] => []
  | n + 1, used, k :: ks =>
    if 67108864 < used + 2 + k.length then [] else k :: listGo n (used + 2 + k.length) ks

/-! ## SCAN (R246 to R251) -/

/-- The PARAM of a SCAN. -/
structure ScanCmd where
  limit   : Nat
  image   : Nat
  subject : Nat
  out     : Nat
  lo      : Nat
  hi      : Nat
  deriving DecidableEq, Repr

def scanCmd (p : Bytes) : ScanCmd := ⟨beAt p 0 4, beAt p 4 2, beAt p 6 1, beAt p 7 1, beAt p 8 2, beAt p 10 2⟩

/-- One subject: a key, its stored length, its sequence number and where its value is. -/
structure Subject where
  key : Bytes
  seq : Nat
  len : Nat
  loc : Loc
  deriving DecidableEq, Repr

/-- The subjects of a range by key, a stream's records together (R247); inline values are those of the leaf pages read. -/
def State.subjects (s : State) (n : Ns) (r : KeyRange) (stamp : Nat) (texts : Texts) : List (List Subject) :=
  if n.kind = .sealed then
    (n.streams.filter fun t => r.has t.key).map fun t =>
      (s.seenRecs n texts t (t.recs.filter fun x => !x.hdr.void)).map fun x => ⟨t.key, x.hdr.seq, x.hdr.rlen, x.loc⟩
  else
    (n.keys.filter fun e => r.has e.key).filterMap fun e =>
      match if stamp = 0 then n.current e.key else n.atStamp e.key stamp with
      | some x => some [⟨e.key, 0, s.locLen x.loc, (s.seenIn n texts e.key x).loc⟩]
      | none => none

/-- A SCAN under way: the data so far, the records counted, whether a subject was dropped or the scan has stopped,
and the stream-scope counters. -/
structure Scan where
  data    : Bytes
  count   : Nat
  dropped : Bool
  full    : Bool
  err     : Option Nat
  ctrs    : List Nat
  deriving DecidableEq, Repr

/-- The header of a returned record (R249). -/
def scanHdr (x : Subject) (flags nrep : Nat) : Bytes :=
  leBytes 2 x.key.length ++ leBytes 2 flags ++ leBytes 2 nrep ++ [0, 0] ++ leBytes 4 x.len ++ leBytes 8 x.seq

/-- A returned record: header, key, reports, value (R249). -/
def scanRecord (c : ScanCmd) (x : Subject) (rpts : List (Nat × Nat)) (value : Bytes) : Bytes :=
  let shown := if bitOf c.out 1 then (if bitOf c.out 2 then rpts.take 1 else rpts.take 256) else []
  let trunc := bitOf c.out 1 && !bitOf c.out 2 && decide (256 < rpts.length)
  let body := x.key ++ (shown.map fun r => leBytes 4 r.1 ++ leBytes 2 r.2 ++ [0, 0]).foldl (fun a b => a ++ b) []
  let whole := decide (20 + body.length + value.length ≤ 67108864)
  let flags := (if bitOf c.out 0 && whole then 1 else 0) + (if trunc then 4 else 0) +
    (if bitOf c.out 0 && !whole then 8 else 0)
  scanHdr x flags shown.length ++ body ++ (if bitOf c.out 0 && whole then value else [])

/-- One more record returned, unless it would take the response above 64 MiB. -/
def Scan.add (z : Scan) (r : Bytes) (n : Nat) : Scan :=
  if 67108864 < z.data.length + r.length then { z with full := true }
  else { z with data := z.data ++ r, count := z.count + n }

/-- One subject of a SCAN. -/
def scanSubject (c : ScanCmd) (img : Option Bytes) (only : Bool) (rd : MediaReads) (x : Subject) (zs : Scan × State) :
    Scan × State :=
  let z := zs.1
  let s := zs.2
  if z.full ∨ z.err.isSome then (z, s)
  else
    let needs := c.subject != 1 || (!only && bitOf c.out 0)
    let r := if needs then s.readLoc rd x.loc 0 x.len else (⟨[], none⟩, s)
    match r with
    | (⟨_, some err⟩, s) =>
      if err = stAuth ∨ err = stKeyChanged then
        ({ z.add (scanHdr x 2 0 ++ x.key) 0 with dropped := true },
         (s.count Reg.PAT.DROPPED 1).raise Ev.PAT.RECORD_DROPPED)
      else ({ z with err := some err }, s)
    | (⟨v, none⟩, s) =>
      let subj := if c.subject = 0 then v else if c.subject = 1 then x.key else x.key ++ v
      match img with
      | none => (if only then { z with count := z.count + 1 } else z.add (scanRecord c x [] v) 1, s)
      | some b =>
        match s.runSubject b z.ctrs subj with
        | (o, s) =>
          let hits := o.rpts.filter fun p => decide (c.lo ≤ p.2) && decide (p.2 ≤ c.hi)
          let z := { z with ctrs := o.ctrs }
          if hits.isEmpty then (z, s)
          else (if only then { z with count := z.count + 1 } else z.add (scanRecord c x hits v) 1, s)

/-- The groups of a SCAN in order: a group is whole, and LIMIT and the 64 MiB stop only between groups, unless the first group
alone is longer (R250, log entry 44). The last answer says that subjects remain. -/
def scanGo (c : ScanCmd) (img : Option Bytes) (only : Bool) (rd : MediaReads) :
    List (List Subject) → Scan × State → Scan × Bool × State
  | [], zs => (zs.1, false, zs.2)
  | g :: gs, zs =>
    if zs.1.full ∨ zs.1.err.isSome ∨ (!only ∧ c.limit ≤ zs.1.count) then (zs.1, true, zs.2)
    else
      let z0 := zs.1
      let zs := g.foldl (fun zs x => scanSubject c img only rd x zs) ({ z0 with ctrs := [] }, zs.2)
      if zs.1.full then (if z0.data.isEmpty then zs.1 else { z0 with err := zs.1.err }, true, zs.2)
      else scanGo c img only rd gs zs

/-! ## Watches (R252 to R256) -/

/-- An event key (R256). -/
def eventKey (w : Watch) (seq : Nat) (r : Nat × Nat) (stream : Bytes) : Bytes :=
  beBytes 2 w.id ++ beBytes 2 w.nsid ++ beBytes 8 seq ++ beBytes 4 r.1 ++ beBytes 2 r.2 ++ stream

/-- Its value. -/
def eventValue (ctrs : List Nat) (asn : Nat) : Bytes :=
  ((List.range 8).map fun k => leBytes 4 (ctrs.getD k 0)).foldl (fun a b => a ++ b) [] ++ leBytes 8 asn

/-- The next ASN of a namespace taken (R164). -/
def State.takeAsn (s : State) (nsid : Nat) : Nat × State :=
  let one := fun (_ : Nat) => 1
  let a := SMap.get one s.cmd.nextAsn nsid
  (a, { s with cmd := { s.cmd with nextAsn := SMap.set one nsid (a + 1) s.cmd.nextAsn } })

/-- One event key written; one whose leaf page cannot be sealed is lost (log entry 160). -/
def State.putEvent (s : State) (nsid : Nat) (key value : Bytes) : State :=
  match s.ns? nsid with
  | none => s
  | some n =>
    let p := s.takeAsn nsid
    match p.2.backUp.putRecs n key [⟨0, 0, false, .inline value⟩] ((n.recs key).map fun x => x.loc) false with
    | (.error _, _) => (s.count Reg.PAT.EVENTS_LOST 1).raise Ev.PAT.EVENTS_LOST
    | (.ok _, t) => (s.journal t true).count Reg.PAT.EVENTS 1

/-- The state of a (watch, stream), if it exists. -/
def State.watchState? (s : State) (w : Watch) (stream : Bytes) : Option WatchState :=
  s.pat.states.find? fun x => x.nsid == w.nsid && x.id == w.id && x.stream == stream

def State.setWatchState (s : State) (x : WatchState) : State :=
  let same := fun (y : WatchState) => y.nsid == x.nsid && y.id == x.id && y.stream == x.stream
  { s with pat := { s.pat with states := putWhere same x s.pat.states } }

/-- One watch run over one record (R255). -/
def State.runWatch (s : State) (w : Watch) (stream : Bytes) (seq asn : Nat) (bytes : Bytes) : State :=
  match s.imageVer? w.imageId w.version with
  | none => s
  | some img =>
    let old := s.watchState? w stream
    if old.isNone ∧ 1048576 ≤ s.pat.states.length then s.raise Ev.PAT.WATCH_STATE_FULL
    else
      let ctrs := match old with
        | some x => x.counters
        | none => []
      match s.runSubject img.bytes ctrs bytes with
      | (o, s) =>
        let s := s.setWatchState ⟨w.nsid, w.id, stream, o.ctrs, seq⟩
        let s := (o.rpts.take 64).foldl (fun s r =>
          s.putEvent w.eventNs (eventKey w seq r stream) (eventValue o.ctrs asn)) s
        let lost := o.rpts.length - 64
        if 0 < lost then (s.count Reg.PAT.EVENTS_LOST lost).raise Ev.PAT.EVENTS_LOST else s

/-- Every armed watch of a stream over one record. -/
def State.runWatches (s : State) (nsid : Nat) (stream : Bytes) (group seq asn : Nat) (bytes : Bytes) : State :=
  (s.pat.watches.filter fun w => w.nsid == nsid && decide (w.armAsn < asn) &&
      (if w.group = 0 then w.stream == stream else w.group == group)).foldl
    (fun s w => s.runWatch w stream seq asn bytes) s

/-- One (watch, stream) state brought up to the records beyond the last that it evaluated (R256). -/
def State.rewatch (s : State) (w : Watch) (x : WatchState) : State :=
  match (s.ns? w.nsid).bind fun n => n.stream? x.stream with
  | none => s
  | some t =>
    (t.recs.filter fun r => decide (x.lastSeq < r.hdr.seq) && decide (w.armAsn < r.hdr.asn) && !r.hdr.void).foldl
      (fun s r => match s.readRecord asWritten r with
        | (o, s) => if o.err.isSome then s else s.runWatch w x.stream r.hdr.seq r.hdr.asn o.bytes) s

/-- After a power failure every state is brought up to date (R256). -/
def State.rewatchAll (s : State) : State :=
  s.pat.states.foldl (fun s x => match s.pat.watches.find? fun w => w.nsid == x.nsid && w.id == x.id with
    | some w => s.rewatch w x
    | none => s) s

/-! ## Purging (R394, R395) -/

/-- The leading run of expired records, at most `n` of them. -/
def expiredRun (time : Nat) : Nat → List SealedRec → Nat
  | 0, _ => 0
  | _ + 1, [] => 0
  | n + 1, r :: rs => if r.hdr.expiry ≤ time then 1 + expiredRun time n rs else 0

/-- One stream purged of its first `k` records. -/
def Stream.purge (t : Stream) (k : Nat) : Stream :=
  match (t.recs.take k).getLast? with
  | some r => { t with recs := t.recs.drop k, baseChain := r.hdr.chain }
  | none => t

/-- A stream replaced by its purged form, its leaf page written without the records gone, and their values released; none
where the page cannot be sealed (R345). -/
def State.purgeStream (s : State) (n : Ns) (t : Stream) (gone : List SealedRec) : Option State :=
  match (s.setNs { n with streams := putStream t n.streams }).touchLeaf n.nsid t.key with
  | (.error _, _) => none
  | (.ok _, s) => some ((gone.foldl (fun s r => s.freeLoc r.loc) s).count Reg.SEA.PURGED gone.length)

/-- A stream purged by one journal commit; none where its page cannot be sealed. -/
def State.purgeCommit (s : State) (n : Ns) (t : Stream) (gone : List SealedRec) : Option State :=
  let s := s.backUp
  (s.purgeStream n t gone).map fun u => s.journal { u with kv := { u.kv with back := s.kv.back } } true

/-- Streams purged in key order under a limit (none: no limit), each by one journal commit: the state, records removed, and
the streams changed with their new FIRST_SEQ. -/
def purgeGo (nsid time : Nat) : List Stream → Option Nat → State → State × Nat × List (Bytes × Nat)
  | [], _, s => (s, 0, [])
  | t :: ts, lim, s =>
    let k := expiredRun time (match lim with
      | some n => n
      | none => t.recs.length) t.recs
    if k = 0 then purgeGo nsid time ts lim s
    else
      match s.ns? nsid with
      | none => (s, 0, [])
      | some n =>
        let t' := t.purge k
        match s.purgeCommit n t' (t.recs.take k) with
        | none => (s, 0, [])
        | some u =>
          match purgeGo nsid time ts (lim.map fun n => n - k) u with
          | (s, m, l) => (s, k + m, (t.key, t'.firstSeq) :: l)

/-- The streams of a PURGE_EXPIRED, and the records that it may still remove. -/
def TagEntry.purgeStreams (e : TagEntry) (n : Ns) : List Stream :=
  if e.msg.key.isEmpty then n.streams else n.streams.filter fun t => t.key == e.msg.key

def TagEntry.purgeLimit (e : TagEntry) : Option Nat :=
  let m := beAt e.msg.param 0 4
  if m = 0 then none else some (m - e.purging.elim 0 Prod.snd)

/-- The completion PARAM: records and streams purged. -/
def purgeParam (k m : Nat) : Bytes := beBytes 4 k ++ beBytes 4 m

/-- The first stream that has records to purge is purged: that commit is the command's commit point (R395). -/
def purgeFirst (e : TagEntry) (n : Ns) (s : State) : State :=
  let streams := e.purgeStreams n
  let due := fun (t : Stream) => 0 < expiredRun s.sea.time (e.purgeLimit.getD t.recs.length) t.recs
  if !e.msg.key.isEmpty && streams.isEmpty then s.finish e stNoSuchKey []
  else
    match purgeGo n.nsid s.sea.time ((streams.filter due).take 1) e.purgeLimit s with
    | (_, 0, _) => s.finish e stOK (purgeParam 0 0)
    | (t, m, l) =>
      if s.flash.readOnly then s.finish e stWorn []
      else t.setEntry { e with state := .committed, result := some (doneWith stOK e.asn (purgeParam m l.length)),
                               purging := some (l, m) }

/-- A purge past its commit point purges its other streams, and goes to the mirrors as one write. -/
def State.purgeEnd (s : State) (e : TagEntry) : State :=
  match e.purging, s.ns? e.msg.nsid with
  | some (l, m), some n =>
    match purgeGo n.nsid s.sea.time (e.purgeStreams n) e.purgeLimit s with
    | (t, k, r) => t.commitWrite n { e with purging := none } (doneWith stOK e.asn (purgeParam (m + k) (l ++ r).length))
        [(0, .purge (l ++ r))]
  | _, _ => s

/-- A purge that stops at its next stream: what it has purged stays, and goes to the mirrors (R395). -/
def State.purgeStop (s : State) (e : TagEntry) : State :=
  match e.purging, s.ns? e.msg.nsid with
  | some (l, _), some n => (s.mirrorOut n e (mediaCmd n e.msg || !s.bufferedOk) [(0, .purge l)]).1
  | _, _ => s

end Sys2Proof.Machine
end

