-- ==== Sys2Proof/Machine/Data.lean ====
section
/-! DEFINITION. The data opcodes (Table 07-2): GET to PURGE_EXPIRED. Each meaning runs the admitted command that its row
names; a write row with `pause` stops short of its commit point, which COMMIT_POINT_PASSED then passes. -/

namespace Sys2Proof.Machine

open Sys2Proof

/-! ## Commands that need the disk (R76, R88, R301) -/

/-- The locators that a command would read. -/
def Ns.readLocs (n : Ns) (m : CmdMsg) : List Loc :=
  let cur := fun (k : Bytes) => ((if m.stamp = 0 then n.current k else n.atStamp k m.stamp).map fun r => r.loc).toList
  let recs := fun (p : Stream → Bool) (q : SealedRec → Bool) =>
    ((n.streams.filter p).map fun t => (t.recs.filter q).map fun r => r.loc).flatten
  if m.opcode = 0x01 ∨ m.opcode = 0x04 then (if n.kind = .sealed then [] else cur m.key)
  else if m.opcode = 0x05 then
    if n.kind = .sealed then recs (fun t => t.key == m.key) fun r => decide (beAt m.param 0 8 ≤ r.hdr.seq)
    else cur m.key
  else if m.opcode = 0x09 then ((m.batch.filter fun b => b.op == 4).map fun b => cur b.key).flatten
  else if m.opcode = 0x07 ∧ (scanCmd m.param).limit ≠ 0 then
    if n.kind = .sealed then recs (fun t => m.range.has t.key) fun _ => true
    else ((n.keys.filter fun k => m.range.has k.key).map fun k => cur k.key).flatten
  else []

/-- A command reads an extent that lies on disk and not in the read cache. -/
def State.readsDisk (s : State) (n : Ns) (m : CmdMsg) : Bool :=
  (n.readLocs m).any fun l => l.exts.any fun i =>
    match s.ext? i with
    | some e => e.disk && !s.cached false e.index e.gen
    | none => false

/-- A command that needs the disk waits until the tier is in service, and starts its spin-up; after a failed spin-up it
completes with `DISK_NOT_READY`. While STANDBY is being entered no disk work starts (step 1 of Table 03-5). -/
def State.withDisk (s : State) (e : TagEntry) (n : Ns) (body : State → State) : State :=
  if s.readsDisk n e.msg then
    if s.dev.entering = some .standby then s
    else if s.srv.disk = 4 then body s
    else if s.srv.disk = 6 then s.finish e stDiskNotReady []
    else s.startSpin
  else body s

/-! ## Reads -/

/-- GET of a value (R169) or of a stream head (R388). -/
def getBody (rd : MediaReads) (e : TagEntry) (n : Ns) (s : State) : State :=
  let m := e.msg
  if n.kind = .sealed then
    match s.readStreamLeaf n m.key rd with
    | (.error st, s) => s.finish e st []
    | (.ok _, s) =>
      match n.stream? m.key with
      | none => s.finish e stNoSuchKey []
      | some t => s.finishData e stOK (beBytes 8 104) t.head
  else
    match s.findRec n m.key m.stamp rd true with
    | (.error st, s) => s.finish e st []
    | (.ok none, s) => s.finish e stNoSuchKey []
    | (.ok (some r), s) =>
      let len := s.locLen r.loc
      if 67108864 < len then s.finish e stBadValueLen (beBytes 8 len)
      else
        match s.readLoc rd r.loc 0 len with
        | (o, s) => (s.post e (readDone e.asn (beBytes 8 len) len o)).sweepPriors n.nsid

def execGet (t : TagId) (rd : MediaReads) (s : State) : Host.Outcome State Fault Refusal :=
  s.done (s.runNs t 0x01 fun e n s => s.withDisk e n (getBody rd e n))

/-- GET_RANGE of a stream: records from a sequence number on (R388). -/
def getRecords (rd : MediaReads) (e : TagEntry) (n : Ns) (s : State) : State :=
  let off := beAt e.msg.param 0 8
  let len := beAt e.msg.param 8 4
  match s.readStreamLeaf n e.msg.key rd with
  | (.error st, s) => s.finish e st []
  | (.ok texts, s) =>
    match n.stream? e.msg.key with
    | none => s.finish e stNoSuchKey []
    | some t =>
      let recs := s.seenRecs n texts t (t.recs.filter fun r => decide (off ≤ r.hdr.seq))
      if off ≠ 0 ∧ off < t.firstSeq then s.finish e stNoSuchKey []
      else
        match exportGo rd (if len = 0 then recs.length else len) 0 recs s with
        | (o, size, s) => s.post e (readDone e.asn (beBytes 8 t.nextSeq) size o)

/-- GET_RANGE (R171). -/
def getRangeBody (rd : MediaReads) (e : TagEntry) (n : Ns) (s : State) : State :=
  let m := e.msg
  let off := beAt m.param 0 8
  let want := if beAt m.param 8 4 = 0 then 67108864 else beAt m.param 8 4
  if n.kind = .sealed then getRecords rd e n s
  else
    match s.findRec n m.key m.stamp rd false with
    | (.error st, s) => s.finish e st []
    | (.ok none, s) => s.finish e stNoSuchKey []
    | (.ok (some r), s) =>
      let len := s.locLen r.loc
      if len < off then s.finish e stBadField []
      else
        let k := min want (len - off)
        match s.readLoc rd r.loc off k with
        | (o, s) => (s.post e (readDone e.asn (beBytes 8 len) k o)).sweepPriors n.nsid

def execGetRange (t : TagId) (rd : MediaReads) (s : State) : Host.Outcome State Fault Refusal :=
  s.done (s.runNs t 0x05 fun e n s => s.withDisk e n (getRangeBody rd e n))

/-- LIST (R172); what it reads is log entry 145. -/
def listBody (rd : MediaReads) (e : TagEntry) (n : Ns) (s : State) : State :=
  let m := e.msg
  let limit := beAt m.param 0 4
  let ks := (n.keysAt m.stamp).filter m.range.has
  let c := if limit = 0 ∨ m.countOnly then doneData stOK e.asn (beBytes 4 ks.length) []
    else
      let got := listGo limit 0 ks
      let data := (got.map fun k => leBytes 2 k.length ++ k).foldl (fun a b => a ++ b) []
      { doneData stOK e.asn (beBytes 4 got.length) data with more := decide (got.length < ks.length) }
  match readLeaves rd (s.leavesIn n.nsid m.range) s with
  | (.error st, s) => s.finish e st []
  | (.ok _, s) => (s.post e c).sweepPriors n.nsid

def execList (t : TagId) (rd : MediaReads) (s : State) : Host.Outcome State Fault Refusal :=
  s.done (s.runNs t 0x06 (listBody rd))

/-- SCAN (R246 to R251). -/
def scanBody (rd : MediaReads) (e : TagEntry) (n : Ns) (s : State) : State :=
  let m := e.msg
  let c := scanCmd m.param
  let img := if c.image = 0 then none else s.imageVer? c.image e.version
  if c.image ≠ 0 ∧ img.isNone then s.finish e stPatternInvalid []
  else
    match readLeaves rd (s.leavesIn n.nsid m.range) s with
    | (.error st, s) => s.finish e st []
    | (.ok texts, s) =>
      let only := decide (c.limit = 0) || m.countOnly
      let p := scanGo c (img.map fun i => i.bytes) only rd (s.subjects n m.range m.stamp texts) (⟨[], 0, false, false, none, []⟩, s)
      let z := p.1
      let s := p.2.2
      match z.err with
      | some st => s.finish e st []
      | none =>
        let d := doneData (if z.dropped then stAuth else stOK) e.asn (beBytes 4 (min (2 ^ 32 - 1) z.count)) z.data
        ((s.post e { d with more := p.2.1 && !only }).sweepPriors n.nsid).freeImages

def execScan (t : TagId) (rd : MediaReads) (s : State) : Host.Outcome State Fault Refusal :=
  s.done (s.runNs t 0x07 fun e n s => s.withDisk e n (scanBody rd e n))

/-! ## PUT, DELETE, CAS -/

/-- What a tried write does to its entry: it ends with its own failure, or passes its commit point. -/
def State.settle (w : Except Nat Unit × State) (n : Ns) (e : TagEntry) (fail ok : Bytes)
    (parts : List (Nat × MirrorBody)) : State :=
  match w.1 with
  | .error st => w.2.finish e st fail
  | .ok _ => w.2.commitWrite n e (doneWith stOK e.asn ok) parts

/-- The search of the classifier for one key (R223). -/
def classifyKey (nsid : Nat) (key : Bytes) (s : State) : List Classified × State :=
  match s.classify nsid key with
  | (c, s) => ([c], s)

/-- The store of a key's value tried, under the tier of its classification. -/
def State.tryPut (s : State) (n : Ns) (e : TagEntry) (value : Bytes) (tier : Nat) : Except Nat Unit × State :=
  let m := e.msg
  s.tryWrite n true fun s =>
    match s.storeKey n.nsid m.key value e.asn m.stamp (tagSess e.id) true with
    | (.ok u, s) => (.ok u, s.streamOut e.id n.nsid m.key tier (m.opcode == 0x02))
    | x => x

/-- Store a key's value and pass the commit point; `param` is the completion PARAM in either case. -/
def putKeyCommit (e : TagEntry) (n : Ns) (value param : Bytes) (s : State) : State :=
  State.settle (s.tryPut n e value e.tier) n e param param [(e.mirror, .keys [⟨e.msg.key, some value⟩])]

/-- PUT: digest (R397), CREATE_ONLY (R169), then the store. -/
def putCommit (e : TagEntry) (n : Ns) (s : State) : State :=
  let m := e.msg
  let held := (n.seenBy m.key m.stamp (tagSess e.id)).isSome
  let s := if n.kind = .distribution then s.hashed m.value.length else s
  if n.kind = .distribution ∧ s.noHash then s.finish e stInternal []
  else if badDigest n m.key m.value then (s.count Reg.SEA.DIGEST_MISMATCH 1).finish e stDigest []
  else if held && m.createOnly then s.finish e stKeyExists []
  else if held && n.kind == .distribution then s.commitNone n e (doneWith stOK e.asn []) [e.mirror]
  else putKeyCommit e n m.value [] s

def execPut (t : TagId) (pause : Bool) (s : State) : Host.Outcome State Fault Refusal :=
  s.done (s.runNs t 0x02 fun e n s =>
    s.startWrite n e (classifyKey n.nsid e.msg.key) fun e s => if pause then s else putCommit e n s)

/-- The removal of a key tried. -/
def State.tryDelete (s : State) (n : Ns) (e : TagEntry) : Except Nat Unit × State :=
  s.tryWrite n false fun s => s.removeKey n.nsid e.msg.key e.msg.stamp (tagSess e.id)

/-- DELETE (R169, R202). -/
def deleteCommit (e : TagEntry) (n : Ns) (s : State) : State :=
  let m := e.msg
  if (n.seenBy m.key m.stamp (tagSess e.id)).isNone then s.commitNone n e (doneWith stAbsent e.asn []) [0]
  else State.settle (s.tryDelete n e) n e [] [] [(0, .keys [⟨m.key, none⟩])]

def execDelete (t : TagId) (pause : Bool) (s : State) : Host.Outcome State Fault Refusal :=
  s.done (s.runNs t 0x03 fun e n s =>
    s.startWrite n e (fun s => ([], s)) fun e s => if pause then s else deleteCommit e n s)

/-- The comparison of R170: the status that ends it, or none where it succeeds; and whether the key is present. The value is
found as a read finds it (R195, R198), against the record that R181 names. -/
def State.compare (s : State) (n : Ns) (key expect : Bytes) (absent : Bool) (stamp session : Nat) (rd : MediaReads) :
    Option Nat × Bool × State :=
  match n.seenBy key stamp session with
  | none => (if absent then none else some stCasMismatch, false, s)
  | some r =>
    if absent then (some stCasMismatch, true, s)
    else
      let len := s.locLen r.loc
      if len ≠ expect.length then (some stCasMismatch, true, s)
      else
        match if n.stamped then s.leafPath n key (some r) rd false else s.lookup n key rd false with
        | (.error err, s) => (some err, true, s)
        | (.ok none, s) => (some stCasMismatch, true, s)
        | (.ok (some r), s) =>
          match s.readLoc rd r.loc 0 len with
          | (⟨_, some err⟩, s) => (some err, true, s)
          | (⟨b, none⟩, s) => (if b = expect then none else some stCasMismatch, true, s)

/-- The completion PARAM of a CAS. -/
def presentParam (p : Bool) : Bytes := [if p then 1 else 0]

/-- The new value of a CAS stored. -/
def casCommit (e : TagEntry) (n : Ns) (s : State) : State :=
  let m := e.msg
  let held := (n.seenBy m.key m.stamp (tagSess e.id)).isSome
  putKeyCommit e n (m.value.drop (beAt m.param 0 4)) (presentParam held) s

def casBody (rd : MediaReads) (pause : Bool) (e : TagEntry) (n : Ns) (s : State) : State :=
  let m := e.msg
  match s.compare n m.key (m.value.take (beAt m.param 0 4)) (bitOf (beAt m.param 4 1) 0) m.stamp (tagSess e.id) rd with
  | (some st, p, s) => s.finish e st (presentParam p)
  | (none, _, s) => if pause then s else casCommit e n s

def execCas (t : TagId) (rd : MediaReads) (pause : Bool) (s : State) : Host.Outcome State Fault Refusal :=
  s.done (s.runNs t 0x04 fun e n s => s.withDisk e n fun s =>
    s.startWrite n e (classifyKey n.nsid e.msg.key) fun e s => casBody rd pause e n s)

/-! ## BATCH (R173) -/

/-- The value an entry stores. -/
def BatchEntry.value (b : BatchEntry) : Bytes := if b.op = 4 then b.operand.drop b.expect else b.operand

/-- The status with which an entry would fail, if it would. -/
def State.entryFails (s : State) (n : Ns) (e : TagEntry) (rd : MediaReads) (b : BatchEntry) : Option Nat × State :=
  if b.op = 4 then
    match s.compare n b.key (b.operand.take b.expect) (bitOf b.flags 1) e.msg.stamp (tagSess e.id) rd with
    | (st, _, s) => (st, s)
  else if b.op = 2 ∧ bitOf b.flags 0 ∧ (n.seenBy b.key e.msg.stamp (tagSess e.id)).isSome then (some stKeyExists, s)
  else (none, s)

/-- The lowest-numbered entry that would fail, and its status. -/
def batchFails (n : Ns) (e : TagEntry) (rd : MediaReads) : Nat → List BatchEntry → State → Option (Nat × Nat) × State
  | _, [], s => (none, s)
  | i, b :: bs, s =>
    match s.entryFails n e rd b with
    | (some st, s) => (some (i, st), s)
    | (none, s) => batchFails n e rd (i + 1) bs s

/-- An entry that changes its key. -/
def Ns.changes (n : Ns) (e : TagEntry) (b : BatchEntry) : Bool :=
  b.op != 3 || (n.seenBy b.key e.msg.stamp (tagSess e.id)).isSome

/-- Apply entries in order. -/
def batchApply (nsid : Nat) (e : TagEntry) : List BatchEntry → State → Except Nat Unit × State
  | [], s => (.ok (), s)
  | b :: bs, s =>
    let r := if b.op = 3 then s.removeKey nsid b.key e.msg.stamp (tagSess e.id)
      else s.storeKey nsid b.key b.value e.asn e.msg.stamp (tagSess e.id) true
    match r with
    | (.error st, s) => (.error st, s)
    | (.ok _, s) => batchApply nsid e bs s

/-- A prefix of a batch's changes tried. -/
def State.tryBatch (s : State) (n : Ns) (e : TagEntry) (bs : List BatchEntry) : Except Nat Unit × State :=
  s.tryWrite n true (batchApply n.nsid e bs)

/-- The index of the entry at which a failing batch fails: the first whose prefix fails (log entry 46). -/
def State.batchIndex (s : State) (n : Ns) (e : TagEntry) (all changed : List BatchEntry) : Nat :=
  let fails := fun k => match (s.tryBatch n e (changed.take (k + 1))).1 with
    | .error _ => true
    | .ok _ => false
  let k := ((List.range changed.length).find? fails).getD (changed.length - 1)
  (all.findIdx? fun b => some b == changed[k]?).getD 0

/-- The search of the classifier for each entry of a BATCH (R223). -/
def classifyAll (nsid : Nat) : List BatchEntry → State → List Classified × State
  | [], s => ([], s)
  | b :: bs, s =>
    match s.classify nsid b.key with
    | (c, s) =>
      match classifyAll nsid bs s with
      | (cs, s) => (c :: cs, s)

/-- The entries of a BATCH that change their key, each with its classification. -/
def State.batchChanges (_ : State) (e : TagEntry) (n : Ns) : List (BatchEntry × Classified) :=
  (List.zip e.msg.batch (e.classed ++ List.replicate e.msg.batch.length ⟨0, 0, 0, 0⟩)).filter fun x => n.changes e x.1

/-- A BATCH whose entries all pass is applied in one journal commit; each entry's effect goes to the members of its own
mirror set (R223). -/
def batchCommit (e : TagEntry) (n : Ns) (s : State) : State :=
  let changed := s.batchChanges e n
  let bs := changed.map fun x => x.1
  if changed.isEmpty then s.commitNone n e (doneWith stOK e.asn []) (e.classed.map fun c => c.mirror)
  else
    let w := s.tryBatch n e bs
    let fail := match w.1 with
      | .error _ => beBytes 2 (s.batchIndex n e e.msg.batch bs)
      | .ok _ => []
    let w := (w.1, match w.1 with
      | .error _ => w.2
      | .ok _ => changed.foldl (fun s x => if x.1.op = 3 then s else s.setTier n.nsid x.1.key x.2.tier) w.2)
    State.settle w n e fail []
      (changed.map fun x => (x.2.mirror, .keys [⟨x.1.key, if x.1.op = 3 then none else some x.1.value⟩]))

/-- An entry below number `i` fails for lack of space (R175): the status and the index of the first, since the
lowest-numbered entry that would fail decides (R173). -/
def State.spaceFails (s : State) (n : Ns) (e : TagEntry) (i : Nat) : Option (Nat × Nat) :=
  let bs := (e.msg.batch.take i).filter (n.changes e)
  match (s.tryBatch n e bs).1 with
  | .error st =>
    if bs.isEmpty ∨ (st ≠ stNsFull ∧ st ≠ stDevFull) then none else some (s.batchIndex n e e.msg.batch bs, st)
  | .ok _ => none

def batchBody (rd : MediaReads) (pause : Bool) (e : TagEntry) (n : Ns) (s : State) : State :=
  match batchFails n e rd 0 e.msg.batch s with
  | (some (i, st), t) =>
    match s.spaceFails n e i with
    | some (k, st) => s.finish e st (beBytes 2 k)
    | none => t.finish e st (beBytes 2 i)
  | (none, s) => if pause then s else batchCommit e n s

def execBatch (t : TagId) (rd : MediaReads) (pause : Bool) (s : State) : Host.Outcome State Fault Refusal :=
  s.done (s.runNs t 0x09 fun e n s => s.withDisk e n fun s =>
    s.startWrite n e (classifyAll n.nsid e.msg.batch) fun e s => batchBody rd pause e n s)

/-! ## APPEND (Table 01-8, R384 to R386) -/

/-- The retention class of a record: the classification's, else the descriptor's (R223). -/
def TagEntry.rclassIn (e : TagEntry) (n : Ns) : Nat :=
  match e.classed with
  | c :: _ => if c.rclass = 0 then n.rclass else c.rclass
  | [] => n.rclass

/-- The watch group of an APPEND's classification. -/
def TagEntry.watchGroup (e : TagEntry) : Nat :=
  match e.classed with
  | c :: _ => c.watch
  | [] => 0

/-- The header of the record that an APPEND stores. -/
def TagEntry.hdrIn (e : TagEntry) (n : Ns) (k : Bytes) : RecordHdr :=
  (n.streamOr e.msg.key).nextHdr k e.asn e.stepTime (e.rclassIn n) false e.msg.value

/-- The record tried: before step 2 its failure consumes no sequence number. -/
def State.tryAppend (s : State) (n : Ns) (e : TagEntry) (k : Bytes) : Except Nat Unit × State :=
  let len := e.msg.value.length
  if s.noHash then (.error stInternal, s)
  else s.tryWrite n true fun s => (s.hashed (len + 60)).storeRecord n.nsid e.msg.key (e.hdrIn n k) e.msg.value e.tier

/-- The record stored, the watches run, the receipt fixed. A failure after step 2 leaves a void record (R32). -/
def appendCommit (e : TagEntry) (n : Ns) (s : State) : State :=
  match s.slotKey n.sealSlot with
  | none => (s.voidRecord e).finish e stSlotEmpty []
  | some k =>
    let h := e.hdrIn n k
    match s.tryAppend n e k with
    | (.error st, s) => (s.voidRecord e).finish e st []
    | (.ok _, s) =>
      let s := s.count Reg.SEA.APPENDS 1
      let s := s.runWatches n.nsid e.msg.key e.watchGroup h.seq e.asn e.msg.value
      s.commitWrite n e (doneData stOK e.asn (beBytes 8 h.seq) (leBytes 8 h.seq ++ h.chain ++ h.cmac))
        [(e.mirror, .record e.msg.key h e.msg.value)]

/-- Steps 1 and 2: the checks, then the sequence number. -/
def appendBody (pause : Bool) (e : TagEntry) (n : Ns) (s : State) : State :=
  if e.seqNo.isSome then (if pause then s else appendCommit e n s)
  else
    match s.slotKey n.sealSlot with
    | none => s.finish e stSlotEmpty []
    | some k =>
      let seq := (n.streamOr e.msg.key).nextSeq
      if seq = 2 ^ 64 - 1 then s.finish e stNsFull []
      else
        s.startWrite n { e with stepTime := s.sea.time } (classifyKey n.nsid e.msg.key) fun e s =>
          match (s.tryAppend n e k).1 with
          | .error st => s.finish e st []
          | .ok _ =>
            let e := { e with seqNo := some seq }
            let s := s.setEntry e
            if pause then s else appendCommit e n s

def execAppend (t : TagId) (pause : Bool) (s : State) : Host.Outcome State Fault Refusal :=
  s.done (s.runNs t 0x08 (appendBody pause))

/-! ## FLUSH (R185) -/

/-- What the buffer holds of posted writes in the scope of a FLUSH: its namespace, or every one with NSID 0. A write not
yet posted is outside it. -/
def State.flushed (s : State) (nsid : Nat) : Bool :=
  let mine := fun (k : Nat) => nsid == 0 || k == nsid
  let unposted := fun (x : Extent) => s.cmd.tags.any fun e => e.state == .committed && e.msg.nsid == x.nsid && e.asn == x.asn
  !(s.kv.extents.any fun x => x.inUse && x.buffered && mine x.nsid && !unposted x) &&
    !(s.kv.leaves.any fun l => l.buffered && mine l.nsid)

/-- FLUSH: a namespace that a NS_DELETE before it has deleted is unknown (R176). -/
def flushBody (e : TagEntry) (s : State) : State :=
  if e.msg.nsid ≠ 0 ∧ (s.ns? e.msg.nsid).isNone then s.finish e stNsUnknown []
  else
    let s := s.drain
    if s.flushed e.msg.nsid then s.finish e stOK [] else s

def execFlush (t : TagId) (s : State) : Host.Outcome State Fault Refusal := s.done (s.runCmd t 0x0A flushBody)

/-! ## ABORT (R186, R187) -/

/-- A verification that is cut off: the staging is COMPLETE again (R441, Table 18-11). -/
def Fw.stopVerify (f : Fw) : Fw :=
  { f with staging := f.staging.map fun g => if g.stage = 3 then { g with stage := 2, vstep := 0 } else g }

/-- Whatever an entry waits on lets go of it. -/
def State.detach (s : State) (t : TagId) : State :=
  let keep := fun (p : CfgPending) => p.waiter != Waiter.tag t
  let mine := fun (m : OutMsg) => m.tag == some t
  let swaps := (s.entry? t).any fun e => e.msg.opcode == 0x64 || e.msg.opcode == 0x66
  { s with cmd := { s.cmd with paused := s.cmd.paused && !swaps }
           cfg := { s.cfg with under := s.cfg.under.filter keep, waiting := s.cfg.waiting.filter keep }
           dev := let left := s.dev.enterTags.filter fun x => x != t
                  if s.dev.enterTags = left then s.dev
                  else { s.dev with enterTags := left, entering := if left.isEmpty then none else s.dev.entering }
           fw := if s.fw.activating = some t then { s.fw with activating := none }
                 else if (s.entry? t).any fun e => e.msg.opcode == 0x63 then s.fw.stopVerify
                 else s.fw
           cry := { s.cry with suspended := s.cry.suspended.filter fun x => some x.order ≠ (s.entry? t).map TagEntry.order }
           fab := { s.fab with outMsgs := updWhere mine (fun m => { m with tag := none }) s.fab.outMsgs } }

/-- A live command is stopped: `ABORTED`, APPLIED telling whether its effect stands; an APPEND whose sequence number was
assigned leaves a void record (R187). -/
def State.stopEntry (s : State) (e : TagEntry) : State :=
  if e.state = .committed then ((s.camEnd e).purgeStop e).finish e stAborted [1]
  else ((if e.msg.opcode = 0x08 then s.voidRecord e else s).detach e.id).finish e stAborted [0]

/-- The message that a FAB_FORWARD has outstanding. -/
def State.forwardOf (s : State) (t : TagId) : Option OutMsg :=
  s.fab.outMsgs.find? fun m => m.tag == some t && m.ftype == 0x03

def abortBody (e : TagEntry) (s : State) : State :=
  let sid := beAt e.msg.param 0 2 % 4096
  let t : TagId := ⟨.session sid, beAt e.msg.param 2 2⟩
  if e.cls = .data ∧ e.id.ctx ≠ .session sid then s.finish e stNotPermitted []
  else
    match s.entry? t with
    | none => s.finish e stTooLate []
    | some f =>
      if f.msg.opcode = 0x0B ∨ f.msg.opcode = 0x45 then s.finish e stBadField []
      else if f.state = .posted then s.finish e stTooLate []
      else
        match s.forwardOf t with
        | some m => s.fabRequest m.dst 0x08 (.abortRelay m.msgId) (some e.id) 0 0
        | none => (s.stopEntry f).finish e stOK []

def execAbort (t : TagId) (s : State) : Host.Outcome State Fault Refusal := s.done (s.runCmd t 0x0B abortBody)

/-! ## Multi-part objects (R174) -/

/-- An upload opened: its identifier and the extents it reserves. -/
def State.newUpload (s : State) (n : Ns) (e : TagEntry) : Upload :=
  let total := beAt e.msg.param 0 8
  let mib := beAt e.msg.param 8 1
  ⟨s.cmd.nextUpload, n.nsid, e.msg.key, total, mib, s.freshExtents (partCount total mib), [], 0, 0⟩

/-- The opening of an upload tried. -/
def State.tryPartBegin (s : State) (n : Ns) (e : TagEntry) : Except Nat Unit × State :=
  let u := s.newUpload n e
  s.tryWrite n true fun s =>
    (.ok (), { s with cmd := { s.cmd with uploads := s.cmd.uploads ++ [u], nextUpload := u.id + 1 } })

def partBeginCommit (e : TagEntry) (n : Ns) (s : State) : State :=
  if 1024 ≤ s.cmd.uploads.length then s.finish e stBusy []
  else
    match s.tryPartBegin n e with
    | (.error st, s) => s.finish e st []
    | (.ok _, w) => w.commitEntry e (doneWith stOK e.asn (beBytes 8 s.cmd.nextUpload)) (mediaCmd n e.msg) [] false

def execPartBegin (t : TagId) (pause : Bool) (s : State) : Host.Outcome State Fault Refusal :=
  s.done (s.runNs t 0x0C fun e n s => if pause then s else partBeginCommit e n s)

/-- The length of a part of an upload. -/
def Upload.partLen (u : Upload) (k : Nat) : Nat := min (u.partMib * 1048576) (u.totalLen - k * (u.partMib * 1048576))

def State.setUpload (s : State) (u : Upload) : State :=
  { s with cmd := { s.cmd with uploads := putWhere (fun x => x.id == u.id) u s.cmd.uploads } }

/-- One part stored. -/
def State.storePart (s : State) (t : TagId) (n : Ns) (u : Upload) (k : Nat) (value : Bytes) (asn : Nat) :
    Except Nat Unit × State :=
  let s := s.freeExtents [u.firstExtent + k]
  match s.makeExtent n (u.firstExtent + k) 0 u.key value asn 0 0 with
  | (.error st, s) => (.error st, s)
  | (.ok _, w) => (.ok (), (s.capacity90 (w.streamExtent t (u.firstExtent + k) false)).setUpload
      { u with stored := if u.stored.contains k then u.stored else u.stored ++ [k], idleDays := 0 })

/-- The store of a part tried. -/
def State.tryPart (s : State) (n : Ns) (e : TagEntry) (u : Upload) : Except Nat Unit × State :=
  s.tryWrite n true fun s => s.storePart e.id n u (beAt e.msg.param 8 4) e.msg.value e.asn

def partPutCommit (e : TagEntry) (n : Ns) (s : State) : State :=
  let k := beAt e.msg.param 8 4
  match s.upload? (beAt e.msg.param 0 8) with
  | none => s.finish e stBadField []
  | some u =>
    if u.nsid ≠ n.nsid ∨ partCount u.totalLen u.partMib ≤ k then s.finish e stBadField []
    else if e.msg.value.length ≠ u.partLen k then s.finish e stBadValueLen []
    else
      match s.tryPart n e u with
      | (.error st, s) => s.finish e st []
      | (.ok _, s) => s.commitEntry e (doneWith stOK e.asn []) (mediaCmd n e.msg) [] false

def execPartPut (t : TagId) (pause : Bool) (s : State) : Host.Outcome State Fault Refusal :=
  s.done (s.runNs t 0x0D fun e n s => if pause then s else partPutCommit e n s)

/-- The lowest part of an upload that is not stored. -/
def Upload.missing (u : Upload) : Option Nat :=
  (List.range (partCount u.totalLen u.partMib)).find? fun k => !u.stored.contains k

/-- The upload's parts become the key's value and the upload ends. -/
def State.joinParts (s : State) (nsid : Nat) (u : Upload) (stamp session : Nat) : Except Nat Unit × State :=
  match s.ns? nsid with
  | none => (.error stNsUnknown, s)
  | some n =>
    match s.nonceStatus 3 with
    | some st => (.error st, s)
    | none =>
      let l : Loc := if u.totalLen = 0 then .inline [] else .object u.firstExtent u.totalLen u.partMib
      let p := n.withRec u.key ⟨stamp, session, false, l⟩
      let s := { s with cmd := { s.cmd with uploads := dropWhere (fun x => x.id == u.id) s.cmd.uploads } }
      s.putRecs n u.key p.1 p.2 true

/-- The bytes of stored parts, for a mirror. -/
def State.joined (s : State) (u : Upload) : Bytes :=
  (s.readLoc asWritten (.object u.firstExtent u.totalLen u.partMib) 0 u.totalLen).1.bytes

/-- The joining of an upload's parts tried. -/
def State.tryJoin (s : State) (n : Ns) (e : TagEntry) (u : Upload) (tier : Nat) : Except Nat Unit × State :=
  s.tryWrite n true fun s =>
    match s.joinParts n.nsid u e.msg.stamp (tagSess e.id) with
    | (.ok x, s) => (.ok x, s.setTier n.nsid u.key tier)
    | x => x

def partCommitCommit (e : TagEntry) (n : Ns) (s : State) : State :=
  match s.upload? (beAt e.msg.param 0 8) with
  | none => s.finish e stBadField []
  | some u =>
    if u.nsid ≠ n.nsid then s.finish e stBadField []
    else
      match u.missing with
      | some k => s.finish e stBadField (beBytes 4 k)
      | none =>
        if e.msg.createOnly && (n.seenBy u.key e.msg.stamp (tagSess e.id)).isSome then s.finish e stKeyExists []
        else
          State.settle (s.tryJoin n e u e.tier) n e [] [] [(e.mirror, .keys [⟨u.key, some (s.joined u)⟩])]

def execPartCommit (t : TagId) (pause : Bool) (s : State) : Host.Outcome State Fault Refusal :=
  s.done (s.runNs t 0x0E fun e n s =>
    let search := match s.upload? (beAt e.msg.param 0 8) with
      | some u => classifyKey n.nsid u.key
      | none => fun s => ([], s)
    s.startWrite n e search fun e s => if pause then s else partCommitCommit e n s)

/-! ## Watches (R252 to R254) -/

/-- EVENT_NS is a mutable ARRIVAL namespace. -/
def State.eventNsOk (s : State) (id : Nat) : Bool :=
  match s.ns? id with
  | some n => n.kind == .mutable_ && !n.stamped
  | none => false

/-- The counters that a rebind keeps (R253). -/
def keptCtrs (old new_ : Nat) (ctrs : List Nat) : List Nat :=
  (List.range 8).map fun k => if k < min old new_ then ctrs.getD k 0 else 0

def watchArmBody (e : TagEntry) (n : Ns) (s : State) : State :=
  let p := e.msg.param
  let id := beAt p 0 2
  let rebind := bitOf (beAt p 8 1) 0
  let old := s.pat.watches.find? fun w => w.nsid == n.nsid && w.id == id
  if id = 0 ∨ old.isSome ≠ rebind ∨ !s.eventNsOk (beAt p 4 2) then s.finish e stBadField []
  else
    match s.imageVer? (beAt p 2 2) e.version with
    | none => s.finish e stPatternInvalid []
    | some img =>
      match old with
      | none =>
        if 4096 ≤ s.pat.watches.length then s.finish e stPatternFull []
        else if s.flash.readOnly then s.finish e stWorn []
        else
          let w : Watch := ⟨n.nsid, id, img.id, img.version, beAt p 4 2, beAt p 6 2, e.msg.key, e.asn⟩
          { s with pat := { s.pat with watches := s.pat.watches ++ [w] } }.finish e stOK []
      | some w =>
        if s.flash.readOnly then s.finish e stWorn []
        else
          let oldN := match s.imageVer? w.imageId w.version with
            | some i => imgCounters i.bytes
            | none => 0
          let mine := fun (x : Watch) => x.nsid == n.nsid && x.id == id
          let w' := { w with imageId := img.id, version := img.version, armAsn := e.asn }
          let keep := fun (x : WatchState) => { x with counters := keptCtrs oldN (imgCounters img.bytes) x.counters }
          let own := fun (x : WatchState) => x.nsid == n.nsid && x.id == id
          let s := { s with pat := { s.pat with watches := putWhere mine w' s.pat.watches
                                                states := updWhere own keep s.pat.states } }
          (s.freeImages).finish e stOK []

def execWatchArm (t : TagId) (s : State) : Host.Outcome State Fault Refusal := s.done (s.runNs t 0x10 watchArmBody)

def watchDisarmBody (e : TagEntry) (n : Ns) (s : State) : State :=
  let id := beAt e.msg.param 0 2
  if s.pat.watches.any fun w => w.nsid == n.nsid && w.id == id then
    if s.flash.readOnly then s.finish e stWorn []
    else
      let watches := s.pat.watches.filter fun w => !(w.nsid == n.nsid && w.id == id)
      let states := s.pat.states.filter fun x => !(x.nsid == n.nsid && x.id == id)
      { s with pat := { s.pat with watches := watches, states := states } }.freeImages.finish e stOK []
  else s.finish e stBadField []

def execWatchDisarm (t : TagId) (s : State) : Host.Outcome State Fault Refusal :=
  s.done (s.runNs t 0x11 watchDisarmBody)

/-! ## PURGE_EXPIRED (R394, R395) -/

/-- A purge without a pause runs to its end. -/
def purgeCommit (e : TagEntry) (n : Ns) (s : State) : State :=
  let s := purgeFirst e n s
  match s.entry? e.id with
  | some e => s.purgeEnd e
  | none => s

def execPurgeExpired (t : TagId) (pause : Bool) (s : State) : Host.Outcome State Fault Refusal :=
  s.done (s.runNs t 0x12 fun e n s =>
    s.startWrite n e (fun s => ([], s)) fun e s => if pause then s else purgeCommit e n s)

/-! ## Commit points and posting -/

/-- The commit point of an executing write. -/
def commitBody (e : TagEntry) (n : Ns) (s : State) : State :=
  match e.msg.opcode with
  | 0x02 => putCommit e n s
  | 0x03 => deleteCommit e n s
  | 0x04 => casCommit e n s
  | 0x08 => appendCommit e n s
  | 0x09 => batchCommit e n s
  | 0x0C => partBeginCommit e n s
  | 0x0D => partPutCommit e n s
  | 0x0E => partCommitCommit e n s
  | 0x12 => purgeFirst e n s
  | _ => s

/-- COMMIT_POINT_PASSED (R166): a write that has started passes its commit point. -/
def execCommitPointPassed (t : TagId) (s : State) : Host.Outcome State Fault Refusal :=
  s.done (match s.entry? t with
    | some e =>
      if e.state = .executing ∧ (s.dev.phase = .service ∨ s.dev.phase = .stalemate) then
        if e.msg.opcode = 0x59 then
          (if 1 ≤ (camCmd e.msg.param).op ∧ (camCmd e.msg.param).op ≤ 4 then camCommit e s else s)
        else
          match s.ns? e.msg.nsid with
          | some n => commitBody e n s
          | none => s
      else s
    | none => s)

/-- COMMAND_POSTED (R183, R184): a committed command whose acknowledgement condition holds is posted, a purge once its other
streams have been purged. -/
def State.acknowledgeTag (s : State) (t : TagId) : State :=
  match s.entry? t with
  | some e => s.acknowledge e
  | none => s

def execCommandPosted (t : TagId) (s : State) : Host.Outcome State Fault Refusal :=
  s.done (match s.entry? t with
    | some e => if e.purging.isSome then (s.purgeEnd e).acknowledgeTag t else s.acknowledge e
    | none => s)

end Sys2Proof.Machine
end

