-- ==== Sys2Proof/Machine/Flags.lean ====
section
/-! DEFINITION. What the registers that show a count, a state or a level read as: computed from the state that has it,
over the stored words (chapters 03 to 20). Status bits, power domains (R69 to R71, R118, R119) and the condition of
ALERT_N (R120) are computed here too. -/

namespace Sys2Proof.Machine

open Sys2Proof

/-! ## Host ports (R136, R137, R108) -/

/-- The mode of a quad (Table 06-1). -/
def State.quadMode (s : State) (q : Nat) : Nat :=
  if q = 0 then s.rd Reg.NET_PORTMODE.QUAD0 else s.rd Reg.NET_PORTMODE.QUAD1

/-- Lanes of one port in a mode. -/
def modeLanes (m : Nat) : Nat := if m = 1 then 4 else if m = 2 then 2 else 1

/-- The port of a lane: its lowest lane; none where the quad is off, and outside port 0 except in the Fabric profile
(R137, R108). -/
def State.laneParent (s : State) (lane : Nat) : Option Nat :=
  let m := s.quadMode (lane / 4)
  if m = 0 ∨ 4 < m then none
  else
    let p := lane - lane % modeLanes m
    if s.fabric ∨ p = 0 then some p else none

/-- The state of a port. -/
def State.port (s : State) (p : Nat) : Port := s.ports.getD p Port.down

/-- A port exists in the modes in force. -/
def State.portExists (s : State) (p : Nat) : Bool := decide (p < 8) && s.laneParent p == some p

/-- SPEED of a port's mode. -/
def modeSpeed (m : Nat) : Nat := if m = 1 then 4 else if m = 2 then 3 else if m = 3 then 2 else if m = 4 then 1 else 0

/-! ## Power domains (R69, R70) -/

/-- A tile belongs to a table that holds a valid entry in it (R227). -/
def State.tileTable (s : State) (t : Nat) : Option Nat :=
  ([0, 1, 2, 8, 9, 10, 11, 12, 13, 14, 15] : List Nat).find? fun k =>
    let c := s.tableCfg k
    decide (c.first ≤ t) && decide (t < c.first + c.tiles)

/-- Valid entries of a tile. -/
def State.tileValid (s : State) (t : Nat) : Nat :=
  match s.tileTable t with
  | none => 0
  | some k =>
    let c := s.tableCfg k
    ((s.table k).filter fun x => x.2.isSome && x.1 / c.perTile + c.first == t).length

/-- A command waits or executes whose opcode is one of those given: work queued for a domain (R70). -/
def State.queuedFor (s : State) (p : Nat → Bool) : Bool :=
  (s.cmd.tags.any fun e => e.state != .posted && p e.msg.opcode) || (s.cmd.queue.any fun q => p q.msg.opcode)

/-- The power state, or the work queued, holds a domain on (R70, Tables 03-5 and 03-6; log entry 47): the automata lanes
for scans and watched APPENDs, and, where SLEEP turns the crypto complex off, its cores for any command, suspended
operation or held plaintext. -/
def State.needs (s : State) (d : Nat) : Bool :=
  let awake := s.dev.power == .active || s.dev.power == .idle
  match s.dev.phase with
  | .unpowered | .railFault _ | .starting _ | .railsLost | .hibernate => false
  | _ =>
    let full := s.dev.phase != .drained true
    let crypto := s.dev.power != .sleep || !s.framesHeld.isEmpty || !s.cry.suspended.isEmpty || s.queuedFor fun _ => true
    if d < 8 then (s.laneParent d).isSome
    else if d < 16 then s.fabric
    else if d < 48 then full && s.flash.channels.getLsbD (d - 16)
    else if d < 72 then full && s.dev.spinning
    else if d < 76 then full && s.dev.spinning
    else if d < 108 then
      (full || (d == 76 && s.fabric)) && decide (s.tileValid (d - 76) ≠ 0) && !s.cam.retained.contains (d - 76)
    else if d < 124 then full && (awake || s.queuedFor fun o => o == 0x07 || o == 0x08)
    else if d < 132 then full && crypto
    else if d < 140 then true
    else if d < 164 then s.dev.power != .sleep
    else if d < 168 then full && s.dev.power != .sleep
    else if d < 188 then s.dev.power != .sleep
    else if d < 194 then true
    else if d = 194 then s.fabric
    else full && crypto

/-- The domains that a page acts on (R118). -/
def pageDomains (block page : Nat) : List Nat :=
  let all := decide (page = 0)
  let i := page - 1
  match block with
  | 4 => if all then List.range 8 else if 2 ≤ i then [i - 2] else []
  | 5 => if all then List.range' 190 4 else [190 + i]
  | 7 => if all then List.range' 140 16 else [140 + i]
  | 8 => if all then List.range' 76 32 else [76 + i]
  | 9 => if all then List.range' 108 16 else [108 + i]
  | 10 => if all then List.range' 16 32 else [16 + i]
  | 11 => if all then List.range' 72 4 else [72 + i]
  | 12 => if all then List.range' 48 24 else [48 + i]
  | 13 => if all then List.range' 124 8 ++ [195] else [124 + i]
  | 16 => if all then List.range' 8 8 ++ [194] else [8 + 2 * i, 9 + 2 * i]
  | 18 => if all then [188, 189] else [188 + i]
  | _ => []

/-- Pages that PWR_REQ requests on or off. -/
def State.pagesAsking (s : State) (bit : Nat) : List Nat :=
  (s.regs.filter fun p => addrOff p.1 == hPwrReq && p.2.getLsbD bit).map fun p => p.1 - hPwrReq

/-- A domain is powered (R70): held by the state or its work, by REQ_ON of a page, or by an access (R119). -/
def State.domainOn (s : State) (d : Nat) : Bool :=
  s.needs d || s.dev.domAccess.getLsbD d ||
    (s.pagesAsking 0).any fun a => (pageDomains (addrBlock a) (addrPage a)).contains d

/-- Every domain of a page is powered. -/
def State.pagePowered (s : State) (block page : Nat) : Bool := (pageDomains block page).all s.domainOn

/-- A recorded request to power off waits (R71). -/
def State.reqPending (s : State) (block page : Nat) : Bool :=
  (s.word (pageAddr block page + hPwrReq)).getLsbD 1 && (pageDomains block page).any s.needs

/-! ## Pending events and ALERT_N (R120, R121) -/

/-- An event is pending on some page of a block. -/
def State.blockPending (s : State) (b : Nat) : Bool :=
  s.regs.any fun p => addrOff p.1 == hEvtStat && addrBlock p.1 == b &&
    decide (p.2 &&& s.word (p.1 - hEvtStat + hEvtEn) ≠ 0)

/-- EVT_BLOCKS. -/
def State.evtBlocks (s : State) : Nat :=
  (List.range 21).foldl (fun n b => n + (if s.blockPending b then 2 ^ b else 0)) 0

/-- ALERT_N is asserted (R120, Table 02-12): in stalemate, in a rail fault, while a boot ROM waits for the debug port (R63,
Table 15-7), and for events; it is released while the outputs are in their reset state (R53, R54). -/
def State.alertN (s : State) : Bool :=
  match s.dev.phase with
  | .railFault _ | .bootWait => true
  | .starting _ | .testMode | .unpowered => false
  | _ => (s.rdB Reg.ALERT_CFG.ALERT_EN && decide (s.evtBlocks ≠ 0)) || s.inStale

/-- LED_FLT_N is asserted (Table 02-12): in stalemate (R111), and not while the outputs are in their reset state or in
HIBERNATE; elsewhere it follows faults that the spec does not list: a free value (log entry 143). -/
def State.ledFault (s : State) : Bool :=
  if s.inStale then true
  else match s.dev.phase with
  | .stalemate => true
  | .unpowered | .railFault _ | .starting _ | .testMode | .railsLost | .hibernate => false
  | .bootWait | .service | .drained _ => Config.freeBool s.free

/-- The switched rails are down, so that nothing but the always-on island runs. -/
def State.railsDown (s : State) : Bool :=
  match s.dev.phase with
  | .unpowered | .railFault _ | .railsLost | .hibernate => true
  | _ => false

/-- What each internal clock does (R67, Table 03-2). In ACTIVE, for which the table has no column, a clock runs as its
drives are in use (log entry 150). -/
def State.clock (s : State) (c : Clock) : ClockState :=
  let asleep := s.dev.power == .sleep
  let calm := s.dev.power == .idle || s.dev.power == .standby
  let logic := if asleep then ClockState.off else if calm then .gated else .runs
  let disk := if s.dev.spinning && !asleep && s.dev.power != .standby then ClockState.runs else .off
  if c = .aon then (if s.dev.phase = .unpowered then .off else .runs)
  else if s.railsDown then .off
  else match c with
    | .aon => .runs
    | .core | .srch | .pat | .cry | .fseq => logic
    | .servo | .hsyn _ => disk
    | .netMac => if asleep then .off else .runs
    | .netTransport => logic
    | .netRouter => if asleep && (!s.fabric || s.dev.routerQuiet) then .off else .runs
    | .dram | .flphy _ => if asleep then .off else .runs
    | .hostLane => if asleep then .lowPowerIdle else .runs
    | .fabricLane => if !s.fabric || (asleep && s.dev.routerQuiet) then .off else .runs

/-- PLL_N and PLL_FL are locked (R67): in SLEEP in the Fabric profile only. -/
def State.pllNet (s : State) : Bool := !s.railsDown && (s.dev.power != .sleep || s.fabric)

/-- The frequency source of CLK_AON in MHz × 1,000: the system reference, or the crystal in HIBERNATE (R67); with the
crystal stopped an internal oscillator stands in for it (R68). -/
def State.aonKhz (s : State) : Nat := if s.dev.phase = .hibernate then 32 else 100000

/-- The state of each signal group (R54, Table 02-12). -/
def State.signal (s : State) (g : SigGroup) : SigState :=
  let reset := match s.dev.phase with
    | .starting _ | .testMode | .bootWait => true
    | _ => s.dev.pinsHeld
  let sleep := s.dev.power == .sleep
  let down := s.railsDown
  let cell := fun (r stale deepest calm : SigState) =>
    if down then SigState.unpowered else if reset then r else if s.inStale then stale
    else if sleep then deepest else if s.dev.power == .standby then calm else .operating
  match g with
  | .flash => cell .inactive .readsOnly .static_ .operating
  | .hostLane => cell .electricalIdle .recoveryOnly .lowPowerIdle .operating
  | .unusedLane => if down then .unpowered else .electricalIdle
  | .fabricLane => if s.fabric then cell .electricalIdle .tethersOnly .tethersTransit .operating
      else if down then .unpowered else .electricalIdle
  | .dram => if s.dev.phase = .hibernate then .inactive else cell .inactive .operating .selfRefresh .operating
  | .readers => cell .ignored .operating .ignored .ignored
  | .wd => cell .parked .parked .parked .parked
  | .ma => cell .atMaref .operating .atMaref .atMaref
  | .paMot => if down then .inactive else cell .inactive .operating .inactive .operating
  | .spi => if down || reset || (sleep && !s.inStale) then .selectHigh else .operating
  | .smbus => if down || reset then .notAcknowledged else .served
  | .uartTx => if s.dev.phase = .bootWait then .operating else if down || reset then .high else .operating
  | .alertN => if s.alertN then .asserted else .released
  | .ledFltN => if s.ledFault then .asserted else .released

/-! ## Configuration (R106) -/

/-- What a copy holds, where its GENERATION is one that a valid commit carries (R106). -/
def CfgCommit.live (c : Option CfgCommit) : Option CfgCommit :=
  c.filter fun x => x.generation != 0 && x.generation != 0xFFFFFFFF

/-- The current copy: 0 or 1, and its commit. -/
def Cfg.current (c : Cfg) : Option (Nat × CfgCommit) :=
  match CfgCommit.live c.copy0, CfgCommit.live c.copy1 with
  | some a, some b => if a.generation < b.generation then some (1, b) else some (0, a)
  | some a, none => some (0, a)
  | none, some b => some (1, b)
  | none, none => none

/-! ## Slot record (R447, R448) -/

/-- What a copy holds, where its GENERATION is one that a valid copy carries. -/
def SlotRecord.live (r : Option SlotRecord) : Option SlotRecord :=
  r.filter fun x => x.generation != 0 && x.generation != 0xFFFFFFFF

/-- The current copy of the slot record: the higher generation; copy 0 among equals. -/
def Fw.current (f : Fw) : Option SlotRecord :=
  match SlotRecord.live f.rec0, SlotRecord.live f.rec1 with
  | some a, some b => if a.generation < b.generation then some b else some a
  | some a, none => some a
  | none, r => r

/-- A field of the current slot record. -/
def Fw.field (f : Fw) (g : SlotRecord → Nat) : Nat :=
  match f.current with
  | some r => g r
  | none => 0

/-- Chunks of a package of a length: 65,536 bytes each. -/
def chunkCount (len : Nat) : Nat := (len + 65535) / 65536

/-- A field of the staging session. -/
def Fw.stagingField (f : Fw) (g : Staging → Nat) : Nat :=
  match f.staging with
  | some r => g r
  | none => 0

/-- The lowest chunk that staging does not hold. -/
def Staging.firstMissing (g : Staging) : Nat :=
  ((List.range (chunkCount g.len)).find? fun k => !(g.chunks.any fun c => c.1 == k)).getD (chunkCount g.len)

/-- FIRST_MISSING of a completion or status record: 0xFFFF when no session exists (R438). -/
def Fw.firstMissing (f : Fw) : Nat :=
  match f.staging with
  | some g => g.firstMissing
  | none => 0xFFFF

/-! ## The event log's window (R465, Table 19-2) -/

/-- Every record held, oldest first. -/
def Log.held (l : Log) : List LogRec := l.flash ++ l.buffer ++ l.ring

/-- A record's 32 bytes. -/
def LogRec.bytes (r : LogRec) : Bytes :=
  leBytes 4 r.seq ++ leBytes 4 r.startNo ++ leBytes 8 r.time ++ leBytes 1 r.block ++ leBytes 1 r.inst ++
    leBytes 1 r.bit ++ leBytes 1 ((if r.enabled then 1 else 0) + (if r.forced then 2 else 0)) ++
    leBytes 2 r.status ++ leBytes 2 r.repeats ++ leBytes 8 r.detail

/-- One register of the log window. -/
def State.logWindow (s : State) (off : Nat) : Word :=
  let seq := (s.rd Reg.LOG_SEL.WORD + (off - 0x400) / 32) % 2 ^ 32
  match s.log.held.find? fun r => r.seq == seq with
  | some r => BitVec.ofNat 32 (leAt r.bytes (off % 32) 4)
  | none => 0

/-- SEQ of the oldest record held; LOG_NEXT when none is held. -/
def State.logFirst (s : State) : Nat :=
  match s.log.held with
  | [] => s.log.nextSeq
  | r :: rs => rs.foldl (fun m x => min m x.seq) r.seq

/-! ## Live fields -/

/-- A Bool as a field. -/
def bit (b : Bool) : Nat := if b then 1 else 0

/-- Low and high words of a number. -/
def lowWord (v : Nat) : Nat := v % 2 ^ 32
def highWord (v : Nat) : Nat := v / 2 ^ 32

/-- A signed value in a field of a width. -/
def signed (w : Nat) (v : Int) : Nat := (BitVec.ofInt w v).toNat

/-- Code of PWR_STATE. -/
def PowerMode.code : PowerMode → Nat
  | .active => 0
  | .idle => 1
  | .standby => 2
  | .sleep => 3
  | .hibernate => 4

/-- Spares as a percentage. -/
def pctOf (now init : Nat) : Nat := if init = 0 then 0 else min 100 (now * 100 / init)

/-- 32-bit words of a byte string. -/
def wordAt (b : Bytes) (k : Nat) : Nat := leAt b (4 * k) 4

/-- A head's writing is inhibited, for one of its own causes or one of its actuator's (R299). -/
def Head.barred (h : Head) : Bool := h.inhibit

/-- PWR (block 2). -/
def State.livePwr (s : State) (off : Nat) : List (Field × Nat) :=
  if off = 0x040 then
    let t := match s.dev.entering with
      | some m => m.code
      | none => 0
    [(Reg.PWR_STATE.STATE, t), (Reg.PWR_STATE.TARGET, t), (Reg.PWR_STATE.ENTERING, bit s.dev.entering.isSome),
     (Reg.PWR_STATE.SPINNING, bit s.dev.spinning)]
  else if off = 0x044 then [(Reg.PWR_CAP.EFF_CAP, min (s.rd Reg.PWR_CAP.CAP) s.dev.thermalLimit)]
  else if off = 0x058 then [(Reg.BAL_STAT.BAL_OK, bit s.bufferedOk)]
  else if 0x068 ≤ off ∧ off < 0x084 then
    let n := (off - 0x068) / 4
    [(Reg.DOM_STAT.DOM_ON, maskOf ((List.range 32).filter fun b =>
      decide (32 * n + b < 196) && s.domainOn (32 * n + b)))]
  else []

/-- RST (block 3). -/
def State.liveRst (s : State) (off : Nat) : List (Field × Nat) :=
  if off = 0x050 then
    [(Reg.CFG_STAT.CURRENT, match s.cfg.current with
      | some p => p.1
      | none => 0),
     (Reg.CFG_STAT.COPY0_VALID, bit (CfgCommit.live s.cfg.copy0).isSome),
     (Reg.CFG_STAT.COPY1_VALID, bit (CfgCommit.live s.cfg.copy1).isSome),
     (Reg.CFG_STAT.COMMIT_BUSY, bit !s.cfg.under.isEmpty)]
  else if off = 0x054 then [(Reg.CFG_GEN.GENERATION, match s.cfg.current with
      | some p => p.2.generation
      | none => 0)]
  else []

/-- NET (block 4): lane pages. -/
def State.liveNet (s : State) (page off : Nat) : List (Field × Nat) :=
  if off = 0x040 ∧ 3 ≤ page then
    let lane := page - 3
    match s.laneParent lane with
    | none => []
    | some p =>
      let x := s.port p
      [(Reg.LANE_STAT.LINK_UP, bit x.up), (Reg.LANE_STAT.SPEED, if x.up then modeSpeed (s.quadMode (lane / 4)) else 0),
       (Reg.LANE_STAT.AN_DONE, bit x.anDone), (Reg.LANE_STAT.PORT, p), (Reg.LANE_STAT.IN_PORT, 1),
       (Reg.LANE_STAT.LPI, bit (x.eee && s.dev.power == .sleep))]
  else []

/-- SKP and CMD (blocks 5 and 6). -/
def State.liveCmd (s : State) (block off : Nat) : List (Field × Nat) :=
  if block = 5 ∧ off = 0x044 then
    [(Reg.SKP_STAT.OPEN, s.sessions.length),
     (Reg.SKP_STAT.HALF_OPEN, (s.sessions.filter fun x => x.halfOpen).length)]
  else if block = 6 ∧ off = 0x040 then
    [(Reg.CMD_STAT.TAGS_LIVE, s.cmd.tags.length), (Reg.CMD_STAT.ADMIT_PAUSED, bit s.cmd.paused)]
  else if block = 6 ∧ off = 0x044 then
    [(Reg.CMD_QUEUE.QUEUED, s.cmd.queue.length), (Reg.CMD_QUEUE.UPLOADS, s.cmd.uploads.length)]
  else []

/-- Keys present, sealed streams and records, in all namespaces. -/
def State.keyTotal (s : State) : Nat := s.keysPresent
def State.streamTotal (s : State) : Nat := s.kv.namespaces.foldl (fun n x => n + x.streams.length) 0
def State.recordTotal (s : State) : Nat :=
  s.kv.namespaces.foldl (fun n x => n + x.streams.foldl (fun m t => m + t.recs.length) 0) 0

/-- DIR (block 7). -/
def State.liveDir (s : State) (off : Nat) : List (Field × Nat) :=
  if off = 0x04C then [(Reg.DIR_STAT.STATE, bit s.kv.rebuilding)]
  else if off = 0x050 then [(Reg.DIR_SEED.SEED_CHECK, lowWord (s.dirHash 0 []))]
  else if off = 0x06C then [(Reg.DIR_KEYS_LO.KEYS_LO, if s.flash.mounted then lowWord s.keyTotal else 0)]
  else if off = 0x070 then [(Reg.DIR_KEYS_HI.KEYS_HI, if s.flash.mounted then highWord s.keyTotal else 0)]
  else if off = 0x074 then [(Reg.DIR_EXTENTS.EXTENTS, s.extentsUsed)]
  else if off = 0x078 then [(Reg.DIR_LEAVES.LEAVES, s.kv.leaves.length)]
  else []

/-- CAM (block 8). -/
def State.liveCam (s : State) (page off : Nat) : List (Field × Nat) :=
  if page = 0 ∧ off = 0x080 then
    match s.cam.moving with
    | some (_, some (t, i)) => [(Reg.CAM_MOVE.TABLE, t), (Reg.CAM_MOVE.ACTIVE, 1), (Reg.CAM_MOVE.CURSOR, i)]
    | _ => []
  else if page = 0 ∧ 0x040 ≤ off ∧ off < 0x060 then
    let c := s.tableCfg ((off - 0x040) / 4)
    [(Reg.CAM_TBLR.FIRST_TILE, c.first), (Reg.CAM_TBLR.TILES, c.tiles), (Reg.CAM_TBLR.WIDTH, c.code)]
  else if page ≠ 0 ∧ off = 0x040 then
    let t := page - 1
    match s.tileTable t with
    | none => []
    | some k =>
      [(Reg.TILE_STAT.TABLE, k), (Reg.TILE_STAT.WIDTH, (s.tableCfg k).code),
       (Reg.TILE_STAT.RETAINED, bit (s.cam.retained.contains t && decide (s.tileValid t ≠ 0))),
       (Reg.TILE_STAT.NET_CLOCK, bit (decide (t = 0) && s.fabric)), (Reg.TILE_STAT.VALID, s.tileValid t)]
  else []

/-- PAT (block 9). -/
def State.livePat (s : State) (page off : Nat) : List (Field × Nat) :=
  if page ≠ 0 then []
  else if off = 0x044 then
    [(Reg.PAT_STORE.USED, s.pat.images.foldl (fun n i => n + (i.bytes.length + 4095) / 4096) 0),
     (Reg.PAT_STORE.IMAGES, (s.pat.images.filter fun i => i.current).length)]
  else if off = 0x048 then [(Reg.PAT_WATCH.ARMED, s.pat.watches.length)]
  else if off = 0x04C then [(Reg.PAT_WSTATES.STATES, s.pat.states.length)]
  else []

/-- TIER_STATE. -/
def State.tierState (s : State) : Nat :=
  if s.flash.unsupported then 3 else if !s.flash.mounted then 0 else if s.flash.readOnly then 2 else 1

/-- FLT (block 10). -/
def State.liveFlt (s : State) (page off : Nat) : List (Field × Nat) :=
  let f := s.flash
  if page ≠ 0 then
    if off = 0x040 then
      let ch := page - 1
      match f.found[ch]? with
      | none => []
      | some x =>
        [(Reg.FLT_CH_STAT.IN_SERVICE, bit (f.channels.getLsbD ch)),
         (Reg.FLT_CH_STAT.TRAINED, bit (s.flash.trains x)),
         (Reg.FLT_CH_STAT.IFACE, if x.answers then f.prof.iface else 0),
         (Reg.FLT_CH_STAT.RATE, s.flash.rateOf x), (Reg.FLT_CH_STAT.DIES, x.dies)]
    else []
  else
    match off with
    | 0x040 =>
      [(Reg.FLT_STATE.TIER_STATE, s.tierState),
       (Reg.FLT_STATE.CELL, match f.profile with
         | some p => if p.bits = 4 then 2 else 1
         | none => 0),
       (Reg.FLT_STATE.PARITY, bit (decide (4 ≤ f.chs.length))), (Reg.FLT_STATE.GC_MANDATORY, bit f.gcMandatory),
       (Reg.FLT_STATE.DEMOTING, bit f.demoting), (Reg.FLT_STATE.CH_COUNT, f.chs.length)]
    | 0x044 => [(Reg.FLT_CHAN.IN_SERVICE, f.channels.toNat)]
    | 0x048 => [(Reg.FLT.RAW_UNITS, f.raw)]
    | 0x04C => [(Reg.FLT.LOGICAL_UNITS, f.n)]
    | 0x050 => [(Reg.FLT.MAPPED_UNITS, f.mapped)]
    | 0x054 => [(Reg.FLT.SLC_TARGET, f.slcTarget)]
    | 0x058 => [(Reg.FLT.SLC_HELD, f.slcHeld)]
    | 0x05C => [(Reg.FLT.SPARE_INIT, f.spareInit)]
    | 0x060 => [(Reg.FLT_SPARE.SPARE_NOW, f.spareNow), (Reg.FLT_SPARE.SPARE_PCT, f.sparePct)]
    | 0x064 => [(Reg.FLT_WEAR0.EC_MIN, min 65535 f.eraseMin), (Reg.FLT_WEAR0.EC_MAX, min 65535 f.eraseMax)]
    | 0x068 => [(Reg.FLT_WEAR1.EC_MEAN, min 65535 f.eraseMean), (Reg.FLT_WEAR1.WEAR_PCT, f.wearPct)]
    | 0x098 => [(Reg.FLT.RETIRED, f.retired)]
    | _ => []

/-- SRV (block 11). -/
def State.liveSrv (s : State) (page off : Nat) : List (Field × Nat) :=
  let v := s.srv
  let on := fun (p : Head → Bool) => maskOf ((v.heads.filter p).map fun h => h.id)
  if page ≠ 0 then
    if off = 0x040 then
      let r := [(0, 5), (6, 10), (11, 16), (17, 21)].getD (page - 1) (0, 0)
      [(Reg.DSP_STAT.HEADS, maskOf ((List.range 22).filter fun h => decide (r.1 ≤ h) && decide (h ≤ r.2))),
       (Reg.DSP_STAT.VCM, bit (s.dev.spinning && (page == 2 || page == 4))),
       (Reg.DSP_STAT.LOAD_PCT, if v.disk = 4 then Config.freeNat s.free % 256 else 0)]
    else []
  else if off = 0x040 then
    [(Reg.SRV_STATE.DISK_STATE, v.disk), (Reg.SRV_STATE.WRITE_READY, bit v.writeReady),
     (Reg.SRV_STATE.FULL_CAL, bit v.fullCal), (Reg.SRV_STATE.HEADS_FOUND, s.cfg.hw.heads),
     (Reg.SRV_STATE.HEADS_IN_SERVICE, (v.heads.filter fun h => h.inService).length),
     (Reg.SRV_STATE.SPINUP_TRIES, v.tries)]
  else if off = 0x048 then [(Reg.SRV_HEADS.IN_SERVICE, on fun h => h.inService)]
  else if off = 0x04C then [(Reg.SRV_PART.PARTICIPATING, on fun h => h.partRev)]
  else if off = 0x050 then [(Reg.SRV_INHIBIT.WRITE_INHIBIT, on Head.barred)]
  else if 0x060 ≤ off ∧ off < 0x0B8 then
    match s.head? ((off - 0x060) / 4) with
    | none => []
    | some h =>
      [(Reg.HEAD_STAT.PES, signed 16 h.pes), (Reg.HEAD_STAT.STROKE, signed 14 (h.stroke / 4)),
       (Reg.HEAD_STAT.PART, bit h.part), (Reg.HEAD_STAT.INHIBIT, bit h.barred)]
  else []

/-- RDC (block 12). -/
def State.liveRdc (s : State) (page off : Nat) : List (Field × Nat) :=
  let r := s.rdc
  let v := s.srv
  if page ≠ 0 then
    if off = 0x040 then
      let i := page - 1
      if 22 ≤ i then [(Reg.RDC_CH_STAT.SPARE, 1), (Reg.RDC_CH_STAT.IN_SERVICE, 1)]
      else
        match s.head? i with
        | none => [(Reg.RDC_CH_STAT.HEAD, i)]
        | some h =>
          let z := zoneOf v.tracks (h.x / 1024)
          [(Reg.RDC_CH_STAT.HEAD, i), (Reg.RDC_CH_STAT.ZONE, z), (Reg.RDC_CH_STAT.RATE, 3600 - 24 * z),
           (Reg.RDC_CH_STAT.IN_SERVICE, bit h.inService)]
    else if off = 0x044 then
      match s.head? (page - 1) with
      | none => []
      | some h =>
        let w := calWeights h.cal (zoneOf v.tracks (h.x / 1024))
        [(Reg.CH_WEIGHT.WEIGHT_A, w.1), (Reg.CH_WEIGHT.WEIGHT_B, w.2)]
    else []
  else if off = 0x044 then [(Reg.RDC_SLOTS.SLOTS, r.slots)]
  else if off = 0x048 then [(Reg.RDC_FREE.FREE, r.freeSlots)]
  else if off = 0x04C then [(Reg.RDC_SPARE.SPARE_INIT, r.spareInit), (Reg.RDC_SPARE.SPARE_NOW, r.spareNow)]
  else if off = 0x050 then
    [(Reg.RDC_STATE.WRITE_STOP, bit r.writeStop), (Reg.RDC_STATE.CLEAN_MAND, bit r.cleanMand),
     (Reg.RDC_STATE.FORMATTED, bit r.formatted)]
  else []

/-- CRY (block 13). -/
def State.liveCry (s : State) (page off : Nat) : List (Field × Nat) :=
  let c := s.cry
  if page = 0 then
    if off = 0x040 then [(Reg.CRY_PHASE.PHASE, c.phase), (Reg.CRY_PHASE.SUSPEND_EN, bit (c.phase = 1))]
    else if off = 0x048 then [(Reg.CRY_DRBG.DRBG_STATE, c.drbg), (Reg.CRY_DRBG.ES_OK, bit c.esOk)]
    else if off = 0x04C then
      [(Reg.CRY_SVC.PAGES_OWNED, c.pages.length),
       (Reg.CRY_SVC.HELD_PLAIN, (c.pages.filter fun p => p.result.isSome && p.plain).length)]
    else []
  else if off = 0x040 then
    let core := page - 1
    let ready := decide (c.phase ≠ 0) && !c.coreOut.contains core
    if core < 6 then
      [(Reg.CORE_LOCK.IN_SERVICE, bit ready),
       (Reg.CORE_LOCK.SUSPENDED, (c.suspended.filter fun x => x.core == core).length)]
    else [(Reg.HASH_STAT.IN_SERVICE, bit ready)]
  else []

/-- KEY (block 14) and the key registers of AON (block 1). -/
def State.liveKey (s : State) (block page off : Nat) : List (Field × Nat) :=
  if block = 1 then
    if off = 0x100 then [(Reg.ENV_COUNT.COUNT, s.key.envCount), (Reg.ENV_COUNT.HOURS, s.key.envHours)]
    else if off = 0x104 then
      [(Reg.FUSE_STAT.KILL, bit s.key.fuses.kill), (Reg.FUSE_STAT.KILL_PENDING, bit s.key.killPending),
       (Reg.FUSE_STAT.ENROLLED, bit s.key.fuses.enrolled)]
    else if 0x138 ≤ off ∧ off < 0x158 then [(Reg.OPER_PK.OPER, wordAt s.key.fuses.operPk ((off - 0x138) / 4))]
    else []
  else if page = 0 then
    if off = 0x040 then
      [(Reg.KEY_STAT.PRESENT, (s.key.slots.filter fun x => x.2.present).length),
       (Reg.KEY_STAT.VAULT_OK, bit s.key.vaultOk), (Reg.KEY_STAT.ROOT_OK, bit s.key.rootOk)]
    else []
  else if 0x040 ≤ off ∧ off < 0x240 then
    let k := s.slot ((page - 1) * 128 + (off - 0x040) / 4)
    [(Reg.SLOT_INFO.GEN, k.gen), (Reg.SLOT_INFO.ATTR, k.attr.toNat)]
  else []

/-- Condition 3 of R393: powered hours since the last advance. -/
def State.advOk (s : State) : Bool := !s.sea.advMade || decide (24 ≤ s.sea.advHours)

/-- SEA (block 15). -/
def State.liveSea (s : State) (off : Nat) : List (Field × Nat) :=
  match off with
  | 0x040 => [(Reg.SEA_TIME_LO.DEV_TIME_LO, lowWord s.sea.time)]
  | 0x044 => [(Reg.SEA_TIME_HI.DEV_TIME_HI, highWord s.sea.time)]
  | 0x048 =>
    [(Reg.SEA_TIME_STAT.ADV_HOURS, if s.sea.advMade then min 24 s.sea.advHours else 24),
     (Reg.SEA_TIME_STAT.ADV_OK, bit s.advOk), (Reg.SEA_TIME_STAT.SLOW_COUNT, bit s.dev.crystalFail),
     (Reg.SEA_TIME_STAT.RESTORED, bit s.sea.restored)]
  | 0x04C => [(Reg.SEA_ADV_TOTAL.ADV_TOTAL, min (2 ^ 32 - 1) s.sea.advTotal)]
  | 0x050 => [(Reg.SEA_STREAMS.STREAMS, if s.flash.mounted then s.streamTotal else 0)]
  | 0x054 => [(Reg.SEA_RECORDS_LO.RECORDS_LO, lowWord s.recordTotal)]
  | 0x058 => [(Reg.SEA_RECORDS_HI.RECORDS_HI, highWord s.recordTotal)]
  | _ => []

/-- The link with a number. -/
def State.link (s : State) (l : Nat) : Link := (s.fab.links.find? fun x => x.id == l).getD (Link.down l)

/-- FAB (block 16). -/
def State.liveFab (s : State) (page off : Nat) : List (Field × Nat) :=
  let f := s.fab
  if page ≠ 0 then
    if off = 0x040 then
      let l := s.link (page - 1)
      [(Reg.LINK_STAT.LINK_STATE, if 2 ≤ l.state ∧ (s.dev.routerQuiet ∨ l.quietPeer) then 6 else l.state), (Reg.LINK_STAT.NEIGH_ADDR, match l.neigh with
        | some t => t.addr
        | none => 0)]
    else []
  else if off = 0x040 then [(Reg.FAB_ADDR.ADDRESS, f.addr), (Reg.FAB_ADDR.ADDR_VALID, bit f.addrValid)]
  else if off = 0x048 then
    [(Reg.FAB_SLED.UP, maskOf ((f.sled.filter fun x => x.present).map fun x => x.slot)),
     (Reg.FAB_SLED.GW, maskOf ((f.sled.filter fun x => x.present && x.gateway).map fun x => x.slot))]
  else if off = 0x04C then
    [(Reg.FAB_MIRROR.SETS, f.sets.length),
     (Reg.FAB_MIRROR.NOT_IN_SYNC, (f.members.filter fun m => m.state != .inSync).length)]
  else []

/-- UPD (block 17). -/
def State.liveUpd (s : State) (off : Nat) : List (Field × Nat) :=
  let f := s.fw
  match off with
  | 0x040 =>
    [(Reg.UPD_STAGE.STAGE, f.stagingField fun g => g.stage),
     (Reg.UPD_STAGE.FROM_HOST, f.stagingField fun g => bit g.fromHost),
     (Reg.UPD_STAGE.FROM_PEER, f.stagingField fun g => bit g.fromPeer),
     (Reg.UPD_STAGE.CHUNKS_TOTAL, f.stagingField fun g => chunkCount g.len)]
  | 0x044 =>
    [(Reg.UPD_CHUNKS.HELD, f.stagingField fun g => g.chunks.length),
     (Reg.UPD_CHUNKS.FIRST_MISSING, f.stagingField Staging.firstMissing)]
  | 0x048 =>
    [(Reg.UPD_SLOT.ACTIVE, f.field fun r => r.active), (Reg.UPD_SLOT.TRIAL, f.field fun r => bit r.trial),
     (Reg.UPD_SLOT.REVERTED, f.field fun r => bit r.reverted),
     (Reg.UPD_SLOT.FALLBACK, f.field fun r => bit r.fallback),
     (Reg.UPD_SLOT.TRIAL_STARTS, f.field fun r => r.trialStarts), (Reg.UPD_SLOT.A_RUNNABLE, bit f.aRunnable),
     (Reg.UPD_SLOT.B_RUNNABLE, bit f.bRunnable),
     (Reg.UPD_SLOT.TRIAL_HOURS, f.field fun r => min 24 (r.trialSeconds / 3600))]
  | 0x04C => [(Reg.UPD_GEN.GENERATION, f.field fun r => r.generation)]
  | 0x050 => [(Reg.UPD_VER_ACT.ACTIVE_FUNC, f.field fun r => if r.active = 0 then r.funcA else r.funcB)]
  | 0x054 => [(Reg.UPD_VER_STG.STAGED_FUNC, f.stagingField fun g => g.func)]
  | 0x058 =>
    [(Reg.UPD_SEC.FUSE_COUNT, s.key.fuses.rollback),
     (Reg.UPD_SEC.ACTIVE_SEC, f.field fun r => if r.active = 0 then r.secA else r.secB),
     (Reg.UPD_SEC.STAGED_SEC, f.stagingField fun g => g.sec)]
  | _ => []

/-- No challenge is issued (R470): a lockout, a DRBG that does not run, or the boot ROM's wait. -/
def State.noChallenge (s : State) : Bool := decide (s.dbg.lockout ≠ 0) || !s.drbgOk || decide (s.dev.phase = .bootWait)

/-- DBG (block 19). -/
def State.liveDbg (s : State) (off : Nat) : List (Field × Nat) :=
  let d := s.dbg
  if off = 0x040 then
    [(Reg.DBG_STAT.LEVEL, d.level), (Reg.DBG_STAT.PENDING, bit d.pending), (Reg.DBG_STAT.NO_CHALLENGE, bit s.noChallenge),
     (Reg.DBG_STAT.PINS_HELD, bit s.dev.pinsHeld), (Reg.DBG_STAT.BOOT_WAIT, bit (s.dev.phase = .bootWait)),
     (Reg.DBG_STAT.HALTED, maskOf ((d.cores.filter fun c => c.halted).map fun c => c.id)),
     (Reg.DBG_STAT.FAILS, min 31 d.fails), (Reg.DBG_STAT.LOCKOUT, d.lockout)]
  else []

/-- HLT (block 20). -/
def State.liveHlt (s : State) (off : Nat) : List (Field × Nat) :=
  match off with
  | 0x040 =>
    [(Reg.HLT_SUMMARY.READ_ONLY, bit s.flash.readOnly), (Reg.HLT_SUMMARY.DISK_WRITE_STOP, bit s.rdc.writeStop)]
  | 0x048 =>
    [(Reg.HLT_WEAR.FLASH_WEAR, s.flash.wearPct), (Reg.HLT_WEAR.FLASH_SPARE_PCT, s.flash.sparePct),
     (Reg.HLT_WEAR.DISK_SPARE_PCT, pctOf s.rdc.spareNow s.rdc.spareInit)]
  | 0x064 => [(Reg.LOG_NEXT.WORD, s.log.nextSeq)]
  | 0x068 => [(Reg.LOG_FIRST.WORD, s.logFirst)]
  | _ => []

/-- The computed fields of a block-specific register. -/
def State.liveFields (s : State) (block page off : Nat) : List (Field × Nat) :=
  match block with
  | 0 => if off = 0x054 then [(Reg.EVT_BLOCKS.PENDING, s.evtBlocks)] else []
  | 1 => s.liveKey 1 page off
  | 2 => s.livePwr off
  | 3 => s.liveRst off
  | 4 => s.liveNet page off
  | 5 => if page = 0 then s.liveCmd 5 off else []
  | 6 => s.liveCmd 6 off
  | 7 => if page = 0 then s.liveDir off else []
  | 8 => s.liveCam page off
  | 9 => s.livePat page off
  | 10 => s.liveFlt page off
  | 11 => s.liveSrv page off
  | 12 => s.liveRdc page off
  | 13 => s.liveCry page off
  | 14 => s.liveKey 14 page off
  | 15 => s.liveSea off
  | 16 => s.liveFab page off
  | 17 => s.liveUpd off
  | 19 => s.liveDbg off
  | 20 => s.liveHlt off
  | _ => []

/-- SMBus/MCTP may read, may write, pages of a block (Table 05-4, CAPS); clearing EVT_STAT under R130 is not counted
as writing the page (DEDUCED, log entry 50). -/
def mctpReads (block : Nat) : Bool := block != 14 && block != 19
def mctpWrites (block : Nat) : Bool := decide (block < 4) || block == 20

/-- What a header register reads as (Table 05-2). -/
def State.liveHeader (s : State) (block page off : Nat) : Word :=
  let a := pageAddr block page
  let w := s.word (a + off)
  let dom := bit !(pageDomains block page).isEmpty
  if off = hPageId then BitVec.ofNat 32 ((if page = 0 then 1 else 2) + 2 ^ 8 + (page - 1) * 2 ^ 16 + block * 2 ^ 24)
  else if off = hCaps then
    BitVec.ofNat 32 ((if page = 0 then instances block else 0) + dom * 2 ^ 6 + bit (mctpReads block) * 2 ^ 7 +
      bit (mctpWrites block) * 2 ^ 8)
  else if off = hStatus then
    BitVec.ofNat 32 (bit (s.pagePowered block page) + bit ((s.word (a + hErrCapt)).getLsbD 31) * 2 +
      bit (wordGet (s.word (a + hOwner)) 12 3 != 0) * 4)
  else if off = hPwrReq then wordPut w 8 1 (bit (s.reqPending block page))
  else if off = hCtrl ∨ off = hEvtForce then 0
  else if off ≤ hPwrReq then w
  else 0

/-- What a register reads as. -/
def State.live (s : State) (a : Nat) : Word :=
  let block := addrBlock a
  let page := addrPage a
  let off := addrOff a
  if off < 0x40 then s.liveHeader block page off
  else if block = 20 ∧ 0x400 ≤ off ∧ off < 0x800 then s.logWindow off
  else
    (s.liveFields block page off).foldl (fun w p => wordPut w p.1.lo p.1.width p.2) (s.word a)

end Sys2Proof.Machine
end

