-- ==== Sys2Proof/Machine/FabOps.lean ====
section
/-! DEFINITION. What the fabric families share (chapter 17): the torus, this device's place in it, its tethers, sled-map
entry and keeper record (R401 to R409, R431), and how a link sends, loses and resends flits (R403 to R406). -/

namespace Sys2Proof.Machine

open Sys2Proof

/-! ## The torus (R402) -/

/-- The slot at the far end of a link (Table 17-1). -/
def neighbourSlot (slot link : Nat) : Nat :=
  let x := slot % 4
  let y := slot / 4 % 4
  if link = 0 then (x + 1) % 4 + 4 * y
  else if link = 1 then (x + 3) % 4 + 4 * y
  else if link = 2 then x + 4 * ((y + 1) % 4)
  else x + 4 * ((y + 3) % 4)

/-- The neighbour's number of a link. -/
def oppositeLink (link : Nat) : Nat := if link % 2 = 0 then link + 1 else link - 1

/-- Hops between two coordinates of a ring of four, and between two slots. -/
def ringHops (a b : Nat) : Nat := min ((b + 4 - a) % 4) ((a + 4 - b) % 4)
def torusHops (a b : Nat) : Nat := ringHops (a % 4) (b % 4) + ringHops (a / 4 % 4) (b / 4 % 4)

/-! ## This device (R401, R419, R431) -/

/-- SLOT_ID as sampled at the start. -/
def State.ownSlot (s : State) : Nat := s.rd Reg.PROFILE.SLOT

/-- Kinds that leave the router island running (R92). -/
def StartKind.keepsIsland : StartKind → Bool
  | .pin | .watchdog | .controller | .debug => true
  | _ => false

/-- The router island holds power and keeps what it holds: in the Fabric profile, in service, in stalemate, in the drained
state and through a warm start of a kind that keeps it, a boot ROM's wait in it included (R92, R111). -/
def State.islandKept (s : State) : Bool :=
  s.fabric && (match s.dev.phase with
    | .service | .stalemate | .drained _ => true
    | .starting cold => !cold && s.dev.kind.keepsIsland
    | .bootWait => s.dev.kind.keepsIsland
    | _ => false)

/-- The fabric runs: the island is kept, and its lanes are not held in their reset state (R480). -/
def State.islandOn (s : State) : Bool := s.islandKept && !s.dev.pinsHeld

/-- The device is unjoined (R431). -/
def State.unjoined (s : State) : Bool :=
  !s.rdB Reg.FAB_CFG.JOINED || (s.inStale && s.rd Reg.STALE_STAT.REASON == 1)

/-- The device is a gateway (R419). -/
def State.isGateway (s : State) : Bool :=
  s.fabric && s.rdB Reg.NET_FAB.GATEWAY_EN && ((List.range 8).any fun p => s.portExists p && (s.port p).up)

/-- A link that is up (R406), and one that carries routed frames (R408). -/
def Link.isUp (l : Link) : Bool := decide (2 ≤ l.state)
def Link.trusted (l : Link) : Bool := l.state == 2
def State.trustedLinks (s : State) : List Nat := (s.fab.links.filter Link.trusted).map fun l => l.id

def State.setLink (s : State) (l : Link) : State :=
  { s with fab := { s.fab with links := updWhere (fun x => x.id == l.id) (fun _ => l) s.fab.links } }

/-- The device serial number. -/
def State.serial (s : State) : Nat := s.rd Reg.SERIAL_LO.WORD + 2 ^ 32 * s.rd Reg.SERIAL_HI.WORD

/-- KEY_CHECK: the first 4 bytes of the CMAC under slot 2 over "Ixten key check"; 0 where the slot is empty. -/
def State.keyCheck (s : State) : Nat :=
  match s.islandKey with
  | some k => beAt (cmac k (beBytes 15 0x497874656E206B657920636865636B)) 0 4
  | none => 0

/-- Generation of the current configuration commit. -/
def State.cfgGen (s : State) : Nat :=
  match s.cfg.current with
  | some c => c.2.generation
  | none => 0

/-- The tether that the device sends on a link (Table 17-3). -/
def State.tetherOf (s : State) (l : Link) (departing : Bool) : Tether where
  crcOk := true
  addr := if s.unjoined then 0 else s.fab.addr
  addrValid := s.fab.addrValid && !s.unjoined
  stalemate := s.inStale
  departing := departing
  unjoined := s.unjoined
  gateway := s.isGateway
  quiet := s.dev.routerQuiet
  slot := s.ownSlot
  link := l.id
  keyCheck := s.keyCheck
  serial := s.serial
  cfgGen := s.cfgGen
  tseq := l.tseq

/-- A control or idle flit sent on a link; each carries the FSEQ of the last data flit received in order. -/
def State.sendCtl (s : State) (link : Nat) (k : FlitKind) (cr0 cr1 : Nat) (payload : Bytes) : State :=
  s.emit (.lineFlit link (ctlFlit k ((s.link link).expect + 255) cr0 cr1 payload))

/-- Credits go back on idle flits, at most 15 of a VC on one (R404, log entry 90). -/
def creditsGo (link vc : Nat) : Nat → Nat → State → State
  | 0, _, s => s
  | fuel + 1, n, s =>
    if n = 0 then s
    else
      let k := min 15 n
      creditsGo link vc fuel (n - k) (if vc = 0 then s.sendCtl link .idle k 0 [] else s.sendCtl link .idle 0 k [])

def State.sendCredits (s : State) (link vc n : Nat) : State := creditsGo link vc (n / 15 + 1) n s

/-- A tether sent on a link; TSEQ rises by 1. -/
def State.sendTether (s : State) (l : Link) (departing : Bool) : State :=
  let l := { l with tseq := (l.tseq + 1) % 2 ^ 32 }
  (s.setLink l).sendCtl l.id .tether 0 0 (tetherBytes (s.tetherOf l departing))

/-! ## Keeper records (chapter 17, Replacement) -/

/-- This device's keeper record. -/
def State.ownKeeper (s : State) : KeeperRec :=
  let r : KeeperRec := match s.cfg.current with
    | some (_, c) => ⟨s.serial, c.body.profile, c.body.fabAddrHi, c.body.compatPin, c.body.regs, s.fab.sets,
        s.kv.namespaces.filterMap fun n => n.mirrorSet.map fun k => (n.nsid, k),
        (s.kv.namespaces.filterMap fun n => n.copyOf.map fun o => (n.nsid, o)) ++ s.fab.copies, []⟩
    | none => ⟨s.serial, 0, 0, 0, [], [], [], [], []⟩
  { r with digest := sha256 (keeperBytes r) }

/-- The keeper record goes LOCAL to a neighbour. -/
def State.sendKeeper (s : State) (l : Link) : State :=
  match l.neigh, s.slotKey 2 with
  | some t, some _ =>
    if l.isUp && l.state != 5 then s.fabAsk ⟨t.addr, 0x0A, some l.id, Config.fabFlow t.addr 0⟩ (.keeper s.ownKeeper) none 0 0
    else s
  | _, _ => s

/-- The keeper record goes to every neighbour, after a commit or a change of sets, bindings or copies. -/
def State.sendKeepers (s : State) : State :=
  if s.islandOn then s.fab.links.foldl (fun s l => s.sendKeeper l) s else s

/-! ## The sled map (R409) -/

def State.sledEntry? (s : State) (slot : Nat) : Option SledEntry := s.fab.sled.find? fun e => e.slot == slot

def State.setSled (s : State) (e : SledEntry) : State :=
  { s with fab := { s.fab with sled := putWhere (fun x => x.slot == e.slot) e s.fab.sled } }

/-- A slot is present in the map. -/
def State.slotPresent (s : State) (slot : Nat) : Bool := s.fab.sled.any fun e => e.slot == slot && e.present

/-- A slot becomes absent. -/
def State.slotAbsent (s : State) (slot : Nat) : State :=
  let clear := fun (e : SledEntry) => { e with present := false, gateway := false, links := 0 }
  { s with fab := { s.fab with sled := updWhere (fun e => e.slot == slot) clear s.fab.sled } }

/-- Frames go out LOCAL on links. -/
def State.injectOn (s : State) (links : List Nat) (fs : List FabFrame) : State :=
  links.foldl (fun (s : State) l => s.inject (some l) fs) s

/-- The device's own STATE frame goes out on links. -/
def State.sendState (s : State) (e : SledEntry) (links : List Nat) : State :=
  if links.isEmpty then s
  else
    match s.makeFrames ⟨Config.floodDst 0x10, 0x10, some 0, Config.fabFlow (Config.floodDst 0x10) 0⟩
        (payloadBytes (.sled e.slot e.seq e.gateway e.links)) with
    | (fs, s) => s.injectOn links fs

/-- The device brings its own entry up to date and floods it; in stalemate it floods none and is absent. -/
def State.floodOwn (s : State) : State :=
  if !s.fabric || s.inStale || s.unjoined then s.slotAbsent s.ownSlot
  else
    let e : SledEntry := ⟨s.ownSlot, true, s.isGateway, BitVec.ofNat 4 (maskOf s.trustedLinks), s.fab.ownSeq + 1⟩
    let t := { s with fab := { s.fab with ownSeq := s.fab.ownSeq + 1 } }.setSled e
    t.sendState e t.trustedLinks

/-! ## Sending flits (R404, R405) -/

/-- Flits leave an input buffer, and their credits go back with the next flit sent. -/
def State.returnCredits (s : State) (link vc n : Nat) : State :=
  let l := s.link link
  let had := if vc = 0 then l.input0.length else l.input1.length
  let k := min n had
  if k = 0 then s
  else
    (s.setLink (if vc = 0 then { l with input0 := l.input0.drop k } else { l with input1 := l.input1.drop k })).sendCredits
      link vc k

/-- A waiting flit is sent: its FSEQ and ACK, its credit, its place in the replay buffer. -/
def State.sendFlit (s : State) (link : Nat) (o : OutFlit) : State :=
  let l := s.link link
  let f := { o.flit with fseq := l.nextTx, ack := (l.expect + 255) % 256 }
  let l := { l with nextTx := (l.nextTx + 1) % 256, replay := l.replay ++ [f]
                    credit0 := if f.vc = 0 then l.credit0 - 1 else l.credit0
                    credit1 := if f.vc = 0 then l.credit1 else l.credit1 - 1 }
  let s := ((s.setLink l).emit (.lineFlit link (flitOnLine f))).count64 Reg.LINK_FLITS_LO.FLITS_LO Reg.LINK_FLITS_HI.FLITS_HI link 1
  match o.src with
  | some (from_, vc) => s.returnCredits from_ vc 1
  | none => s

/-- Flits are sent while there are credits and at most 127 are unacknowledged, VC 0 first (log entry 90). -/
def pumpLinkGo (link : Nat) : Nat → State → State
  | 0, s => s
  | fuel + 1, s =>
    let l := s.link link
    if 127 ≤ l.replay.length then s
    else
      match if l.credit0 = 0 then none else l.out0.head? with
      | some o => pumpLinkGo link fuel ((s.setLink { l with out0 := l.out0.drop 1 }).sendFlit link o)
      | none =>
        match if l.credit1 = 0 then none else l.out1.head? with
        | some o => pumpLinkGo link fuel ((s.setLink { l with out1 := l.out1.drop 1 }).sendFlit link o)
        | none => s

/-- What waits on a link is sent as far as it can be; a neighbour whose island is quiet is woken first (R82). -/
def State.pumpLink (s : State) (link : Nat) : State :=
  let l := s.link link
  let n := l.out0.length + l.out1.length
  if n = 0 ∨ !l.isUp then s
  else if l.quietPeer then s.sendCtl link .wake 0 0 []
  else pumpLinkGo link n s

/-- Flits acknowledged up to an FSEQ leave the replay buffer. -/
def Link.acked (l : Link) (ack : Nat) : Link :=
  match l.replay.findIdx? fun f => f.fseq == ack with
  | some i => { l with replay := l.replay.drop (i + 1) }
  | none => l

/-- The ACK and credit fields of a flit received (Table 17-2). -/
def State.takeHeader (s : State) (link ack cr0 cr1 : Nat) : State :=
  let l := (s.link link).acked ack
  let l := { l with credit0 := min 128 (l.credit0 + cr0 % 16), credit1 := min 128 (l.credit1 + cr1 % 16)
                    quietPeer := false }
  (s.setLink l).pumpLink link

/-! ## A link goes down (R406) -/

/-- The flit that ends a frame whose source link died. -/
def poisonFlit (vc : Nat) : OutFlit := ⟨⟨false, true, vc, 0, 0, 0, 0, true, [], true⟩, none⟩

/-- What waits for output when an input link dies: frames that have not begun are lost, one that has begun ends with a
poisoned TAIL flit. -/
def cutFrames (dead vc : Nat) (begun : Bool) : List OutFlit → List OutFlit
  | [] => []
  | o :: os =>
    let mine := match o.src with
      | some (l, _) => l == dead
      | none => false
    if mine then
      if begun && !o.flit.head then poisonFlit vc :: cutFrames dead vc false os
      else cutFrames dead vc false os
    else o :: cutFrames dead vc false os

/-- Flits that waited for the output of a dead link leave the input buffers that hold them: their frames are lost. -/
def State.loseFlits (s : State) (dead : Nat) (fs : List OutFlit) : State :=
  fs.foldl (fun (s : State) o => match o.src with
    | some (l, vc) => if l = dead then s else s.returnCredits l vc 1
    | none => s) s

/-- A link goes down: its buffers, replay buffer and credits are discarded, and the sled map follows. -/
def State.linkDown (s : State) (link : Nat) : State :=
  let l := s.link link
  let was := l.isUp
  let s := (s.loseFlits link (l.out0 ++ l.out1)).setLink { Link.down link with tseq := l.tseq, keeperSeen := l.keeperSeen, neigh := none }
  let cut := fun (x : Link) => { x with out0 := cutFrames link 0 true x.out0, out1 := cutFrames link 1 true x.out1 }
  let s := { s with fab := { s.fab with links := s.fab.links.map cut } }
  let s := s.fab.links.foldl (fun s x => s.pumpLink x.id) s
  if was then (s.raiseI Ev.FAB_I.LINK_DOWN link).floodOwn else s

end Sys2Proof.Machine
end

