-- ==== Sys2Proof/Machine/PowerOps.lean ====
section
/-! DEFINITION. Power states as every family uses them: waking and reversing an entry (R72, R79), completing one
(Tables 03-5 to 03-7), parking the heads (R60, R303), and the drain of a CONTROLLER reset (R96). -/

namespace Sys2Proof.Machine

open Sys2Proof

/-! ## The board rails (R51, Tables 02-10 and 03-7) -/

/-- RAIL_EN0, RAIL_EN1 and RAIL_EN2 driven high in this order, up to `n` of them (steps 2 to 4 of Table 02-10). -/
def State.raiseTo (s : State) (n : Nat) : State :=
  let s := if 1 ≤ n then s.emit (.rails true false false) else s
  let s := if 2 ≤ n then s.emit (.rails true true false) else s
  if 3 ≤ n then s.emit (.rails true true true) else s

/-- The enables, `n` of them high, lowered in the reverse order, 1 ms apart (R51). The instruction stores of the helpers lose
power (R93). -/
def State.lowerRails (s : State) (n : Nat) : State :=
  let s := if 3 ≤ n then s.emit (.rails true true false) else s
  let s := if 2 ≤ n then s.emit (.rails true false false) else s
  { s with dev := { s.dev with helpers := none } }.emit (.rails false false false)

/-! ## Waking and reversing -/

/-- The device leaves IDLE, STANDBY or SLEEP for ACTIVE, and WAKE_SRC records the source (R72, R77); tiles leave
retention. -/
def State.wake (s : State) (src : Field) : State :=
  if s.dev.phase = .service ∧ (s.dev.power = .idle ∨ s.dev.power = .standby ∨ s.dev.power = .sleep) then
    let asleep := s.dev.power == .sleep
    { s with dev := { s.dev with power := .active, routerQuiet := false }
             cam := if asleep then { s.cam with retained := [] } else s.cam }.wr src 1
  else s

/-- Background work that falls due leaves IDLE (R75). -/
def State.stir (s : State) : State :=
  if s.dev.power = .idle then { s with dev := { s.dev with power := .active } } else s

/-- Post the commands that asked for an entry. -/
def State.finishTags (s : State) (status : Nat) : List TagId → State
  | [] => s
  | t :: ts =>
    match s.entry? t with
    | some e => (s.finish e status []).finishTags status ts
    | none => s.finishTags status ts

/-- An entry under way reverses (R79, R81): its `POWER_STATE`s complete with `OK_ENTRY_ABANDONED`. The device stays in, or
comes to, ACTIVE, and WAKE_SRC records no source, whatever state it was in when the entry began: DESIGN CHOICE (log entry
151), since R79 says that the entry reverses and R72 records what woke the device. -/
def State.abandonEntry (s : State) : State :=
  match s.dev.entering with
  | none => s
  | some _ =>
    let ts := s.dev.enterTags
    let dev := { s.dev with entering := none, enterTags := [], power := .active, routerQuiet := false }
    ({ s with dev := dev }.raise Ev.PWR.ENTRY_ABANDONED).finishTags stAbandoned ts

/-- Something arrives that wakes the device or reverses an entry (R72, R79). -/
def State.arrive (s : State) (src : Field) : State :=
  if s.dev.phase = .service then (s.abandonEntry).wake src else s

/-! ## The disk stops -/

/-- Writing is inhibited on every head that it is not inhibited on already (R60). -/
def State.parkHeads (s : State) : State :=
  let live := (s.srv.heads.filter fun h => !h.inhibit).map fun h => h.id
  let s := live.foldl (fun s h => s.emit (.writeParked h)) s
  { s with srv := { s.srv with heads := s.srv.heads.map fun h => { h with inhibit := true, writing := false } } }

/-- A reset or a power-up puts the head pins in their reset state (R54): every WD pair parked, every MA at MAREF. -/
def State.resetHeads (s : State) : State :=
  let s := s.parkHeads
  let s := (s.srv.heads.filter fun h => h.stroke != 0).foldl (fun (s : State) h => s.emit (.maOut h.id 0)) s
  { s with srv := { s.srv with heads := s.srv.heads.map fun h => { h with stroke := 0 } } }

/-- Heads on the ramps: none participates. -/
def State.unloadHeads (s : State) : State :=
  let s := s.parkHeads
  { s with srv := { s.srv with heads := s.srv.heads.map fun h => { h with part := false, inU := false } } }

/-- Spin-down begins (R303): unload, then SPIN brake. -/
def State.spinDown (s : State) : State :=
  if s.srv.disk = 0 ∨ s.srv.disk = 5 ∨ s.srv.disk = 6 then s
  else
    let t := (s.unloadHeads.emit (.motFrame (motSpin 2))).wr Reg.START_TIME.DISK_100MS 0
    { t with srv := { t.srv with disk := 5 }, dev := { t.dev with spinning := false } }

/-- RETRACT is sent (Table 03-10, R306): the heads retract and the spindle brakes. -/
def State.retract (s : State) : State :=
  let t := s.unloadHeads.wr Reg.START_TIME.DISK_100MS 0
  let t := if s.cfg.hw.heads = 0 ∨ s.srv.retracted then t else (t.emit (.motFrame motRetract)).raise Ev.SRV.RETRACTED
  { t with srv := { t.srv with retracted := true, disk := if s.srv.disk = 6 then 6 else 0 }
           dev := { t.dev with spinning := false } }

/-! ## Saving what an entry saves -/

/-- CRC-32C over the image of R211: the directory's 96 MiB, then the 4 MiB bucket side table. -/
def imageCrc (dir : SMap (BitVec 48)) (side : SMap (BitVec 16)) : Nat :=
  let c := crcCells 6 100663296 (dir.map fun p => (p.1, p.2.toNat)) 0 0xFFFFFFFF
  crcCells 2 4194304 (side.map fun p => (p.1, p.2.toNat)) 0 c ^^^ 0xFFFFFFFF

/-- The 28 bytes of a seal that SEAL_CRC covers. -/
def DirSeal.body (x : DirSeal) : Bytes :=
  leBytes 4 x.magic ++ leBytes 8 x.tierId ++ leBytes 4 x.seedCheck ++ leBytes 8 x.journalSeq ++ leBytes 4 x.imageCrc

/-- The seal of the directory as it stands (R211). -/
def State.sealDir (s : State) : DirSeal :=
  let x : DirSeal := ⟨0x53454144, s.flash.tierId, s.dirHash 0 [] % 2 ^ 32, s.flash.journalSeq, imageCrc s.kv.dir s.kv.side, 0⟩
  { x with sealCrc := crc32c x.body }

/-- The directory image and its seal saved (R211, R212). -/
def State.saveDirectory (s : State) : State :=
  { s with kv := { s.kv with saved := some ⟨s.sealDir, s.kv.dir, s.kv.side⟩, dirCommits := 0, dirLog := [] } }

/-- Bytes of a checkpoint: the words of the four maps that are in use, and 16 bytes for each block with a counter (log entry
165). -/
def State.ckptBytes (s : State) : Nat :=
  4 * s.flash.mapped + 16 * (s.extentsUsed + s.kv.leaves.length + s.rdc.bands.length) + 16 * s.flash.blocks.length + 32

/-- Journal records up to a number trimmed. -/
def Flash.trim (f : Flash) (cut : Nat) : Flash :=
  { f with trimmed := max f.trimmed cut, journal := f.journal.filter fun r => decide (cut < r.seq) }.staleEmpty

/-- A checkpoint of the four maps written to the META stream, with the read counters, and its root record (R267, R280). The
system tables are saved with it (log entry 165), so that records which the latest directory image follows too are trimmed; a
journal above 4 GiB is trimmed to the checkpoint alone (R268). The journal's length in bytes is not stated: a free value. -/
def State.checkpoint (s : State) : State :=
  let s := s.saveSys .checkpoint s.ckptBytes
  let f := s.flash
  let again := fun (x : SysCopy) => match x.obj with
    | .camTable _ => true
    | _ => false
  let f : Flash := { f with system := updWhere again (fun x => { x with seq := f.journalSeq }) f.system,
                            ckptReads := (f.blocks.filter fun b => b.reads != 0).map fun b => (b.id, b.reads) }
  let image := match s.kv.saved with
    | some d => d.dirSeal.journalSeq
    | none => f.journalSeq
  let past := Config.freeBool s.free
  let cut := if past then f.journalSeq else min f.journalSeq image
  let t := { s.tookFree with flash := (f.trim cut).writeRoot }
  if past && decide (image < f.journalSeq) then t.raise Ev.FLT.JOURNAL_TRIMMED else t

/-- Device time and the powered time since the last advance saved (R392). -/
def State.saveTime (s : State) : State :=
  { s with sea := { s.sea with saved := s.sea.time, savedAdv := s.sea.advHours } }

/-- Records of the log buffer go to flash, which holds 65,536; overwriting the oldest sets LOG_WRAP (R463; log
entry 20). -/
def State.flushLog (s : State) : State :=
  if s.log.buffer.isEmpty ∨ s.flash.readOnly ∨ !s.flash.mounted then s
  else
    let past := decide (65536 < s.log.flash.length + s.log.buffer.length)
    let s := if past && !(s.word 0x500010).getLsbD 5 then s.raise Ev.HLT.LOG_WRAP else s
    let all := s.log.flash ++ s.log.buffer
    { s with log := { s.log with flash := all.drop (all.length - 65536), buffer := [] } }

/-! ## Reaching a state -/

/-- Every outstanding command but those that asked for the entry has completed (step 2 of Table 03-6). -/
def State.quiet (s : State) : Bool :=
  s.cmd.queue.isEmpty && s.cmd.tags.all fun e => e.state == .posted || s.dev.enterTags.contains e.id

/-- The entry ends: its commands complete with `OK`. -/
def State.endEntry (s : State) (m : PowerMode) : State :=
  let ts := s.dev.enterTags
  ({ s with dev := { s.dev with entering := none, enterTags := [], power := m } }).finishTags stOK ts

/-- Tiles that hold entries go to retention, the router island goes quiet (steps 5 and 7 of Table 03-6). -/
def State.retain (s : State) : State :=
  { s with cam := { s.cam with retained := (List.range 32).filter fun t => decide (s.tileValid t ≠ 0) }
           dev := { s.dev with routerQuiet := s.fabric } }

/-- A departing tether goes out on each trained link (step 3 of Table 03-7, R407). -/
def State.sendDeparting (s : State) : State :=
  if s.fabric then (s.fab.links.filter fun l => l.trained).foldl (fun s l => s.sendTether l true) s else s

/-- The remaining steps of an entry, as far as they can be taken now. -/
def State.completeEntry (s : State) (m : PowerMode) : State :=
  match m with
  | .standby => s.spinDown.endEntry .standby
  | .sleep =>
    if s.quiet then
      let t := s.spinDown.drain
      if t.drained then (t.flushLog.endEntry .sleep).retain else t
    else s.spinDown
  | .hibernate =>
    if s.quiet then
      let t := s.spinDown.drain
      if t.drained then
        let t := (t.flushLog.saveDirectory.saveTime.checkpoint).endEntry .hibernate
        let t := (t.sessions.map fun x => x.id).foldl State.endSession t
        let t := t.sendDeparting.lowerRails 3
        { t with dev := { t.dev with phase := .hibernate }, srv := { t.srv with disk := 0 } }
      else t
    else s.spinDown
  | _ => s

/-- An entry begins for a state, or goes on; with `go` it runs to its end (Tables 03-5 to 03-7). -/
def State.enterState (s : State) (m : PowerMode) (t : Option TagId) (go : Bool) : State :=
  let ts := match t with
    | some x => if s.dev.enterTags.contains x then s.dev.enterTags else s.dev.enterTags ++ [x]
    | none => s.dev.enterTags
  let s := { s with dev := { s.dev with entering := some m, enterTags := ts } }
  if go then s.completeEntry m else s

/-! ## The CONTROLLER reset (R96, R97) -/

/-- The STATUS bits of the outcome that DBG_ACCESS captures (Table 20-5). -/
def State.tapStatus (s : State) (status : Nat) : State :=
  { s with dbg := { s.dbg with capture := s.dbg.capture.take 10 ++ leBytes 2 status } }

/-- A register access by a path of its own is answered. -/
def State.answerPath (s : State) (p : Path) (status : Nat) : State :=
  (if p = .debug then s.tapStatus status else s).emit (.regResult p status [])

/-- Answer whoever waits with a status. -/
def State.answer (s : State) (w : Waiter) (status : Nat) : State :=
  match w with
  | .tag t => match s.entry? t with
    | some e => s.finish e status []
    | none => s
  | .mctp tag code => { s with mctp := { s.mctp with busy := false } }.emit (.mctpResponse code tag 0 status [])
  | .path p => s.answerPath p status

/-- Step 2 of R96: a command that has not passed its commit point is cancelled. -/
def State.cancel (s : State) (keep : Option TagId) : List TagEntry → State
  | [] => s
  | e :: es =>
    if e.before ∧ some e.id ≠ keep then
      let s := if e.msg.opcode = 0x08 then s.voidRecord e else s
      ((s.detach e.id).finish e stResetAborted []).cancel keep es
    else s.cancel keep es

/-- Step 3 of R96: a command that has passed its commit point is posted with its own result; a mirror still awaited
becomes DEGRADED. -/
def State.postCommitted (s : State) : List TagEntry → State
  | [] => s
  | e :: es =>
    if e.state = .committed then
      let s := s.purgeEnd e
      let e := (s.entry? e.id).getD e
      let s := e.mirrors.foldl (fun s a => s.degradeMember e.msg.nsid a) s
      let e := { e with degraded := e.degraded || !e.mirrors.isEmpty, mirrors := [] }
      ((s.camEnd e).post e e.posting).postCommitted es
    else s.postCommitted es

/-- A commit of the configuration record that a reset cuts off: the copy being written holds no valid commit (R97,
R106). -/
def State.dropCommit (s : State) : State :=
  if s.cfg.under.isEmpty then { s with cfg := { s.cfg with waiting := [] } }
  else
    let cfg := { s.cfg with under := [], waiting := [] }
    { s with cfg := match s.cfg.current with
      | some (0, _) => { cfg with copy1 := none }
      | _ => { cfg with copy0 := none } }

/-- Steps 1 to 3 of R96; steps 4 to 6, the answer of the command that asks, the end of the sessions and the start, are
WARM_START's. -/
def State.runController (s : State) (keep : Option TagId) : State :=
  let s := { s.abandonEntry with dev := { s.abandonEntry.dev with resetBusy := true } }
  let others := (s.cfg.under ++ s.cfg.waiting).map fun p => p.waiter
  let s := s.dropCommit
  let s := s.cancel keep s.cmd.tags
  let s := others.foldl (fun s w => match w with
    | .tag _ => s
    | w => s.answer w stResetAborted) s
  let s := (s.drain).flushLog
  s.postCommitted s.cmd.tags

/-- A CONTROLLER reset is asked for; while one is under way the request is answered `RESET_ABORTED` (R97). Its own answer is
the last one posted, so it stands out until the start (step 4 of R96, log entry 154). -/
def State.askController (s : State) (w : Waiter) : State :=
  if s.dev.resetBusy then s.answer w stResetAborted
  else
    let keep := match w with
      | .tag t => some t
      | _ => none
    { s with dev := { s.dev with resetWaiter := some w } }.runController keep

end Sys2Proof.Machine
end

