-- ==== Sys2Proof/Machine/CfgOps.lean ====
section
/-! DEFINITION. The configuration record (R102 to R107, R113, R114): bodies, structural checks, the format that a
`CONFIG_FACTORY` may make, and how commits form and are made. -/

namespace Sys2Proof.Machine

open Sys2Proof

/-! ## Class C fields (R99) -/

/-- The mask of the class C fields of a register. EVT_EN is one, in its implemented bits (Table 05-2, R120). -/
def classCMask (a : Nat) : Word :=
  let b := addrBlock a
  let off := addrOff a
  if off = hEvtEn then BitVec.ofNat 32 (evtMask b (addrPage a != 0))
  else if off < 0x40 then 0
  else
    ((fieldsAt b (addrPage a) off).filter fun f => f.ret == .c).foldl (fun w f => w ||| fieldMask f.lo f.width) 0

/-- CAM_TBL0 to CAM_TBL7 and COMPAT stand in no register entry: the one is read-only, the other has a place of its own
(R106, Table 09-6). -/
def compatAddr : Nat := 0x48

/-- Register words with every class C field at its Reset value. -/
def clearC (m : Regs) : Regs :=
  m.foldl (fun r p =>
    let c := classCMask p.1
    SMap.set regReset p.1 ((p.2 &&& ~~~c) ||| (regReset p.1 &&& c)) r) m

/-- Register words with the class C fields of one register replaced. -/
def putC (m : Regs) (a : Nat) (v mask : Word) : Regs :=
  let c := classCMask a &&& mask
  SMap.set regReset a ((SMap.get regReset m a &&& ~~~c) ||| (v &&& c)) m

/-- Class C fields as a body gives them (Table 04-6, "reloaded"), whatever their values: CAM_TBLn of overlapping tiles, or of
a table with valid entries, are taken as they stand: DESIGN CHOICE (log entry 156). -/
def loadBody (b : CfgBody) (m : Regs) : Regs :=
  (b.regs.foldl (fun r e => putC r e.1 e.2 (BitVec.allOnes 32)) (clearC m)) |> fun r =>
    putC r compatAddr (BitVec.ofNat 32 b.compatPin) 0xFFFF

/-- The registers after one change of a commit (R102). -/
def applyChange (m : Regs) (c : CfgChange) : Regs :=
  match c with
  | .reg a v mask => putC m a v mask
  | .body b => loadBody b m
  | .factory => clearC m

/-- The values that will be in force once every write ahead has taken effect (R484). -/
def State.ahead (s : State) : State :=
  { s with regs := (s.cfg.under ++ s.cfg.waiting).foldl (fun m p => applyChange m p.change) s.regs }

/-! ## Bodies (Table 04-9, R106) -/

/-- Register entries with one written: every entry of its address, of which the last one counts, or a new one (log entry
134). -/
def putEntry (a : Nat) (v : Word) (l : List (Nat × Word)) : List (Nat × Word) := putWhere (fun e => e.1 == a) (a, v) l

/-- A register entry that R106 allows. -/
def entryOk (e : Nat × Word) : Bool :=
  e.1 % 4 == 0 && pagePresent (addrBlock e.1) (addrPage e.1) && e.1 != compatAddr &&
    classCMask e.1 != 0 && e.2 &&& ~~~(classCMask e.1) == 0

/-- The 16,128 bytes of a body read (Table 04-9); none where a structural check of R106 fails. -/
def parseBody (b : Bytes) : Option CfgBody :=
  let n := leAt b 0x20 2
  let regs := (List.range n).map fun i => (leAt b (0x40 + 8 * i) 4, BitVec.ofNat 32 (leAt b (0x44 + 8 * i) 4))
  let reserved := allZero (sliceB b 3 1) && allZero (sliceB b 0x14 4) && allZero (sliceB b 0x22 0x1E) &&
    allZero (sliceB b (0x40 + 8 * n) (16064 - (0x40 + 8 * n))) && allZero (sliceB b 16064 64)
  let profile := leAt b 2 1
  if b.length = 16128 ∧ leAt b 0 2 = 1 ∧ (profile = 1 ∨ profile = 2) ∧ n ≤ 2000 ∧ reserved ∧ regs.all entryOk then
    some ⟨profile, leAt b 4 4, leAt b 8 4, leAt b 12 2, leAt b 14 1, leAt b 15 1, leAt b 0x10 2, leAt b 0x12 2,
      leAt b 0x18 8, regs⟩
  else none

/-- A body's structural checks (R106) hold. -/
def CfgBody.sound (b : CfgBody) : Bool :=
  (b.profile == 1 || b.profile == 2) && decide (b.regs.length ≤ 2000) && b.regs.all entryOk

/-- The 16,128 bytes of a body (Table 04-9); reserved bytes and unused entries are 0. -/
def CfgBody.bytes (b : CfgBody) : Bytes :=
  let head := leBytes 2 1 ++ leBytes 1 b.profile ++ leBytes 1 0 ++ leBytes 4 b.hwFlashCh ++ leBytes 4 b.hwNandId ++
    leBytes 2 b.hwDies ++ leBytes 1 b.hwHeads ++ leBytes 1 b.hwDramGib ++ leBytes 2 b.fabAddrHi ++ leBytes 2 b.compatPin ++
    leBytes 4 0 ++ leBytes 8 b.tierId ++ leBytes 2 b.regs.length ++ leBytes 30 0
  let regs := (b.regs.map fun e => leBytes 4 e.1 ++ leBytes 4 e.2.toNat).flatten
  head ++ regs ++ List.replicate (16128 - 64 - regs.length) 0

/-- The commit marker (Table 04-8). -/
def CfgCommit.marker (c : CfgCommit) : Bytes :=
  let m := leBytes 4 0x52434746 ++ leBytes 4 c.generation ++ leBytes 4 (crc32c c.body.bytes)
  m ++ leBytes 4 (crc32c m)

/-- The 16,384 bytes of a configuration record copy (R104): the body, and the commit page, of which all but the marker stays
erased. -/
def CfgCommit.bytes (c : CfgCommit) : Bytes := c.body.bytes ++ c.marker ++ List.replicate 240 0xFF

/-- The commit that the bytes of a copy hold, where all that R106 asks of a valid one holds. -/
def readCopy (b : Bytes) : Option CfgCommit :=
  let m := sliceB b 16128 16
  let g := leAt m 4 4
  if leAt m 0 4 = 0x52434746 ∧ leAt m 12 4 = crc32c (m.take 12) ∧ leAt m 8 4 = crc32c (b.take 16128) ∧ g ≠ 0 ∧
      g ≠ 0xFFFFFFFF then
    (parseBody (b.take 16128)).map fun x => ⟨g, x⟩
  else none

/-- The regions of the boot NOR (Table 04-7): offset and size. Bytes from 0x0314_0000 on are never written. -/
inductive NorRegion where
  | loader | slotA | slotB | slot0 | slot1 | cfg0 | cfg1 | reserved
  deriving DecidableEq, Repr

def NorRegion.span : NorRegion → Nat × Nat
  | .loader => (0x00000000, 0x100000)
  | .slotA => (0x00100000, 0x1800000)
  | .slotB => (0x01900000, 0x1800000)
  | .slot0 => (0x03100000, 0x10000)
  | .slot1 => (0x03110000, 0x10000)
  | .cfg0 => (0x03120000, 0x10000)
  | .cfg1 => (0x03130000, 0x10000)
  | .reserved => (0x03140000, 15104 * 1024)

/-- The region of an offset of the NOR. -/
def norRegion (a : Nat) : Option NorRegion :=
  [NorRegion.loader, .slotA, .slotB, .slot0, .slot1, .cfg0, .cfg1, .reserved].find? fun r =>
    decide (r.span.1 ≤ a) && decide (a < r.span.1 + r.span.2)

/-- The address of FAB_CFG. -/
def fabCfgAddr : Nat := 0x400044

/-- The value that a body gives a register: its last entry, or the Reset value of its class C fields. -/
def CfgBody.entry (b : CfgBody) (a : Nat) : Word :=
  match b.regs.reverse.find? fun e => e.1 == a with
  | some e => e.2
  | none => regReset a &&& classCMask a

/-- A body with an entry written; none where it would need a 2,001st entry. -/
def CfgBody.put (b : CfgBody) (a : Nat) (v : Word) : Option CfgBody :=
  if b.regs.length = 2000 ∧ !(b.regs.any fun e => e.1 == a) then none
  else some { b with regs := putEntry a v b.regs }

/-- A `CONFIG_WRITE` of a host or of MCTP in the Fabric profile commits JOINED 1 (R113). -/
def CfgBody.joined (b : CfgBody) : Option CfgBody := b.put fabCfgAddr (b.entry fabCfgAddr ||| 1)

/-- The identity the flash system area carries, 0 where it is not valid. -/
def Flash.identity (f : Flash) : Nat := if f.formatted then f.tierId else 0

/-- HW_NAND_ID of the hardware found. -/
def Hardware.nandId (h : Hardware) : Nat := h.nandIds.headD 0

/-- The body that `CONFIG_FACTORY` builds (R114), with a tier identity; none where the straps hold no valid profile. -/
def State.factoryBody (s : State) (tier : Nat) : Option CfgBody :=
  let p := s.dev.straps.profile.toNat
  if p = 1 ∨ p = 2 then
    let h := s.cfg.hw
    some ⟨p, h.answers.toNat, h.nandId, h.dies, h.heads, h.dramGib, 0, 0, tier, []⟩
  else none

/-- The body that a commit is made on (R102). -/
def State.baseBody (s : State) : Option CfgBody :=
  match s.cfg.current with
  | some c => some c.2.body
  | none => s.factoryBody s.flash.identity

/-- A body with one register write applied; none where the record has no room for it (log entry 51). -/
def CfgBody.write (b : CfgBody) (a : Nat) (v mask : Word) : Option CfgBody :=
  if a = compatAddr then some { b with compatPin := ((BitVec.ofNat 32 b.compatPin &&& ~~~mask) ||| (v &&& mask)).toNat % 65536 }
  else
    let m := mask &&& classCMask a
    b.put a ((b.entry a &&& ~~~m) ||| (v &&& m))

/-! ## The format of the flash tier (R258, R260, R114, Table 15-3) -/

/-- A key that the device draws into a slot (R367, R371): GEN rises, the counter restarts. -/
def State.drawSlot (s : State) (i : Nat) (attr : BitVec 16) (len : Nat) : State :=
  let k := s.slot i
  let s := (s.commitSlot i ⟨k.gen + 1, attr ||| 0x1400, s.draw len⟩).tookFree
  let key := { s.key with counters := SMap.set zeroNat i 0 s.key.counters, limits := SMap.set zeroNat i 0 s.key.limits }
  { s with key := key }.raise Ev.KEY.SLOT_CHANGED

/-- The channels that a start found in service: they answer and they train (R57). -/
def Flash.trainedMask (f : Flash) : Nat :=
  maskOf ((List.range f.found.length).filter fun k =>
    match f.found[k]? with
    | some c => f.trains c
    | none => false)

/-- The channel of each die, channel by channel. -/
def Flash.diesFound (f : Flash) : List Nat :=
  ((List.range f.found.length).map fun k =>
    match f.found[k]? with
    | some c => if f.trains c then List.replicate c.dies k else []
    | none => []).flatten

/-- The flash tier as a format leaves it: the root blocks and the drain reserve set aside, a block open for each stream on every
die, and a root record. -/
def Flash.fresh (f : Flash) (tier dramGib : Nat) : Flash :=
  let dies := f.diesFound
  let per := blocksToFormat f.prof dies.length
  let c := ((List.range 32).filter fun k => f.trainedMask.testBit k).length
  let raw := dies.length * per * profUpb f.prof
  let spares := (dies.length * per * 5 + 99) / 100
  let g : Flash :=
    { f with formatted := true, tierId := tier, channels := BitVec.ofNat 32 f.trainedMask, dieCh := dies, diesLost := [],
             blocksPerDie := per, raw := raw, n := logicalUnits raw c dramGib, map := [], staged := [], blocks := [],
             units := [], streams := [], wseq := 0, journalSeq := 0, trimmed := 0, journal := [], system := [], roots := [],
             drainMark := false, refresh := [], spareInit := spares, spareNow := spares, retired := 0, patrolDay := 0,
             demoting := false, levelling := false, ckptReads := [], readOnly := false }
  ((g.setAside (g.rootBlocks ++ g.reserveBlocks)).openAll).writeRoot

/-- The flash tier formatted: a fresh identity, directory seed and storage root, an empty directory with a valid seal;
whatever the system area kept is gone, and the counts "since format" begin anew. -/
def State.formatFlash (s : State) : State :=
  let s := (s.drawSlot 1 0x0020 16).drawSlot 3 0x0240 32
  let tier := beNat (s.draw 8)
  let s := s.tookFree
  let kv : Kv := { Kv.reset with lastReseedMs := s.kv.lastReseedMs }
  let sea := { s.sea with advMade := false, advHours := 24, savedAdv := 24, advTotal := 0, saved := s.sea.time }
  let fab := { s.fab with sets := [], members := [], heldWrites := [], applied := [], keepers := [] }
  let s := { s with flash := s.flash.fresh tier s.cfg.hw.dramGib, kv := kv, sea := sea, fab := fab,
                    cmd := { s.cmd with uploads := [] }, cam := { s.cam with saved := [] },
                    pat := { s.pat with images := [], watches := [], states := [] },
                    fw := { s.fw with staging := none }, log := ⟨1, [], [], []⟩,
                    rdc := { Rdc.reset with nextBseq := s.rdc.nextBseq },
                    srv := { s.srv with savedCal := none, suspects := [], suspectsPrev := [] } }
  let s := ((s.wr Reg.HLT.FLASH_UNCORR 0).wr Reg.HLT.DISK_UNCORR 0).wr Reg.HLT.TAG_FAILS_LIFE 0
  let s := (s.wr Reg.HLT_HOURS.POWERED_HOURS 0).wr Reg.HLT_TEMP.TEMP_LIFE (s.rd Reg.HLT_TEMP.TEMP_NOW)
  s.saveDirectory

/-! ## Forming a commit (R102, R484) -/

/-- The changes that the next commit takes: a `CONFIG_FACTORY` alone, or every change up to the next one. -/
def nextRun : List CfgPending → List CfgPending × List CfgPending
  | [] => ([], [])
  | p :: ps =>
    if p.change = .factory then ([p], ps)
    else ((p :: ps).takeWhile fun x => x.change != .factory, (p :: ps).dropWhile fun x => x.change != .factory)

/-- Changes into a body, in ASN order: the body, and those that the record has no room for. -/
def buildBody (s : State) : List CfgPending → Option CfgBody → List CfgPending → Option CfgBody × List CfgPending
  | [], b, bad => (b, bad)
  | p :: ps, b, bad =>
    match p.change with
    | .body x => buildBody s ps (some x) bad
    | .factory => buildBody s ps (s.factoryBody s.flash.identity) bad
    | .reg a v mask =>
      match b with
      | none => buildBody s ps b (bad ++ [p])
      | some x =>
        match x.write a v mask with
        | some y => buildBody s ps (some y) bad
        | none => buildBody s ps b (bad ++ [p])

/-- The format that a `CONFIG_FACTORY` makes first where the tier has no valid system area (R114). -/
def State.factoryFormat (s : State) (run : List CfgPending) : State :=
  if (run.any fun p => p.change == .factory) ∧ !s.flash.formatted ∧ s.drbgOk then s.formatFlash else s

/-- What a change of the registers does at once: a port whose mode changes goes down (R136), the read cache keeps its
bound, and warnings follow their thresholds (R466). -/
def State.settleRegs (old new_ : State) : State :=
  let moved := fun q => old.quadMode q != new_.quadMode q
  let ports := new_.ports.zipIdx.map fun x =>
    if moved (x.2 / 4) ∧ x.1.up then { x.1 with up := false, anDone := false } else x.1
  let cache := cacheTrim (new_.rd Reg.DIR_CACHE.CACHE_MIB * 1048576) 0 new_.kv.cache
  let t := { new_ with ports := ports, kv := { new_.kv with cache := cache } }
  if old.word 0x500060 = new_.word 0x500060 then t else t.checkThresholds

/-- Answer a list of waiters. -/
def State.answerAll (s : State) (status : Nat) (l : List CfgPending) : State :=
  l.foldl (fun s p => s.answer p.waiter status) s

/-- The register writes among changes that are refused: ERR_CAPT of their pages captures the first (R118). -/
def State.captureAll (s : State) (status : Nat) (l : List CfgPending) : State :=
  l.foldl (fun (s : State) p => match p.change with
    | .reg a _ _ => s.capture (addrBlock a) (addrPage a) status (addrOff a)
    | _ => s) s

/-- The generation after another (R107): 32 bits (Table 04-8). -/
def nextGeneration (g : Nat) : Nat := (g + 1) % 2 ^ 32

/-- A commit written to the copy that is not current (R107). -/
def Cfg.commit (c : Cfg) (b : CfgBody) : Cfg :=
  match c.current with
  | some (0, x) => { c with copy1 := some ⟨nextGeneration x.generation, b⟩ }
  | some (_, x) => { c with copy0 := some ⟨nextGeneration x.generation, b⟩ }
  | none => { c with copy0 := some ⟨1, b⟩ }

/-- The commit under way made: the body written and in force, every change answered. -/
def State.commitCfg (s : State) : State :=
  let run := s.cfg.under
  let s := s.factoryFormat run
  match buildBody s run s.baseBody [] with
  | (none, _) => ({ s with cfg := { s.cfg with under := [] } }.captureAll stBadField run).answerAll stBadField run
  | (some b, bad) =>
    let good := run.filter fun p => !bad.contains p
    let s := s.captureAll stBadField bad
    let old := match s.cfg.current with
      | some c => c.2.body.compatPin
      | none => 0
    if good.isEmpty then { s with cfg := { s.cfg with under := [] } }.answerAll stBadField bad
    else
      let cfg := { s.cfg.commit b with under := [] }
      let t := s.settleRegs { s with cfg := cfg, regs := good.foldl (fun m p => applyChange m p.change) s.regs }
      let gen : Nat := match t.cfg.current with
        | some c => c.2.generation
        | none => 0
      let t := if 180000 < gen then t.raise Ev.RST.CFG_WEAR else t
      let t := if b.compatPin ≠ old then t.raise Ev.GLB.PIN_COMMITTED else t
      ((t.answerAll stBadField bad).answerAll stOK good).sendKeepers

/-- A commit whose second attempt fails (R107): nothing changes, `MEDIA_ERROR`; the copy being written is left without
a valid commit. -/
def State.failCfg (s : State) : State :=
  let run := s.cfg.under
  let s := s.factoryFormat run
  let waiting := s.cfg.waiting
  let s := s.dropCommit
  let s := { s with cfg := { s.cfg with waiting := waiting } }
  ((s.captureAll stMedia run).raiseWith Ev.RST.CFG_COMMIT_FAIL 0 false stMedia 0).answerAll stMedia run

end Sys2Proof.Machine
end

