-- ==== Sys2Proof/Machine/RegOps.lean ====
section
/-! DEFINITION. The register arbiter (R116 to R131, R484): header fields, the checks of Table 05-5, reads with their
latches, writes and what they do, ownership, and the class C writes that wait for a commit (R102). -/

namespace Sys2Proof.Machine

open Sys2Proof

/-! ## The fields of a register -/

/-- A header field. -/
def hdrField (off lo w : Nat) (a : Access) (r : Retention) : Field := ⟨0, .block, off, 1, lo, w, a, r, 0⟩

/-- The 32 one-bit fields of an event register (R120). -/
def evtBits (off : Nat) (a : Access) (r : Retention) : List Field := (List.range 32).map fun k => hdrField off k 1 a r

/-- The header fields at an offset (Table 05-2, Table 05-3); PWR_REQ requests are RO without a domain (R118). -/
def headerFields (dom : Bool) (off : Nat) : List Field :=
  if off = hPageId then [hdrField off 0 8 .ro .a, hdrField off 8 8 .ro .a, hdrField off 16 8 .ro .a, hdrField off 24 8 .ro .a]
  else if off = hCaps then [hdrField off 0 6 .ro .a, hdrField off 6 1 .ro .a, hdrField off 7 1 .ro .a, hdrField off 8 1 .ro .a]
  else if off = hCtrl then [hdrField off 0 1 .wo .a]
  else if off = hStatus then [hdrField off 0 1 .ro .a, hdrField off 1 1 .ro .a, hdrField off 2 1 .ro .a]
  else if off = hEvtStat then evtBits off .w1c .l
  else if off = hEvtEn then evtBits off .rw .c
  else if off = hEvtForce then evtBits off .wo .a
  else if off = hErrCapt then
    [hdrField off 0 16 .ro .l, hdrField off 16 10 .ro .l, hdrField off 26 5 .ro .l, hdrField off 31 1 .ro .l]
  else if off = hOwner then
    [hdrField off 0 12 .ro .a, hdrField off 12 3 .ro .a, hdrField off 16 1 .rw .a, hdrField off 17 1 .w1s .a,
     hdrField off 24 1 .wo .a, hdrField off 25 1 .wo .a]
  else if off = hPwrReq then
    let a := if dom then Access.rw else .ro
    [hdrField off 0 1 a .a, hdrField off 1 1 a .a, hdrField off 8 1 .ro .a]
  else []

/-- The fields of the register at an address. -/
def fieldsOf (a : Nat) : List Field :=
  if addrOff a < 0x40 then headerFields (!(pageDomains (addrBlock a) (addrPage a)).isEmpty) (addrOff a)
  else fieldsAt (addrBlock a) (addrPage a) (addrOff a)

/-- Fields that a mask touches. -/
def covered (a : Nat) (mask : Word) : List Field :=
  (fieldsOf a).filter fun f => mask &&& fieldMask f.lo f.width != 0

/-! ## Paths (Table 05-3, Table 05-4) -/

/-- The PATH code of a writer. -/
def Path.code : Path → Nat
  | .skp _ => 1
  | .mctp => 2
  | .firmware => 3
  | .debug => 4

/-- The SESSION that a writer puts into OWNER. -/
def Path.session : Path → Nat
  | .skp id => id
  | _ => 0

/-- The writer owns the page. -/
def State.owns (s : State) (p : Path) (base : Nat) : Bool :=
  let w := s.word (base + hOwner)
  wordGet w 12 3 == Path.code p && wordGet w 0 12 == Path.session p % 4096

/-- Blocks that every path writes only through EVT_STAT (Table 05-4). -/
def firmwareBlock (b : Nat) : Bool := b == 14 || b == 15 || b == 17

/-- A path may read a block. -/
def State.mayRead (s : State) (p : Path) (b : Nat) : Bool :=
  match p with
  | .skp _ => true
  | .mctp => mctpReads b
  | .firmware => false
  | .debug => decide (1 ≤ s.dbg.level)

/-- A path may write a register of a block; `evt` says that it is EVT_STAT (R130). -/
def State.mayWrite (s : State) (p : Path) (b : Nat) (evt : Bool) : Bool :=
  match p with
  | .skp _ => evt || !(firmwareBlock b || b == 19)
  | .mctp => mctpWrites b || (evt && mctpReads b)
  | .firmware => false
  | .debug => decide (s.dbg.level = 2) && (evt || !firmwareBlock b)

/-! ## Ranges (check 8 of Table 05-5, R484) -/

/-- Ranges of fields whose bounds are numbers. -/
def fieldRanges : List (Field × Nat × Nat) :=
  [(Reg.PWR_CAP.CAP, 80, 340), (Reg.WDT_CFG.WDT_PERIOD, 100, 60000), (Reg.NET_PORTMODE.QUAD0, 0, 4),
   (Reg.NET_PORTMODE.QUAD1, 0, 4), (Reg.NET_UDP.SKP_PORT, 1, 65535), (Reg.SKP_CFG.HALF_OPEN_MAX, 1, 256),
   (Reg.CMD_CFG.UPLOAD_IDLE, 1, 3650), (Reg.DIR_CFG.RESEED_PCT, 1, 100), (Reg.DIR_TIER.DEMOTE_DAYS, 1, 15),
   (Reg.CAM_TBL.TILES, 0, 26), (Reg.PAT_CFG.SCAN_LANES, 1, 16), (Reg.PAT_CFG.WATCH_LANES, 0, 8)] ++
  [(Reg.FLT_CFG0.SPREAD_LIMIT, 50, 10000), (Reg.FLT_CFG0.PROMOTE_PCT, 10, 100), (Reg.FLT_CFG0.PATROL_DAYS, 1, 255),
   (Reg.FLT_CFG1.GC_START_PM, 11, 100), (Reg.FLT_CFG1.DEMOTE_FORCE_PCT, 50, 99), (Reg.SRV_CFG0.WRITE_LIMIT, 41, 205),
   (Reg.SRV_CFG0.SETTLE_RD, 41, 307), (Reg.SRV_CFG1.SHOCK_LIMIT, 64, 512), (Reg.RDC_CFG.TRACK_SKEW, 8, 63),
   (Reg.RDC_CFG.INLINE_ITER, 4, 15), (Reg.RDC_CFG.MAX_ITER, 16, 63), (Reg.RDC_CFG.CLEAN_START_PCT, 2, 50)] ++
  [(Reg.FAB_CFG.GW_MASK, 1, 15), (Reg.FAB_CFG.FLOWLET_GAP, 1, 255), (Reg.FAB_CFG.SEED_PERIOD, 1, 65535),
   (Reg.HLT_THRESH.TEMP_WARN, 60, 109), (Reg.HLT_THRESH.WEAR_WARN, 50, 250), (Reg.HLT_THRESH.MEDIA_WARN, 1, 65535)]

/-- The two quads use one signalling (R137). -/
def quadsAgree (q0 q1 : Nat) : Bool := !((q0 == 4 && decide (1 ≤ q1) && decide (q1 ≤ 3)) ||
  (q1 == 4 && decide (1 ≤ q0) && decide (q0 ≤ 3)))

/-- Every class of work has a core (R339). -/
def State.classesServed (s : State) : Bool :=
  (List.range 4).all fun k => (List.range 6).any fun c =>
    !s.cry.coreOut.contains c && bitOf (s.rdAt Reg.CORE_LOCK.CLASS_MASK c 0) k

/-- A field-filter table's geometry is allowed (Table 09-6, R226); `t` is the state after the write. -/
def filterOk (s t : State) (k : Nat) : Bool :=
  let c := t.tableCfg k
  let apart := fun j =>
    let d := t.tableCfg j
    d.tiles == 0 || c.tiles == 0 || decide (d.first + d.tiles ≤ c.first) || decide (c.first + c.tiles ≤ d.first)
  (c.tiles == 0 || (decide (6 ≤ c.first) && decide (c.first + c.tiles ≤ 32))) &&
    ((List.range' 8 8).all fun j => j == k || apart j) &&
    decide (c.bits ≤ 4 - c.code) && decide (c.lsb + c.bits ≤ c.width) &&
    (s.tableCfg k == c || !((s.table k).any fun x => x.2.isSome))

/-- One covered field holds an allowed value in the state after the write. -/
def fieldAllowed (s t : State) (f : Field) (a v : Nat) : Bool :=
  (match fieldRanges.find? fun r => r.1 == f with
   | some r => decide (r.2.1 ≤ v) && decide (v ≤ r.2.2)
   | none => true) &&
  (if f = Reg.NET_PORTMODE.QUAD0 ∨ f = Reg.NET_PORTMODE.QUAD1 then quadsAgree (t.quadMode 0) (t.quadMode 1)
   else if f = Reg.DIR_CFG.SAVE_MIN then v == 0 || (decide (5 ≤ v) && decide (v ≤ 1440))
   else if f = Reg.DIR_CACHE.CACHE_MIB then decide (v ≤ if s.cfg.hw.dramGib = 32 then 4096 else 2048)
   else if f = Reg.COMPAT.PINNED then decide (v ≤ s.rd Reg.COMPAT.MAX_LEVEL)
   else if f = Reg.SRV_CFG0.SETTLE_WR then decide (20 ≤ v) && decide (v ≤ t.rd Reg.SRV_CFG0.WRITE_LIMIT)
   else if f = Reg.CORE_LOCK.CLASS_MASK then t.classesServed
   else if addrBlock a = 8 ∧ addrPage a = 0 ∧ 0x60 ≤ addrOff a ∧ addrOff a < 0x80 then
     filterOk s t (8 + (addrOff a - 0x60) / 4)
   else true)

/-- A word after a write under a mask. -/
def maskWrite (old value mask : Word) : Word := (old &&& ~~~mask) ||| (value &&& mask)

/-- Check 8: no field partly covered, every value in range. -/
def State.inRange8 (s : State) (a : Nat) (value mask : Word) : Bool :=
  let fs := covered a mask
  let set := value &&& mask
  let t := s.setWord a (maskWrite (s.word a) value mask)
  (fs.all fun f => mask &&& fieldMask f.lo f.width == fieldMask f.lo f.width) &&
  (fs.all fun f => (f.access != .rw && f.access != .rwl) || fieldAllowed s t f a (wordGet value f.lo f.width)) &&
  !(addrOff a == hPwrReq && wordGet set 0 2 == 3) &&
  !(a == 0xC0040 && set.getLsbD 16 && wordGet set 0 16 != 0x5AFE)

/-- OWNER writes that R122 refuses, with their status. -/
def State.ownerCheck (s : State) (p : Path) (base : Nat) (value mask : Word) : Option Nat :=
  let w := s.word (base + hOwner)
  let set := value &&& mask
  let mine := s.owns p base
  let free := wordGet w 12 3 == 0
  let claims := set.getLsbD 24
  if claims && !(free || mine) then some stNotPermitted
  else if (mask.getLsbD 16 || mask.getLsbD 17 || mask.getLsbD 25) && !(mine || (claims && free)) then some stNotPermitted
  else if set.getLsbD 25 && (claims || mask.getLsbD 16 || mask.getLsbD 17) then some stBadField
  else if mask.getLsbD 16 && !value.getLsbD 16 && w.getLsbD 17 && w.getLsbD 16 then some stNotPermitted
  else none

/-- Checks 3 to 8 of Table 05-5 for a write. -/
def State.writeCheck (s : State) (p : Path) (a : Nat) (value mask : Word) : Option Nat :=
  let b := addrBlock a
  let base := a - addrOff a
  let off := addrOff a
  let evt := off == hEvtStat
  let full := p == .debug
  let fs := covered a mask
  let owner := wordGet (s.word (base + hOwner)) 12 3
  if a % 4 ≠ 0 ∨ !pagePresent b (addrPage a) ∨ mask = 0 then some stBadField
  else if !s.mayWrite p b evt then some stNotPermitted
  else if !evt && !full && owner != 0 && !s.owns p base then some stNotPermitted
  else if fs.all fun f => f.access == .ro || f.access == .rc then some stNotPermitted
  else if !full && (fs.any fun f => f.access == .rwl) && (s.word (base + hOwner)).getLsbD 16 then some stNotPermitted
  else
    match if off = hOwner then s.ownerCheck p base value mask else none with
    | some st => some st
    | none => if s.inRange8 a value mask then none else some stBadField

/-! ## What a write does -/

/-- EVT_FORCE: each bit sets its event as the hardware would (R120). -/
def State.forceEvents (s : State) (b page : Nat) (set : Word) : State :=
  ((List.range 32).filter fun k => set.getLsbD k).foldl (fun s k =>
    s.raiseWith ⟨b, page != 0, k⟩ (page - 1) true 0 0) s

/-- OWNER written (R122, R124). -/
def ownerWrite (p : Path) (w value mask : Word) : Word :=
  let set := value &&& mask
  let w := if set.getLsbD 24 then wordPut (wordPut w 12 3 (Path.code p)) 0 12 (Path.session p) else w
  let w := if mask.getLsbD 16 then wordPut w 16 1 (wordGet value 16 1) else w
  let w := if set.getLsbD 17 then wordPut w 17 1 1 else w
  if set.getLsbD 25 then
    let w := wordPut w 0 15 0
    if w.getLsbD 17 then w else wordPut w 16 1 0
  else w

/-- PWR_REQ written: the newer request stands (log entry 52); a page turned off lets go of what accesses held on. -/
def State.powerRequest (s : State) (a : Nat) (value mask : Word) : State :=
  let set := value &&& mask
  let w := maskWrite (s.word a) value (mask &&& 3)
  let w := if set.getLsbD 0 then wordPut w 1 1 0 else if set.getLsbD 1 then wordPut w 0 1 0 else w
  let s := s.setWord a w
  if set.getLsbD 1 then
    let off := maskOf (pageDomains (addrBlock a) (addrPage a))
    { s with dev := { s.dev with domAccess := s.dev.domAccess &&& ~~~(BitVec.ofNat 196 off) } }
  else s

/-- The word of a block-specific register after a write: RW and RWL fields take the value, W1S fields gain it, W1C fields
lose it, RO, RC and WO fields stay. -/
def writeFields (fs : List Field) (w value mask : Word) : Word :=
  fs.foldl (fun w f =>
    let m := fieldMask f.lo f.width &&& mask
    match f.access with
    | .rw => maskWrite w value m
    | .rwl => maskWrite w value m
    | .w1s => w ||| (value &&& m)
    | .w1c => w &&& ~~~(value &&& m)
    | _ => w) w

/-- A checked write of fields that are not of class C, but for RST_CTRL. -/
def State.applyWrite (s : State) (p : Path) (a : Nat) (value mask : Word) : State :=
  let base := a - addrOff a
  let off := addrOff a
  let set := value &&& mask
  if off = hCtrl then (if set.getLsbD 0 then s.setWord (base + hErrCapt) 0 else s)
  else if off = hEvtForce then s.forceEvents (addrBlock a) (addrPage a) set
  else if off = hOwner then s.setWord a (ownerWrite p (s.word a) value mask)
  else if off = hPwrReq then s.powerRequest a value mask
  else if off = hEvtEn then s
  else s.setWord a (writeFields (covered a mask) (s.word a) value mask)

/-! ## Commits form (R102, R484) -/

/-- The second test of R484: changes that still hold, and those that fail. The values of a whole body are not tested (R106);
a body that pairs quad modes as R137 forbids in a write is committed: DESIGN CHOICE (log entry 156). -/
def State.retest (s : State) : List CfgPending → List CfgPending × List CfgPending
  | [] => ([], [])
  | p :: ps =>
    let ok := match p.change with
      | .reg a v mask => s.inRange8 a v mask
      | _ => true
    if ok then
      let r := { s with regs := applyChange s.regs p.change }.retest ps
      (p :: r.1, r.2)
    else
      let r := s.retest ps
      (r.1, p :: r.2)

/-- The next commit forms, where none is under way. -/
def formGo : Nat → State → State
  | 0, s => s
  | n + 1, s =>
    if !s.cfg.under.isEmpty || s.cfg.waiting.isEmpty then s
    else
      let r := nextRun s.cfg.waiting
      let t := s.retest r.1
      let s := { s with cfg := { s.cfg with under := t.1, waiting := r.2 } }
      formGo n ((s.captureAll stBadField t.2).answerAll stBadField t.2)

def State.formCommit (s : State) : State := formGo (s.cfg.waiting.length + 1) s

/-- A change joins the commits that wait. -/
def State.addChange (s : State) (c : CfgChange) (w : Waiter) : State :=
  let x : CfgPending := ⟨c, w⟩
  { s with cfg := { s.cfg with waiting := s.cfg.waiting ++ [x] } }.formCommit

/-! ## Accesses -/

/-- The device answers register accesses. -/
def State.answersRegs (s : State) : Bool :=
  match s.dev.phase with
  | .service => true
  | .stalemate => true
  | .drained _ => true
  | _ => false

/-- Checks 1 and 2 of Table 05-5. -/
def State.pathCheck (s : State) (p : Path) : Option Nat :=
  match p with
  | .skp id => match s.session? id with
    | some x =>
      if s.inStale ∧ x.cls ≠ .recovery then some stStalemate
      else if x.cls = .data then some stNotPermitted
      else none
    | none => some stNotPermitted
  | _ => none

/-- A block-specific register of unpowered domains powers them (R119). -/
def State.powerPage (s : State) (a : Nat) : State :=
  if addrOff a < 0x40 then s
  else
    let off := (pageDomains (addrBlock a) (addrPage a)).filter fun d => !s.domainOn d
    if off.isEmpty then s
    else { s with dev := { s.dev with domAccess := s.dev.domAccess ||| BitVec.ofNat 196 (maskOf off) } }

/-- A REG_WRITE to a present page is refused: ERR_CAPT captures the first (R118). -/
def State.refuseWrite (s : State) (a st : Nat) : State :=
  if pagePresent (addrBlock a) (addrPage a) then s.capture (addrBlock a) (addrPage a) st (addrOff a) else s

/-- A write by a path, answered to a waiter (R126, R131). -/
def State.regWrite (s : State) (p : Path) (w : Waiter) (a : Nat) (value mask : Word) : State :=
  match s.ahead.writeCheck p a value mask with
  | some st =>
    (s.refuseWrite a st).answer w st
  | none =>
    if a = 0xC0040 then
      if (value &&& mask).getLsbD 16 then s.askController w else s.answer w stOK
    else if mask &&& classCMask a ≠ 0 then (s.powerPage a).addChange (.reg a value mask) w
    else ((s.powerPage a).applyWrite p a value mask).answer w stOK

/-- The low words of the 64-bit counters (R128). -/
def pairLows : List Field :=
  [Reg.SERIAL_LO.WORD, Reg.CMD_ADMIT_LO.ADMITTED_LO, Reg.DIR_KEYS_LO.KEYS_LO, Reg.SEARCHES_LO.WORD,
   Reg.LANE_BYTES_LO.BYTES_LO, Reg.FLT.HOST_UNITS_LO, Reg.FLT.NAND_UNITS_LO, Reg.CORE_BYTES_LO.BYTES_LO,
   Reg.HASH_BYTES_LO.BYTES_LO, Reg.SEA_TIME_LO.DEV_TIME_LO, Reg.SEA_RECORDS_LO.RECORDS_LO, Reg.LINK_FLITS_LO.FLITS_LO]

/-- An address is the low word of a 64-bit counter. -/
def isPairLow (a : Nat) : Bool := (fieldsOf a).any fun f => pairLows.contains f

/-- One register read: WO fields read 0, a pair's high word comes from the reader's latch (R128). -/
def State.readOne (s : State) (p : Path) (a : Nat) : Word × State :=
  let s := s.powerPage a
  match s.latches.find? fun l => l.reader == p && l.addr == a with
  | some l => (l.high, { s with latches := s.latches.filter fun x => !(x.reader == p && x.addr == a) })
  | none =>
    let v := s.live a
    if isPairLow a then
      let hi := s.live (a + 4)
      let other := s.latches.filter fun x => !(x.reader == p && x.addr == a + 4)
      (v, { s with latches := other ++ [⟨p, a + 4, hi⟩] })
    else (v, s)

/-- RC fields of a register cleared. -/
def State.clearRc (s : State) (a : Nat) : State :=
  let m := ((fieldsOf a).filter fun f => f.access == .rc).foldl (fun w f => w ||| fieldMask f.lo f.width) (0 : Word)
  if m = 0 then s else s.setWord a (s.word a &&& ~~~m)

/-- `n` registers from an address on. -/
def readRun (p : Path) (a : Nat) : Nat → State → List Word × State
  | 0, s => ([], s)
  | n + 1, s =>
    match s.readOne p a with
    | (v, s) =>
      match readRun p (a + 4) n (s.clearRc a) with
      | (vs, s) => (v :: vs, s)

/-- A read by a path: status, registers, state (R127, Table 05-5). -/
def State.regRead (s : State) (p : Path) (a n : Nat) : Nat × List Word × State :=
  if a % 4 ≠ 0 ∨ !pagePresent (addrBlock a) (addrPage a) ∨ n = 0 ∨ 256 < n ∨ 0x1000 < addrOff a + 4 * n then
    (stBadField, [], s)
  else if !s.mayRead p (addrBlock a) then (stNotPermitted, [], s)
  else
    match readRun p a n s with
    | (vs, s) => (stOK, vs, s)

/-- A register access that arrives by a path of its own: the wake it makes (R72). -/
def State.pathArrives (s : State) (p : Path) : State :=
  match p with
  | .skp _ => s.arrive Reg.WAKE_SRC.HOST_FRAME
  | .mctp => s.arrive Reg.WAKE_SRC.SMBUS
  | _ => s

/-- A register write row. -/
def State.accessWrite (s : State) (p : Path) (a : Nat) (value mask : Word) : State :=
  if s.answersRegs then
    let s := s.pathArrives p
    match s.pathCheck p with
    | some st => (s.refuseWrite a st).answer (.path p) st
    | none =>
      match p with
      | .skp _ => if s.dev.resetBusy then (s.refuseWrite a stResetAborted).answer (.path p) stResetAborted else s.regWrite p (.path p) a value mask
      | _ => s.regWrite p (.path p) a value mask
  else s

/-- A register read row. -/
def State.accessRead (s : State) (p : Path) (a n : Nat) : State :=
  if s.answersRegs then
    let s := s.pathArrives p
    match s.pathCheck p with
    | some st => s.emit (.regResult p st [])
    | none =>
      match s.regRead p a n with
      | (st, vs, s) => s.emit (.regResult p st vs)
  else s

end Sys2Proof.Machine
end

