-- ==== Sys2Proof/Machine/RegRows.lean ====
section
/-! DEFINITION. The register accesses that have a row of their own (chapter 05), CONFIG_COMMIT (R107), and the SMBus and
MCTP rows (R64, R132 to R134). -/

namespace Sys2Proof.Machine

open Sys2Proof

/-! ## Ownership and header writes -/

/-- The address of a page: its number in the register space (R116). -/
def pageBase (page : Nat) : Nat := page * 0x1000

/-- CLAIM, with LOCK or STICKY in the same write (R122). -/
def execClaim (w : Path) (page : Nat) (lock sticky : Bool) (s : State) : Host.Outcome State Fault Refusal :=
  let v : Word := 0x1000000 ||| (if lock then 0x10000 else 0) ||| (if sticky then 0x20000 else 0)
  s.done (s.accessWrite w (pageBase page + hOwner) v v)

/-- RELEASE (R124). -/
def execRelease (w : Path) (page : Nat) (s : State) : Host.Outcome State Fault Refusal :=
  s.done (s.accessWrite w (pageBase page + hOwner) 0x2000000 0x2000000)

/-- LOCK set or cleared by the owner (R122). -/
def execLock (w : Path) (page : Nat) (value : Bool) (s : State) : Host.Outcome State Fault Refusal :=
  s.done (s.accessWrite w (pageBase page + hOwner) (if value then 0x10000 else 0) 0x10000)

/-- STICKY set by the owner (Table 05-3). -/
def execSticky (w : Path) (page : Nat) (s : State) : Host.Outcome State Fault Refusal :=
  s.done (s.accessWrite w (pageBase page + hOwner) 0x20000 0x20000)

/-- EVT_STAT cleared by any path that may read the page (R130). -/
def execEvtStatClear (w : Path) (page : Nat) (bits : Word) (s : State) : Host.Outcome State Fault Refusal :=
  s.done (s.accessWrite w (pageBase page + hEvtStat) bits bits)

/-- EVT_FORCE (R120). -/
def execEvtForce (w : Path) (page : Nat) (bits : Word) (s : State) : Host.Outcome State Fault Refusal :=
  s.done (s.accessWrite w (pageBase page + hEvtForce) bits bits)

/-- CTRL.ERR_CLR clears ERR_CAPT (Table 05-2). -/
def execErrClr (w : Path) (page : Nat) (s : State) : Host.Outcome State Fault Refusal :=
  s.done (s.accessWrite w (pageBase page + hCtrl) 1 1)

/-- PWR_REQ.REQ_ON (R70, R71). -/
def execReqOn (w : Path) (page : Nat) (s : State) : Host.Outcome State Fault Refusal :=
  s.done (s.accessWrite w (pageBase page + hPwrReq) 1 1)

/-- PWR_REQ.REQ_OFF (R71). -/
def execReqOff (w : Path) (page : Nat) (s : State) : Host.Outcome State Fault Refusal :=
  s.done (s.accessWrite w (pageBase page + hPwrReq) 2 2)

/-- RST_CTRL.CONTROLLER with a key (Table 04-12, R96). -/
def execRstCtrlController (w : Path) (key : BitVec 16) (s : State) : Host.Outcome State Fault Refusal :=
  s.done (s.accessWrite w 0xC0040 (0x10000 ||| key.setWidth 32) 0x1FFFF)

/-- COMPAT.PINNED (R9). -/
def execPinnedWrite (w : Path) (level : BitVec 16) (s : State) : Host.Outcome State Fault Refusal :=
  s.done (s.accessWrite w compatAddr (level.setWidth 32) 0xFFFF)

/-- LOG_SEL (R465). -/
def execLogSelWrite (w : Path) (value : Word) (s : State) : Host.Outcome State Fault Refusal :=
  s.done (s.accessWrite w 0x50006C value (BitVec.allOnes 32))

/-- Any other register write (R127). -/
def execRegisterWrite (w : Path) (addr : Nat) (value mask : Word) (s : State) : Host.Outcome State Fault Refusal :=
  s.done (s.accessWrite w addr value mask)

/-- A read of one register; its RC fields clear (R18). -/
def execRcRead (w : Path) (addr : Nat) (s : State) : Host.Outcome State Fault Refusal := s.done (s.accessRead w addr 1)

/-- A read of the low word of a 64-bit counter latches the high word (R128). -/
def execCounterLowRead (w : Path) (addr : Nat) (s : State) : Host.Outcome State Fault Refusal :=
  s.done (s.accessRead w addr 1)

/-- 1 ms after the last access that held a page's domains on, they power off (R119). -/
def execDomainAccessPowerOff (page : Nat) (s : State) : Host.Outcome State Fault Refusal :=
  let off := maskOf (pageDomains (page / 64) (page % 64))
  s.done { s with dev := { s.dev with domAccess := s.dev.domAccess &&& ~~~(BitVec.ofNat 196 off) } }

/-! ## The configuration record -/

/-- The commit under way ends, as its read-backs say (R107); the next one forms. -/
def execConfigCommit (r : NorResult) (s : State) : Host.Outcome State Fault Refusal :=
  s.done (if s.cfg.under.isEmpty then s
    else
      match r with
      | .failed => s.failCfg.formCommit
      | _ => s.commitCfg.formCommit)

/-- A `CONFIG_WRITE` (R113): its body is checked and joins the commits. -/
def State.configWrite (s : State) (body : Bytes) (w : Waiter) : State :=
  match (parseBody body).bind fun b => if s.fabric then b.joined else some b with
  | some b => s.addChange (.body b) w
  | none => s.answer w stBadField

/-- A `CONFIG_FACTORY`: the checks of R114 in order. -/
def State.configFactory (s : State) (w : Waiter) : State :=
  if s.inStale ∧ s.rd Reg.STALE_STAT.REASON = 6 then s.answer w stNotPermitted
  else if s.dev.straps.profile = 0 ∨ s.dev.straps.profile = 3 then s.answer w stBadField
  else if !s.flash.formatted ∧ !s.drbgOk then s.answer w stEntropy
  else s.addChange .factory w

/-! ## Fegrazil MCTP requests (R133, R134) -/

/-- The response to a request. -/
def State.mctpReply (s : State) (code : Nat) (h : MctpHdr) (status : Nat) (data : Bytes) : State :=
  s.emit (.mctpResponse code h.tag h.reserved status data)

/-- The SMBus address of the device (R64): 0x40, plus SLOT_ID in the Fabric profile; 0x40 while no profile is in force
(R108). -/
def State.smbusAddr (s : State) : Nat := if s.fabric then 0x40 + s.rd Reg.PROFILE.SLOT % 16 else 0x40

/-- A request: discarded where it names another address, without its PEC or under another enterprise number, `BUSY_RETRY`
while another is executed (R64, R132, R133); a reserved byte that is not 0 is `BAD_FIELD` (R20). -/
def State.mctpRequest (s : State) (h : MctpHdr) (code : Nat) (body : State → State) : State :=
  if h.addr = s.smbusAddr ∧ h.pecOk ∧ h.enterprise = 0xF6A2 ∧ s.answersRegs then
    let s := s.arrive Reg.WAKE_SRC.SMBUS
    if s.mctp.busy then s.mctpReply code h stBusy []
    else if h.reserved ≠ 0 then s.mctpReply code h stBadField []
    else body s
  else s

/-- The request is being executed until its waiter is answered. -/
def State.mctpBusy (s : State) : State := { s with mctp := { s.mctp with busy := true } }

/-- Registers as response bytes. -/
def wordBytes (ws : List Word) : Bytes := (ws.map fun w => leBytes 4 w.toNat).flatten

def execMctpRegRead (h : MctpHdr) (addr count : Nat) (s : State) : Host.Outcome State Fault Refusal :=
  s.done (s.mctpRequest h 1 fun s =>
    if count = 0 ∨ 64 < count then s.mctpReply 1 h stBadField []
    else
      match s.regRead .mctp addr count with
      | (st, ws, s) => s.mctpReply 1 h st (wordBytes ws))

def execMctpRegWrite (h : MctpHdr) (addr : Nat) (value mask : Word) (s : State) : Host.Outcome State Fault Refusal :=
  s.done (s.mctpRequest h 2 fun s => s.mctpBusy.regWrite .mctp (.mctp h.tag 2) addr value mask)

/-- One fragment of a `CONFIG_WRITE`; the one that completes the set runs it (R134). A message of more than 1,024 bytes, its
12-byte head counted, is discarded (R132). -/
def execConfigWriteFragment (h : MctpHdr) (index reserved : Nat) (bytes : Bytes) (s : State) :
    Host.Outcome State Fault Refusal :=
  s.done (if 1012 < bytes.length then s else s.mctpRequest h 3 fun s =>
    if 15 < index ∨ reserved ≠ 0 ∨ bytes.length ≠ 1008 then s.mctpReply 3 h stBadField []
    else
      let frags := putWhere (fun (f : Nat × Bytes) => f.1 == index) (index, bytes) s.cfg.frags
      if frags.length = 16 then
        let whole := ((List.range 16).map fun i => ((frags.find? fun f => f.1 == i).map fun f => f.2).getD []).flatten
        { s with cfg := { s.cfg with frags := [] } }.mctpBusy.configWrite whole (.mctp h.tag 3)
      else { s with cfg := { s.cfg with frags := frags } }.mctpReply 3 h stOK [])

def execMctpConfigFactory (h : MctpHdr) (s : State) : Host.Outcome State Fault Refusal :=
  s.done (s.mctpRequest h 4 fun s => s.mctpBusy.configFactory (.mctp h.tag 4))

def execMctpResetController (h : MctpHdr) (s : State) : Host.Outcome State Fault Refusal :=
  s.done (s.mctpRequest h 5 fun s => s.mctpBusy.askController (.mctp h.tag 5))

/-- The FW_STATUS record (Table 18-6). -/
def State.fwStatus (s : State) : Bytes :=
  let f := s.fw
  let slot := fun (a b : SlotRecord → Nat) => f.field fun r => if r.active = 0 then a r else b r
  let digest := match f.current with
    | some r => if r.active = 0 then r.digestA else r.digestB
    | none => List.replicate 48 0
  let held := fun k => match f.staging with
    | some g => g.chunks.any fun c => c.1 == k
    | none => false
  let map := (List.range 48).map fun i =>
    BitVec.ofNat 8 ((List.range 8).foldl (fun n j => n + (if held (8 * i + j) then 2 ^ j else 0)) 0)
  leBytes 1 (f.stagingField fun g => g.stage) ++ leBytes 1 (f.field fun r => r.active) ++
    leBytes 1 (f.field fun r => if r.trial then 2 else 1) ++ leBytes 1 (f.field fun r => r.trialStarts) ++
    leBytes 4 (f.field fun r => r.trialSeconds) ++ leBytes 2 (f.stagingField fun g => chunkCount g.len) ++
    leBytes 2 (f.stagingField fun g => g.chunks.length) ++ leBytes 2 f.firstMissing ++
    leBytes 1 (f.stagingField fun g => bit g.fromHost + 2 * bit g.fromPeer) ++ leBytes 1 s.key.fuses.rollback ++
    (match f.staging with
     | some g => g.digest
     | none => List.replicate 48 0) ++ digest ++
    leBytes 4 (slot (fun r => r.funcA) fun r => r.funcB) ++ leBytes 4 (f.stagingField fun g => g.func) ++
    leBytes 1 (slot (fun r => r.secA) fun r => r.secB) ++ leBytes 1 (f.stagingField fun g => g.sec) ++
    leBytes 2 f.lastVerify ++ [0, 0, 0, 0] ++ map

def execMctpFwStatus (h : MctpHdr) (s : State) : Host.Outcome State Fault Refusal :=
  s.done (s.mctpRequest h 6 fun s => s.mctpReply 6 h stOK s.fwStatus)

/-- A set of fragments left incomplete for 60 s is discarded (R134). -/
def execConfigFragmentSetExpiry (s : State) : Host.Outcome State Fault Refusal :=
  s.done { s with cfg := { s.cfg with frags := [] } }

/-! ## MCTP control messages (R132; their layout is DSP0236's, log entry 53, PRESUMED) -/

/-- A control request: only at the device's address, with its PEC and its request bit. -/
def State.mctpCtl (s : State) (c : MctpCtl) (body : State → State) : State :=
  if c.addr = s.smbusAddr ∧ c.pecOk ∧ bitOf c.inst 7 ∧ s.answersRegs then body (s.arrive Reg.WAKE_SRC.SMBUS) else s

/-- Set Endpoint ID: operations 0, 1 set it; 2 is not for a dynamic endpoint; 3 sets no ID. -/
def execSetEndpointId (c : MctpCtl) (op eid : Nat) (s : State) : Host.Outcome State Fault Refusal :=
  s.done (s.mctpCtl c fun s =>
    if op % 4 = 2 ∨ eid = 0 ∨ 255 ≤ eid then s.emit (.mctpControl 1 2 [])
    else
      let s := if op % 4 = 3 then s else { s with mctp := { s.mctp with eid := eid, eidSet := true } }
      s.emit (.mctpControl 1 0 [0, BitVec.ofNat 8 s.mctp.eid, 0]))

def execGetEndpointId (c : MctpCtl) (s : State) : Host.Outcome State Fault Refusal :=
  s.done (s.mctpCtl c fun s => s.emit (.mctpControl 2 0 [BitVec.ofNat 8 s.mctp.eid, 0, 0]))

/-- Get MCTP Version Support: version 1.3 of the base specification and of control messages. -/
def execGetMctpVersionSupport (c : MctpCtl) (msgType : Nat) (s : State) : Host.Outcome State Fault Refusal :=
  s.done (s.mctpCtl c fun s =>
    if msgType = 255 ∨ msgType = 0 then s.emit (.mctpControl 4 0 [1, 0xF1, 0xF3, 0xF0, 0])
    else s.emit (.mctpControl 4 0x80 []))

/-- Get Message Type Support: vendor-defined IANA, beside control messages. -/
def execGetMessageTypeSupport (c : MctpCtl) (s : State) : Host.Outcome State Fault Refusal :=
  s.done (s.mctpCtl c fun s => s.emit (.mctpControl 5 0 [1, 0x7F]))

/-- Get Vendor Defined Message Support: the enterprise number; the version of the command set is a free value. -/
def execGetVendorDefinedMessageSupport (c : MctpCtl) (selector : Nat) (s : State) : Host.Outcome State Fault Refusal :=
  s.done (s.mctpCtl c fun s =>
    if selector = 0 then
      s.tookFree.emit (.mctpControl 6 0 ([0xFF, 1] ++ beBytes 4 0xF6A2 ++ beBytes 2 (Config.freeNat s.free)))
    else s.emit (.mctpControl 6 2 []))

/-- Any other control command: completion code 0x05 (R132). -/
def execUnsupportedControlCommand (c : MctpCtl) (code : Nat) (s : State) : Host.Outcome State Fault Refusal :=
  s.done (s.mctpCtl c fun s => s.emit (.mctpControl code 5 []))

/-- SMB_CLK held low for more than 35 ms: both lines are released (R64). -/
def execSmbusClockTimeout (s : State) : Host.Outcome State Fault Refusal := s.done (s.emit .smbusReleased)

end Sys2Proof.Machine
end

