-- ==== Sys2Proof/Machine/Admin.lean ====
section
/-! DEFINITION. The admin opcodes of chapters 03 to 07: namespaces, power states, the CONTROLLER reset, register access
and the configuration record. -/

namespace Sys2Proof.Machine

open Sys2Proof

/-! ## Namespaces (R175, R176, R382, R483) -/


/-- A descriptor obeys Table 07-6 and R208, KIND_PARAM apart. -/
def descriptorOk (d : Bytes) : Bool :=
  let kind := leAt d 0 1
  let order := leAt d 1 1
  decide (d.length = 64) && decide (1 ≤ kind) && decide (kind ≤ 3) && (order == 1 || (order == 2 && kind == 1)) &&
    (leAt d 2 1 == 1 || leAt d 2 1 == 2) && decide (1 ≤ leAt d 3 1) && decide (leAt d 3 1 ≤ 4) &&
    allZero (sliceB d 4 4) && allZero (sliceB d 32 32) && (kind != 1 || allZero (sliceB d 16 16))

/-- KIND_PARAM obeys Table 16-1. -/
def kindParamOk (d : Bytes) : Bool :=
  let slot := leAt d 16 2
  let kind := leAt d 0 1
  if kind = 2 then decide (16 ≤ slot) && decide (slot ≤ 1023) && decide (1 ≤ leAt d 18 1) && decide (leAt d 18 1 ≤ 15) &&
    allZero (sliceB d 19 13)
  else if kind = 3 then leAt d 16 1 == 1 && allZero (sliceB d 17 15)
  else true

/-- The namespace that a descriptor describes. -/
def nsOf (nsid asn : Nat) (d : Bytes) (origin : Option Nat) : Ns where
  nsid := nsid
  kind := if leAt d 0 1 = 2 then .sealed else if leAt d 0 1 = 3 then .distribution else .mutable_
  stamped := leAt d 1 1 == 2
  media := leAt d 2 1 == 2
  tier := leAt d 3 1
  quota := leAt d 8 8
  sealSlot := if leAt d 0 1 = 2 then leAt d 16 2 else 0
  rclass := if leAt d 0 1 = 2 then leAt d 18 1 else 0
  createAsn := asn
  keys := []
  streams := []
  latest := []
  horizon := 0
  highest := 0
  mirrorSet := none
  copyOf := origin
  purges := []

/-- A namespace made durable. -/
def State.addNs (s : State) (n : Ns) : State :=
  { s with kv := { s.kv with namespaces := s.kv.namespaces ++ [n] } }.onBack fun b =>
    { b with namespaces := b.namespaces ++ [n] }

/-- The status with which a descriptor is refused when its turn comes: R382, then R258 and R284. -/
def State.createFails (s : State) (d : Bytes) : Option Nat :=
  let k := s.slot (leAt d 16 2)
  if !kindParamOk d then some stBadField
  else if leAt d 0 1 = 2 ∧ !k.present then some stSlotEmpty
  else if leAt d 0 1 = 2 ∧ !k.seal then some stNotPermitted
  else if s.noTier then some stMedia
  else if s.flash.readOnly then some stWorn
  else none

def nsCreateBody (e : TagEntry) (s : State) : State :=
  if (s.ns? e.msg.nsid).isSome then s.finish e stKeyExists []
  else
    match s.createFails e.msg.value with
    | some st => s.finish e st []
    | none => (s.addNs (nsOf e.msg.nsid e.asn e.msg.value none)).finish e stOK []

def execNsCreate (t : TagId) (s : State) : Host.Outcome State Fault Refusal := s.done (s.runCmd t 0x40 nsCreateBody)

/-- Whether a sealed namespace holds a record that has not expired (R389). -/
def State.unexpired (s : State) (n : Ns) : Bool :=
  n.streams.any fun t => t.recs.any fun r => decide (s.sea.time < r.hdr.expiry)

/-- Watches that name a namespace as EVENT_NS are disarmed, with WATCH_LOST (R254); those armed in it go. -/
def State.dropWatches (s : State) (nsid : Nat) : State :=
  let lost := s.pat.watches.filter fun w => w.nsid != nsid && w.eventNs == nsid
  let kept := s.pat.watches.filter fun w => w.nsid != nsid && w.eventNs != nsid
  let here := fun (x : WatchState) => kept.any fun w => w.nsid == x.nsid && w.id == x.id
  let s := { s with pat := { s.pat with watches := kept, states := s.pat.states.filter here } }.freeImages
  if lost.isEmpty then s else s.raise Ev.PAT.WATCH_LOST

/-- A namespace deleted in one journal commit (R176): its keys, streams, uploads and watches are gone and their space is
free; its leaf-map indices retire. -/
def State.dropNs (s₀ : State) (nsid : Nat) : State :=
  let s := s₀
  let mine := fun (e : Extent) => e.nsid == nsid && e.inUse
  let es := s.kv.extents.filter mine
  let parts := (s.cmd.uploads.filter fun u => u.nsid == nsid).map fun u => u.stored.map fun k => u.firstExtent + k
  let s := s.freeExtents ((es.map fun e => e.index) ++ parts.flatten)
  let ls := s.kv.leaves.filter fun l => l.nsid == nsid
  let lmus := ls.map fun l => l.lmu
  let gone := es.foldl (fun l e => if e.disk then l else l ++ e.lmus) lmus
  let clear := fun (e : Extent) => if e.nsid = nsid then { e with inUse := false, segs := [], lmus := [], buffered := false }
    else e
  let kv := { s.kv with namespaces := s.kv.namespaces.filter fun n => n.nsid != nsid
                        leaves := s.kv.leaves.filter fun l => l.nsid != nsid
                        retired := s.kv.retired ++ ls.map fun l => l.index }
  let s := { s with kv := kv, flash := s.flash.unmap lmus
                    cmd := { s.cmd with uploads := s.cmd.uploads.filter fun u => u.nsid != nsid }
                    fab := { s.fab with members := s.fab.members.filter fun m => m.nsid != nsid || m.releasing } }
  s₀.journal ((s.onBack fun b =>
    { b with namespaces := b.namespaces.filter fun n => n.nsid != nsid
             extents := b.extents.map clear
             leaves := b.leaves.filter fun l => l.nsid != nsid
             retired := b.retired ++ (b.leaves.filter fun l => l.nsid == nsid).map fun l => l.index
             map := b.map.filter fun m => !gone.contains m.lmu
             uploads := b.uploads.filter fun u => u.nsid != nsid }).dropWatches nsid) true

def nsDeleteBody (e : TagEntry) (n : Ns) (s : State) : State :=
  if n.mirrorSet.isSome ∨ n.copyOf.isSome then s.finish e stNotPermitted []
  else if n.kind = .sealed ∧ s.unexpired n then (s.report Ev.SEA.RETENTION_REFUSED stRetention).finish e stRetention []
  else if s.flash.readOnly then s.finish e stWorn []
  else (s.dropNs n.nsid).finish e stOK []

def execNsDelete (t : TagId) (s : State) : Host.Outcome State Fault Refusal := s.done (s.runNs t 0x41 nsDeleteBody)

/-- KEYS of NS_QUERY (R483). -/
def Ns.keyCount (n : Ns) : Nat :=
  if n.kind = .sealed then n.streams.length else (n.keys.filter fun k => (n.current k.key).isSome).length

/-- The next ASN of a namespace (R164). -/
def State.peekAsn (s : State) (nsid : Nat) : Nat := SMap.get (fun _ => 1) s.cmd.nextAsn nsid

/-- The 96 bytes of NS_QUERY (Table 07-5). -/
def nsQueryBody (e : TagEntry) (n : Ns) (s : State) : State :=
  s.finishData e stOK [] (n.descriptor ++ leBytes 8 n.keyCount ++ leBytes 8 (s.usage n) ++ leBytes 8 (s.peekAsn n.nsid) ++
    leBytes 8 n.horizon)

def execNsQuery (t : TagId) (s : State) : Host.Outcome State Fault Refusal := s.done (s.runNs t 0x42 nsQueryBody)

/-! ## POWER_STATE (R73, R74, R79 to R81) -/

/-- The state a code names, where it takes an entry table. -/
def modeOf (k : Nat) : Option PowerMode :=
  if k = 2 then some .standby else if k = 3 then some .sleep else if k = 4 then some .hibernate else none

/-- The command executes from ACTIVE; one that names the state being entered joins that entry (R81). `pause` stops short
of the end of the entry. -/
def powerBody (pause : Bool) (e : TagEntry) (s : State) : State :=
  let k := beAt e.msg.param 0 1
  if s.inStale then s.finish e stStalemate []
  else if 4 < k then s.finish e stBadField []
  else if k = 1 then s.finish e stOK []
  else
    match modeOf k with
    | none => (s.arrive Reg.WAKE_SRC.HOST_FRAME).finish e stOK []
    | some m =>
      let s := if s.dev.entering = some m then s else s.arrive Reg.WAKE_SRC.HOST_FRAME
      s.enterState m (some e.id) (!pause)

def execPowerState (t : TagId) (pause : Bool) (s : State) : Host.Outcome State Fault Refusal :=
  s.done (s.runCmd t 0x44 (powerBody pause))

/-! ## RESET_CONTROLLER, registers, the configuration record -/

def execResetController (t : TagId) (s : State) : Host.Outcome State Fault Refusal :=
  s.done (s.runCmd t 0x45 fun e s => s.askController (.tag e.id))

/-- The register path of a command: its session; a forwarding context acts as session 0 (log entry 54). -/
def TagId.path (t : TagId) : Path := .skp (tagSess t)

def regReadBody (e : TagEntry) (s : State) : State :=
  match s.regRead (TagId.path e.id) (beAt e.msg.param 0 4) (beAt e.msg.param 4 2) with
  | (st, ws, s) => if st = stOK then s.finishData e stOK [] (wordBytes ws) else s.finish e st []

def execRegRead (t : TagId) (s : State) : Host.Outcome State Fault Refusal := s.done (s.runCmd t 0x48 regReadBody)

/-- A REG_WRITE that waits for its commit stays executing (R102). -/
def regWriteBody (e : TagEntry) (s : State) : State :=
  if (s.cfg.under ++ s.cfg.waiting).any fun p => p.waiter == .tag e.id then s
  else
    let p := e.msg.param
    s.regWrite (TagId.path e.id) (.tag e.id) (beAt p 0 4) (BitVec.ofNat 32 (beAt p 4 4)) (BitVec.ofNat 32 (beAt p 8 4))

def execRegWrite (t : TagId) (s : State) : Host.Outcome State Fault Refusal := s.done (s.runCmd t 0x49 regWriteBody)

def configWriteBody (e : TagEntry) (s : State) : State :=
  if (s.cfg.under ++ s.cfg.waiting).any fun p => p.waiter == .tag e.id then s else s.configWrite e.msg.value (.tag e.id)

def execConfigWrite (t : TagId) (s : State) : Host.Outcome State Fault Refusal :=
  s.done (s.runCmd t 0x4A configWriteBody)

def configFactoryBody (e : TagEntry) (s : State) : State :=
  if (s.cfg.under ++ s.cfg.waiting).any fun p => p.waiter == .tag e.id then s else s.configFactory (.tag e.id)

def execConfigFactory (t : TagId) (s : State) : Host.Outcome State Fault Refusal :=
  s.done (s.runCmd t 0x4B configFactoryBody)

end Sys2Proof.Machine
end

