-- ==== Sys2Proof/Machine/KeyCmds.lean ====
section
/-! DEFINITION. The commands of chapters 09, 10, 15 and 16 in namespace 0: the key store (R368 to R372, R380), device
time (R393), automata images (R243 to R245) and the associative tables (R233 to R235). -/

namespace Sys2Proof.Machine

open Sys2Proof

/-! ## The key store -/

/-- The PARAM of KEY_PROVISION (R368). -/
structure Provision where
  slot    : Nat
  op      : Nat
  pflags  : Nat
  attr    : BitVec 16
  expect  : Nat
  deriving DecidableEq, Repr

def provision (p : Bytes) : Provision := ⟨beAt p 0 2, beAt p 2 1, beAt p 3 1, BitVec.ofNat 16 (beAt p 4 2), beAt p 6 2⟩

/-- Attribute words that R365 allows a provision to give a slot. -/
def attrOk (slot : Nat) (a : BitVec 16) : Bool :=
  let size := bitsOf a.toNat 8 2
  let b := fun i => a.getLsbD i
  if slot = 0 then a == 0x0203
  else if slot = 2 then a == 0x0210
  else
    !(b 7) && bitsOf a.toNat 10 6 == 0 && size != 3 && (!(b 0 || b 3) || size == 2) && !(b 1) && !(b 4) &&
      (!(b 5) || slot == 1) && (!(b 6) || slot == 3) &&
      (decide (slot < 16) || (bit (b 0) + bit (b 2) + bit (b 3) == 1 && !(b 5) && !(b 6)))

/-- Key bytes of a SIZE code. -/
def attrLen (a : BitVec 16) : Nat := 16 + 8 * bitsOf a.toNat 8 2

/-- Check 1 of Table 15-5 on KEY_PROVISION: it depends on the command alone and is made at admission (R370). -/
def provisionBad (param : Bytes) (vlen : Nat) : Bool :=
  let k := provision param
  decide (k.op = 0) || decide (3 < k.op) || decide (4 ≤ k.pflags) || !allZero (sliceB param 8 4) ||
    (if k.op = 3 then
       decide (k.slot ≠ 0xFFFF) || k.attr != 0 || k.pflags % 2 == 1 || decide (vlen ≠ 60)
     else
       decide (1023 < k.slot) || !attrOk k.slot k.attr ||
         decide (vlen ≠ if k.op = 1 then attrLen k.attr + 8 else 0))

/-- Check 1 on KEY_ERASE (R372). -/
def eraseBad (param : Bytes) (vlen : Nat) : Bool :=
  decide (1023 < beAt param 0 2) || decide (2 ≤ beAt param 4 1) || !allZero (sliceB param 5 7) || decide (vlen ≠ 0)

/-- The provisioning key (R369). -/
def State.provisionKey (s : State) (slot gen : Nat) : Option Bytes :=
  (s.slotKey 0).map fun admin =>
    kdf admin (kdfFixed (beBytes 16 0x484C363631362070726F766973696F6E)
      (beBytes 2 slot ++ beBytes 2 gen ++ beBytes 4 s.devField) 256) 32

/-- The slot carries SEAL and a sealed namespace names it (check 4). -/
def State.sealNamed (s : State) (i : Nat) : Bool :=
  (s.slot i).seal && s.kv.namespaces.any fun n => decide (n.kind = .sealed) && n.sealSlot == i

/-- Checks 2 to 4 of Table 15-5. -/
def State.slotCheck (s : State) (i : Nat) (check : Bool) (expect : Nat) (erase : Bool) : Option Nat :=
  let k := s.slot i
  if i = 1 ∨ (3 ≤ i ∧ i ≤ 15) ∨ (erase ∧ i = 0) ∨ (!erase ∧ 0xFFFE ≤ k.gen) then some stNotPermitted
  else if check ∧ expect ≠ k.gen then some stKeyChanged
  else if s.sealNamed i then some stRetention
  else none

/-- A key-store command that fails one of checks 2 to 4; `RETENTION_LOCKED` is reported (Table 16-9). -/
def State.refuseKey (s : State) (e : TagEntry) (st : Nat) : State :=
  (if st = stRetention then s.report Ev.SEA.RETENTION_REFUSED stRetention else s).finish e st []

/-- The entry that a command became, should its session have ended meanwhile. -/
def State.entryAt (s : State) (order : Nat) : Option TagEntry := s.cmd.tags.find? fun e => e.order == order

/-- The commit point of a provision or erase (R371): the slot and its vault record, the sessions it keyed. -/
def State.changeSlot (s : State) (i : Nat) (k : Slot) : State :=
  let s := s.commitSlot i k
  let key := { s.key with counters := SMap.set zeroNat i 0 s.key.counters, limits := SMap.set zeroNat i 0 s.key.limits }
  let ids := (s.sessions.filter fun x => x.keySlot == i).map fun x => x.id
  (ids.foldl (fun (s : State) id => s.endSession id) { s with key := key }).raise Ev.KEY.SLOT_CHANGED

/-- Complete the command of an admission order. -/
def State.finishAt (s : State) (order status : Nat) (param : Bytes) : State :=
  match s.entryAt order with
  | some e => s.finish e status param
  | none => s

/-- Checks 5 and 6 of Table 15-5, and the key that the slot takes with its attributes. -/
def State.newKey (s : State) (k : Provision) (operand : Bytes) : Except Nat Slot × State :=
  let gen := (s.slot k.slot).gen + 1
  if k.op = 2 then
    if s.drbgOk then
      let r := s.random (attrLen k.attr)
      (.ok ⟨gen, k.attr ||| 0x1400, r.1⟩, r.2)
    else (.error stEntropy, s)
  else if s.noCipher then (.error stInternal, s)
  else
    match (s.provisionKey k.slot gen).bind fun w => kwpUnwrap w operand with
    | some x => if x.length = attrLen k.attr then (.ok ⟨gen, k.attr ||| 0x400, x⟩, s.cipher 3 operand.length) else (.error stAuth, s)
    | none => (.error stAuth, s)

/-- Operator enrolment (R380); `fuseOk` says that OPER_PK reads back as the digest. -/
def State.enrol (s : State) (e : TagEntry) (fuseOk : Bool) : State :=
  let f := s.key.fuses
  let digest := sha256 e.msg.value
  let orB := fun (a b : Byte) => a ||| b
  let extra := (List.zipWith (fun (a b : Byte) => a &&& ~~~b) f.operPk digest).any fun b => b != 0
  if f.enrolled then s.finish e stNotPermitted []
  else if bitOf (provision e.msg.param).pflags 1 = false ∨ !hssTypesOk e.msg.value then s.finish e stBadField []
  else if s.noHash then s.finish e stInternal []
  else if extra then s.finish e stNotPermitted []
  else
    let f := { f with operPk := List.zipWith orB f.operPk digest, enrolled := fuseOk }
    let s := { s with key := { s.key with fuses := f } }.hashed 60
    if fuseOk then (s.raise Ev.KEY.ENROLLED).finish e stOK [] else s.finish e stInternal []

def keyProvisionBody (fuseOk : Bool) (e : TagEntry) (s : State) : State :=
  let k := provision e.msg.param
  if k.op = 3 then s.enrol e fuseOk
  else
    match s.slotCheck k.slot (k.pflags % 2 = 1) k.expect false with
    | some st => s.refuseKey e st
    | none =>
      match s.newKey k e.msg.value with
      | (.error st, s) => s.finish e st []
      | (.ok x, s) => (s.changeSlot k.slot x).finishAt e.order stOK (beBytes 2 x.gen)

def execKeyProvision (t : TagId) (fuseOk : Bool) (s : State) : Host.Outcome State Fault Refusal :=
  s.doneBlown (s.runCmd t 0x50 (keyProvisionBody fuseOk))

def keyEraseBody (e : TagEntry) (s : State) : State :=
  let i := beAt e.msg.param 0 2
  let k := s.slot i
  match s.slotCheck i (beAt e.msg.param 4 1 = 1) (beAt e.msg.param 2 2) true with
  | some st => s.refuseKey e st
  | none =>
    if k.present then (s.changeSlot i ⟨k.gen + 1, 0, []⟩).finishAt e.order stOK (beBytes 2 (k.gen + 1))
    else s.finish e stAbsent (beBytes 2 k.gen)

def execKeyErase (t : TagId) (s : State) : Host.Outcome State Fault Refusal := s.done (s.runCmd t 0x51 keyEraseBody)

/-! ## Device time (R393) -/

/-- Device time set to a target by an advance: saved, and counted. -/
def State.advanceTime (s : State) (target : Nat) : State :=
  let old := s.sea.time
  let sea := { s.sea with time := target, saved := target, savedAdv := 0, advHours := 0, advMade := true,
                          advTotal := s.sea.advTotal + (target - old) }
  (({ s with sea := sea }).raise Ev.SEA.TIME_ADVANCED).note 0x0F 0x83 0 old

def timeAdvanceBody (e : TagEntry) (s : State) : State :=
  let target := beAt e.msg.param 0 8
  let now := s.sea.time
  if target < now ∨ now + 2592000 < target then s.finish e stBadField (beBytes 8 now)
  else if target = now then s.finish e stOK (beBytes 8 now)
  else if !s.advOk then s.finish e stNotPermitted (beBytes 8 now)
  else if s.flash.readOnly then s.finish e stWorn (beBytes 8 now)
  else (s.advanceTime target).finish e stOK (beBytes 8 target)

def execTimeAdvance (t : TagId) (s : State) : Host.Outcome State Fault Refusal :=
  s.done (s.runCmd t 0x52 timeAdvanceBody)

/-! ## Automata images (R243 to R245) -/

/-- An image made current: a new version of its ID, the old one kept while something uses it. -/
def State.loadImage (s : State) (id : Nat) (b : Bytes) : State :=
  let old := fun (i : Image) => if i.id = id then { i with current := false } else i
  let img : Image := ⟨id, s.pat.nextVersion, b, true⟩
  ({ s with pat := { s.pat with images := s.pat.images.map old ++ [img], nextVersion := s.pat.nextVersion + 1 } }.saveSys
    (.image id img.version) b.length).freeImages

def patternLoadBody (e : TagEntry) (s : State) : State :=
  let id := beAt e.msg.param 0 2
  let b := e.msg.value
  let tiles := decide ((s.tableCfg (imgFilter b)).tiles ≠ 0)
  if id = 1 then s.finish e stNotPermitted []
  else if beAt e.msg.param 2 1 = 1 then
    if s.noHash then s.finish e stInternal []
    else if imgInvalid b tiles then s.finish e stPatternInvalid []
    else if 4096 < s.storeUsed + (b.length + 4095) / 4096 then s.finish e stPatternFull []
    else if s.noTier then s.finish e stMedia []
    else if s.sysFull b.length then s.finish e stDevFull []
    else if s.flash.readOnly then s.finish e stWorn []
    else (((s.loadImage id b).hashed (b.length - 64)).raise Ev.PAT.IMAGE_LOADED).finish e stOK []
  else if (s.image? id).isNone then s.finish e stAbsent []
  else if s.pat.watches.any fun w => w.imageId == id then s.finish e stNotPermitted []
  else if s.flash.readOnly then s.finish e stWorn []
  else
    let old := fun (i : Image) => if i.id = id then { i with current := false } else i
    ((({ s with pat := { s.pat with images := s.pat.images.map old } }).freeImages).raise Ev.PAT.IMAGE_LOADED).finish e stOK []

def execPatternLoad (t : TagId) (s : State) : Host.Outcome State Fault Refusal :=
  s.done (s.runCmd t 0x58 patternLoadBody)

/-! ## CAM_WRITE (R233 to R235) -/

/-- A search by CAM_WRITE. -/
def State.camSearch (s : State) (k : CamCmd) (value : Bytes) : Bytes × Bytes × State :=
  let c := s.tableCfg k.table
  let hits := camFind c (s.table k.table) (leNat value)
  let p := camSearchData hits (k.count = 1)
  (p.1, p.2, s.noteSearch c 1)

def camWriteBody (pause : Bool) (e : TagEntry) (s : State) : State :=
  let k := camCmd e.msg.param
  let v := e.msg.value
  match s.camCheck v k true with
  | some st => s.finish e st []
  | none =>
    if k.op = 5 then
      s.tookFree.finishData e stOK (beBytes 4 k.count)
        (camReadData (s.tableCfg k.table) (s.table k.table) s.free k.index k.count)
    else if k.op = 6 then
      match s.camSearch k v with
      | (p, d, s) => s.finishData e stOK p d
    else if s.noTier then s.finish e stMedia []
    else if s.sysFull (tableBytes (camApply (s.tableCfg k.table) k v (s.table k.table))) then s.finish e stDevFull []
    else if s.flash.readOnly then s.finish e stWorn []
    else if pause then s
    else ((camCommit e s).camEnd e).finish e stOK []

/-- A `CAM_WRITE` of operation 0x01 to 0x04 waits while the commit under way changes the geometry of its field-filter table
(R484), and any change while the one before it to the table has not ended (R231). -/
def State.camHeld (s : State) (t : TagId) : Bool :=
  match s.entry? t with
  | none => false
  | some e =>
    let k := beAt e.msg.param 1 1
    let op := beAt e.msg.param 0 1
    let a := 0x200060 + 4 * (k - 8)
    let then_ := s.cfg.under.foldl (fun m p => applyChange m p.change) s.regs
    (decide (1 ≤ op) && decide (op ≤ 4) && decide (8 ≤ k) && decide (k < 16) && SMap.get regReset then_ a != s.word a) ||
      (s.cmd.tags.any fun f => f.state == .committed && f.msg.opcode == 0x59 && beAt f.msg.param 1 1 == k && f.id != t)

/-- CAM_WRITE; with `r.pause` a change stops short of its commit point, which COMMIT_POINT_PASSED then passes, and
COMMAND_POSTED ends it. -/
def execCamWrite (r : CamRun) (s : State) : Host.Outcome State Fault Refusal :=
  s.done (if s.camHeld r.tag then s else s.runCmd r.tag 0x59 (camWriteBody r.pause))

end Sys2Proof.Machine
end

