-- ==== Sys2Proof/Machine/SvcCmds.lean ====
section
/-! DEFINITION. The host crypto service (R354 to R360) and the events of the crypto complex: entropy, the DRBG, a suspended
operation's resumption and a result's expiry (R341, R347, R348, R359). -/

namespace Sys2Proof.Machine

open Sys2Proof

/-! ## The descriptor (Table 14-4) -/

/-- A service descriptor with its texts. -/
structure SvcReq where
  mode   : Nat
  dir    : Nat
  slot   : Nat
  tagLen : Nat
  kdfLen : Nat
  aad    : Bytes
  text   : Bytes
  textLen : Nat
  iv     : Bytes
  tag    : Bytes
  deriving DecidableEq, Repr

/-- The descriptor read from an operand. -/
def svcReq (v : Bytes) : SvcReq :=
  let a := leAt v 8 4
  let n := leAt v 12 4
  ⟨leAt v 0 1, leAt v 1 1, leAt v 2 2, leAt v 4 1, leAt v 5 1, sliceB v 64 a, sliceB v (64 + a) n, n, sliceB v 16 16,
    sliceB v 32 16⟩

/-- Modes that carry a tag; modes that take an IV; hashes; KDF. -/
def SvcReq.tagged (q : SvcReq) : Bool := q.mode == 6 || q.mode == 7 || q.mode == 8
def SvcReq.aadMode (q : SvcReq) : Bool := q.mode == 7 || q.mode == 8
def SvcReq.ivMode (q : SvcReq) : Bool := (decide (1 ≤ q.mode) && decide (q.mode ≤ 5)) || q.aadMode
def SvcReq.hash (q : SvcReq) : Bool := q.mode == 0xC || q.mode == 0xD
def SvcReq.kdfMode (q : SvcReq) : Bool := q.mode == 0xB

/-- Modes whose encryption draws its IV; modes whose IV takes a counter value (Table 14-1). -/
def SvcReq.drawsIv (q : SvcReq) : Bool := decide (1 ≤ q.mode) && decide (q.mode ≤ 3)
def SvcReq.buildsIv (q : SvcReq) : Bool := q.mode == 4 || q.mode == 5 || q.aadMode

/-- A decryption: its output is plaintext. -/
def SvcReq.decrypts (q : SvcReq) : Bool :=
  q.dir == 2 && ((decide (1 ≤ q.mode) && decide (q.mode ≤ 5)) || q.mode == 7 || q.mode == 9 || q.mode == 0xA)

/-- Check 2 of Table 14-5. -/
def svcBad (v : Bytes) : Bool :=
  let q := svcReq v
  let a := leAt v 8 4
  let tagOk := if q.tagged then decide (12 ≤ q.tagLen) && decide (q.tagLen ≤ 16) else q.tagLen == 0
  let kdfOk := if q.kdfMode then decide (1 ≤ q.kdfLen) && decide (q.kdfLen ≤ 64) else q.kdfLen == 0
  let aadOk := if q.aadMode then decide (a ≤ 4096) else if q.kdfMode then decide (1 ≤ a) && decide (a ≤ 256) else a == 0
  let ivOk := if q.dir = 2 ∧ q.ivMode then !q.aadMode || allZero (q.iv.drop 12) else allZero q.iv
  let tagGiven := if q.dir = 2 ∧ q.tagged then allZero (q.tag.drop q.tagLen) else allZero q.tag
  decide (v.length < 64) || decide (q.mode = 0) || decide (0xD < q.mode) || decide (q.dir = 0) || decide (2 < q.dir) ||
    ((q.hash || q.kdfMode) && q.dir != 1) || (if q.hash then q.slot != 0xFFFF else decide (1023 < q.slot)) ||
    !allZero (sliceB v 6 2) || !allZero (sliceB v 48 16) || !tagOk || !kdfOk || !aadOk || !ivOk || !tagGiven ||
    ((q.mode == 8 || q.kdfMode) && q.textLen != 0) || decide (v.length ≠ 64 + a + q.textLen)

/-- Check 3 of Table 14-5. -/
def SvcReq.tooLong (q : SvcReq) : Bool :=
  let n := q.textLen
  decide (65536 < n) || (q.mode == 1 && (n == 0 || n % 16 != 0)) ||
    (q.mode == 9 && (decide (n < 16) || n % 8 != 0)) || (q.mode == 0xA && n == 0) ||
    ((q.mode == 9 || q.mode == 0xA) && q.dir == 2 && decide (n < 24))

/-- Checks 3 to 8 of Table 14-5. -/
def State.svcCheck (s : State) (q : SvcReq) : Option Nat :=
  let k := s.slot q.slot
  let plain := (s.cry.pages.filter fun p => p.result.isSome && p.plain).length
  if q.tooLong then some stLengthLimit
  else if !q.hash ∧ !k.present then some stSlotEmpty
  else if !q.hash ∧ !k.cryptoSvc then some stNotPermitted
  else if !q.hash ∧ !q.kdfMode ∧ q.dir = 1 ∧ k.encDisabled then some stNonce
  else if q.dir = 1 ∧ q.drawsIv ∧ !s.drbgOk then some stEntropy
  else if q.decrypts ∧ 8 ≤ plain then some stBusy
  else none

/-! ## One operation -/

/-- What an operation gives: status, output, tag, and whether it verified. -/
structure SvcOut where
  status : Nat
  out    : Bytes
  tag    : Bytes
  verified : Bool
  deriving DecidableEq, Repr

/-- An encryption's, a MAC's or a hash's output. -/
def svcDone (out tag : Bytes) : SvcOut := ⟨stOK, out, tag, false⟩

/-- What a decryption or verification gives. -/
def svcOpen (plain : Option Bytes) (tag : Bytes) : SvcOut :=
  match plain with
  | some p => ⟨stOK, p, tag, true⟩
  | none => ⟨stAuth, [], [], false⟩

/-- CBC, CFB-128, CFB-8, OFB and CTR (SP 800-38A). -/
def svcCipher (key : Bytes) (q : SvcReq) (iv : Bytes) : Bytes :=
  let ks := aesKeys key
  let v := toNats iv
  let bs := chunks 16 (toNats q.text)
  let dec := decide (q.dir = 2)
  ofNats (if q.mode = 1 then (if dec then cbcDec ks v bs else cbcEnc ks v bs)
    else if q.mode = 2 then (if dec then cfbDec ks v bs else cfbEnc ks v bs)
    else if q.mode = 3 then cfb8 ks dec v (toNats q.text)
    else if q.mode = 4 then ofb ks v bs
    else ctrGo ks (v.take 12) (beNat (iv.drop 12)) bs)

/-- A tag computed, checked against the expected one where the direction is verify. -/
def svcMac (q : SvcReq) (tag : Bytes) : SvcOut :=
  let t := tag.take q.tagLen
  if q.dir = 1 then svcDone [] t
  else if q.tag.take q.tagLen = t then ⟨stOK, [], t, true⟩
  else ⟨stAuth, [], [], false⟩

/-- One operation under a key with its IV (Table 14-1). -/
def svcRun (key : Bytes) (q : SvcReq) (iv : Bytes) : SvcOut :=
  let n := iv.take 12
  if q.hash then svcDone (if q.mode = 0xC then sha256 q.text else sha384 q.text) []
  else if q.mode ≤ 5 then svcDone (svcCipher key q iv) []
  else if q.mode = 6 then svcMac q (cmac key q.text)
  else if q.mode = 7 then
    let p := gcmEnc key n q.aad q.text
    if q.dir = 1 then svcDone p.1 (p.2.take q.tagLen)
    else
      let ks := aesKeys key
      let t := (gcmTag ks n q.aad q.text).take q.tagLen
      svcOpen (if t = q.tag.take q.tagLen then some p.1 else none) t
  else if q.mode = 8 then svcMac q (gcmTag (aesKeys key) n q.aad [])
  else if q.mode = 9 then
    if q.dir = 1 then svcDone (kwWrap key q.text) [] else svcOpen (kwUnwrap key q.text) []
  else if q.mode = 0xA then
    if q.dir = 1 then svcDone (kwpWrap key q.text) []
    else svcOpen (if q.text.length % 8 = 0 then kwpUnwrap key q.text else none) []
  else svcDone (kdf key (q.aad ++ beBytes 4 (8 * q.kdfLen)) q.kdfLen) []

/-- The 48-byte result header and the output (R358). -/
def svcResult (q : SvcReq) (gen : Nat) (iv : Bytes) (o : SvcOut) : Bytes :=
  leBytes 2 o.status ++ leBytes 1 q.mode ++ leBytes 1 (bit o.verified) ++ leBytes 4 o.out.length ++ leBytes 2 q.slot ++
    leBytes 2 gen ++ List.replicate 4 0 ++ (iv ++ List.replicate 16 0).take 16 ++
    (o.tag ++ List.replicate 16 0).take 16 ++ o.out

/-! ## User pages (R355, R359) -/

def State.svcPage? (s : State) (page : Nat) : Option SvcResult := s.cry.pages.find? fun p => p.page == page

/-- A page's record replaced, or added. -/
def State.setSvcPage (s : State) (p : SvcResult) : State :=
  { s with cry := { s.cry with pages := putWhere (fun x => x.page == p.page) p s.cry.pages } }

/-- A page owned by another session (R355). -/
def State.svcForeign (s : State) (c : Ctx) (page : Nat) : Bool :=
  match s.svcPage? page with
  | some p => p.owner != c
  | none => false

/-- The result of an executed operation is held, plaintext in the frames that the operation took, and its PUT completes with the
operation's status. -/
def State.holdResult (s : State) (order page status : Nat) (result : Bytes) (plain : Bool) (frames : List Nat) :
    State :=
  let s := match s.svcPage? page with
    | some p => s.setSvcPage { p with result := some result, plain := plain, frames := if plain then frames else [] }
    | none => s
  s.finishAt order status []

/-- The key of the page of a command: one byte. -/
def CmdMsg.page (m : CmdMsg) : Nat := leAt m.key 0 1

/-- The IV of an operation: none built, drawn, built or given; the status that ends the operation otherwise. -/
def State.svcIv (s : State) (q : SvcReq) : Except Nat Bytes × State :=
  if q.dir = 2 then (.ok q.iv, s)
  else if q.drawsIv then
    let r := s.random 16
    (.ok r.1, r.2)
  else if q.buildsIv then
    match s.nonce q.slot with
    | (.ok iv, s) => (.ok (iv ++ [0, 0, 0, 0]), s)
    | (.error e, s) => (.error e, s)
  else (.ok (List.replicate 16 0), s)

/-- Bytes of an operation. -/
def SvcReq.work (q : SvcReq) : Nat := q.textLen + q.aad.length

/-- The core that runs an operation: one with frames for its plaintext where it decrypts. -/
def State.svcCore (s : State) (q : SvcReq) : Option Nat := if q.decrypts then s.decryptCore 3 q.textLen else s.coreFor 3

/-- A decryption for which no share has frames enough waits until some are freed (R350). -/
def State.svcWaits (s : State) (q : SvcReq) : Bool := q.decrypts && (s.coreFor 3).isSome && (s.svcCore q).isNone

/-- Work of an operation counted on its core. -/
def State.svcWork (s : State) (q : SvcReq) (core : Nat) : State :=
  if q.hash then s.hashed q.textLen else s.count64 Reg.CORE_BYTES_LO.BYTES_LO Reg.CORE_BYTES_HI.BYTES_HI core q.work

/-- A verification that failed is counted (Table 14-8). -/
def State.svcTagFail (s : State) (status : Nat) : State :=
  if status = stAuth then s.count Reg.CRY.TAG_FAILS 1 else s

/-- An operation that has passed its checks: run to its end, or suspended at a block boundary for work of a higher class
(R340, R341). -/
def State.svcStart (s : State) (e : TagEntry) (q : SvcReq) (suspend : Bool) : State :=
  let page := e.msg.page
  let k := s.slot q.slot
  let gen := if q.hash then 0 else k.gen
  let out := if q.hash then s.noHash else s.noCipher
  let core := (s.svcCore q).getD 0
  let frames := if q.decrypts then (s.freeFrames core).take (framesFor q.textLen) else []
  if out then s.finish e stInternal []
  else
    let s := s.count Reg.CRY.SVC_OPS 1
    match s.svcIv q with
    | (.error st, s) => s.holdResult e.order page st (svcResult q gen [] ⟨st, [], [], false⟩) false []
    | (.ok iv, s) =>
      let o := svcRun k.key q iv
      let r := svcResult q gen iv o
      let plain := q.decrypts && o.status == stOK
      if suspend ∧ s.cry.phase = 1 ∧ !q.hash ∧ (s.cry.suspended.filter fun x => x.core == core).length < 16 then
        let x : Suspended := ⟨s.cry.nextOp, core, page, q.slot, gen, e.order, o.status, r, plain, q.work, frames⟩
        ({ s with cry := { s.cry with suspended := s.cry.suspended ++ [x], nextOp := s.cry.nextOp + 1 } }).count
          Reg.CRY.SUSPENSIONS 1
      else ((s.svcTagFail o.status).svcWork q core).holdResult e.order page o.status r plain frames

/-- A service PUT (R357): the page is claimed and its held result goes once the PUT reaches it. -/
def svcPutBody (suspend : Bool) (e : TagEntry) (s : State) : State :=
  let page := e.msg.page
  let v := e.msg.value
  if e.msg.nsid ≠ 0 ∨ (s.cry.suspended.any fun x => x.order == e.order) then s
  else if s.svcForeign e.id.ctx page then s.finish e stNotPermitted []
  else
    let s := s.setSvcPage ⟨page, e.id.ctx, none, false, []⟩
    if svcBad v then s.finish e stBadField []
    else
      match s.svcCheck (svcReq v) with
      | some st => s.finish e st []
      | none =>
        if s.svcWaits (svcReq v) then s.setEntry { e with state := .admitted } else s.svcStart e (svcReq v) suspend

def execHostCryptoServicePut (t : TagId) (suspend : Bool) (s : State) : Host.Outcome State Fault Refusal :=
  s.done (s.runCmd t 0x02 (svcPutBody suspend))

def svcGetBody (e : TagEntry) (s : State) : State :=
  if e.msg.nsid ≠ 0 then s
  else if s.svcForeign e.id.ctx e.msg.page then s.finish e stNotPermitted []
  else
    match (s.svcPage? e.msg.page).bind fun p => p.result with
    | some r => s.finishData e stOK (beBytes 8 r.length) r
    | none => s.finish e stNoSuchKey []

def execHostCryptoServiceGet (t : TagId) (s : State) : Host.Outcome State Fault Refusal :=
  s.done (s.runCmd t 0x01 svcGetBody)

def svcDeleteBody (e : TagEntry) (s : State) : State :=
  let page := e.msg.page
  if e.msg.nsid ≠ 0 then s
  else if s.svcForeign e.id.ctx page then s.finish e stNotPermitted []
  else if (s.svcPage? page).isNone then s.finish e stAbsent []
  else
    ({ s with cry := { s.cry with pages := dropWhere (fun p => p.page == page) s.cry.pages } }).finish e stOK []

def execHostCryptoServiceDelete (t : TagId) (s : State) : Host.Outcome State Fault Refusal :=
  s.done (s.runCmd t 0x03 svcDeleteBody)

/-! ## Events of the complex -/

/-- A suspended operation resumes on its core: it ends with `KEY_CHANGED` when its slot's generation has changed (R341). -/
def State.resumeOp (s : State) (x : Suspended) : State :=
  let s := { s with cry := { s.cry with suspended := dropWhere (fun y => y.op == x.op) s.cry.suspended } }
  if (s.slot x.slot).gen = x.gen then
    ((s.svcTagFail x.status).count64 Reg.CORE_BYTES_LO.BYTES_LO Reg.CORE_BYTES_HI.BYTES_HI x.core x.work).holdResult x.order
      x.page x.status x.result x.plain x.frames
  else
    let r := leBytes 2 stKeyChanged ++ sliceB x.result 2 1 ++ [0, 0, 0, 0, 0] ++ sliceB x.result 8 24 ++
      List.replicate 16 0
    ((s.count Reg.CRY.KEY_CHANGES 1).report Ev.CRY.KEY_CHANGED stKeyChanged).holdResult x.order x.page stKeyChanged r false []

def execOperationResume (op : Nat) (s : State) : Host.Outcome State Fault Refusal :=
  s.done (match s.cry.suspended.find? fun x => x.op == op with
    | some x => s.resumeOp x
    | none => s)

/-- SERVICE_RESULT_EXPIRY (R359): the page stays owned. -/
def execServiceResultExpiry (page : Nat) (s : State) : Host.Outcome State Fault Refusal :=
  s.done (match s.svcPage? page with
    | some p => s.setSvcPage { p with result := none, plain := false, frames := [] }
    | none => s)

/-- The DRBG stops (R348). -/
def State.stopDrbg (s : State) : State :=
  { s with cry := { s.cry with drbg := 3 } }.report Ev.CRY.DRBG_STOPPED stEntropy

/-- ES_HEALTH_FAIL (R348): the source restarts; after a third failure within 60 s it is out of service until the next
start. -/
def execEsHealthFail (s : State) : Host.Outcome State Fault Refusal :=
  s.done (if !s.cry.esOk then s
    else
      let now := s.dev.clockMs
      let recent := now :: s.cry.esFails.filter fun t => decide (now ≤ t + 60000)
      let s := { s with cry := { s.cry with esFails := recent } }
      if 3 ≤ recent.length then
        let drbg := if s.cry.drbg = 1 then 2 else s.cry.drbg
        { s with cry := { s.cry with esOk := false, drbg := drbg } }.raise Ev.CRY.ENTROPY_FAIL
      else s.count Reg.CRY_DRBG.ES_RESTARTS 1)

/-- DRBG_RESEED (R347): with a healthy source the DRBG goes on from a fresh seed, without one it stops. -/
def execDrbgReseed (s : State) : Host.Outcome State Fault Refusal :=
  s.done (if s.cry.drbg = 0 ∨ s.cry.drbg = 3 then s
    else if s.cry.esOk then { s with cry := { s.cry with drbg := 1 } }
    else s.stopDrbg)

end Sys2Proof.Machine
end

