-- ==== Sys2Proof/Machine/FlashBg.lean ====
section
/-! DEFINITION. The flash tier's background work and failures (chapter 11): checkpoints, collection, promotion, levelling,
refresh, patrol, erases, forced demotion, training and the failures of Table 11-7. Each row is one run of its work. -/

namespace Sys2Proof.Machine

open Sys2Proof

/-- The limit of a step of Table 03-9 that is at its limit, since the throttle has gone on to the next step (R84): background
work stopped, automata lanes, heads per revolution, flash channels at once, cipher cores for media, commands admitted per
second. The steps after the first delay work and change no result (R84), so of them only the delay, which is timing, would
show. -/
def State.stepLimit (s : State) (step : Nat) : Option Nat :=
  if 1 ≤ step ∧ step < s.rd Reg.PWR_CAP.THROTTLE then [0, 1, 3, 4, 1, 100000][step - 1]? else none

/-- Step 1 of Table 03-9 is at its limit. -/
def State.workStopped (s : State) : Bool := s.stepLimit 1 == some 0

/-- An entry under way stops the work: relocation and cleaning in every entry (Table 03-5), all of it in an entry of SLEEP or
HIBERNATE (Table 03-6). -/
def State.entryStops (s : State) (w : Work) : Bool :=
  match s.dev.entering with
  | none => false
  | some .standby => w == .move
  | some _ => true

/-- Background work runs in service, with the tier mounted, in any power state but SLEEP and HIBERNATE, unless an entry or
the power cap stops it; what R283 makes mandatory ignores the cap. It leaves IDLE (R75). -/
def State.background (s : State) (w : Work) (must : Bool) (f : State → State) : State :=
  if s.dev.phase = .service ∧ s.flash.mounted ∧ s.dev.power ≠ .sleep ∧ !s.entryStops w ∧
      (w = .upkeep ∨ must ∨ !s.workStopped) then f s.stir
  else s

/-! ## Checkpoints and the journal (R267, R268) -/

def execCheckpoint (s : State) : Host.Outcome State Fault Refusal := s.done (s.background .upkeep false State.checkpoint)

/-! ## Relocation (R274) -/

/-- A change of the flash map is durable: in the buffer while R87 allows BUFFERED acknowledgement, else drained (R266). -/
def State.mapSettled (s : State) : State := if s.bufferedOk then s else s.drain

/-- Units relocated: each is read where it lies, its copy goes to the stream of its kind, and the map changes are one journal
record. -/
def State.relocate (s : State) (es : List MapEntry) : State :=
  if es.isEmpty then s
  else
    let s := (es.foldl (fun (s : State) e => s.readUnit e.block) s).backUp
    ((s.journal { s with flash := s.flash.moveUnits moveStream es } false).mapSettled).countUnits s.flash 0

/-- Units of a block that the map names. -/
def Flash.unitsOf (f : Flash) (b : Nat) : List MapEntry := f.map.filter fun e => e.block == b

/-- The valid units of a block relocated, those of the journal with them. -/
def State.empty (s : State) (b : Nat) : State :=
  let t := ({ s with flash := s.flash.moveJournal b }).countUnits s.flash 0
  let t := t.relocate (t.flash.unitsOf b)
  { t with flash := t.flash.staleEmpty }

/-- The better of two victims: lower share of valid units, then lower erase count, then lower address (R273). -/
def Flash.betterVictim (f : Flash) (a b : Block) : Block :=
  let x := f.valid a.id * f.capOf b
  let y := f.valid b.id * f.capOf a
  if x < y then a else if y < x then b
  else if a.erase < b.erase then a else if b.erase < a.erase then b
  else if a.id ≤ b.id then a else b

/-- The victim of a collection. -/
def Flash.victim (f : Flash) : Option Block :=
  match f.blocks.filter fun b => b.state == .closed with
  | [] => none
  | b :: bs => some (bs.foldl f.betterVictim b)

/-- One victim collected, once free blocks have fallen to GC_START_PM ‰ (R272, R273). -/
def State.collect (s : State) : State :=
  let f := s.flash
  if f.nBlocks * s.rd Reg.FLT_CFG1.GC_START_PM < f.freeCount * 1000 then s
  else
    match f.victim with
    | none => s
    | some b => (s.empty b.id).count Reg.FLT.GC_UNITS (f.unitsOf b.id).length

def execGarbageCollection (s : State) : Host.Outcome State Fault Refusal := s.done (s.background .move s.flash.gcMandatory State.collect)

/-- SLC units, least recently written first. -/
def Flash.slcUnits (f : Flash) : List MapEntry :=
  sortBy (fun a b => decide (a.wseq ≤ b.wseq)) (f.map.filter fun e => (f.block e.block).slc)

/-- A promotion (R271): while the SLC data held is at PROMOTE_PCT % of s or more it brings it below, else (1 s without a
host write) it moves what is held. -/
def State.promote (s : State) : State :=
  let f := s.flash
  let goal := f.slcTarget * s.rd Reg.FLT_CFG0.PROMOTE_PCT
  let us := f.slcUnits
  let k := if goal ≤ us.length * 100 then min us.length (us.length + 1 - (goal + 99) / 100) else us.length
  (s.relocate (us.take k)).count Reg.FLT.PROMOTED k

def execPromotion (s : State) : Host.Outcome State Fault Refusal := s.done (s.background .move (decide (s.flash.slcTarget < s.flash.slcHeld)) State.promote)

/-- The closed block of lowest erase count that holds sealed or distribution data. -/
def Flash.leastWornCold (f : Flash) : Option Block :=
  match f.blocks.filter fun b => b.state == .closed && (f.unitsOf b.id).any fun e => e.cold with
  | [] => none
  | b :: bs => some (bs.foldl (fun x y => if y.erase < x.erase ∨ (y.erase = x.erase ∧ y.id < x.id) then y else x) b)

/-- Static levelling is called for: the spread of erase counts exceeds SPREAD_LIMIT, or once it has begun 90 % of it
(R278). -/
def State.uneven (s : State) : Bool :=
  let spread := s.flash.eraseMax - s.flash.eraseMin
  decide (s.rd Reg.FLT_CFG0.SPREAD_LIMIT < spread) ||
    (s.flash.levelling && decide (90 * s.rd Reg.FLT_CFG0.SPREAD_LIMIT < 100 * spread))

/-- Static levelling of one block (R278). -/
def State.level (s : State) : State :=
  let f := s.flash
  if s.uneven then
    match f.leastWornCold with
    | none => s
    | some b =>
      let t := s.relocate ((f.unitsOf b.id).filter fun e => e.cold)
      { t with flash := { t.flash with levelling := true } }
  else { s with flash := { f with levelling := false } }

def execStaticLevelling (s : State) : Host.Outcome State Fault Refusal := s.done (s.background .move false State.level)

/-- A queued block refreshed (R279 to R281): its units move, those whose reads fail again stay and the block is retired
(Table 11-7). -/
def State.refresh (s : State) (b : Nat) (bad : List Nat) : State :=
  if s.flash.refresh.contains b then
    let es := (s.flash.unitsOf b).filter fun e => !bad.contains e.unit
    let lost := bad.any fun u => (s.flash.unitsOf b).any fun e => e.unit == u
    let t := ({ s with flash := s.flash.moveJournal b }).countUnits s.flash 0
    let t := (t.relocate es).count Reg.FLT.REFRESHED 1
    let t := { t with flash := { t.flash with refresh := t.flash.refresh.filter fun x => x != b } }
    if lost then t.retireBlock b false else t
  else s

/-- A refresh that R283 makes mandatory: at 1.25 times the read limit, or of a retired block. -/
def State.mustRefresh (s : State) (b : Nat) : Bool :=
  let blk := s.flash.block b
  blk.state == .retired || decide (5 * s.readLimit blk ≤ 4 * blk.reads)

def execReadDisturbRefresh (block : Nat) (bad : List Nat) (s : State) : Host.Outcome State Fault Refusal :=
  s.done (s.background .move (s.mustRefresh block) fun s => s.refresh block bad)

/-- One patrol (R281): every valid unit is read; one that needs rung 2 or more queues its block. -/
def State.patrol (s : State) (reads : List (Nat × ReadResult)) : State :=
  let answer := fun (l : Nat) => s.flashSays l (match reads.find? fun r => r.1 == l with
    | some r => r.2
    | none => .decoded 0 [])
  let t := s.flash.map.foldl (fun (t : State) e =>
    let t := t.noteFlash e.lmu (answer e.lmu)
    match answer e.lmu with
    | .decoded 2 _ => t.queueRefresh e.block
    | _ => t) s
  { t with flash := { t.flash with patrolDay := s.sea.time / 86400 } }

def execPatrol (reads : List (Nat × ReadResult)) (s : State) : Host.Outcome State Fault Refusal :=
  s.done (s.background .upkeep false fun s => s.patrol reads)

/-! ## Erases and failures (R275, R282) -/

/-- An erase failed its status: the block is retired, and its stale data is never mapped again. -/
def State.eraseFailed (s : State) (b : Nat) : State :=
  (s.countAt Reg.CH_FAIL.ERASE_FAILS (s.flash.chOf b) 1).retireBlock b false

/-- A stale block erased (R275), once no map that a loss of the write buffer would restore names it: it is free once its erase
record is durable. -/
def State.eraseBlock (s : State) (b : Nat) (passes : Bool) : State :=
  let blk := s.flash.block b
  let held := match s.kv.back with
    | some k => k.map.any fun e => e.block == b
    | none => false
  if blk.state ≠ .stale ∨ held = true then s
  else if passes then
    let s := s.backUp
    let f := ((s.flash.dropUnits b).setBlock { freshBlock b with erase := blk.erase + 1 }).record false [⟨.erased, b, blk.erase + 1⟩]
    { s with flash := { f with refresh := f.refresh.filter fun x => x != b }.openAll }.mapSettled.checkWear
  else s.eraseFailed b

def execStaleBlockErase (block : Nat) (passes : Bool) (s : State) : Host.Outcome State Fault Refusal :=
  s.done (s.background .upkeep false fun s => s.eraseBlock block passes)

def execEraseStatusFail (block : Nat) (s : State) : Host.Outcome State Fault Refusal :=
  s.done (if s.flash.mounted ∧ block < s.flash.nBlocks then s.eraseFailed block else s)

/-- The stream whose units a block holds. -/
def Flash.streamOf (f : Flash) (b : Nat) : WriteStream :=
  match f.units.find? fun u => u.block == b with
  | some u => u.stream
  | none => .host

/-- Units programmed again on another block of a stream, as they were (Table 11-7). -/
def Flash.rewrite (f : Flash) (st : WriteStream) : List MapEntry → Flash
  | [] => f.padStream st
  | e :: es => Flash.rewrite (f.write st (f.kindOf e) e.lmu e.relocated e.cold).1 st es

/-- Staged units programmed again. -/
def Flash.restage (f : Flash) (st : WriteStream) : List MapEntry → Flash
  | [] => f
  | e :: es =>
    match f.put st .value e.lmu false e.cold with
    | some (g, n) => Flash.restage { g with staged := putWhere (fun x => x.lmu == e.lmu) n g.staged } st es
    | none => Flash.restage f st es

/-- A program failed its status: the block is retired, the units of the failing wordline group (the last one programmed) are
written again on the same stream, with those that no map names yet, and the block's other units are relocated. A relocation
target's copies restart on another block (log entry 166). -/
def State.programFailed (s : State) (b : Nat) : State :=
  let f := s.flash
  let g := f.groupOf (f.block b)
  let failing := (f.unitsOf b).filter fun e => decide (((f.block b).used - 1) / g * g ≤ e.unit)
  let st := f.streamOf b
  let waiting := f.staged.filter fun e => e.block == b
  let t := ((s.countAt Reg.CH_FAIL.PROG_FAILS (f.chOf b) 1).retireBlock b false).backUp
  let u := t.journal { t with flash := (t.flash.restage st waiting).rewrite st failing } false
  ((u.mapSettled).countUnits t.flash 0).empty b

def execProgramStatusFail (block : Nat) (s : State) : Host.Outcome State Fault Refusal :=
  s.done (if s.flash.mounted ∧ block < s.flash.nBlocks then s.programFailed block else s)

/-- Blocks retired because their die or channel is lost; their units are read by rung 4 and re-striped where a stripe has
parity and has lost no other unit. -/
def State.loseBlocks (s : State) (bs : List Nat) (striped : Bool) : State :=
  let es := s.flash.map.filter fun e => bs.contains e.block && s.flash.rebuilds e.block e.unit
  let t := bs.foldl (fun (s : State) b => s.retireBlock b true) s
  if striped then (t.relocate es).count Reg.FLT.REBUILDS es.length else t

/-- The blocks of a die. -/
def Flash.dieBlocks (f : Flash) (d : Nat) : List Nat := List.range' (d * f.blocksPerDie) f.blocksPerDie

/-- A die stops answering (Table 11-7). -/
def State.loseDie (s : State) (d : Nat) : State :=
  if s.flash.dieCh.length ≤ d ∨ s.flash.diesLost.contains d then s
  else
    let striped := decide (4 ≤ s.flash.chs.length)
    let t := { s with flash := { s.flash with diesLost := s.flash.diesLost ++ [d] } }
    (t.raise Ev.FLT.DIE_LOST).loseBlocks (s.flash.dieBlocks d) striped

def execDieLost (die : Nat) (s : State) : Host.Outcome State Fault Refusal :=
  s.done (if s.flash.mounted then s.loseDie die else s)

/-- The root blocks of the channels in service are set aside; one that held data is emptied and erased first (R267). -/
def State.claimRoots (s : State) : State :=
  s.flash.rootBlocks.foldl (fun s b =>
    let blk := s.flash.block b
    if blk.state = .reserved ∨ blk.state = .retired then s
    else if blk.state = .free then { s with flash := s.flash.setAside [b] }
    else
      let t := s.empty b
      let shut := fun (p : StreamPos) => { p with openBlocks := dropWhere (fun x => x.2 == b) p.openBlocks }
      let f : Flash := { t.flash with streams := t.flash.streams.map shut }
      { t with flash := (f.dropUnits b).setBlock { freshBlock b with state := .reserved, erase := blk.erase + 1 } }) s

/-- A channel goes out of service (Table 11-7). -/
def State.loseChannel (s : State) (ch : Nat) : State :=
  if s.flash.channels.getLsbD ch then
    let striped := decide (4 ≤ s.flash.chs.length)
    let dies := (List.range s.flash.dieCh.length).filter fun d => s.flash.dieCh.getD d 0 == ch
    let out := s.flash.channels &&& ~~~(BitVec.ofNat 32 (2 ^ ch))
    let t := { s with flash := { s.flash with channels := out } }
    ((t.raise Ev.FLT.CH_OFFLINE).loseBlocks (dies.map s.flash.dieBlocks).flatten striped).claimRoots
  else s

def execChOffline (ch : Nat) (s : State) : Host.Outcome State Fault Refusal :=
  s.done (if s.flash.mounted then s.loseChannel ch else s)

/-! ## Training (R56, R57) -/

/-- A channel retrained after a temperature change of 20 °C, from the configured rate down (R57): below it it has fallen back,
at no rate it goes out of service. -/
def State.retrain (s : State) (ch : Nat) (temperature : Int) (passes : List Nat) : State :=
  let old := s.dev.trainTemp.getD ch 0
  match s.flash.found[ch]? with
  | none => s
  | some x =>
    if s.flash.channels.getLsbD ch && (decide (old + 20 ≤ temperature) || decide (temperature + 20 ≤ old)) then
      let y := { x with passes := passes }
      let found := s.flash.found.set ch y
      let t := { s with flash := { s.flash with found := found }
                        dev := { s.dev with trainTemp := s.dev.trainTemp.set ch temperature } }.raiseI
        Ev.FLT_I.RETRAINED ch
      if !s.flash.trains y then t.loseChannel ch
      else if s.flash.fellBack y then t.raiseI Ev.FLT_I.RATE_LOWERED ch
      else t
    else s

def execRetrained (ch : Nat) (temperature : Int) (passes : List Nat) (s : State) : Host.Outcome State Fault Refusal :=
  s.done (s.background .upkeep false fun s => s.retrain ch temperature passes)

/-! ## Demotion and recall (R209, R277) -/

/-- The direct entries of an extent follow its tier. -/
def State.retier (s : State) (e : Extent) (tier : Nat) : State :=
  match s.ownEntry e.nsid e.key (.extent e.index) with
  | some (b, i) => s.setDir b i (mkEntry 1 (fingerprint (s.dirHash e.nsid e.key)) tier e.index)
  | none => s

/-- Step 2 of R209: ADDR and DISK of the extent, the TIER of every direct entry and of the leaf record that names it (DISK of
Table 08-7) change in one journalled step; none where the leaf page cannot be sealed. `e` is the extent moved, `s₀` the state
that the record's changes begin at. -/
def State.moveStep (s₀ s : State) (e : Extent) : Option State :=
  let t := (s.retier e (if e.disk then 1 else 0)).setExt e
  match t.touchLeaf e.nsid e.key with
  | (.error _, _) => none
  | (.ok _, t) => some (s₀.journal (t.dirCommit e.nsid e.key) false).bufferFit.mapSettled

/-- An extent copied to disk, its locators updated in one journalled step and its units released (R209). -/
def State.demote (s : State) (e : Extent) : State :=
  let s₀ := s.backUp
  match s₀.diskWrite false e.media e.sectors with
  | none => s
  | some (band, d, t) =>
    match s₀.moveStep t { e with disk := true, band := band, sector := d, lmus := [] } with
    | none => s
    | some t => { t with flash := t.flash.unmap e.lmus }

/-- An extent recalled to flash; nothing changes where no unit or block is free. -/
def State.recall (s : State) (e : Extent) : State :=
  let k := unitsFor e.stored
  let lmus := s.freshLmus k
  if s.flash.n < s.lmusUsed.length + k then s
  else
    match drainUnits .value (s.coldNs e.nsid) lmus s.flash with
    | (f, true) =>
      match s.backUp.moveStep { s.backUp with flash := f.padDense } { e with disk := false, lmus := lmus, band := 0, sector := 0 } with
      | none => s
      | some t => t.countUnits s.flash 0
    | (_, false) => s

/-- The tier policy that a demotion pass finds for an extent by its own search of the classifier (R223). -/
def State.passPolicy (s : State) (e : Extent) : Nat × State :=
  match s.classify e.nsid e.key with
  | (c, s) => (if c.tier ≠ 0 then c.tier else match s.ns? e.nsid with
    | some n => n.tier
    | none => 0, s)

/-- The extents that a forced demotion examines, coldest first (R277). -/
def State.coldest (s : State) : List Extent :=
  sortBy (fun (a b : Extent) => decide (a.heat < b.heat) || (a.heat == b.heat && decide (a.index ≤ b.index)))
    (s.kv.extents.filter fun e => e.inUse && !e.disk && !e.buffered)

/-- The fill has fallen below DEMOTE_FORCE_PCT − 5 %. -/
def State.relieved (s : State) : Bool := decide (s.flash.fill < (s.rd Reg.FLT_CFG1.DEMOTE_FORCE_PCT - 5) * 100)

/-- Forced demotion of extents in order until the fill is relieved, as far as extents and the disk allow. -/
def State.forceDemote : List Extent → State → State
  | [], s => if s.relieved then { s with flash := { s.flash with demoting := false } } else s
  | e :: es, s =>
    if s.relieved then { s with flash := { s.flash with demoting := false } }
    else
      match s.passPolicy e with
      | (p, s) => State.forceDemote es (if 2 ≤ p then s.demote e else s)

def State.forced (s : State) : State :=
  if s.cfg.hw.heads = 0 then s
  else if s.flash.demoting || decide (s.rd Reg.FLT_CFG1.DEMOTE_FORCE_PCT * 100 ≤ s.flash.fill) then
    let s := if s.flash.demoting then s
      else { s with flash := { s.flash with demoting := true } }.raise Ev.FLT.FORCED_DEMOTE
    if s.srv.disk = 0 ∨ s.srv.disk = 5 then s.startSpin else State.forceDemote s.coldest s
  else s

def execForcedDemote (s : State) : Host.Outcome State Fault Refusal := s.done (s.background .move false State.forced)

/-- A demotion or recall that the extent's policy asks for (Table 08-10). -/
def State.moveTier (s : State) (i : Nat) (toDisk : Bool) : State :=
  match s.ext? i with
  | none => s
  | some e =>
    let p := s.policy e
    if !e.inUse || e.buffered then s
    else if toDisk then
      let (p, s) := s.passPolicy e
      let due := p == 3 || p == 4 || (p == 2 && decide (e.heat + s.rd Reg.DIR_TIER.DEMOTE_DAYS ≤ 15))
      if due && !e.disk then s.demote e else s
    else if e.disk && p == 2 && e.heat == 15 && s.rdB Reg.DIR_TIER.RECALL_EN && decide (s.srv.disk = 4) then s.recall e
    else s

def execDemotion (extent : Nat) (toDisk : Bool) (s : State) : Host.Outcome State Fault Refusal :=
  s.done (s.background .move false fun s => s.moveTier extent toDisk)

end Sys2Proof.Machine
end

