-- ==== Sys2Proof/Machine/DirBg.lean ====
section
/-! DEFINITION. Background work of the directory, device time and the associative tables (chapters 08, 09 and 16). -/

namespace Sys2Proof.Machine

open Sys2Proof

/-! ## The directory (R201, R212 to R214) -/

/-- DIRECTORY_SAVE: the timer is off while SAVE_MIN is 0; 1,048,576 commits save in any case. -/
def execDirectorySave (s : State) : Host.Outcome State Fault Refusal :=
  s.done (s.background .upkeep false fun s =>
    if s.rd Reg.DIR_CFG.SAVE_MIN ≠ 0 ∨ 1048576 ≤ s.kv.dirCommits then s.saveDirectory else s)

/-- REQ_WINDOW: a window of 1,048,576 requests ends. -/
def execReqWindow (s : State) : Host.Outcome State Fault Refusal :=
  s.done (if s.kv.reqCount < 1048576 then s else s.nextWindow)

/-- Hot requests have reached RESEED_PCT % of a window, an hour has passed since the last reseed, and a seed can be
drawn. -/
def State.reseedDue (s : State) : Bool :=
  (s.kv.reseedOwed || decide (s.rd Reg.DIR_CFG.RESEED_PCT * 1048576 ≤ s.kv.hotCount * 100)) && s.reseedFree && s.drbgOk &&
    decide ((s.slot 1).gen < 0xFFFE)

/-- RESEED: a new seed, a cleared directory, and the rebuild that follows. Every REQ counter is cleared; the counts of the
window's requests and hot requests stay (log entry 160). -/
def execReseed (s : State) : Host.Outcome State Fault Refusal :=
  s.done (s.background .upkeep false fun s =>
    if s.reseedDue then
      let t := (s.drawSlot 1 0x0020 16).clearReq
      let kv := { t.kv with dir := [], reseedOwed := false, lastReseedMs := some s.dev.clockMs, rebuilding := true }
      ({ t with kv := kv }.wr Reg.DIR_STAT.REBUILD_PCT 0).raise Ev.DIR.RESEED
    else s)

/-- A direct entry made for an eligible key whose extent is hot, replacing none (R213). -/
def State.rebuildKey (s : State) (n : Ns) (key : Bytes) : State :=
  match n.current key with
  | some r =>
    match r.loc with
    | .extent i =>
      match s.ext? i with
      | some x =>
        if 14 ≤ x.heat ∧ (s.ownEntry n.nsid key r.loc).isNone ∧ s.eligible n.nsid key r.loc then
          s.placeDirect n.nsid key r.loc false
        else s
      | none => s
    | _ => s
  | none => s

/-- One leaf page read, and its keys' entries made; nothing is made from a page that fails. -/
def State.rebuildLeaf (s : State) (l : Leaf) : State :=
  match s.readLeaf l asWritten with
  | (.error _, s) => s
  | (.ok _, s) =>
    match s.ns? l.nsid with
    | some n => (s.leafKeys l).foldl (fun (s : State) k => s.rebuildKey n k.1) s
    | none => s

/-- The leaf map in the order of (namespace ID, key) (R199). -/
def State.leafMap (s : State) : List Leaf :=
  ((sortBy (fun (a b : Ns) => decide (a.nsid ≤ b.nsid)) s.kv.namespaces).map fun n => s.leavesOf n.nsid).flatten

/-- DIRECTORY_REBUILD: the walk of the leaf map in key order, to its end. The media answers each read at once (log entry
160). -/
def execDirectoryRebuild (s : State) : Host.Outcome State Fault Refusal :=
  s.done (s.background .rebuild false fun s =>
    if s.kv.rebuilding then
      let t := s.leafMap.foldl State.rebuildLeaf s
      ({ t with kv := { t.kv with rebuilding := false } }.wr Reg.DIR_STAT.REBUILD_PCT 100).raise Ev.DIR.REBUILD_DONE
    else s)

/-- The leaf-map index that an entry names, if it names a leaf. -/
def entLeaf (w : Nat) : Option Nat :=
  if entKind w = 3 then some (bitsOf w 0 26)
  else if entKind w = 2 ∨ (entKind w = 1 ∧ entTier w = 2) then some (entHandle w)
  else none

/-- Entries that name a retired leaf-map index are freed. -/
def State.sweepRetired (s : State) : State :=
  let dead := fun (w : BitVec 48) => match entLeaf w.toNat with
    | some l => s.kv.retired.contains l
    | none => false
  { s with kv := { s.kv with dir := s.kv.dir.filter fun p => !dead p.2, retired := [] } }

/-- RETIRED_INDEX_SWEEP (R201): after 65,536 retired indices. -/
def execRetiredIndexSweep (s : State) : Host.Outcome State Fault Refusal :=
  s.done (s.background .upkeep false fun s => if s.kv.retired.length < 65536 then s else s.sweepRetired)

/-! ## Device time (R391, R392, R400) -/

/-- DAILY_PASS: one day boundary that device time has crossed. HEAT falls, uploads grow idle, the day's media count and
its warning begin anew (Table 19-4). -/
def execDailyPass (s : State) : Host.Outcome State Fault Refusal :=
  s.done (if s.sea.time / 86400 ≤ s.sea.daysDone then s
    else
      let cool := fun (e : Extent) => if e.inUse then { e with heat := e.heat - 1 } else e
      let older := fun (u : Upload) => { u with idleDays := u.idleDays + 1 }
      let t := s.stir
      let t := { t with kv := { t.kv with extents := t.kv.extents.map cool }
                        cmd := { t.cmd with uploads := t.cmd.uploads.map older }
                        sea := { t.sea with daysDone := t.sea.daysDone + 1 } }
      (t.wr Reg.HLT.MEDIA_DAY 0).wr Reg.HLT_SUMMARY.MEDIA 0)

/-- UPLOAD_EXPIRED (R174): an upload idle for UPLOAD_IDLE days is discarded. -/
def execUploadExpired (upload : Nat) (s : State) : Host.Outcome State Fault Refusal :=
  s.done (match s.upload? upload with
    | none => s
    | some u =>
      s.background .upkeep false fun s =>
        if u.idleDays < s.rd Reg.CMD_CFG.UPLOAD_IDLE then s
        else
          let t := s.journal (s.backUp.freeExtents (u.stored.map fun k => u.firstExtent + k)) false
          { t with cmd := { t.cmd with uploads := t.cmd.uploads.filter fun x => x.id != upload } }.raise
            Ev.CMD.UPLOAD_EXPIRED)

/-- DEVICE_TIME_SAVE (R392). -/
def execDeviceTimeSave (s : State) : Host.Outcome State Fault Refusal := s.done (s.background .upkeep false State.saveTime)

/-- One stream's pending purge: applied once every record below the new FIRST_SEQ has expired by this device's time. -/
def State.applyPurge (s : State) (nsid : Nat) (p : Bytes × Nat) : State :=
  match s.ns? nsid with
  | none => s
  | some n =>
    let done := { n with purges := n.purges.filter fun x => x != p }
    match n.stream? p.1 with
    | none => s.setNs done
    | some t =>
      let gone := t.recs.filter fun r => decide (r.hdr.seq < p.2)
      if gone.all fun r => decide (r.hdr.expiry ≤ s.sea.time) then
        (s.purgeCommit done (t.purge gone.length) gone).getD s
      else s

/-- MIRROR_PURGE_APPLY (R400). -/
def execMirrorPurgeApply (nsid : Nat) (s : State) : Host.Outcome State Fault Refusal :=
  s.done (match s.ns? nsid with
    | none => s
    | some n => s.background .upkeep false fun s => n.purges.foldl (fun (s : State) p => s.applyPurge nsid p) s)

/-! ## The associative tables (R227, R232) -/

/-- A word that failed its parity: rewritten from its copy, or left invalid where the rewrite fails too. -/
def State.scrubWord (s : State) (table index : Nat) (fails : Bool) : State :=
  let m := s.table table
  if (SMap.get camNone m index).isNone then s
  else
    let copy := match s.cam.saved.find? fun x => x.1 == table with
      | some x => x.2
      | none => []
    let w := if fails then none else if table = 0 then SMap.get camNone m index else SMap.get camNone copy index
    let t := ((s.setTable table (SMap.set camNone index w m)).raise Ev.CAM.CAM_PARITY).count Reg.CAM_SCRUB.PARITY_ERRS 1
    if w.isNone then t.raise Ev.CAM.TABLE_LOST else t

/-- CAM_SCRUB: the words found bad, by table and index, and whether the rewrite of each fails too. -/
def execCamScrub (bad : List (Nat × Nat × Bool)) (s : State) : Host.Outcome State Fault Refusal :=
  s.done (bad.foldl (fun (s : State) b => s.scrubWord b.1 b.2.1 b.2.2) s)

/-- TILE_RETENTION: a tile that holds entries has had no search for 10 µs. -/
def execTileRetention (tile : Nat) (s : State) : Host.Outcome State Fault Refusal :=
  s.done (if 32 ≤ tile ∨ s.tileValid tile = 0 ∨ s.cam.retained.contains tile then s
    else { s with cam := { s.cam with retained := s.cam.retained ++ [tile] } })

end Sys2Proof.Machine
end

