-- ==== Sys2Proof/Machine/DiskBg.lean ====
section
/-! DEFINITION. The disk tier's own events (chapters 12 and 13): servo wedges and the voice coil, participation and write
inhibits, spin-up and calibration, preamplifier and motor links, and band cleaning. Positions are in 1/1,024 track, a
quotient to the nearest (log entry 60). -/

namespace Sys2Proof.Machine

open Sys2Proof

/-! ## Position (R290, R291) -/

/-- The nearest whole number to a quotient. -/
def nearest (x : Int) (y : Nat) : Int := (2 * x + y) / (2 * y : Nat)

/-- The Gray-coded track number (R290). -/
def grayTrack (gray : Nat) : Nat :=
  ((List.range 24).reverse.foldl (fun (a : Nat × Bool) i =>
    let b := xor a.2 (gray.testBit i)
    (a.1 + (if b then 2 ^ i else 0), b)) (0, false)).1

/-- The position modulo two tracks. -/
def burstPhase (r : ReaderWedge) : Int :=
  let sum := r.a + r.b + r.c + r.d
  let n : Int := (r.a : Int) - r.b
  let q : Int := (r.c : Int) - r.d
  let sg := fun (v : Int) => if 0 < v then 1 else if v < 0 then (-1 : Int) else 0
  let phi := if n.natAbs ≤ q.natAbs then (if 0 < q then 0 else 1024) + sg q * nearest (1024 * n) sum
    else (if 0 < n then 512 else 1536) - sg n * nearest (1024 * q) sum
  phi % 2048

/-- A reader's position: the value nearest its Gray track with the phase of its bursts. -/
def readerPos (r : ReaderWedge) (track : Nat) : Int :=
  let t : Int := 1024 * track
  t + ((burstPhase r - t + 1024) % 2048) - 1024

/-- Servo bit `k` of Table 12-1, where the field is found `o` places from the first of the sample. -/
def servoBit (r : ReaderWedge) (o k : Nat) : Bool := r.bits.testBit (o + k)

/-- The places of the SAM, nearest the predicted one first: within ±8 servo bits of place 8. -/
def samPlaces : List Nat := [8, 7, 9, 6, 10, 5, 11, 4, 12, 3, 13, 2, 14, 1, 15, 0, 16]

/-- Where the SAM 0x0F35 is found with at most one bit in error (R288). -/
def samAt (r : ReaderWedge) : Option Nat :=
  samPlaces.find? fun o => decide (((List.range 16).filter fun i => servoBit r o (112 + i) != (0x0F35 : Nat).testBit (15 - i)).length ≤ 1)

/-- `n` data bits from servo bit `k`, each two servo bits, 0b10 for 1 (R287), most significant first; an illegal pair reads as
its first bit (log entry 167). -/
def servoData (r : ReaderWedge) (o k n : Nat) : Nat :=
  (List.range n).foldl (fun v i => 2 * v + (if servoBit r o (k + 2 * i) then 1 else 0)) 0

/-- The fields of a servo field that a reader decodes: wedge number, whether PARITY is even over INDEX and WEDGE, Gray-coded
track, and the RRO correction where its CRC-4 holds. -/
structure ServoField where
  wedge    : Nat
  parityOk : Bool
  gray     : Nat
  rro      : Option Int
  deriving DecidableEq, Repr

def servoField (r : ReaderWedge) : Option ServoField :=
  (samAt r).map fun o =>
    let w := servoData r o 128 12
    let c := servoData r o 392 20
    ⟨w / 2 % 1024, decide (((List.range 12).filter fun i => w.testBit i).length % 2 = 0), servoData r o 152 24,
      if crc4 (c / 16) = c % 16 then some (BitVec.ofNat 16 (c / 16)).toInt else none⟩

/-- The track that a reader decodes. -/
def servoTrack (r : ReaderWedge) : Nat :=
  match servoField r with
  | some f => grayTrack f.gray
  | none => 0

/-- A reader's wedge is good (R288): `w` is the predicted wedge number, `cal` the calibrated burst sum S. -/
def readerGood (w : Option Nat) (cal : Nat) (r : ReaderWedge) : Bool :=
  let sum := r.a + r.b + r.c + r.d
  match servoField r with
  | none => false
  | some f =>
    f.parityOk && decide (w.getD f.wedge = f.wedge ∧ f.wedge < 640) && decide (0 < sum) && decide (cal ≤ 2 * sum) &&
      decide ((readerPos r (grayTrack f.gray) - 1024 * grayTrack f.gray).natAbs ≤ 768)

/-- The two readers of a head: each is good or not, by the calibration of the zone of its track. -/
def readersGood (tracks : Nat) (w : Option Nat) (cal : HeadCal) (s : WedgeSample) : Bool × Bool :=
  (readerGood w (cal.sumA.getD (zoneOf tracks (servoTrack s.readerA)) 0) s.readerA,
   readerGood w (cal.sumB.getD (zoneOf tracks (servoTrack s.readerB)) 0) s.readerB)

/-- The wedge number and the track of the good reader, reader A's where both are good. -/
def wedgeSeen (tracks : Nat) (cal : HeadCal) (s : WedgeSample) : Option (Nat × Nat) :=
  let ok := readersGood tracks none cal s
  (if ok.1 then servoField s.readerA else if ok.2 then servoField s.readerB else none).map fun f => (f.wedge, grayTrack f.gray)

/-- The wedge's RRO correction: that of a good reader whose CRC-4 holds, reader A's first; else 0. -/
def wedgeRro (ok : Bool × Bool) (s : WedgeSample) : Int :=
  let of := fun (good : Bool) (r : ReaderWedge) => if good then (servoField r).bind fun f => f.rro else none
  ((of ok.1 s.readerA).or (of ok.2 s.readerB)).getD 0

/-- The head position x, in the zone of the good reader's track; none where the wedge is missed (R291). -/
def wedgePos (tracks : Nat) (w : Option Nat) (cal : HeadCal) (s : WedgeSample) : Option Int :=
  let ok := readersGood tracks w cal s
  let pA := readerPos s.readerA (servoTrack s.readerA) - cal.offA.getD (zoneOf tracks (servoTrack s.readerA)) 0
  let pB := readerPos s.readerB (servoTrack s.readerB) - cal.offB.getD (zoneOf tracks (servoTrack s.readerB)) 0
  let rro := wedgeRro ok s
  if ok.1 ∧ ok.2 then some (nearest (pA + pB) 2 + rro)
  else if ok.1 then some (pA + rro)
  else if ok.2 then some (pB + rro)
  else none

/-! ## Stroke (R293, R294) -/

/-- M of a head in the zone of its position: the lesser of 16 tracks and the calibrated gain times 0.8 V. -/
def Head.gain (h : Head) (tracks : Nat) : Nat := h.cal.gain.getD (zoneOf tracks (h.x / 1024)) 0
def Head.reach (h : Head) (tracks : Nat) : Int := min 16384 (h.gain tracks * 4 / 5 : Nat)

/-- The MA code of a stroke: the voltage that the gain asks for, in steps of 0.0977 mV (Table 02-16). -/
def Head.maCode (h : Head) (tracks : Nat) : Int :=
  if h.gain tracks = 0 then 0 else nearest (h.stroke * 10000000) (h.gain tracks * 977)

/-- The required stroke r. -/
def Head.need (h : Head) : Int := h.target - (h.x - h.stroke)

/-- The micro-actuator's next stroke: towards PES 0 within ±M. How far one wedge takes it is not stated: a free value of
at least one unit (log entry 61). -/
def nextStroke (free : Nat) (m pes reach : Int) : Int :=
  let goal := max (-reach) (min reach (m - pes))
  let d := (goal - m).natAbs
  if d = 0 then goal
  else
    let step : Int := (1 + Config.freeNat free % d : Nat)
    if m < goal then m + step else m - step

/-! ## Write inhibits (R299, R300) -/

def State.actuator? (s : State) (a : Nat) : Option Actuator := s.srv.actuators.find? fun x => x.id == a

def State.setActuator (s : State) (a : Actuator) : State :=
  { s with srv := { s.srv with actuators := updWhere (fun x => x.id == a.id) (fun _ => a) s.srv.actuators } }

/-- Some cause of Table 12-5 holds for a head. -/
def State.barred (s : State) (h : Head) : Bool :=
  h.cPes || h.cMiss || h.cStroke || !h.part || !h.settledWr || decide (s.srv.periodOff ≠ 0) || s.dev.pwrfailLow ||
    match s.actuator? (h.id / 11) with
    | some a => decide (a.shock ≠ 0) || a.faultHeld
    | none => false

/-- The band that the heads are writing. -/
def State.writingBand (s : State) : Option Band := (s.rdc.writing.bind s.rdc.band?).filter fun b => b.state == .open_

/-- The slots of a band that a head wrote on a track in the data region after wedge `w`. -/
def State.slotsIn (s : State) (b : Band) (track hid w : Nat) : List (Nat × Nat) :=
  let i := (w + 640 - b.startWedge track) % 640
  let ps := (regionRows (s.slotZone b.slot) i).filterMap (b.slotAt track hid)
  (ps.filter fun p => (b.held p).isSome && !b.voids.contains p).map fun p => (b.slot, p)

/-- Entries added to a list that does not hold them. -/
def addNew (l new : List (Nat × Nat)) : List (Nat × Nat) := l ++ new.filter fun x => !l.contains x

/-- The sectors that a head wrote after its decision at the wedge before `w` are suspect, and with `outward` those of the
previous track in the same interval (R300). -/
def State.suspect (s : State) (hid w : Nat) (outward : Bool) : State :=
  match s.writingBand.bind fun b => b.segments.getLast?.map fun g => (b, g.track) with
  | none => s
  | some (b, j) =>
    let n := s.slotsIn b j hid ((w + 639) % 640)
    let p := if outward ∧ 0 < j then s.slotsIn b (j - 1) hid ((w + 639) % 640) else []
    let srv := { s.srv with suspects := addNew s.srv.suspects n, suspectsPrev := addNew s.srv.suspectsPrev p }
    { s with srv := srv }.count Reg.SRV.SUSPECT_SECTORS (n.length + p.length)

/-- The band writer rewrites what was reported suspect, as soon as a head writes: the band map's change is one journal record
(R323, R326). What finds no room in its band is copied in the next one. -/
def State.mend (s : State) : State :=
  if (s.srv.suspects.isEmpty && s.srv.suspectsPrev.isEmpty) || s.writeMask == 0 then s
  else
    match s.writingBand with
    | none => s
    | some b =>
      let t := s.backUp
      match t.mendBand b with
      | none => (t.journal (t.closeBand b true) false).mapSettled
      | some (c, u) =>
        let u := { u with rdc := u.rdc.setBand c }
        let u := if u.pastRemaps c then u.closeBand { c with rung7 := true } true else u.stripe c.slot
        (t.journal u false).mapSettled

/-- The write-inhibit decision for a head: raised at once, released when no cause is left. -/
def State.judge (s : State) (hid : Nat) : State :=
  match s.head? hid with
  | none => s
  | some h =>
    let now := s.barred h
    if now && !h.inhibit then
      ((s.setHead { h with inhibit := true, writing := false }).emit (.writeParked hid)).count Reg.SRV.WRITE_INHIBITS 1
    else s.setHead { h with inhibit := now }

/-- Raise what now holds for every head of a list; a release waits for the head's own wedge. -/
def State.judgeAll (s : State) (hs : List Nat) : State :=
  hs.foldl (fun (s : State) i => match s.head? i with
    | some h => if h.inhibit then s else s.judge i
    | none => s) s

/-! ## Participation (R295 to R297) -/

/-- A head drops out of the stripe. -/
def State.dropHead (s : State) (hid : Nat) : State :=
  match s.head? hid with
  | none => s
  | some h =>
    if h.part then
      let t := (s.setHead { h with part := false, rejoinRun := 0 }).count Reg.SRV.DROPOUTS 1
      (t.raise Ev.SRV.HEAD_DROPPED).judgeAll [hid]
    else s

/-- The extents with a data sector on a head. -/
def State.extentsOn (s : State) (hid : Nat) : List Extent :=
  s.kv.extents.filter fun e => e.inUse && e.disk && !e.buffered &&
    (List.range' e.sector e.sectors).any fun d => s.rdc.headOf e.band (logicalSlot d) == some hid

/-- A head goes out of service until the next start (R297, R328). -/
def State.headOut (s : State) (hid : Nat) : State :=
  match s.head? hid with
  | none => s
  | some h =>
    if h.inService then
      let t := s.dropHead hid
      let t := match t.head? hid with
        | some h => t.setHead { h with inService := false, inU := false }
        | none => t
      let t := t.raise Ev.SRV.HEAD_OUT
      (t.extentsOn hid).foldl (fun (s : State) e => s.note 0x0C 0x81 0 (e.index + e.nsid * 2 ^ 48)) t
    else s

/-! ## One wedge of a head (R288 to R300) -/

/-- A run of consecutive wedges. -/
def runOf (ok : Bool) (n : Nat) : Nat := if ok then n + 1 else 0

/-- The head after a missed wedge `w`. -/
def Head.missAt (h : Head) (w : Option Nat) : Head :=
  { h with wedge := w, missed := true, missRun := h.missRun + 1, goodRun := 0, rejoinRun := 0, rdRun := 0, wrRun := 0,
           strokeRun := 0, revMissed := h.revMissed + 1, lastPes := none, cMiss := true, shockNow := false }

/-- The head after a good wedge `w` at position `x`. -/
def State.goodWedge (s : State) (h : Head) (w : Nat) (x : Int) (ref : Int) : Head :=
  let tracks := s.srv.tracks
  let jog := if h.writing then h.cal.jog.getD (zoneOf tracks (x / 1024)) 0 else 0
  let pes := x + jog - h.target
  let h := { h with x := x }
  let m := h.reach tracks
  let r := h.need
  let stroke := nextStroke s.free h.stroke pes m
  let lim := m - 512
  let within := decide (stroke.natAbs ≤ lim.toNat ∧ 0 ≤ lim)
  let rd := runOf (decide (pes.natAbs ≤ s.rd Reg.SRV_CFG0.SETTLE_RD)) h.rdRun
  let wr := runOf (decide (pes.natAbs ≤ s.rd Reg.SRV_CFG0.SETTLE_WR)) h.wrRun
  let good := h.goodRun + 1
  let inRun := runOf within h.strokeRun
  let shock := match h.lastPes with
    | some p => decide (s.rd Reg.SRV_CFG1.SHOCK_LIMIT < (pes - p).natAbs)
    | none => false
  let past := decide (s.rd Reg.SRV_CFG0.WRITE_LIMIT < pes.natAbs)
  { h with wedge := some w, missed := false, pes := pes, lastPes := some pes, stroke := stroke, missRun := 0,
           goodRun := good, strokeRun := inRun, rdRun := rd, wrRun := wr,
           rejoinRun := runOf (h.inU && decide ((r - ref).natAbs ≤ lim.toNat ∧ 0 ≤ lim)) h.rejoinRun,
           settledRd := h.settledRd || decide (2 ≤ rd), settledWr := h.settledWr || decide (4 ≤ wr),
           cPes := past || (h.cPes && decide (wr < 2)), cMiss := h.cMiss && decide (good < 2),
           cStroke := !within || (h.cStroke && decide (inRun < 2)), shockNow := shock }

/-- Two heads of an actuator moved by a shock in the same wedge period: every head of it is inhibited for a
revolution, and what its writing heads wrote is suspect. -/
def State.checkShock (s : State) (a : Actuator) : State :=
  let hs := s.srv.heads.filter fun h => h.id / 11 == a.id
  if 2 ≤ (hs.filter fun h => h.shockNow).length then
    let t := if a.shock = 0 then s.raise Ev.SRV.SHOCK else s
    let t := t.setActuator { a with shock := 640 }
    let t := (hs.filter fun h => h.writing).foldl (fun (s : State) h => s.suspect h.id (h.wedge.getD 0) false) t
    t.judgeAll (hs.map Head.id)
  else s

/-- The write stripe of a head ends with its revolution; an actuator none of whose heads writes is disarmed (R306). -/
def State.endStripe (s : State) (hid : Nat) : State :=
  match s.head? hid, s.actuator? (hid / 11) with
  | some h, some a =>
    let t := s.setHead { h with writing := false }
    if a.armed ∧ (t.srv.heads.all fun x => x.id / 11 != a.id || !x.writing) = true then
      (t.setActuator { a with armed := false }).emit (.paFrame a.id (preampArm 0))
    else t
  | _, _ => s

/-- The index wedge: the revolution's latches, a rejoin after 64 good wedges, the end of a write stripe, and once per revolution,
at the lowest head in service, SPIN_TRIM, whose correction is a free value (R307, log entry 167). -/
def State.indexWedge (s : State) (hid : Nat) (rejoin : Bool) : State :=
  match s.head? hid with
  | none => s
  | some h =>
    let part := h.part || rejoin
    let t := (s.setHead { h with part := part, partRev := part, revMissed := 0 }).endStripe hid
    if (s.srv.heads.find? fun x => x.inService).map Head.id = some hid then
      t.tookFree.emit (.motFrame (motBytes 0x21 (beBytes 2 (Config.freeNat t.free % 65536))))
    else t

/-- A head that acquires, after one more wedge: the third good one in a row with consecutive wedge numbers, and tracks that
differ by no more than 2, gives its wedge number (R288). -/
def Head.acquire (h : Head) (seen : Option (Nat × Nat)) : Head :=
  match seen with
  | none => { h with acqRun := 0 }
  | some (w, t) =>
    let follows := decide (0 < h.acqRun) && decide (w = (h.acqAt.1 + 1) % 640) && decide (t ≤ h.acqAt.2 + 2) &&
      decide (h.acqAt.2 ≤ t + 2)
    let n := if follows then h.acqRun + 1 else 1
    { h with acqRun := n, acqAt := (w, t) }

/-- One servo field of one head. -/
def State.servoWedge (s : State) (hid : Nat) (smp : WedgeSample) : State :=
  match (s.head? hid).map fun h => if h.wedge.isSome then h else h.acquire (wedgeSeen s.srv.tracks h.cal smp), s.actuator? (hid / 11) with
  | some h, some a =>
    if s.srv.disk = 4 ∧ h.inService then
      let next := h.wedge.map fun w => (w + 1) % 640
      if h.wedge.isNone ∧ h.acqRun < 3 then s.setHead h
      else
      match wedgePos s.srv.tracks next h.cal smp with
      | none =>
        let h' := h.missAt next
        let t := (s.setHead h').count Reg.SRV.SAM_MISSES 1
        let t := if h.writing then t.suspect hid (next.getD 0) false else t
        let t := if 320 < h'.revMissed then t.headOut hid
          else if 8 ≤ h'.missRun then t.dropHead hid
          else t
        let t := t.judge hid
        (if next = some 0 then t.indexWedge hid false else t).mend
      | some x =>
        let w := next.getD h.acqAt.1
        let h' := s.goodWedge h w x a.reference
        let out := decide (h'.reach s.srv.tracks < (({ h with x := x } : Head).need - a.reference).natAbs) || !h.inU
        let t := (s.tookFree.setHead h').emit (.maOut hid (h'.maCode s.srv.tracks))
        let t := if h.writing ∧ h'.cPes ∧ !h.inhibit then
            t.suspect hid w (decide (h'.pes < 0 ∧ s.rd Reg.SRV_CFG0.WRITE_LIMIT < h'.pes.natAbs)) else t
        let t := if h.part ∧ out = true then t.dropHead hid else t
        let t := if w = 0 then t.indexWedge hid (decide (64 ≤ h.rejoinRun) && !out) else t
        ((t.checkShock a).judge hid).mend
    else s
  | _, _ => s

def execServoWedge (head : Nat) (w : WedgeSample) (s : State) : Host.Outcome State Fault Refusal :=
  s.done (s.servoWedge head w)

/-! ## The voice coil (R294) -/

/-- The heads whose required strokes lie within one window that begins at `lo`. -/
def windowFrom (m2 : Int) (hs : List (Nat × Int)) (lo : Int) : List (Nat × Int) :=
  hs.filter fun h => decide (lo ≤ h.2 ∧ h.2 ≤ lo + m2)

/-- Least and greatest required stroke of a set. -/
def spanOf : List (Nat × Int) → Int × Int
  | [] => (0, 0)
  | h :: hs => hs.foldl (fun a x => (min a.1 x.2, max a.2 x.2)) (h.2, h.2)

/-- The lowest head number that one set holds and the other does not. -/
def lowestOnly (u v : List (Nat × Int)) : Nat :=
  ((u.filter fun x => !v.any fun y => y.1 == x.1).map fun x => x.1).foldl min 22

/-- The better of two sets: larger; then midpoint nearest the previous reference; then the one that holds the lowest head
number not in the other. -/
def betterSet (ref : Int) (u v : List (Nat × Int)) : List (Nat × Int) :=
  let far := fun (w : List (Nat × Int)) => ((spanOf w).1 + (spanOf w).2 - 2 * ref).natAbs
  if u.length < v.length then v else if v.length < u.length then u
  else if far v < far u then v else if far u < far v then u
  else if lowestOnly v u < lowestOnly u v then v else u

/-- The set U. -/
def chooseU (ref m2 : Int) (hs : List (Nat × Int)) : List (Nat × Int) :=
  match hs with
  | [] => []
  | h :: t => (t.map fun x => windowFrom m2 hs x.2).foldl (betterSet ref) (windowFrom m2 hs h.2)

/-- VCM_SET is sent (R307): the currents of both actuators, of which the loop has just set this one's. The law by which the
current drives the error towards 0 is not stated: a free value. -/
def State.vcmSet (s : State) (aid : Nat) : State :=
  match s.actuator? aid with
  | none => s
  | some a =>
    let i : Int := (Config.freeNat s.free % 65536 : Nat) - 32768
    let t := s.tookFree.setActuator { a with current := i }
    let of := fun (k : Nat) => match t.actuator? k with
      | some a => a.current
      | none => 0
    t.emit (.motFrame (motBytes 0x10 (field16 (of 0) ++ field16 (of 1))))

/-- One voice-coil update. M is the least of the heads considered; a missed head keeps the membership it had (log entry
62). -/
def State.voiceCoil (s : State) (a : Actuator) : State :=
  let mine := s.srv.heads.filter fun h => h.id / 11 == a.id && h.inService
  let seen := mine.filter fun h => !h.missed
  let m := (seen.map fun h => h.reach s.srv.tracks).foldl min 16384
  let u := chooseU a.reference (2 * m) (seen.map fun h => (h.id, h.need))
  let err := if u.isEmpty then a.reference else ((spanOf u).1 + (spanOf u).2) / 2
  let shocked := decide (2 ≤ (mine.filter fun h => h.shockNow).length)
  let t := s.setActuator { a with reference := err, shock := if shocked then a.shock else a.shock - 1 }
  let up := fun (h : Head) => { h with shockNow := false, inU := if h.missed then h.inU else u.any fun x => x.1 == h.id }
  let t := { t with srv := { t.srv with heads := updWhere (fun h => h.id / 11 == a.id) up t.srv.heads } }
  let t := t.vcmSet a.id
  (seen.filter fun h => !u.any fun x => x.1 == h.id).foldl (fun (s : State) h => s.dropHead h.id) t

def execVoiceCoilUpdate (actuator : Nat) (s : State) : Host.Outcome State Fault Refusal :=
  s.done (match s.actuator? actuator with
    | some a => if s.srv.disk = 4 ∧ !s.srv.retracted then s.voiceCoil a else s
    | none => s)

/-! ## Spin-up and calibration (R301, R302) -/

/-- The disk tier has failed: out of service until the next start. -/
def State.diskFailed (s : State) : State :=
  let t := s.wr Reg.START_TIME.DISK_100MS 0
  { t with srv := { t.srv with disk := 6, writeReady := false }, dev := { t.dev with spinning := false } }.raise
    Ev.SRV.SPINUP_FAIL

/-- The disk tier is formatted where no band map exists for the mounted tier (R321). -/
def State.formatDisk (s : State) : State :=
  if (s.rdc.formatted ∧ s.rdc.tierId = s.flash.tierId) ∨ !s.flash.mounted ∨ s.flash.readOnly then s
  else
    let mask := maskOf ((s.srv.heads.filter fun h => h.inService).map fun h => h.id)
    let n := formatSlots (maskHeads mask).length s.srv.tracks
    let r : Rdc := { Rdc.reset with formatted := true, tierId := s.flash.tierId, headsAtFormat := mask, slots := n,
                                    nextBseq := s.rdc.nextBseq, spareInit := (n + 99) / 100, spareNow := (n + 99) / 100 }
    s.journal { s with rdc := r, srv := { s.srv with suspects := [], suspectsPrev := [] } } false

/-- A list by zone with the measured values of zones 0, 15 and 31. -/
def someZones {α : Type} (new old : List α) (d : α) : List α :=
  (List.range 32).map fun z => if z = 0 ∨ z = 15 ∨ z = 31 then new.getD z (old.getD z d) else old.getD z d

/-- The values that a calibration leaves a head and an actuator (Table 12-7): all measured, or the saved or built-in ones with
gain and bias measured in zones 0, 15 and 31. -/
def mergeCal (full : Bool) (new old : HeadCal) : HeadCal :=
  if full then new else { old with gain := someZones new.gain old.gain 0 }

def mergeStack (full : Bool) (new old : StackCal) : StackCal :=
  if full then new else { old with bias := someZones new.bias old.bias 0 }

/-- The saved set that matches the mounted tier (R302). -/
def State.matchingCal (s : State) : Option (List HeadCal × List StackCal) :=
  match s.srv.savedCal with
  | some (t, l) => if t = s.flash.tierId then some l else none
  | none => none

/-- Calibration results put in force, heads that fail it out of service. -/
def State.calibrate (s : State) (full : Bool) (failed : List Nat) (r : CalResult) : State :=
  let saved := s.matchingCal
  let oldH := fun (i : Nat) => ((saved.bind fun l => l.1[i]?).getD (Config.defaultCal i))
  let oldA := fun (i : Nat) => ((saved.bind fun l => l.2[i]?).getD (Config.defaultStack i))
  let setH := fun (h : Head) => { h with cal := mergeCal full (r.heads.getD h.id h.cal) (oldH h.id) }
  let setA := fun (a : Actuator) => { a with cal := mergeStack full (r.stackCals.getD a.id a.cal) (oldA a.id) }
  let t := { s with srv := { s.srv with heads := s.srv.heads.map setH, actuators := s.srv.actuators.map setA } }
  let t := failed.foldl (fun (s : State) h => s.headOut h) t
  if full then
    let all := (List.range 22).map fun i => match t.head? i with
      | some h => h.cal
      | none => default
    let stackCals := t.srv.actuators.map fun a => a.cal
    let keep := if t.flash.mounted ∧ !t.flash.readOnly then some (t.flash.tierId, all, stackCals) else t.srv.savedCal
    let t := { t with srv := { t.srv with savedCal := keep, fullCal := true, writeReady := !t.rdc.writeStop } }
    t.raise Ev.SRV.CAL_DONE
  else { t with srv := { t.srv with writeReady := saved.isSome && !t.rdc.writeStop } }

/-- The heads loaded and acquired: every one in service participates, settled where it stands. -/
def Head.loaded (h : Head) : Head :=
  { h with part := h.inService, partRev := h.inService, inU := h.inService, wedge := none, acqRun := 0, missed := false, missRun := 0,
           goodRun := 0, rejoinRun := 0, rdRun := 0, wrRun := 0, strokeRun := 0, revMissed := 0, stroke := 0, pes := 0,
           lastPes := none, x := h.target, settledRd := true, settledWr := true, cPes := false, cMiss := false,
           cStroke := false, shockNow := false, writing := false, inhibit := !h.inService }

/-- A spin-up attempt ends (Table 12-6). -/
def State.spinUp (s : State) (r : SpinResult) : State :=
  match r.missedStep with
  | some _ =>
    let n := s.srv.attempts + 1
    let t := (s.unloadHeads).emit (.motFrame (motSpin 2))
    let t := { t with srv := { t.srv with disk := 0, attempts := n, tries := min 3 (t.srv.tries + 1) }
                      dev := { t.dev with spinning := false } }
    if 3 ≤ n then t.diskFailed else t
  | none =>
    let full := s.srv.coldStart && !s.srv.fullCal
    let acts := s.srv.actuators.map fun a =>
      { a with reference := 0, shock := 0, faultHeld := false, clearPolls := 0, armed := false }
    let t := { s with srv := { s.srv with tracks := r.tracks, heads := s.srv.heads.map Head.loaded, actuators := acts,
                                          attempts := 0, seekRepeats := 0, periodOff := 0, disk := 4 } }
    let t := t.formatDisk.calibrate full r.failed r.cal
    (t.wr Reg.START_TIME.DISK_100MS
      (min 65535 ((t.rd Reg.START_TIME.SERVICE_MS + (t.dev.clockMs - t.dev.startMs)) / 100))).raise Ev.RST.DISK_READY

def execSpinUp (r : SpinResult) (s : State) : Host.Outcome State Fault Refusal :=
  s.done (if s.srv.disk = 1 then s.spinUp r else s)

/-- A retry begins 5 s after a failed attempt and ends as the attempt did. -/
def State.spinRetry (s : State) (r : SpinResult) : State :=
  let n := s.srv.attempts
  let t := { s with srv := { s.srv with attempts := 0 } }.startSpin
  if t.srv.disk = 1 then { t with srv := { t.srv with attempts := n } }.spinUp r else s

def execSpinupRetry (r : SpinResult) (s : State) : Host.Outcome State Fault Refusal :=
  s.done (if s.srv.disk = 0 ∧ 0 < s.srv.attempts ∧ s.srv.attempts < 3 then s.spinRetry r else s)

/-- The background calibration completes; a power-state entry stops it and its results are discarded. -/
def execFullCalibration (failed : List Nat) (cal : CalResult) (s : State) : Host.Outcome State Fault Refusal :=
  s.done (if s.srv.disk = 4 ∧ !s.srv.fullCal ∧ s.dev.entering = none ∧ s.dev.phase = .service then
      s.stir.calibrate true failed cal
    else s)

/-- A spin-down begins, or the one under way ends with the spindle stopped (R303). -/
def execSpinDown (s : State) : Host.Outcome State Fault Refusal :=
  s.done (if s.srv.disk = 5 then { s with srv := { s.srv with disk := 0 } } else s.spinDown)

/-! ## Seeks (R298) -/

/-- A seek that has not settled by twice its bound: the position is acquired again and the seek repeated; after three
repeats the command that needed it fails. -/
def State.seekFails (s : State) (t : Option TagId) : State :=
  if s.srv.seekRepeats < 3 then
    let again := fun (h : Head) =>
      { h with wedge := none, acqRun := 0, settledRd := false, settledWr := false, rdRun := 0, wrRun := 0, lastPes := none }
    let u := { s with srv := { s.srv with seekRepeats := s.srv.seekRepeats + 1
                                          heads := updWhere (fun h => h.part) again s.srv.heads } }
    u.judgeAll (u.srv.heads.map Head.id)
  else
    let u := { s with srv := { s.srv with seekRepeats := 0 } }.count Reg.SRV.SEEK_FAIL 1
    match t.bind u.entry? with
    | some e => if e.before then (u.detach e.id).finish e stMedia [] else u
    | none => u

def execSeekTimeout (t : Option TagId) (s : State) : Host.Outcome State Fault Refusal :=
  s.done (if s.srv.disk = 4 then s.seekFails t else s)

/-! ## Preamplifier and motor links (R304 to R308) -/

/-- A fault that names a head is counted against it; the third within 1 s takes it out of service. -/
def State.headFault (s : State) (hid : Nat) : State :=
  match s.head? hid with
  | none => s
  | some h =>
    let now := s.dev.clockMs
    let l := now :: h.faults.filter fun t => decide (now ≤ t + 1000)
    let t := s.setHead { h with faults := l.take 3 }
    if 3 ≤ l.length then t.headOut hid else t

/-- A FAULT poll (R306): none is a failed frame, the third in a row counts as FAULT [3]. -/
def State.preampPoll (s : State) (a : Actuator) (fault : Option (BitVec 16)) : State :=
  let bad := match fault with
    | none => a.badFrames + 1
    | some _ => 0
  let code := match fault with
    | some f => some f
    | none => if 3 ≤ bad then some 8 else none
  let hs := (s.srv.heads.filter fun h => h.id / 11 == a.id).map fun h => h.id
  let a := { a with badFrames := bad }
  match code with
  | none => s.setActuator a
  | some f =>
    if f = 0 then
      if a.faultHeld then
        if a.clearPolls + 1 < 2 then s.setActuator { a with clearPolls := a.clearPolls + 1 }
        else
          let mask := maskOf ((s.srv.heads.filter fun h => h.id / 11 == a.id && h.part).map fun h => h.id % 11)
          (s.setActuator { a with faultHeld := false, clearPolls := 0, armed := true }).emit
            (.paFrame a.id (preampArm mask))
      else s.setActuator a
    else
      let t := (s.setActuator { a with faultHeld := true, clearPolls := 0, armed := false }).raise Ev.SRV.PREAMP_FAULT
      let t := t.judgeAll hs
      if f.getLsbD 0 || f.getLsbD 1 then t.headFault (11 * a.id + bitsOf f.toNat 8 4) else t

/-- A FAULT poll: the read frame sent, and its answer of DATA and CRC-8, if one came. -/
def execPreampFault (actuator : Nat) (resp : Option (BitVec 24)) (s : State) : Host.Outcome State Fault Refusal :=
  s.done (match s.actuator? actuator with
    | some a =>
      if s.dev.phase = .service then (s.emit (.paFrame actuator (paRead 0x04))).preampPoll a (resp.bind fun r => paAnswer 0x04 r)
      else s
    | none => s)

/-- A STATUS poll (R307). -/
def State.motPoll (s : State) (resp : Option (BitVec 32)) : State :=
  match resp with
  | none =>
    let n := s.srv.statusFails + 1
    if n < 3 then { s with srv := { s.srv with statusFails := n } }
    else
      let t := { s with srv := { s.srv with statusFails := 0 } }.retract
      (t.raise Ev.SRV.MOT_LINK_ERR).diskFailed
  | some w =>
    let ns := bitsOf w.toNat 0 24 * 1000
    let t := { s with srv := { s.srv with statusFails := 0 } }.wr Reg.SRV_SPEED.PERIOD_NS ns
    if s.srv.disk = 4 then
      if 8337499 < ns ∨ ns < 8329167 then
        { t with srv := { t.srv with periodOff := 8 } }.judgeAll (t.srv.heads.map Head.id)
      else { t with srv := { t.srv with periodOff := t.srv.periodOff - 1 } }
    else t

/-- The 32 bits of a STATUS answer whose CRC-8 over CMD and DATA holds. -/
def motAnswer (r : BitVec 40) : Option (BitVec 32) :=
  let d := r.toNat / 256
  if r.toNat % 256 = linkCrc (beBytes 1 0x40 ++ beBytes 4 d) then some (BitVec.ofNat 32 d) else none

def execMotStatus (resp : Option (BitVec 40)) (s : State) : Host.Outcome State Fault Refusal :=
  s.done (if s.dev.phase = .service ∧ s.cfg.hw.heads ≠ 0 then
      (s.emit (.motFrame motStatus)).motPoll (resp.bind motAnswer)
    else s)

/-! ## Band cleaning and retirement (R329 to R333) -/

/-- Live extents of a band. -/
def State.extentsIn (s : State) (slot : Nat) : List Extent :=
  s.kv.extents.filter fun e => e.inUse && e.disk && !e.buffered && e.band == slot

/-- An extent that cleaning can copy: none of its sectors is lost. -/
def State.copyable (s : State) (e : Extent) : Bool := !s.sectorsLost e.band e.sector e.sectors

/-- A spare leaves the spares for a retired slot (R331); without one the tier stops accepting writes (R332). -/
def State.retireBand (s : State) (b : Band) : State :=
  if s.rdc.spareNow = 0 then
    let r := { (s.rdc.setBand { b with state := .stale }) with writeStop := true }
    { s with rdc := r, srv := { s.srv with writeReady := false } }.raise Ev.RDC.DISK_WRITE_STOP
  else
    let before := s.rdc.spareNow
    let r := { (s.rdc.setBand { b with state := .retired }) with spareNow := before - 1 }
    let t := { s with rdc := r }.raise Ev.RDC.BAND_RETIRED
    let low := fun (n : Nat) => decide (n * 10 < r.spareInit)
    let t := if low (before - 1) && !low before then t.raise Ev.RDC.DISK_SPARE_LOW else t
    if low (before - 1) then t.warn Reg.HLT_SUMMARY.DISK_SPARE Ev.HLT.SPARE_WARN (before - 1 + 2 ^ 24) else t

/-- A stale band freed, or retired where R331 asks for it, once no map that a loss of the write buffer would restore
names it. -/
def State.freeBand (s : State) (b : Band) : State :=
  let held := match s.kv.back with
    | some k => k.extents.any fun e => e.inUse && e.disk && e.band == b.slot
    | none => false
  if held = true ∨ s.rdc.writeStop = true then s
  else if b.rung7 || b.shortAllHeads then s.retireBand b
  else s.journal { s with rdc := s.rdc.setBand { b with state := .free } } false

/-- The live extents of a victim copied into the MOVE band; none where one finds no room. -/
def State.copyOut : List Extent → State → Option State
  | [], s => some s
  | e :: es, s =>
    match s.diskWrite false e.media e.sectors with
    | none => none
    | some (band, d, t) => State.copyOut es (t.setExt { e with band := band, sector := d })

/-- The victim (R328, R329). -/
def State.cleanVictim (s : State) : Option Band :=
  let closed := s.rdc.bands.filter fun b => b.state == .closed
  let out := s.srv.heads.filter fun h => !h.inService
  let hurt := if out.isEmpty then [] else closed.filter fun b => (s.extentsIn b.slot).any fun e => s.copyable e &&
    (List.range' e.sector e.sectors).any fun d => out.any fun (h : Head) => s.rdc.headOf b.slot (logicalSlot d) == some h.id
  match hurt with
  | b :: _ => some b
  | [] =>
    if s.rdc.freeSlots * 100 < s.rd Reg.RDC_CFG.CLEAN_START_PCT * s.rdc.slots then
      match closed with
      | [] => none
      | b :: bs =>
        let key := fun (b : Band) => s.bandLive b.slot
        some (bs.foldl (fun x y => if key y < key x ∨ (key y = key x ∧ y.slot < x.slot) then y else x) b)
    else none

/-- Clean one victim: its copies, one journal record, and the victim stale once it is empty. -/
def State.cleanBand (s : State) (b : Band) : State :=
  let s₀ := s.backUp
  match State.copyOut ((s.extentsIn b.slot).filter s.copyable) s₀ with
  | none => s
  | some t =>
    if (t.extentsIn b.slot).isEmpty then
      (s₀.journal { t with rdc := t.rdc.setBand { b with state := .stale } } false).mapSettled.count Reg.RDC.CLEANED 1
    else (s₀.journal t false).mapSettled

/-- One run of cleaning: stale bands are freed, then a victim is cleaned. -/
def State.clean (s : State) : State :=
  let t := (s.rdc.bands.filter fun b => b.state == .stale).foldl (fun (s : State) b => s.freeBand b) s
  let mand := decide (t.rdc.freeSlots * 100 < t.rdc.slots)
  let t := if mand && !t.rdc.cleanMand then t.raise Ev.RDC.CLEAN_MANDATORY else t
  let t := { t with rdc := { t.rdc with cleanMand := mand } }
  if t.diskAccepts then
    match t.cleanVictim with
    | some b => t.cleanBand b
    | none => t
  else t

def execBandCleaning (s : State) : Host.Outcome State Fault Refusal :=
  s.done (s.background .move s.rdc.cleanMand fun s => if s.srv.disk = 4 ∧ s.rdc.formatted then s.clean else s)

end Sys2Proof.Machine
end

