-- ==== Sys2Proof/Machine/Skp.lean ====
section
/-! DEFINITION. SKP frames and session timers (R142, R143, R148 to R162), and what a port answers by itself (R141,
R138). -/

namespace Sys2Proof.Machine

open Sys2Proof

/-! ## What a port takes (R140 to R142) -/

/-- Host ports carry frames: in service, in stalemate (R112) and in the drained state (R85). -/
def State.portsServe (s : State) (p : Nat) : Bool :=
  (match s.dev.phase with
   | .service => true
   | .drained _ => true
   | .stalemate => true
   | _ => false) && s.portExists p && (s.port p).up

/-- The tag of a frame is the one the port takes (R140). -/
def State.tagTaken (s : State) (vlan : Option Nat) : Bool :=
  if s.rdB Reg.NET_VLAN.VLAN_TAGGED then vlan == some (s.rd Reg.NET_VLAN.VID) else vlan == none

/-- The port takes the Ethernet frame of a datagram: its tag, its IP MTU, and its address, the port's own or a group
address (PRESUMED, log entry 70). -/
def State.framed (s : State) (d : Datagram) : Bool :=
  s.portsServe d.port && s.tagTaken d.vlan && decide (d.mtu ≤ 9000) &&
    (decide (d.dstMac.toNat = s.portMac d.port) || d.dstMac.getLsbD 40)

/-- The destination is the device's address of that protocol; address 0 disables the protocol (R141). -/
def State.addressed (s : State) (d : Datagram) : Bool :=
  let own := s.ownIp d.v6
  decide (own ≠ 0 ∧ d.dstIp.toNat = own)

/-- An IP datagram that R142 does not discard. -/
def State.takesIp (s : State) (d : Datagram) : Bool :=
  s.framed d && s.addressed d && (if d.v6 then !d.extHdr else !d.fragment && !d.options)

/-- A datagram that reaches SKP (R142). -/
def State.takesUdp (s : State) (d : Datagram) : Bool :=
  s.takesIp d && decide (d.dstPort = s.rd Reg.NET_UDP.SKP_PORT) &&
    (d.checksum == .good || (d.checksum == .zero && !d.v6))

/-! ## HELLO (R148 to R151) -/

/-- What a HELLO's body holds (Table 06-4). -/
structure Hello where
  keyId   : Nat
  cls     : Nat
  options : Nat
  nonce   : Bytes
  mac     : Bytes
  deriving DecidableEq, Repr

def helloOf (b : Bytes) : Hello := ⟨beAt b 0 2, beAt b 2 1, beAt b 3 1, sliceB b 4 16, sliceB b 20 16⟩

/-- Check 1 of Table 06-5 fails. -/
def helloBad (f : SkpFrame) : Bool :=
  let h := helloOf f.body
  decide (f.version ≠ 1) || decide (f.bodyLen ≠ 36) || decide (f.body.length ≠ 36) || decide (h.cls = 0) ||
    decide (3 < h.cls) || decide (2 ≤ h.options) || decide (4096 ≤ f.session)

def clsOf (c : Nat) : SessionClass := if c = 1 then .data else if c = 2 then .admin else .recovery

/-- The session table's key of a HELLO (Table 09-4). -/
def sessionKey (d : Datagram) : Nat :=
  (if d.v6 then d.srcIp.toNat else 0xFFFF * 2 ^ 32 + d.srcIp.toNat % 2 ^ 32) * 2 ^ 32 + d.srcPort % 2 ^ 16 * 2 ^ 16 +
    d.port % 8 * 2 ^ 13

/-- The session table forbids the class (R224); it is not consulted in stalemate. -/
def State.tableBars (s : State) (d : Datagram) (cls : Nat) : Bool × State :=
  if s.inStale then (false, s)
  else
    match s.searchFirst 1 (sessionKey d) with
    | (none, s) => (false, s)
    | (some (_, e), s) => (!e.data.testBit (cls - 1), s)

/-- Check 4 fails but for the session table. -/
def State.keyBars (s : State) (h : Hello) : Bool :=
  !(s.slot h.keyId).hostSession || (h.cls != 1 && h.keyId != 0) ||
    (h.options == 1 && !s.rdB Reg.SKP_CFG.SMALL_MTU_OK)

/-- Half-open sessions that a new HELLO ends, oldest first, so that HALF_OPEN_MAX holds (R151). -/
def State.evicted (s : State) : List Nat :=
  let hs := sortBy (fun a b => decide (a.opened ≤ b.opened)) (s.sessions.filter fun x => x.halfOpen)
  (hs.take (hs.length + 1 - s.rd Reg.SKP_CFG.HALF_OPEN_MAX)).map fun x => x.id

/-- The lowest free session ID. -/
def State.freeSession (s : State) : Option Nat := (List.range 4096).find? fun i => (s.session? i).isNone

/-- A session opened by a HELLO, its keys derived (R149). -/
def newSession (h : Hello) (d : Datagram) (f : SkpFrame) (key dev : Bytes) (id opened grant : Nat) : Session :=
  let k := kdf key (kdfFixed (beBytes 14 0x534B502073657373696F6E207631)
    (h.nonce ++ dev ++ beBytes 2 id ++ beBytes 1 h.cls) 576) 72
  { id := id, cls := clsOf h.cls, keySlot := h.keyId, smallMtu := h.options == 1, halfOpen := true, opened := opened
    closing := none, rxKey := sliceB k 0 32, txKey := sliceB k 32 32, rxSalt := sliceB k 64 4, txSalt := sliceB k 68 4
    high := 0, seen := [], inOrder := 0, ackHigh := 0x8000000000000000, ackSent := 0, creditSent := grant
    ackDue := false, nextSeq := 1, nextAckSeq := 0x8000000000000001, peerAck := 0, peerCredit := f.credit
    held := [], outbox := [], assembling := [], hostV6 := d.v6, hostIp := d.srcIp, hostPort := d.srcPort
    hostMac := d.srcMac, port := d.port }

/-- The HELLO_REPLY; its CMAC covers header, body and then the HOST_NONCE. -/
def helloReply (key dev hostNonce : Bytes) (id compat grant : Nat) : Bytes :=
  let head := skpHeader 0x02 id 0 0 grant 36 ++ dev ++ beBytes 2 compat ++ [0, 0]
  head ++ cmac key (head ++ hostNonce)

/-- A HELLO is answered from its own headers (R143). -/
def State.answerHello (s : State) (d : Datagram) (b : Bytes) (o : UdpHead → Output) : State :=
  s.sendOn d.port (o (s.udpTo d.port d.srcMac d.v6 d.srcIp d.srcPort b))

/-- The REFUSE datagram (Tables 06-2 and 06-4): SESSION, ACK_SEQ and CREDIT are 0 (log entry 158). -/
def refuseBytes (status : Nat) : Bytes := skpHeader 0x06 0 0 0 0 4 ++ beBytes 2 status ++ [0, 0]

/-- A HELLO is refused (R148, R150). -/
def State.refuse (s : State) (d : Datagram) (status : Nat) : State :=
  s.answerHello d (refuseBytes status) fun dest => .refuse dest (refuseBytes status)

/-- A HELLO that passed every check opens a session. -/
def State.openSession (s : State) (d : Datagram) (f : SkpFrame) (h : Hello) (key : Bytes) (id : Nat) : State :=
  let dev := s.draw 16
  let t := s.tookFree
  let x := newSession h d f key dev id t.cmd.nextOrder t.grant
  let t := { t.setSession x with cmd := { t.cmd with nextOrder := t.cmd.nextOrder + 1 } }
  let b := helloReply key dev h.nonce id (s.rd Reg.COMPAT_NOW.IN_FORCE) t.grant
  t.answerHello d b fun dest => .helloReply dest id b

/-- The checks of Table 06-5 in order. -/
def State.hello (s : State) (d : Datagram) (f : SkpFrame) : State :=
  let h := helloOf f.body
  if helloBad f then s.refuse d stBadField
  else
    match s.slotKey h.keyId with
    | none => s.refuse d stSlotEmpty
    | some key =>
      if s.noCipher then s.refuse d stInternal
      else if cmac key (skpHeader 0x01 f.session f.seq f.ackSeq f.credit f.bodyLen ++ f.body.take 20) ≠ h.mac then s.authFail
      else
        match s.tableBars d h.cls with
        | (bars, s) =>
          if bars ∨ s.keyBars h = true then s.refuse d stNotPermitted
          else if s.inStale ∧ h.cls ≠ 3 then s.refuse d stStalemate
          else if 4096 ≤ s.sessions.length - s.evicted.length then
            (s.report Ev.SKP.SESSIONS_FULL stBusy).refuse d stBusy
          else if !s.drbgOk then s.refuse d stEntropy
          else
            let t := s.evicted.foldl (fun (s : State) i => s.endSession i) s
            match t.freeSession with
            | some id => t.openSession d f h key id
            | none => t

def execHello (d : Datagram) (f : SkpFrame) (s : State) : Host.Outcome State Fault Refusal :=
  s.done (if s.takesUdp d then (s.wake Reg.WAKE_SRC.HOST_FRAME).hello d f else s)

/-! ## Fragments and messages (R158 to R161) -/

/-- A fragment as its header gives it (Table 06-6). -/
structure Fragment where
  kind   : Nat
  flags  : Nat
  tag    : Nat
  msgLen : Nat
  off    : Nat
  len    : Nat
  res    : Nat
  bytes  : Bytes
  deriving DecidableEq, Repr

def fragOf (b : Bytes) : Fragment :=
  ⟨beAt b 0 1, beAt b 1 1, beAt b 2 2, beAt b 4 4, beAt b 8 4, beAt b 12 2, beAt b 14 2, b.drop 16⟩

/-- MSG_LEN disagrees with the command header at the start of a message. -/
def headerDisagrees (msgLen : Nat) (b : Bytes) : Bool := decide (msgLen ≠ 32 + beAt b 6 2 + beAt b 8 4)

/-- What R160 refuses; a reserved bit of the fragment header or a KIND other than a command counts as such (log entry
71). `earlier` is the MSG_LEN of earlier fragments of the tag. -/
def fragBad (p : Nat) (earlier : Option Nat) (g : Fragment) : Bool :=
  decide (g.kind ≠ 1) || decide (g.flags ≠ 0) || decide (g.res ≠ 0) || decide (1023 < g.tag) ||
    decide (67109920 < g.msgLen) || decide (g.msgLen < 32) || decide (g.off % p ≠ 0) || decide (g.bytes.length ≠ g.len) ||
    decide (g.len = 0) || decide (p < g.len) || decide (g.msgLen < g.off + g.len) ||
    (decide (g.off + g.len ≠ g.msgLen) && decide (g.len ≠ p)) || (g.off == 0 && headerDisagrees g.msgLen g.bytes) ||
    (match earlier with
     | some n => decide (n ≠ g.msgLen)
     | none => false)

/-- A command message (Table 06-7). -/
def msgOf (b : Bytes) : CmdMsg :=
  let k := beAt b 6 2
  { opcode := beAt b 0 1, reserved := beAt b 1 1, flags := BitVec.ofNat 16 (beAt b 2 2), nsid := beAt b 4 2
    stamp := beAt b 12 8, param := sliceB b 20 12, key := sliceB b 32 k, value := b.drop (32 + k) }

/-- A power state that a POWER_STATE command names, as PARAM codes it (R74). -/
def CmdMsg.namesState (m : CmdMsg) (p : PowerMode) : Bool := m.opcode == 0x44 && beAt m.param 0 1 == p.code

/-- A command reaches admission: it reverses an entry under way, unless it names the state being entered (R79, R81). -/
def State.reach (s : State) (m : CmdMsg) : State :=
  match s.dev.entering with
  | some p => if m.namesState p then s else s.arrive Reg.WAKE_SRC.HOST_FRAME
  | none => s.arrive Reg.WAKE_SRC.HOST_FRAME

/-- A complete command waits in a receive queue, or completes with `BUSY_RETRY` where they are full (R161). As they fill,
the host ports send PAUSE (log entry 158). -/
def State.queueCmd (s : State) (c : QueuedCmd) : State :=
  let s := s.reach c.msg
  if 16384 ≤ s.cmd.queue.length then
    ((s.report Ev.CMD.QUEUE_FULL stBusy).dropEarly fun e => e == ⟨c.ctx, c.tag⟩ && (s.entry? e).isNone).respond ⟨c.ctx, c.tag⟩
      (doneWith stBusy 0 []) false
  else
    let t := { s with cmd := { s.cmd with queue := s.cmd.queue ++ [c] } }
    if t.cmd.queue.length = 16384 then t.pauseHosts 65535 else t

/-- Bytes held of a message. -/
def partBytes (ps : List (Nat × Bytes)) : Nat := ps.foldl (fun n p => n + p.2.length) 0

/-- The parts in order of their offsets. -/
def joinFrags (ps : List (Nat × Bytes)) : Bytes :=
  ((sortBy (fun a b => decide (a.1 ≤ b.1)) ps).map fun p => p.2).flatten

/-- The bytes of a message held without a gap from its start. -/
def prefixOf (ps : List (Nat × Bytes)) : Bytes :=
  (sortBy (fun a b => decide (a.1 ≤ b.1)) ps).foldl (fun b p => if p.1 = b.length then b ++ p.2 else b) []

/-- A live entry or a queued command has the tag. -/
def State.tagLive (s : State) (t : TagId) : Bool :=
  (s.entry? t).isSome || s.cmd.queue.any fun c => c.ctx == t.ctx && c.tag == t.tag

/-- A PUT, CAS or PART_PUT whose operand exceeds 4 MiB begins streaming before its message completes (R161): the map units
that its whole segments received so far fill are programmed in the STREAM stream (Table 11-3). -/
def State.streamPart (s : State) (t : TagId) (ps : List (Nat × Bytes)) : State :=
  let b := prefixOf ps
  let op := beAt b 0 1
  if (op = 2 ∨ op = 4 ∨ op = 0x0D) ∧ 4194304 < beAt b 8 4 ∧ s.dev.phase = .service ∧ s.tagLive t = false then
    s.streamEarly t (beAt b 4 2) (beAt b 6 2) (b.length - 32 - beAt b 6 2) (beAt b 8 4)
  else s

/-- A fragment is delivered; `reserved` says that its frame's SESSION has a reserved bit set (R20). One that is shorter than
its own header is dropped (log entry 158). -/
def State.deliver (s : State) (id : Nat) (reserved : Bool) (b : Bytes) : State :=
  match s.session? id with
  | none => s
  | some x =>
    let g := fragOf b
    if b.length < 16 then s
    else
      let t : TagId := ⟨.session id, g.tag⟩
      let cur := x.assembling.find? fun a => a.tag == g.tag
      let put := fun (a : Assembly) => s.setSession { x with assembling := putWhere (fun y => y.tag == g.tag) a x.assembling }
      match cur with
      | some ⟨_, _, _, true⟩ => s
      | _ =>
        if reserved || fragBad x.frag (cur.map fun a => a.msgLen) g then
          ((put ⟨g.tag, g.msgLen, [], true⟩).dropEarly fun e => e == t && s.tagLive e == false).respond t
            (doneWith stBadField 0 []) true
        else
          let old := match cur with
            | some a => a.parts
            | none => []
          let ps := if old.any fun p => p.1 == g.off then old else old ++ [(g.off, g.bytes)]
          if partBytes ps < g.msgLen then (put ⟨g.tag, g.msgLen, ps, false⟩).streamPart t ps
          else
            let s := s.setSession { x with assembling := dropWhere (fun y => y.tag == g.tag) x.assembling }
            (s.queueCmd ⟨.session id, x.cls, g.tag, msgOf (joinFrags ps)⟩).pumpAll

/-! ## Protected frames (R145, R146, R153 to R155) -/

/-- A frame of a session, well formed. -/
def frameOk (f : SkpFrame) : Bool :=
  decide (f.version = 1) && decide (f.body.length = f.bodyLen) && decide (f.tag.length = 16)

/-- Where the session's frames go from now on (R143). -/
def Session.moveTo (x : Session) (d : Datagram) : Session :=
  { x with hostV6 := d.v6, hostIp := d.srcIp, hostPort := d.srcPort, hostMac := d.srcMac, port := d.port }

/-- The session that a frame names: bits [11:0] of SESSION (Table 06-2). -/
def sidOf (f : SkpFrame) : Nat := f.session % 4096

/-- The session ends where the host's next SEQ would leave its space (R146). -/
def State.hostSpent (s : State) (id next limit : Nat) : State := if limit ≤ next then s.endSession id else s

/-- A DATA-space frame: the checks of R153, then `go` with its plain body. -/
def State.takeData (s : State) (type : Nat) (d : Datagram) (f : SkpFrame) (go : State → Bytes → State) : State :=
  match s.session? (sidOf f) with
  | none => s
  | some x =>
    match x.check type f with
    | .replay => (s.setSession { x with ackDue := true }).count Reg.SKP.REPLAY_DROP 1
    | .beyondCredit => s.count Reg.SKP.CREDIT_DROP 1
    | .badTag => (s.cipher 0 f.bodyLen).authFail
    | .body b =>
      let t := (s.setSession ((x.accept (type == 0x03) f.seq).moveTo d)).cipher 0 f.bodyLen
      (go (t.takeAck (sidOf f) f.ackSeq f.credit []) b).hostSpent (sidOf f) (f.seq + 1) (2 ^ 63)

def execData (d : Datagram) (f : SkpFrame) (s : State) : Host.Outcome State Fault Refusal :=
  s.done (if s.takesUdp d ∧ frameOk f = true then
      (s.wake Reg.WAKE_SRC.HOST_FRAME).takeData 0x03 d f fun s b =>
        s.deliver (sidOf f) (decide (4096 ≤ f.session)) b
    else s)

/-- A CLOSE is taken: the session ends once it has been acknowledged (R152). -/
def State.takeClose (s : State) (id seq : Nat) : State :=
  match s.session? id with
  | some x => s.setSession { x with closing := some seq }
  | none => s

def execClose (d : Datagram) (f : SkpFrame) (s : State) : Host.Outcome State Fault Refusal :=
  s.done (if s.takesUdp d ∧ frameOk f = true then
      (s.wake Reg.WAKE_SRC.HOST_FRAME).takeData 0x05 d f fun s _ => s.takeClose (sidOf f) f.seq
    else s)

/-- An ACK frame: accepted above every ACK-space SEQ before it, its tag correct (R153, R155). -/
def State.takeAckFrame (s : State) (d : Datagram) (f : SkpFrame) : State :=
  match s.session? (sidOf f) with
  | none => s
  | some x =>
    if f.seq ≤ x.ackHigh ∨ f.bodyLen ≠ 128 then s
    else
      match gcmDec x.rxKey (x.rxSalt ++ beBytes 8 f.seq)
          (skpHeader 0x04 f.session f.seq f.ackSeq f.credit f.bodyLen) f.body f.tag with
      | none => (s.cipher 0 f.bodyLen).authFail
      | some map =>
        let y := { x.moveTo d with ackHigh := f.seq, halfOpen := false }
        (((s.setSession y).cipher 0 f.bodyLen).takeAck (sidOf f) f.ackSeq f.credit map).hostSpent (sidOf f) (f.seq + 1) (2 ^ 64)

def execAck (d : Datagram) (f : SkpFrame) (s : State) : Host.Outcome State Fault Refusal :=
  s.done (if s.takesUdp d ∧ frameOk f = true then (s.wake Reg.WAKE_SRC.HOST_FRAME).takeAckFrame d f else s)

/-! ## Session timers -/

/-- 20 µs have passed since a frame was accepted and no DATA frame has carried its acknowledgement. A session whose next
SEQ has left its space ends here (R146; log entry 136). -/
def State.ackNow (s : State) (id : Nat) : State :=
  match s.session? id with
  | none => s
  | some x =>
    if x.ackDue && !s.paused x.port then
      let t := s.sendAck x
      if x.closing.isSome || { x with nextAckSeq := x.nextAckSeq + 1 }.spent then t.endSession id else t
    else s

def execAckDelayExpiry (session : Nat) (s : State) : Host.Outcome State Fault Refusal := s.done (s.ackNow session)

/-- A held frame's timer expires: it is sent again, or the session ends after the sixteenth sending (R152, R156). -/
def State.retransmit (s : State) (id seq : Nat) : State :=
  match s.session? id with
  | none => s
  | some x =>
    match x.held.find? fun h => h.seq == seq with
    | none => s
    | some h =>
      if 16 ≤ h.sent then (s.raise Ev.SKP.RETX_END).endSession id
      else
        let held := updWhere (fun y => y.seq == seq) (fun y => { y with sent := y.sent + 1 }) x.held
        let t := (s.stir).setSession { x with held := held }
        (t.sendFrames x [(seq, h.bytes)]).count Reg.SKP.RETX 1

def execRetransmissionTimer (session seq : Nat) (s : State) : Host.Outcome State Fault Refusal :=
  s.done (s.retransmit session seq)

/-- End a session for which a condition holds. -/
def State.endIf (s : State) (id : Nat) (p : Session → Bool) : State :=
  match s.session? id with
  | some x => if p x then s.endSession id else s
  | none => s

def execHalfOpenExpiry (session : Nat) (s : State) : Host.Outcome State Fault Refusal :=
  s.done (s.endIf session fun x => x.halfOpen)

/-- No outstanding tag, no held frame, and SESSION_IDLE seconds without a frame from the host. -/
def execSessionIdle (session : Nat) (s : State) : Host.Outcome State Fault Refusal :=
  s.done (s.endIf session fun x => decide (s.rd Reg.SKP_CFG.SESSION_IDLE ≠ 0) && x.held.isEmpty && x.outbox.isEmpty &&
    !(s.cmd.tags.any fun e => e.id.ctx == .session session) && !(s.cmd.queue.any fun c => c.ctx == .session session))

/-- 60 s without an authenticated frame while frames are held. -/
def State.retxEnd (s : State) (id : Nat) : State :=
  match s.session? id with
  | some x => if x.held.isEmpty then s else (s.raise Ev.SKP.RETX_END).endSession id
  | none => s

def execRetxEnd (session : Nat) (s : State) : Host.Outcome State Fault Refusal := s.done (s.retxEnd session)

def execCloseTimeout (session : Nat) (s : State) : Host.Outcome State Fault Refusal :=
  s.done (s.endIf session fun x => x.closing.isSome)

/-! ## What a port answers by itself (R138, R141) -/

/-- The MAC and transport data paths run: not in SLEEP (R139). -/
def State.portAwake (s : State) : Bool := s.dev.power != .sleep

def execArpRequest (d : Datagram) (s : State) : Host.Outcome State Fault Refusal :=
  s.done (if s.portAwake ∧ s.framed d = true ∧ !d.v6 ∧ s.addressed d = true then
      s.sendOn d.port (.arpReply (s.ethTo d.port d.srcMac) d.dstIp)
    else s)

/-- A neighbour solicitation is answered, but one with an extension header is discarded (R142). -/
def execNeighbourSolicitation (d : Datagram) (s : State) : Host.Outcome State Fault Refusal :=
  s.done (if s.portAwake ∧ d.v6 ∧ s.takesIp d = true then
      s.sendOn d.port (.neighbourAdvert (s.ethTo d.port d.srcMac) d.dstIp)
    else s)

def State.setPort (s : State) (p : Nat) (x : Port) : State := { s with ports := s.ports.set p x }

/-- An echo request, answered at most 100 times in each whole second of the device's clock, per port (R141; the second is
fixed and not sliding: log entry 158). -/
def State.echo (s : State) (d : Datagram) (payload : Bytes) : State :=
  let x := s.port d.port
  let now := s.dev.clockMs / 1000
  let n := if x.echoSecond = now then x.echoCount else 0
  if n < 100 then
    (s.setPort d.port { x with echoSecond := now, echoCount := n + 1 }).sendOn d.port
      (.echoReply (s.ipTo d.port d.srcMac d.v6 d.srcIp) payload)
  else s

def execEchoRequest (d : Datagram) (payload : Bytes) (s : State) : Host.Outcome State Fault Refusal :=
  s.done (if s.portAwake ∧ s.takesIp d = true then s.echo d payload else s)

/-- Frames that waited for a port go out, those already made first. -/
def State.pumpPort (s : State) (p : Nat) : State :=
  let t := (s.portQueue.filter fun x => x.1 == p).foldl (fun s x => s.emit x.2)
    { s with portQueue := s.portQueue.filter fun x => x.1 != p }
  ((t.sessions.filter fun x => x.port == p).map fun x => x.id).foldl (fun (s : State) i => s.pump i) t

/-- A PAUSE frame obeyed while PAUSE_EN is 1; a quanta of 0 ends the pause. -/
def State.pausePort (s : State) (p quanta : Nat) : State :=
  if s.rdB Reg.NET_PORTMODE.PAUSE_EN ∧ s.portsServe p = true then
    let t := s.setPort p { s.port p with pauseQuanta := quanta % 65536 }
    if quanta % 65536 = 0 then t.pumpPort p else t
  else s

def execPause (port quanta : Nat) (s : State) : Host.Outcome State Fault Refusal := s.done (s.pausePort port quanta)

end Sys2Proof.Machine
end

