-- ==== Sys2Proof/Machine/Admit.lean ====
section
/-! DEFINITION. Admission (R163, R164): the checks of Table 07-1 in their order on a command that reaches admission, its
ASN and tag-table entry, and the stamps of R180. -/

namespace Sys2Proof.Machine

open Sys2Proof

/-! ## The opcodes (Tables 07-2, 07-4, 07-5) -/

def dataOpcodes : List Nat := [0x01, 0x02, 0x03, 0x04, 0x05, 0x06, 0x07, 0x08, 0x09, 0x0A, 0x0B, 0x0C, 0x0D, 0x0E, 0x10, 0x11, 0x12]
def adminOpcodes : List Nat :=
  [0x40, 0x41, 0x42, 0x44, 0x45, 0x48, 0x49, 0x4A, 0x4B, 0x50, 0x51, 0x52, 0x58, 0x59, 0x60, 0x61, 0x62, 0x63, 0x64, 0x65,
   0x66, 0x70, 0x71, 0x72]

/-- Opcodes that a data session may issue beside the data opcodes (R167, R422, R438). -/
def openAdmin : List Nat := [0x42, 0x62, 0x70, 0x72]

/-- What R112 allows in stalemate. -/
def staleOpcodes : List Nat := [0x45, 0x48, 0x49, 0x4A, 0x4B, 0x62]

/-- Whether an opcode takes a key: 0 no, 1 yes, 2 at choice. -/
def keyUse (op : Nat) : Nat :=
  if [1, 2, 3, 4, 5, 8, 0x0C].contains op then 1 else if op = 0x10 ∨ op = 0x12 then 2 else 0

/-- Flags of an opcode (Table 07-4; SUPERSEDE by R438). -/
def flagsOf (op : Nat) : Nat :=
  (if op = 0x0B then 0 else 1) + (if [2, 3, 4, 8, 9, 0x0D, 0x0E].contains op then 2 else 0) +
    (if op = 2 ∨ op = 0x0E then 4 else 0) + (if op = 0x60 then 8 else 0) + (if op = 6 ∨ op = 7 then 48 else 0)

/-- The greatest operand of an opcode; `dist` in a distribution namespace. -/
def valueLimit (op : Nat) (dist : Bool) : Nat :=
  match op with
  | 0x02 => if dist then 4194304 else 67108864
  | 0x04 => 67108864
  | 0x06 => 2052
  | 0x07 => 2052
  | 0x08 => 4194304
  | 0x09 => 67108864
  | 0x0D => 67108864
  | 0x40 => 64
  | 0x4A => 16128
  | 0x50 => 67108864
  | 0x51 => 67108864
  | 0x58 => 16777216
  | 0x60 => 64
  | 0x61 => 65536
  | 0x71 => 6
  | 0x72 => 4195360
  | _ => 0

/-! ## Checks that the command alone decides -/

/-- A range operand's faults (R172): it does not fill VALUE_LEN, or its start lies above its end. -/
def rangeBad (m : CmdMsg) : Bool :=
  let r := m.range
  decide (m.value.length < 4) || decide (m.value.length ≠ 4 + leAt m.value 0 2 + leAt m.value 2 2) ||
    (!r.lo.isEmpty && !r.hi.isEmpty && bytesLt r.hi r.lo)

/-- The fields of one BATCH entry are invalid (R173): OP, the flags of its OP, and its lengths. -/
def batchFieldBad (op flags klen vlen expect : Nat) : Bool :=
  decide (op < 2) || decide (4 < op) || decide (4 ≤ flags) || (flags % 2 == 1 && op != 2) || (decide (2 ≤ flags) && op != 4) ||
    decide (klen = 0) || decide (1024 < klen) || (op == 3 && vlen != 0) || (op != 4 && expect != 0) || decide (vlen < expect) ||
    (decide (2 ≤ flags) && expect != 0)

/-- The index of the lowest BATCH entry at fault, 0xFFFF where the entries end short of VALUE_LEN. -/
def batchFault : Nat → Nat → List Bytes → Bytes → Option Nat
  | 0, _, _, b => if b.isEmpty then none else some 0xFFFF
  | n + 1, i, keys, b =>
    let k := leAt b 2 2
    let v := leAt b 4 4
    let key := sliceB b 12 k
    if b.length < 12 ∨ batchFieldBad (leAt b 0 1) (leAt b 1 1) k v (leAt b 8 4) = true ∨ b.length < 12 + k + v ∨
        keys.contains key = true then some i
    else batchFault n (i + 1) (key :: keys) (b.drop (12 + k + v))

/-- Entry keys and operands of a BATCH, in bytes. -/
def batchBytes (m : CmdMsg) : Nat := m.batch.foldl (fun n e => n + e.key.length + e.operand.length) 0

/-- An inner command message of FAB_FORWARD (R424): none where its lengths do not make a message. -/
def innerOf (m : CmdMsg) : Option CmdMsg :=
  let b := m.value
  if b.length < 32 ∨ b.length ≠ 32 + beAt b 6 2 + beAt b 8 4 then none else some (msgOf b)

/-- A PARAM or operand that breaks its layout (Tables 07-2 and 07-5 and the chapters they name). -/
def fieldBad (m : CmdMsg) : Bool :=
  let p := m.param
  let zero := fun (off : Nat) => allZero (p.drop off)
  match m.opcode with
  | 0x04 =>
    !zero 5 || decide (2 ≤ beAt p 4 1) || decide (m.value.length < beAt p 0 4) || (beAt p 4 1 == 1 && beAt p 0 4 != 0)
  | 0x05 => false
  | 0x06 => !zero 4 || rangeBad m
  | 0x07 =>
    decide (2 < beAt p 6 1) || decide (8 ≤ beAt p 7 1) || decide (beAt p 10 2 < beAt p 8 2) || decide (4095 < beAt p 10 2) ||
      rangeBad m
  | 0x09 => !zero 2 || decide (256 < beAt p 0 2) || (batchFault (beAt p 0 2) 0 [] m.value).isSome
  | 0x0B => !zero 4 || decide (4096 ≤ beAt p 0 2) || decide (m.nsid ≠ 0)
  | 0x0C =>
    !zero 9 || decide (beAt p 8 1 = 0) || decide (64 < beAt p 8 1) || decide (1048576 < partCount (beAt p 0 8) (beAt p 8 1))
  | 0x0D => false
  | 0x0E => !zero 8
  | 0x10 =>
    decide (4095 < beAt p 0 2) || decide (2 ≤ beAt p 8 1) || !zero 9 || (!m.key.isEmpty && beAt p 6 2 != 0)
  | 0x11 => !zero 2
  | 0x12 => !zero 4
  | 0x40 => !zero 0 || (decide (m.value.length ≤ 64) && !descriptorOk m.value)
  | 0x44 => !zero 1 || decide (4 < beAt p 0 1)
  | 0x48 => !zero 6
  | 0x49 => false
  | 0x4A => !zero 0 || decide (m.value.length < 16128)
  | 0x50 => provisionBad p m.value.length
  | 0x51 => eraseBad p m.value.length
  | 0x52 => !zero 8
  | 0x58 => !zero 3 || decide (beAt p 2 1 = 0) || decide (2 < beAt p 2 1) || decide (beAt p 0 2 = 0) || decide (255 < beAt p 0 2)
  | 0x59 => false
  | 0x60 =>
    !zero 3 || decide (2 ≤ beAt p 2 1) || decide (m.value.length < 64) || !allZero (sliceB m.value 57 7)
  | 0x61 => m.value.isEmpty
  | 0x63 => !zero 4
  | 0x64 => !zero 4
  | 0x66 => !zero 1 || decide (beAt p 0 1 = 0) || decide (2 < beAt p 0 1)
  | 0x70 => !zero 3 || decide (2 ≤ beAt p 0 1) || (beAt p 0 1 == 0 && beAt p 1 2 != 0)
  | 0x71 => !zero 5 || decide (beAt p 0 1 = 0) || decide (3 < beAt p 0 1) || decide (2 ≤ beAt p 1 1)
  | 0x72 =>
    !zero 2 || (match innerOf m with
      | some i => [0x72, 0x0B, 0x45].contains i.opcode
      | none => decide (m.value.length ≤ 4195360))
  | _ => !zero 0

/-- The BATCH index that a refusal at check 5 carries. -/
def batchParam (m : CmdMsg) : Bytes :=
  if m.opcode = 9 then
    match batchFault (beAt m.param 0 2) 0 [] m.value with
    | some i => beBytes 2 i
    | none => []
  else []

/-- Every admin command but those of R175 carries NSID 0. -/
def nsidFixed (m : CmdMsg) : Bool :=
  adminOpcodes.contains m.opcode && !([0x40, 0x41, 0x42].contains m.opcode || (m.opcode == 0x71 && beAt m.param 0 1 == 3))

/-- A write of a STAMPED namespace that carries a stamp (R179); FLUSH may. -/
def stampedWrite (op : Nat) : Bool := [2, 3, 4, 9, 0x0E].contains op

/-- STAMP is not allowed, or is missing (R179). Commands of namespace 0 and the NS opcodes carry 0 (log entry 80). -/
def stampBad (n : Option Ns) (m : CmdMsg) : Bool :=
  match n with
  | some n =>
    if n.stamped then
      if m.stamp = 0 then stampedWrite m.opcode
      else !(stampedWrite m.opcode || m.reads || m.opcode == 0x0A)
    else m.stamp != 0
  | none => m.stamp != 0 && (m.nsid == 0 || decide (0x40 ≤ m.opcode))

/-! ## The checks in order -/

/-- Kinds that take an opcode (Table 07-2, R396). -/
def kindTakes (k : NsKind) (op : Nat) : Bool :=
  match k with
  | .mutable_ => !([8, 0x10, 0x11, 0x12].contains op)
  | .sealed => [1, 5, 6, 7, 8, 0x0A, 0x10, 0x11, 0x12].contains op
  | .distribution => [1, 2, 3, 5, 6, 0x0A].contains op

/-- Checks 1 to 5. -/
def State.early (s : State) (c : QueuedCmd) (live : Bool) : Option Nat :=
  let m := c.msg
  let admin := adminOpcodes.contains m.opcode
  let n := if admin then none else s.ns? m.nsid
  if s.inStale ∧ (c.cls ≠ .recovery ∨ !staleOpcodes.contains m.opcode) then some stStalemate
  else if live then some stTagInUse
  else if !admin ∧ !dataOpcodes.contains m.opcode then some stBadOpcode
  else if c.cls = .data ∧ admin ∧ !openAdmin.contains m.opcode then some stNotPermitted
  else if [0x70, 0x71, 0x72].contains m.opcode ∧ !s.fabric then some stNotPermitted
  else if decide (m.reserved ≠ 0) || decide (4096 ≤ m.nsid) || decide (m.flags.toNat &&& flagsOf m.opcode ≠ m.flags.toNat) ||
      (keyUse m.opcode == 0 && !m.key.isEmpty) || (nsidFixed m && decide (m.nsid ≠ 0)) || fieldBad m ||
      stampBad (if admin then none else n) m ||
      (match c.ctx with
       | .forward _ => decide (m.stamp ≠ 0)
       | _ => false) then some stBadField
  else none

/-- Checks 6 and 7. -/
def State.lengths (s : State) (m : CmdMsg) : Option Nat :=
  let dist := match s.ns? m.nsid with
    | some n => decide (n.kind = .distribution) && !adminOpcodes.contains m.opcode
    | none => false
  let k := m.key.length
  let need := keyUse m.opcode
  if (need == 1 && decide (k = 0)) || decide (1024 < k) || (decide (need ≠ 0) && dist && decide (k ≠ 32)) ||
      (m.opcode == 0x10 && decide (k = 0) && beAt m.param 6 2 == 0) ||
      ((m.opcode == 6 || m.opcode == 7) && (decide (1024 < leAt m.value 0 2) || decide (1024 < leAt m.value 2 2))) then
    some stBadKeyLen
  else if (m.opcode != 0x59 && decide (valueLimit m.opcode dist < m.value.length)) || (m.opcode == 5 && decide (67108864 < beAt m.param 8 4)) ||
      (m.opcode == 0x0C && decide (2 ^ 40 < beAt m.param 0 8)) || (m.opcode == 9 && decide (4194304 < batchBytes m)) ||
      (m.opcode == 0x58 && beAt m.param 2 1 == 2 && !m.value.isEmpty) then some stBadValueLen
  else none

/-- Checks 8 and 9: the namespace, and its kind. -/
def State.place (s : State) (c : QueuedCmd) : Option Nat :=
  let m := c.msg
  let op := m.opcode
  if op = 0x40 then
    if m.nsid = 0 then some stBadField else if (s.ns? m.nsid).isSome then some stKeyExists else none
  else if op = 0x41 ∨ op = 0x42 ∨ (op = 0x71 ∧ beAt m.param 0 1 = 3) then
    if m.nsid = 0 ∧ op = 0x41 then some stBadField else if (s.ns? m.nsid).isNone then some stNsUnknown else none
  else if op = 0x72 then
    match innerOf m with
    | some i => if c.cls = .data ∧ adminOpcodes.contains i.opcode then some stNotPermitted else none
    | none => none
  else if 0x40 ≤ op ∨ op = 0x0B then none
  else if s.fab.pulls.any fun x => x.1 == m.nsid then some stBusy
  else if m.nsid = 0 then
    if op = 0x0A then none
    else if [1, 2, 3].contains op then
      if m.key.length = 1 ∧ 32 ≤ m.page ∧ m.page ≤ 63 then none else some stBadField
    else some stNotPermitted
  else
    match s.ns? m.nsid with
    | none => some stNsUnknown
    | some n =>
      if !kindTakes n.kind op then
        if n.kind = .sealed ∧ [2, 3, 4, 9, 0x0C, 0x0D, 0x0E].contains op then some stSealed else some stNotPermitted
      else if n.copyOf.isSome && (stampedWrite op || [8, 0x0C, 0x0D, 0x12].contains op) then some stNotPermitted
      else none

/-- The keys of a stamped write. -/
def State.stampKeys (s : State) (m : CmdMsg) : List Bytes :=
  match s.span m with
  | (.keys l, _) => l
  | _ => []

/-- Check 10: R180, for writes applied and for those admitted and not yet applied, and the stamped reads of R202. -/
def State.stampFails (s : State) (c : QueuedCmd) : Bool :=
  let m := c.msg
  let sid := tagSess ⟨c.ctx, c.tag⟩
  match s.ns? m.nsid with
  | none => false
  | some n =>
    if !n.stamped || m.stamp = 0 || decide (0x40 ≤ m.opcode) then false
    else if m.reads then decide (m.stamp < n.horizon)
    else
      let own := match n.latest.find? fun p => p.1 == sid with
        | some p => p.2
        | none => 0
      decide (m.stamp < max own n.horizon) ||
        ((s.stampKeys m).any fun k => (n.recs k).any fun r => r.stamp == m.stamp && r.session == sid) ||
        s.cmd.tags.any fun e => e.before && e.msg.nsid == m.nsid && e.msg.stamp == m.stamp && tagSess e.id == sid &&
          stampedWrite e.msg.opcode && (s.stampKeys e.msg).any fun k => (s.stampKeys m).contains k

/-- Check 11: the tag table is full, or a source holds 1,024 forwarded commands (R424). -/
def State.noEntry (s : State) (c : QueuedCmd) : Bool :=
  decide (65536 ≤ s.cmd.tags.length) ||
    (match c.ctx with
     | .forward src => decide (1024 ≤ (s.cmd.tags.filter fun e => e.id.ctx == .forward src).length)
     | _ => false)

/-- The first check of Table 07-1 that fails, with the completion's PARAM. -/
def State.refusal (s : State) (c : QueuedCmd) : Option (Nat × Bytes) :=
  let cam := if c.msg.opcode = 0x59 then s.camCheck c.msg.value (camCmd c.msg.param) false else none
  match s.early c (s.entry? ⟨c.ctx, c.tag⟩).isSome with
  | some st => some (st, if st = stBadField then batchParam c.msg else [])
  | none =>
    match (s.lengths c.msg).or (cam.or (s.place c)) with
    | some st => some (st, [])
    | none =>
      if s.stampFails c then some (stStampConflict, [])
      else if s.noEntry c then some (stBusy, [])
      else none

/-! ## Admission -/

/-- The stamp of an admitted stamped write is the session's latest; H follows (R180). -/
def State.noteStamp (s : State) (c : QueuedCmd) : State :=
  let m := c.msg
  match s.ns? m.nsid with
  | none => s
  | some n =>
    if !n.stamped || decide (0x40 ≤ m.opcode) then s
    else
      let sid := tagSess ⟨c.ctx, c.tag⟩
      let writes := (stampedWrite m.opcode || m.opcode == 0x0A) && m.stamp != 0
      let isOpen := match c.ctx with
        | .session id => (s.session? id).isSome
        | _ => false
      let n := if writes then { n with highest := max n.highest m.stamp } else n
      let old := match n.latest.find? fun p => p.1 == sid with
        | some p => p.2
        | none => 0
      let n := if writes && isOpen then
          { n with latest := putWhere (fun p => p.1 == sid) (sid, max old m.stamp) n.latest } else n
      (s.setNs n.advance).sweepPriors m.nsid

/-- The sequence number an unlisted space comes next to (R250): 1. -/
def oneNat (_ : Nat) : Nat := 1

/-- The image version that a SCAN or WATCH_ARM uses: the one current at admission (R250, R253). -/
def State.versionFor (s : State) (m : CmdMsg) : Nat :=
  let id := if m.opcode = 7 then beAt m.param 4 2 else if m.opcode = 0x10 then beAt m.param 2 2 else 0
  match s.image? id with
  | some i => i.version
  | none => 0

/-- The namespace in whose series a command takes its ASN (R164). -/
def CmdMsg.asnSpace (m : CmdMsg) : Nat := if m.opcode = 0x0B then 0 else m.nsid

/-- A command is admitted: its ASN and its tag-table entry. -/
def State.admitted (s : State) (c : QueuedCmd) : State :=
  let sp := c.msg.asnSpace
  let asn := SMap.get oneNat s.cmd.nextAsn sp
  let e : TagEntry :=
    { id := ⟨c.ctx, c.tag⟩, cls := c.cls, state := .admitted, msg := c.msg, asn := asn, order := s.cmd.nextOrder
      version := s.versionFor c.msg, result := none, seqNo := none, stepTime := 0, classed := []
      mirrors := [], degraded := false, media := false, purging := none }
  let cmd := { s.cmd with tags := s.cmd.tags ++ [e], nextAsn := SMap.set oneNat sp (asn + 1) s.cmd.nextAsn,
                          nextOrder := s.cmd.nextOrder + 1 }
  let t := { s with cmd := cmd }.count64 Reg.CMD_ADMIT_LO.ADMITTED_LO Reg.CMD_ADMIT_HI.ADMITTED_HI 0 1
  let t := t.noteStamp c
  if t.dev.resetBusy then t.finish e stResetAborted [] else t

/-- A command that reaches admission. A REG_WRITE refused here is captured on its page like any other (R118). -/
def State.takeCommand (s : State) (c : QueuedCmd) : State :=
  match s.refusal c with
  | none => s.admitted c
  | some (st, p) =>
    let s := if st = stBusy ∧ 65536 ≤ s.cmd.tags.length then s.report Ev.CMD.TAGS_FULL stBusy else s
    let s := s.dropEarly fun t => t == ⟨c.ctx, c.tag⟩ && s.tagLive t == false
    let s := if c.msg.opcode = 0x49 then s.refuseWrite (beAt c.msg.param 0 4) st else s
    s.respond ⟨c.ctx, c.tag⟩ (doneWith st 0 p) false

/-- Admission takes commands: in service or stalemate, and not while an activation pauses it (R85, R189). -/
def State.admits (s : State) : Bool :=
  (s.dev.phase == .service || s.dev.phase == .stalemate) && !s.cmd.paused

/-- The first command of the receive queues is admitted. -/
def State.admitFront (s : State) : State :=
  match s.cmd.queue with
  | [] => s
  | c :: cs =>
    let t := { s with cmd := { s.cmd with queue := cs } }
    (if cs.length = 16383 then t.pauseHosts 0 else t).takeCommand c

def execReceiveQueueAdmission (s : State) : Host.Outcome State Fault Refusal :=
  s.done (if s.admits then s.admitFront else s)

end Sys2Proof.Machine
end

