-- ==== Sys2Proof/Machine/FabLink.lean ====
section
/-! DEFINITION. Fabric links (R403 to R409): tethers and link states, training, flits and retries, the router island of
R82, and the sled map. -/

namespace Sys2Proof.Machine

open Sys2Proof

/-! ## Tethers (R406 to R408) -/

/-- The state that a link takes (Table 17-4). The first row compares with an address in force; an isolated link stays so
until it trains again (Table 17-10); a device that is itself unjoined or in stalemate holds its links LOCAL (R431). -/
def State.linkState (s : State) (l : Link) (p : Tether) : Nat :=
  let odd := (p.addrValid && s.fab.addrValid && decide (p.addr / 16 ≠ s.fab.addr / 16)) ||
    decide (p.slot ≠ neighbourSlot s.ownSlot l.id) || decide (p.link ≠ oppositeLink l.id)
  if odd || l.state == 5 then 5
  else if p.stalemate || p.unjoined || s.unjoined || s.inStale then 4
  else if p.keyCheck = 0 ∨ p.keyCheck ≠ s.keyCheck then 3
  else 2

/-- A keeper record held for a link. -/
def State.keeperFor (s : State) (link : Nat) : Option KeeperRec :=
  (s.fab.keepers.find? fun x => x.1 == link).map fun x => x.2

/-- Step 1 of Table 17-11: the record is offered once to a neighbour that qualifies. -/
def State.offerKeeper (s : State) (link : Nat) (p : Tether) : State :=
  let l := s.link link
  match s.keeperFor link with
  | none => s
  | some k =>
    if p.unjoined ∧ p.slot = neighbourSlot s.ownSlot link ∧ p.serial ≠ k.serial ∧ l.keeperSeen + 3000 ≤ s.dev.clockMs ∧
        s.rdB Reg.FAB_CFG.INHERIT_EN ∧ s.dev.phase = .service ∧ l.state = 4 ∧ !l.offered then
      (s.setLink { l with offered := true }).fabTell ⟨Config.floodDst 0x12, 0x12, some link, 0⟩ (.keeper k)
    else s

/-- A pull of a namespace that the predecessor originated is asked for, unless it is already: of the member whose turn it is,
since the record does not say which is IN_SYNC (log entry 97). -/
def State.askPull (s : State) (p : Nat × Nat × Nat) : State :=
  if s.fab.outMsgs.any fun o => o.ftype == 0x07 && o.nsid == p.1 then s
  else
    match s.fab.sets.find? fun x => x.1 == p.2.1 with
    | some (_, _, addrs) =>
      match addrs[p.2.2 % addrs.length]? with
      | some a => s.fabRequest a 0x07 (.resync p.1 0 false false [] [] []) none p.1 0
      | none => s
    | none => s

/-- A pull that its member refused or did not answer goes to the next member. -/
def State.pullElsewhere (s : State) (nsid : Nat) : State :=
  let next := fun (p : Nat × Nat × Nat) => (p.1, p.2.1, p.2.2 + 1)
  let s := { s with fab := { s.fab with pulls := updWhere (fun x => x.1 == nsid) next s.fab.pulls } }
  match s.fab.pulls.find? fun x => x.1 == nsid with
  | some p => s.askPull p
  | none => s

/-- Sets, bindings and the copy list of an inherited record are restored once a link is TRUSTED (step 4 of Table 17-11); the
namespaces that the predecessor originated are pulled (step 5), again after a reset that cut the pull off. -/
def State.restoreInherited (s : State) : State :=
  let s := match s.fab.inherited with
    | none => s
    | some k =>
      let mine := fun (x : Nat × Nat) => !(s.kv.namespaces.any fun n => n.nsid == x.1)
      let f := { s.fab with sets := k.sets, inherited := none, pulls := k.binds.map fun (b : Nat × Nat) => (b.1, b.2, 0),
                            copies := k.copies.filter mine }
      { s with fab := f }.sendKeepers
  s.fab.pulls.foldl (fun (s : State) p => s.askPull p) s

/-- What follows from the state that a link takes: its events, the neighbour's slot and the sled map. -/
def State.enterLinkState (s : State) (link old new_ : Nat) (p : Tether) (wasStale : Bool) : State :=
  let s := if new_ = 5 ∧ old ≠ 5 then s.raiseI Ev.FAB_I.WIRING_FAULT link else s
  let s := if new_ = 3 ∧ old ≠ 3 then s.raiseI Ev.FAB_I.KEY_MISMATCH link else s
  let s := if new_ = 4 ∧ p.stalemate ∧ !wasStale then s.raiseI Ev.FAB_I.NEIGH_STALEMATE link else s
  let s := if new_ ≠ 2 then s.slotAbsent p.slot else s
  let s := if new_ = 2 then s.restoreInherited else s
  if (new_ = 2) ≠ (old = 2) then s.floodOwn else s

/-- A valid tether. -/
def State.takeTether (s : State) (link : Nat) (p : Tether) : State :=
  let l := s.link link
  let wasStale := match l.neigh with
    | some t => t.stalemate
    | none => false
  let seen := match s.keeperFor link with
    | some k => if k.serial = p.serial then s.dev.clockMs else l.keeperSeen
    | none => l.keeperSeen
  let l := { l with neigh := some p, good := min 3 (l.good + 1), quietPeer := p.quiet, keeperSeen := seen }
  if l.isUp then
    let n := s.linkState l p
    let s := (s.setLink { l with state := n, offered := l.offered && p.unjoined }).enterLinkState link l.state n p wasStale
    (s.offerKeeper link p).pumpLink link
  else if l.good = 3 then
    let n := s.linkState { l with state := 0 } p
    let l := { l with state := n, credit0 := 128, credit1 := 128 }
    let s := (s.setLink l).raiseI Ev.FAB_I.LINK_UP link
    ((s.enterLinkState link 0 n p false).sendKeeper l).offerKeeper link p
  else s.setLink l

/-- TETHER (R407, R408). -/
def execTether (link : Nat) (p : Tether) (s : State) : Host.Outcome State Fault Refusal :=
  s.done (if s.islandOn ∧ link < 4 ∧ (s.link link).trained then
      if !p.crcOk then s.countAt Reg.LINK_ERR.CRC_ERRS link 1
      else if p.departing then (s.linkDown link).slotAbsent p.slot
      else s.takeTether link p
    else s)

/-- TETHER_PERIOD (R407): a tether is sent; it leaves IDLE as background work that falls due (R75), and in SLEEP it does not
wake the island for longer. -/
def execTetherPeriod (link : Nat) (s : State) : Host.Outcome State Fault Refusal :=
  s.done (if s.islandOn ∧ link < 4 ∧ (s.link link).trained then s.stir.sendTether (s.link link) false else s)

/-- TETHER_TIMEOUT (R406). -/
def execTetherTimeout (link : Nat) (s : State) : Host.Outcome State Fault Refusal :=
  s.done (if s.islandOn ∧ link < 4 ∧ (s.link link).trained then s.linkDown link else s)

/-- LANE_LOCK_LOST (R406): lane lock lost for at least 10 µs. -/
def execLaneLockLost (link ns : Nat) (s : State) : Host.Outcome State Fault Refusal :=
  s.done (if s.islandOn ∧ link < 4 ∧ (s.link link).trained ∧ 10000 ≤ ns then s.linkDown link else s)

/-- LINK_TRAINING_RETRY (R406): one attempt to train a link that is down. -/
def State.trainLink (s : State) (link : Nat) (trained : Bool) : State :=
  let l := s.link link
  s.setLink { l with trained := trained, state := if trained then 1 else 0, good := 0 }

def execLinkTrainingRetry (link : Nat) (trained : Bool) (s : State) : Host.Outcome State Fault Refusal :=
  s.done (if s.islandOn ∧ link < 4 ∧ !(s.link link).trained ∧ !s.dev.refSdLost then s.trainLink link trained else s)

/-! ## Flits (R403 to R405) -/

/-- A link takes flits. -/
def State.takesFlits (s : State) (link : Nat) : Bool := s.islandOn && decide (link < 4) && (s.link link).isUp

/-- A RETRY is sent for the expected flit; the link goes down when one flit has been retried 16 times in a row. -/
def State.askRetry (s : State) (link : Nat) : State :=
  let l := s.link link
  let s := ((s.setLink { l with awaiting := true, retries := l.retries + 1 }).countAt Reg.LINK_ERR.RETRIES link 1).sendCtl
    link .retry 0 0 (beBytes 1 l.expect)
  if 16 ≤ l.retries + 1 then s.linkDown link else s

/-- Flits of an input buffer up to the last HEAD, that flit left out. -/
def dropFrame (l : List Flit) : List Flit := ((l.reverse.dropWhile fun f => !f.head).drop 1).reverse

/-- The expected flit is buffered; a frame that ends with POISON is discarded. -/
def State.takeFlit (s : State) (link : Nat) (f : Flit) : State :=
  let l := s.link link
  let l := { l with expect := (l.expect + 1) % 256, awaiting := false, retries := 0 }
  let buf := (if f.vc = 0 then l.input0 else l.input1) ++ [f]
  if f.tail ∧ f.poison then
    let left := dropFrame buf
    (s.setLink (if f.vc = 0 then { l with input0 := left } else { l with input1 := left })).sendCredits
      link f.vc (buf.length - left.length)
  else s.setLink (if f.vc = 0 then { l with input0 := buf } else { l with input1 := buf })

/-- A data flit received: one that is not the next in order, or that no buffer can hold, is discarded. -/
def State.dataFlit (s : State) (link : Nat) (f : Flit) : State :=
  if !f.crcOk then (s.countAt Reg.LINK_ERR.CRC_ERRS link 1).askRetry link
  else
    let s := s.takeHeader link f.ack f.cr0 f.cr1
    let l := s.link link
    let full := decide (128 ≤ (if f.vc = 0 then l.input0.length else l.input1.length))
    if f.fseq = l.expect ∧ !full then s.takeFlit link f
    else if l.awaiting then s
    else s.askRetry link

def execDataFlit (link : Nat) (f : Flit) (s : State) : Host.Outcome State Fault Refusal :=
  s.done (if s.takesFlits link then s.dataFlit link f else s)

/-- RETRY received: what the neighbour has in order is acknowledged, and the rest is sent again from the named flit. -/
def State.retryFrom (s : State) (link fseq : Nat) : State :=
  let l := s.link link
  let n := if l.asked.1 = fseq then l.asked.2 + 1 else 1
  let replay := l.replay.dropWhile fun f => f.fseq != fseq
  if replay.isEmpty then s
  else
    let s := s.setLink { l with replay := replay, asked := (fseq, n), quietPeer := false }
    let again := fun (s : State) (f : Flit) => s.emit (.lineFlit link (flitOnLine ({ f with ack := (l.expect + 255) % 256 } : Flit)))
    let s := (replay.foldl again s).count64 Reg.LINK_FLITS_LO.FLITS_LO
      Reg.LINK_FLITS_HI.FLITS_HI link replay.length
    if 16 ≤ n then s.linkDown link else s

def execRetry (link fseq : Nat) (crcOk : Bool) (s : State) : Host.Outcome State Fault Refusal :=
  s.done (if s.takesFlits link then
      if crcOk then s.retryFrom link fseq else s.countAt Reg.LINK_ERR.CRC_ERRS link 1
    else s)

/-- IDLE_FLIT (R404): its ACK and credits. -/
def execIdleFlit (link ack cr0 cr1 : Nat) (crcOk : Bool) (s : State) : Host.Outcome State Fault Refusal :=
  s.done (if s.takesFlits link then
      if crcOk then s.takeHeader link ack cr0 cr1 else s.countAt Reg.LINK_ERR.CRC_ERRS link 1
    else s)

/-! ## The router island in SLEEP (R82) -/

/-- WAKE received: the island runs, and nothing else of the device wakes. -/
def State.wakeIsland (s : State) (link : Nat) : State :=
  let s := { s with dev := { s.dev with routerQuiet := false } }
  (s.setLink { s.link link with quietPeer := false }).pumpLink link

def execWake (link : Nat) (crcOk : Bool) (s : State) : Host.Outcome State Fault Refusal :=
  s.done (if s.takesFlits link then
      if crcOk then s.wakeIsland link else s.countAt Reg.LINK_ERR.CRC_ERRS link 1
    else s)

def execQuiet (link : Nat) (crcOk : Bool) (s : State) : Host.Outcome State Fault Refusal :=
  s.done (if s.takesFlits link then
      if crcOk then s.setLink { s.link link with quietPeer := true } else s.countAt Reg.LINK_ERR.CRC_ERRS link 1
    else s)

/-- ROUTER_ISLAND_QUIET: no transit flit for 200 µs in SLEEP. -/
def State.quietIsland (s : State) : State :=
  let s := { s with dev := { s.dev with routerQuiet := true } }
  (s.fab.links.filter fun l => l.trained).foldl (fun s l => s.sendCtl l.id .quiet 0 0 []) s

def execRouterIslandQuiet (s : State) : Host.Outcome State Fault Refusal :=
  s.done (if s.fabric ∧ s.dev.phase = .service ∧ s.dev.power = .sleep ∧ !s.dev.routerQuiet then s.quietIsland else s)

/-! ## The sled map (R409) -/

/-- A fabric message whose tag fails is discarded and counted, and never answered (R411). -/
def State.fabAuth (s : State) (m : FabMsg) (go : State → State) : State :=
  if m.tagOk then go s else s.count Reg.FAB.AUTH_FAIL 1

/-- A STATE frame newer than the entry is stored, and goes on as it came over the other TRUSTED links. A slot that is absent has no
entry that a frame could be older than (log entry 92). -/
def State.takeState (s : State) (link : Nat) (f : FabFrame) (slot seq : Nat) (gateway : Bool) (links : BitVec 4) : State :=
  let newer : Bool := match s.sledEntry? slot with
    | some e => !e.present || decide (e.seq < seq)
    | none => true
  if newer = true ∧ slot < 16 ∧ slot ≠ s.ownSlot then
    let e : SledEntry := ⟨slot, true, gateway, links, seq⟩
    (s.setSled e).injectOn (s.trustedLinks.filter fun l => l != link) [{ f with hops := (f.hops + 1) % 256 }]
  else s

def execState (link : Nat) (f : FabFrame) (m : FabMsg) (slot seq : Nat) (b : StateBody) (s : State) :
    Host.Outcome State Fault Refusal :=
  s.done (if s.islandOn ∧ !s.inStale ∧ link < 4 ∧ (s.link link).trusted then
      s.fabAuth m fun s => s.takeState link f slot seq b.gateway b.links
    else s)

/-- STATE_PERIOD (R409). -/
def execStatePeriod (s : State) : Host.Outcome State Fault Refusal := s.done (if s.islandOn then s.floodOwn else s)

/-- SLED_MAP_ENTRY_TIMEOUT (R409). -/
def execSledMapEntryTimeout (slot : Nat) (s : State) : Host.Outcome State Fault Refusal :=
  s.done (if s.islandOn ∧ slot ≠ s.ownSlot then s.slotAbsent slot else s)

end Sys2Proof.Machine
end

