-- ==== Sys2Proof/Machine/FabRoute.lean ====
section
/-! DEFINITION. The fabric router (R410 to R420): decisions, torus steps, route exceptions and gateways; fabric frames on
host ports (R144); and the links of the host ports (R138). -/

namespace Sys2Proof.Machine

open Sys2Proof

/-! ## Frames as flits (R403, R410) -/

/-- Flits of a frame: 56 payload bytes each. -/
def frameFlitCount (f : FabFrame) : Nat := (36 + f.payload.length + 16 + 55) / 56

/-- The flits of a frame on a VC; those of a transit frame still lie in an input buffer. -/
def frameFlits (f : FabFrame) (vc : Nat) (src : Option (Nat × Nat)) : List OutFlit :=
  let parts := chunks 56 (frameBytes f)
  (parts.zipIdx).map fun x => ⟨⟨x.2 == 0, x.2 + 1 == parts.length, vc, 0, 0, 0, 0, false, x.1, true⟩, src⟩

/-! ## Where a frame enters (R225) -/

def ingCode : Ingress → Nat
  | .link l => l % 4
  | .gateway => 4
  | .own => 7

/-- The input buffer that holds a frame. -/
def ingBuffer (i : Ingress) (vc : Nat) : Option (Nat × Nat) :=
  match i with
  | .link l => some (l, vc)
  | _ => none

/-- A frame leaves its input buffer without going on. -/
def State.consume (s : State) (i : Ingress) (vc : Nat) (f : FabFrame) : State :=
  match ingBuffer i vc with
  | some (l, v) => s.returnCredits l v (frameFlitCount f)
  | none => s

/-- A frame is discarded and counted (R411 to R421). -/
def State.dropFrameOf (s : State) (i : Ingress) (vc : Nat) (f : FabFrame) : State :=
  (s.consume i vc f).count Reg.FAB.DROPPED 1

/-! ## Flow hash and gateways in the sled (R414, R416) -/

/-- The seed that holds for a flow: a new one applies from its next flowlet on. -/
def State.seedOf (s : State) (flow : Nat) : Bytes :=
  match s.fab.seeds.find? fun x => x.1 == flow with
  | some x => x.2
  | none => s.fab.flowSeed

/-- A frame of a flow whose flowlet has not begun begins it under the present seed. -/
def State.beginFlowlet (s : State) (flow : Nat) : State :=
  if s.fab.seeds.any fun x => x.1 == flow then s
  else { s with fab := { s.fab with seeds := s.fab.seeds ++ [(flow, s.fab.flowSeed)] } }

/-- The flow-hash bit: bit 0 of SipHash-2-4 under the flow seed over FLOW and DST. -/
def State.flowBit (s : State) (f : FabFrame) : Nat := sipHash (s.seedOf f.flow) (beBytes 4 f.flow ++ beBytes 2 f.dst) % 2

/-- Gateways of the sled map at the least number of hops. -/
def State.nearGateways (s : State) : List Nat :=
  let gws := (s.fab.sled.filter fun e => e.present && e.gateway).map fun e => e.slot
  let best := gws.foldl (fun m g => min m (torusHops s.ownSlot g)) 4
  gws.filter fun g => torusHops s.ownSlot g == best

/-- The gateway that a source or a transit device chooses. -/
def State.chooseGateway (s : State) (f : FabFrame) : Option Nat :=
  let l := s.nearGateways
  l[Config.hashPick (s.flowBit f) l.length % l.length]?

/-! ## Torus steps (R414, R415) -/

/-- Credits held for a VC. -/
def Link.credit (l : Link) (vc : Nat) : Nat := if vc = 0 then l.credit0 else l.credit1

/-- The choice in a tie between two TRUSTED links, kept for the flow. -/
def State.tieLink (s : State) (f : FabFrame) (vc plus minus : Nat) : Option Nat × State :=
  let ok := fun (l : Nat) => (s.link l).trusted && (l == plus || l == minus)
  let kept := (s.fab.flows.find? fun x => x.1 == f.flow && x.2.1 == f.dst).map fun x => x.2.2
  match kept.filter ok with
  | some l => (some l, s)
  | none =>
    let a := (s.link plus).credit vc
    let b := (s.link minus).credit vc
    let pick := if !ok plus then (if ok minus then some minus else none)
      else if !ok minus then some plus
      else if b < a then some plus
      else if a < b then some minus
      else some (if Config.tiePlus (s.flowBit f) then plus else minus)
    match pick with
    | none => (none, s)
    | some l =>
      let same := fun (x : Nat × Nat × Nat) => x.1 == f.flow && x.2.1 == f.dst
      (some l, { s with fab := { s.fab with flows := putWhere same (f.flow, f.dst, l) s.fab.flows } })

/-- The output link of a torus step towards a slot: x first, then y. -/
def State.torusLink (s : State) (f : FabFrame) (vc slot : Nat) : Option Nat × State :=
  let o := s.ownSlot
  let dx := (slot % 4 + 4 - o % 4) % 4
  let dy := (slot / 4 % 4 + 4 - o / 4 % 4) % 4
  if dx = 1 then (some 0, s)
  else if dx = 3 then (some 1, s)
  else if dx = 2 then s.tieLink f vc 0 1
  else if dy = 1 then (some 2, s)
  else if dy = 3 then (some 3, s)
  else if dy = 2 then s.tieLink f vc 2 3
  else (none, s)

/-- The dateline is crossed by a link at this device's position (R415). -/
def State.dateline (s : State) (link : Nat) : Bool :=
  let x := s.ownSlot % 4
  let y := s.ownSlot / 4 % 4
  (link == 0 && x == 3) || (link == 1 && x == 0) || (link == 2 && y == 3) || (link == 3 && y == 0)

/-- The VC on which a frame goes on. -/
def State.outVc (s : State) (i : Ingress) (vc link : Nat) : Nat :=
  if s.dateline link then 1
  else
    match i with
    | .link l => if l < 2 ∧ 2 ≤ link then 0 else vc
    | _ => 0

/-- A frame goes to a link, if it is TRUSTED; HOPS rises where the device is not the source. -/
def State.forwardOn (s : State) (i : Ingress) (vc link : Nat) (f : FabFrame) : State :=
  if (s.link link).trusted then
    let f := if i = .own then f else { f with hops := (f.hops + 1) % 256 }
    let v := s.outVc i vc link
    let l := s.link link
    let more := frameFlits f v (ingBuffer i vc)
    let l := if v = 0 then { l with out0 := l.out0 ++ more } else { l with out1 := l.out1 ++ more }
    let s := (s.setLink l).pumpLink link
    if i = .own then s else s.count Reg.FAB.TRANSIT 1
  else s.dropFrameOf i vc f

/-! ## Gateways (R419 to R421) -/

/-- The sled gateway address of a sled and an index. -/
def gatewayMac (sled index : Nat) : Nat := 0x024658000000 + sled / 256 % 16 * 2 ^ 16 + sled % 256 * 2 ^ 8 + index % 4

/-- An Ethernet frame from this device's own sled gateway address. -/
def State.gatewayTo (s : State) (port mac : Nat) : EthHead :=
  { s.ethTo port (BitVec.ofNat 48 mac) with
    srcMac := BitVec.ofNat 48 (gatewayMac (s.fab.addr / 16) (s.rd Reg.FAB_CFG.GW_INDEX)) }

/-- The lowest host port that is up, on which a gateway sends (log entry 94). -/
def State.gatewayPort (s : State) : Option Nat := (List.range 8).find? fun p => s.portExists p && (s.port p).up

/-- Indices set in GW_MASK and live for a sled. -/
def State.liveIndices (s : State) (sled : Nat) : List Nat :=
  (List.range 4).filter fun g => (s.rd Reg.FAB_CFG.GW_MASK).testBit g && s.fab.gwLive.contains (sled, g)

/-- A gateway sends a frame to another sled on its host port, the lowest port that is up (log entry 94). -/
def State.hostSend (s : State) (i : Ingress) (vc : Nat) (f : FabFrame) : State :=
  let l := s.liveIndices (f.dst / 16)
  match l[Config.hashPick (s.flowBit f) l.length % l.length]?, s.gatewayPort with
  | some g, some p =>
    let f := if i = .own then f else { f with hops := (f.hops + 1) % 256 }
    let s := (s.consume i vc f).sendOn p
      (.ethFabric (s.gatewayTo p (gatewayMac (f.dst / 16) g)) (s.rd Reg.NET_FAB.FAB_ETHERTYPE) (frameBytes f))
    if i = .own then s else s.count Reg.FAB.TRANSIT 1
  | none, _ => (s.dropFrameOf i vc f).raise Ev.FAB.GW_LOST
  | _, none => s.dropFrameOf i vc f

/-! ## The decision (R413) -/

/-- A frame type that Table 17-6 gives, allowed where it arrives: the unprotected types only LOCAL on a LOCAL link. -/
def State.typeAllowed (s : State) (i : Ingress) (f : FabFrame) : Bool :=
  if f.ftype = 0x12 ∨ f.ftype = 0x13 then
    f.isLocal && (match i with
      | .link l => (s.link l).state == 4
      | _ => false)
  else decide (1 ≤ f.ftype) && decide (f.ftype ≤ 0x0A) || f.ftype == 0x10 || f.ftype == 0x11

/-- A frame ends at this device, where a protected one costs a pass of the cipher (R34); one addressed to it wakes the device (R72, R79). A LOCAL frame, which every neighbour may
receive and which names no device, is taken as not addressed to the device and wakes nothing: DESIGN CHOICE (log entry
155), since R72 does not say whether it counts. -/
def State.terminate (s : State) (i : Ingress) (vc : Nat) (f : FabFrame) : State :=
  if s.typeAllowed i f then
    let s := (s.consume i vc f).count Reg.FAB.TERMINATED 1
    let s := if protectedType f.ftype then s.cipher 1 f.payload.length else s
    if f.isLocal then s else s.arrive Reg.WAKE_SRC.FAB_FRAME
  else s.dropFrameOf i vc f

/-- A torus step. -/
def State.torusStep (s : State) (i : Ingress) (vc slot : Nat) (f : FabFrame) : State :=
  match s.torusLink f vc slot with
  | (some l, s) => s.forwardOn i vc l f
  | (none, s) => s.dropFrameOf i vc f

/-- The frame leaves for another sled (step 5 of R413, R416). -/
def State.towardsSled (s : State) (i : Ingress) (vc : Nat) (f : FabFrame) : State :=
  let own := match s.sledEntry? s.ownSlot with
    | some e => e.gateway
    | none => false
  if own = true then (if i = .gateway then s.dropFrameOf i vc f else s.hostSend i vc f)
  else if f.gwValid ∧ s.slotPresent f.gwSlot then s.torusStep i vc f.gwSlot f
  else
    match s.chooseGateway f with
    | some g => s.torusStep i vc g { f with gwSlot := g, gwValid := true }
    | none => s.dropFrameOf i vc f

/-- The router's decision on one frame. -/
def State.route (s : State) (i : Ingress) (vc : Nat) (f : FabFrame) : State :=
  let s := s.beginFlowlet f.flow
  match s.searchFirst 0 (f.dst % 2 ^ 16 * 2 ^ 64 + ingCode i * 2 ^ 61) with
  | (some (_, e), s) => if bitsOf e.data 0 3 = 0 then s.forwardOn i vc (bitsOf e.data 3 2) f else s.dropFrameOf i vc f
  | (none, s) =>
    if f.isLocal ∨ (s.fab.addrValid ∧ f.dst = s.fab.addr) then s.terminate i vc f
    else if 32 ≤ f.hops then s.dropFrameOf i vc f
    else if f.dst / 16 = s.fab.addr / 16 then s.torusStep i vc (f.dst % 16) f
    else s.towardsSled i vc f

/-- The ingress takes the frame: routed frames on a TRUSTED link, link-local ones on any link that is not ISOLATED; in
stalemate no traffic is forwarded (R111). -/
def State.ingressOk (s : State) (i : Ingress) (f : FabFrame) : Bool :=
  (f.isLocal || s.dev.phase != .stalemate) &&
    (match i with
     | .link l => decide (l < 4) && ((s.link l).trusted || (f.isLocal && (s.link l).isUp && (s.link l).state != 5))
     | .gateway => s.isGateway
     | .own => true)

/-- A LOCAL frame of this device goes out on its link, on VC 0. -/
def State.sendLocal (s : State) (link : Nat) (f : FabFrame) : State :=
  let l := s.link link
  if l.isUp ∧ l.state ≠ 5 then (s.setLink { l with out0 := l.out0 ++ frameFlits f 0 none }).pumpLink link
  else s.dropFrameOf .own 0 f

/-- Local injection (R417): the frame that has waited longest goes out on its link, or is routed on VC 0. -/
def State.serveInjection (s : State) : State :=
  match s.fab.inject with
  | [] => s
  | (dest, f) :: rest =>
    let s := { s with fab := { s.fab with inject := rest } }.count Reg.FAB.ORIGINATED 1
    match dest with
    | some l => s.sendLocal l f
    | none => s.route .own 0 f

/-- TRANSIT (R413): a frame of at most 8,192 payload bytes on a VC. One that the device originates is the first that waits at
local injection, whatever the operands (log entry 170). -/
def execTransit (ing : Ingress) (vc : Nat) (f : FabFrame) (s : State) : Host.Outcome State Fault Refusal :=
  s.done (if s.islandOn then
      let s := { s with dev := { s.dev with routerQuiet := false } }
      if ing = .own then s.serveInjection
      else if s.ingressOk ing f then s.route ing (vc % 2) f
      else s.dropFrameOf ing (vc % 2) f
    else s)

/-! ## Flowlets, seeds and exceptions (R414, R416) -/

/-- FLOWLET_GAP: the flow may take a new choice. -/
def execFlowletGap (flow : Nat) (s : State) : Host.Outcome State Fault Refusal :=
  s.done { s with fab := { s.fab with flows := s.fab.flows.filter fun x => x.1 != flow
                                      seeds := s.fab.seeds.filter fun x => x.1 != flow } }

/-- SEED_PERIOD: a new flow seed from the DRBG. -/
def State.newFlowSeed (s : State) : State :=
  match s.random 16 with
  | (b, s) => { s with fab := { s.fab with flowSeed := b } }

def execSeedPeriod (s : State) : Host.Outcome State Fault Refusal :=
  s.done (if s.islandOn ∧ s.drbgOk then s.newFlowSeed else s)

/-- The slots that one more hop over TRUSTED links adds. -/
def State.widen (s : State) (have_ : List Nat) : List Nat :=
  (List.range 16).filter fun t =>
    have_.contains t || (s.slotPresent t && s.fab.sled.any fun e =>
      e.present && have_.contains e.slot && (List.range 4).any fun l => e.links.getLsbD l && neighbourSlot e.slot l == t)

/-- The slots that this device can reach in its map. -/
def State.reachable (s : State) : List Nat := (List.range 16).foldl (fun l _ => s.widen l) [s.ownSlot]

/-- The map shows every slot present with every link TRUSTED: no exception is needed. -/
def State.mapWhole (s : State) : Bool := (List.range 16).all fun t => s.fab.sled.any fun e => e.slot == t && e.present && e.links == 15

/-- A route exception (R225, Table 17-7): destination slot, ingress (8: any), action and link. -/
def State.exception (s : State) (slot ing action link : Nat) : CamEntry :=
  let dst := s.fab.addr / 16 * 16 + slot % 16
  let any_ := decide (8 ≤ ing)
  ⟨dst * 2 ^ 64 + (if any_ then 0 else ing * 2 ^ 61), 0xFFFF * 2 ^ 64 + (if any_ then 0 else 7 * 2 ^ 61),
   action + link % 4 * 8⟩

/-- The exceptions that the fabric firmware writes: absent slots and slots without a surviving route are discarded; how
it routes around the rest, and whether a destination is left without a route, are free values (log entry 93). -/
def State.rewriteRoutes (s : State) : State :=
  if s.mapWhole then (s.setTable 0 []).raise Ev.FAB.ROUTE_CHANGED
  else
    let r := s.reachable
    let gone := ((List.range 16).filter fun t => !r.contains t).map fun t => s.exception t 8 1 0
    let around := (Config.routeAround s.free).map fun x => s.exception x.1 x.2.1 0 x.2.2
    let worse := Config.freeBool (s.free + 1)
    let s := (s.tookFree.tookFree.setTable 0 (camWriteAt [] 0 ((gone ++ around).take 16384))).raise Ev.FAB.ROUTE_CHANGED
    if worse then s.raise Ev.FAB.ROUTE_DEGRADED else s

def execRouteChanged (s : State) : Host.Outcome State Fault Refusal :=
  s.done (if s.islandOn ∧ !s.inStale then s.rewriteRoutes else s)

/-! ## Fabric frames on host ports (R144, R419)

A GW_HELLO, which Table 17-6 sends over Ethernet only, ends at the gateway that receives it (log entry 94). -/

/-- The device's MAC addresses: its ports', and as a gateway its sled gateway address and the group address. -/
def State.ownMac (s : State) (mac : Nat) : Bool :=
  ((List.range 8).any fun p => s.portExists p && s.portMac p == mac) ||
    (s.isGateway && (mac == gatewayMac (s.fab.addr / 16) (s.rd Reg.FAB_CFG.GW_INDEX) || mac == 0x034658000000))

def execFabricFrameOnHostPort (port : Nat) (vlan : Option Nat) (dstMac : BitVec 48) (etherType : Nat) (f : FabFrame)
    (s : State) : Host.Outcome State Fault Refusal :=
  s.done (if s.portsServe port ∧ s.tagTaken vlan ∧ etherType = s.rd Reg.NET_FAB.FAB_ETHERTYPE then
      if s.fabric ∧ s.rdB Reg.NET_FAB.GATEWAY_EN ∧ s.ownMac dstMac.toNat ∧ s.ingressOk .gateway f then
        let s := { s with dev := { s.dev with routerQuiet := false } }
        if f.ftype = 0x11 then s.terminate .gateway 0 f else s.route .gateway 0 f
      else s.raise Ev.NET.FAB_DISCARD
    else s)

/-! ## Host port links (R138) -/

/-- The lanes of a port. -/
def State.portLanes (s : State) (p : Nat) : List Nat := (List.range 8).filter fun l => s.laneParent l == some p

/-- Host ports may link: in service, in stalemate (Table 02-12) and in the drained state, with their reference. -/
def State.portLinks (s : State) (p : Nat) : Bool :=
  s.portExists p && !s.dev.refSdLost && !s.dev.pinsHeld && (match s.dev.phase with
    | .service => true
    | .drained _ => true
    | .stalemate => true
    | _ => false)

/-- A state of a port, with an event on each of its lanes; a gateway's entry follows its ports (R419). -/
def State.portChange (s : State) (p : Nat) (x : Port) (e : Event) : State :=
  let was := s.isGateway
  let t := (s.portLanes p).foldl (fun (t : State) l => t.raiseI e (l + 2)) (s.setPort p x)
  if t.isGateway = was then t else t.floodOwn

/-- LINK_UP: `l.eee` says that the partner offers energy-efficient Ethernet and the port type defines it, which is negotiated
while EEE_EN is 1; without auto-negotiation nothing is negotiated. -/
def execLinkUp (l : LinkFound) (s : State) : Host.Outcome State Fault Refusal :=
  s.done (if s.portLinks l.port ∧ !(s.port l.port).up then
      let an := s.rdB Reg.NET_PORTMODE.AN_EN
      (s.portChange l.port
        { s.port l.port with up := true, anDone := an, eee := an && l.eee && s.rdB Reg.NET_PORTMODE.EEE_EN }
        Ev.NET_I.LINK_UP).pumpPort l.port
    else s)

/-- A port goes down: what waited for it is lost, as on the wire. -/
def State.portLost (s : State) (p : Nat) : State :=
  { s with portQueue := s.portQueue.filter fun x => x.1 != p }.portChange p
    { s.port p with up := false, anDone := false, pauseQuanta := 0, eee := false } Ev.NET_I.LINK_DOWN

def execLinkDown (port : Nat) (s : State) : Host.Outcome State Fault Refusal :=
  s.done (if s.portExists port ∧ (s.port port).up then
      s.portLost port
    else s)

def execAnFail (port : Nat) (s : State) : Host.Outcome State Fault Refusal :=
  s.done (if s.portLinks port ∧ !(s.port port).up ∧ s.rdB Reg.NET_PORTMODE.AN_EN then
      s.portChange port (s.port port) Ev.NET_I.AN_FAIL
    else s)

end Sys2Proof.Machine
end

