-- ==== Sys2Proof/Machine/FabMsg.lean ====
section
/-! DEFINITION. Fabric messages (R411, R412, R421 to R431): mirrors, forwarded commands, queries, resyncs, keeper records
and inheritance, and the fabric opcodes. -/

namespace Sys2Proof.Machine

open Sys2Proof

/-! ## Receiving (R411, R412) -/

/-- A message whose tag verified reaches a device in service; a frame addressed to the device wakes it (R72). -/
def State.fabTake (s : State) (m : FabMsg) (go : State → State) : State :=
  if s.islandOn ∧ s.dev.phase = .service then s.fabAuth m fun s => go (s.arrive Reg.WAKE_SRC.FAB_FRAME) else s

def State.source? (s : State) (src : Nat) : Option SourceEntry := s.fab.sources.find? fun e => e.src == src

/-- A MSG_ID of a source is noted; what falls below the window of 1,024 is forgotten. -/
def State.noteSource (s : State) (src id : Nat) : State :=
  let e := (s.source? src).getD ⟨src, 0, [], []⟩
  let top := max e.highest id
  let low := fun (k : Nat) => decide (top ≤ k + 1024)
  let e := { e with highest := top, seen := (id :: e.seen).filter low, replies := e.replies.filter fun r => low r.1 }
  { s with fab := { s.fab with sources := putWhere (fun x => x.src == src) e s.fab.sources } }

/-- A request message: a duplicate gets the stored response, one below the window is discarded, a new source that finds
no entry gets `BUSY_RETRY`, and any other is executed. -/
def State.requestCore (s : State) (m : FabMsg) (respType : Nat) (go : State → State) : State :=
  match s.source? m.src with
  | none =>
    if 4096 ≤ s.fab.sources.length then s.fabReply m.src respType m.msgId .busy
    else go (s.noteSource m.src m.msgId)
  | some e =>
    if e.seen.contains m.msgId then
      match e.replies.find? fun r => r.1 == m.msgId with
      | some r => s.inject none r.2
      | none => s
    else if m.msgId + 1024 < e.highest then s
    else go (s.noteSource m.src m.msgId)

/-- A request message to this device. In the pause of an activation it waits unexecuted (R443): its source sends it again, and
the row that comes after the pause executes it (log entry 171). -/
def State.fabRequestIn (s : State) (m : FabMsg) (respType : Nat) (go : State → State) : State :=
  if s.cmd.paused then s else s.fabTake m fun s => s.requestCore m respType go

/-- A request that waits for a response leaves the list. -/
def State.dropOut (s : State) (id : Nat) : State :=
  { s with fab := { s.fab with outMsgs := s.fab.outMsgs.filter fun o => o.msgId != id } }

/-- The request a response answers. -/
def State.outFor (s : State) (m : FabMsg) (id : Nat) (types : List Nat) : Option OutMsg :=
  s.fab.outMsgs.find? fun o => o.msgId == id && o.dst == m.src && types.contains o.ftype

/-- SOURCE_ENTRY_EXPIRY. -/
def execSourceEntryExpiry (src : Nat) (s : State) : Host.Outcome State Fault Refusal :=
  s.done { s with fab := { s.fab with sources := s.fab.sources.filter fun e => e.src != src } }

/-! ## Members of mirror sets (R426 to R429) -/

/-- An acknowledgement of a write by a member, or its failure, is noted in the write's entry. -/
def State.noteMember (s : State) (nsid addr asn : Nat) (ok : Bool) : State :=
  let mine := fun (e : TagEntry) => e.msg.nsid == nsid && e.asn == asn && e.mirrors.contains addr
  let upd := fun (e : TagEntry) => { e with mirrors := e.mirrors.filter (fun a => a != addr), degraded := e.degraded || !ok }
  { s with cmd := { s.cmd with tags := updWhere mine upd s.cmd.tags } }

/-- A member becomes DEGRADED: no write waits for it any more, and what was sent to it is given up. -/
def State.loseMember (s : State) (nsid addr : Nat) : State :=
  let s := s.degradeMember nsid addr
  let mine := fun (e : TagEntry) => e.msg.nsid == nsid && e.mirrors.contains addr
  let upd := fun (e : TagEntry) => { e with mirrors := e.mirrors.filter (fun a => a != addr), degraded := true }
  let out := s.fab.outMsgs.filter fun o =>
    !(o.nsid == nsid && o.dst == addr && (o.ftype == 0x01 || o.ftype == 0x07) && o.tag.isNone)
  { s with cmd := { s.cmd with tags := updWhere mine upd s.cmd.tags }, fab := { s.fab with outMsgs := out } }

/-- A RESYNCING member of which nothing is outstanding is IN_SYNC. -/
def State.settleMember (s : State) (nsid addr : Nat) : State :=
  match s.member? nsid addr with
  | none => s
  | some m =>
    if m.state = .resyncing ∧ !(s.fab.outMsgs.any fun o => o.nsid == nsid && o.dst == addr && (o.ftype == 0x01 || o.ftype == 0x07)) then
      (s.setMember { m with state := .inSync }).raise Ev.FAB.MIRROR_IN_SYNC
    else s

/-- MIRROR_ACK: the request of that write leaves the list; a refusal makes the member DEGRADED. -/
def State.takeAckOf (s : State) (m : FabMsg) (nsid asn : Nat) (accepted : Bool) : State :=
  match s.fab.outMsgs.find? fun o => o.dst == m.src && o.nsid == nsid && o.asn == asn && o.tag.isNone &&
      [0x01, 0x07, 0x0A].contains o.ftype with
  | none => s
  | some o =>
    let s := s.dropOut o.msgId
    if s.fab.pulls.any fun x => x.1 == nsid then (if accepted then s else s.pullElsewhere nsid)
    else if accepted then (s.noteMember nsid m.src asn true).settleMember nsid m.src
    else s.loseMember nsid m.src

def execMirrorAck (m : FabMsg) (nsid asn : Nat) (accepted : Bool) (s : State) : Host.Outcome State Fault Refusal :=
  s.done (s.fabTake m fun s => s.takeAckOf m nsid asn accepted)

/-! ## Applying at a member (R427, R399, R400, R429) -/

/-- The effects of one write in order. -/
def applyEffects (nsid asn stamp session : Nat) : List MirrorEffect → State → Except Nat Unit × State
  | [], s => (.ok (), s)
  | x :: xs, s =>
    let r := match x.value with
      | some v => s.storeKey nsid x.key v asn stamp session true
      | none => s.removeKey nsid x.key stamp session
    match r with
    | (.error st, s) => (.error st, s)
    | (.ok _, s) => applyEffects nsid asn stamp session xs s

/-- A chunk whose SHA-256 is not its key, among effects (R397, R400). -/
def effectsBad (n : Ns) (xs : List MirrorEffect) : Bool :=
  xs.any fun x => match x.value with
    | some v => badDigest n x.key v
    | none => false

def State.applyKeys (s : State) (n : Ns) (mm : MirrorMeta) (xs : List MirrorEffect) : Except Nat Unit × State :=
  if n.kind = .distribution ∧ s.noHash then (.error stInternal, s)
  else if effectsBad n xs then (.error stDigest, s.count Reg.SEA.DIGEST_MISMATCH 1)
  else s.tryWrite { n with quota := 0 } true (applyEffects n.nsid mm.asn mm.stamp mm.session xs)

/-- A mirrored record follows its stream: sequence number, chain value and CMAC (R399). -/
def Ns.follows (n : Ns) (key stream : Bytes) (h : RecordHdr) (bytes : Bytes) : Bool :=
  let t := n.streamOr stream
  decide (h.seq = t.nextSeq) && decide (h.rlen = bytes.length) &&
    h.chain == chainNext t.headChain h.seq h.appendTime h.expiry h.void h.rclass bytes && h.cmac == receiptMac key h.seq h.chain

def State.applyRecord (s : State) (n : Ns) (stream : Bytes) (h : RecordHdr) (bytes : Bytes) : Except Nat Unit × State :=
  let bad := s.report Ev.SEA.MIRROR_DIVERGED stAuth
  match s.slotKey n.sealSlot with
  | none => (.error stSlotEmpty, bad)
  | some k =>
    if s.noHash then (.error stInternal, s)
    else if n.follows k stream h bytes then
      let w := s.tryWrite { n with quota := 0 } true fun s =>
        (s.hashed (bytes.length + 60)).storeRecord n.nsid stream h bytes 0
      match w with
      | (.error e, s) => (.error e, s)
      | (.ok _, s) =>
        if h.void then (.ok (), s)
        else
          match s.classify n.nsid stream with
          | (c, s) => (.ok (), s.runWatches n.nsid stream c.watch h.seq h.asn bytes)
    else (.error stAuth, bad)

/-- Purges of streams: applied once their records have expired here too (R400). -/
def State.takePurges (s : State) (n : Ns) (ps : List (Bytes × Nat)) : State :=
  let s := s.setNs { n with purges := n.purges ++ ps }
  ps.foldl (fun s p => s.applyPurge n.nsid p) s

/-- One mirrored write applied. -/
def State.applyMirror (s : State) (n : Ns) (mm : MirrorMeta) (b : MirrorBody) : Bool × State :=
  match b with
  | .keys xs => match s.applyKeys n mm xs with
    | (.ok _, s) => (true, s)
    | (.error _, s) => (false, s)
  | .record t h bytes => match s.applyRecord n t h bytes with
    | (.ok _, s) => (true, s)
    | (.error _, s) => (false, s)
  | .purge ps => (true, s.takePurges n ps)

/-- The acknowledgement, once the effect is durable under the MEDIA flag (R427). -/
def State.ackMirror (s : State) (src msgId : Nat) (mm : MirrorMeta) (ok : Bool) : State :=
  let s := if ok && (mm.media || !s.bufferedOk) then s.drain else s
  let ok := ok && (!(mm.media || !s.bufferedOk) || s.drained)
  s.fabReply src 0x02 msgId (.mirrorAck mm.nsid mm.asn ok)

/-- ASN of the write last applied to a mirror copy. -/
def State.appliedAsn (s : State) (nsid : Nat) : Nat :=
  match s.fab.applied.find? fun x => x.1 == nsid with
  | some x => x.2
  | none => 0

def State.setApplied (s : State) (nsid asn : Nat) : State :=
  { s with fab := { s.fab with applied := putWhere (fun x => x.1 == nsid) (nsid, asn) s.fab.applied } }

/-- Apply one write in its turn and answer it. -/
def State.mirrorTurn (s : State) (n : Ns) (src msgId : Nat) (mm : MirrorMeta) (b : MirrorBody) : State :=
  match s.applyMirror n mm b with
  | (true, s) => (s.setApplied n.nsid mm.asn).ackMirror src msgId mm true
  | (false, s) => s.ackMirror src msgId mm false

/-- Held writes whose turn has come, in PREV_ASN chain order. -/
def mirrorHeld (nsid : Nat) : Nat → State → State
  | 0, s => s
  | fuel + 1, s =>
    match s.fab.heldWrites.find? fun h => h.mm.nsid == nsid && h.mm.prevAsn == s.appliedAsn nsid, s.ns? nsid with
    | some h, some n =>
      let s := { s with fab := { s.fab with heldWrites := s.fab.heldWrites.filter fun x => x != h } }
      mirrorHeld nsid fuel (s.mirrorTurn n h.src h.msgId h.mm h.body)
    | _, _ => s

/-- MIRROR_WRITE at a member (R427). -/
def State.takeMirror (s : State) (m : FabMsg) (mm : MirrorMeta) (b : MirrorBody) : State :=
  match s.ns? mm.nsid with
  | none => s.ackMirror m.src m.msgId mm false
  | some n =>
    if n.copyOf ≠ some m.src then s.ackMirror m.src m.msgId mm false
    else if n.stamped then
      match s.applyMirror n mm b with
      | (ok, s) => s.ackMirror m.src m.msgId mm ok
    else if mm.asn ≤ s.appliedAsn n.nsid then s.ackMirror m.src m.msgId mm true
    else if mm.prevAsn = s.appliedAsn n.nsid then
      (fun (s : State) => mirrorHeld n.nsid s.fab.heldWrites.length s) (s.mirrorTurn n m.src m.msgId mm b)
    else { s with fab := { s.fab with heldWrites := s.fab.heldWrites ++ [⟨m.src, m.msgId, mm, b⟩] } }

def execMirrorWrite (m : FabMsg) (mm : MirrorMeta) (b : MirrorBody) (s : State) : Host.Outcome State Fault Refusal :=
  s.done (s.fabRequestIn m 0x02 fun s => s.takeMirror m mm b)

/-! ## Mirror copies (R426) -/

/-- A binding or origin of a namespace changed, durable at once. -/
def State.bindNs (s : State) (n : Ns) : State :=
  let as_ := fun (x : Ns) => if x.nsid = n.nsid then { x with mirrorSet := n.mirrorSet, copyOf := n.copyOf } else x
  s.journal ((s.setNs n).onBack fun b => { b with namespaces := b.namespaces.map as_ }) false

/-- MIRROR_COPY_CREATE: a member creates a copy, has it already, or refuses; a restored copy list keeps its NSID for the origin
that the record names (log entry 97). A namespace that the device pulls back becomes its own again (Table 17-11, step 5). -/
def State.createCopy (s : State) (m : FabMsg) (nsid : Nat) (d : Bytes) : Bool × State :=
  match s.ns? nsid with
  | some n => (n.copyOf == some m.src || s.fab.pulls.any fun x => x.1 == nsid, s)
  | none =>
    if nsid = 0 ∨ 4096 ≤ nsid ∨ !descriptorOk d ∨ (s.createFails d).isSome then (false, s)
    else
      let n := nsOf nsid (s.peekAsn nsid) d (some m.src)
      match s.fab.pulls.find? fun x => x.1 == nsid with
      | some x => (true, (s.addNs { n with copyOf := none, mirrorSet := some x.2.1 }).sendKeepers)
      | none =>
        if s.fab.copies.any fun x => x.1 == nsid && x.2 != m.src then (false, s)
        else
          let s := { s with fab := { s.fab with copies := s.fab.copies.filter fun x => x.1 != nsid } }
          (true, ((s.addNs n).setApplied nsid 0).sendKeepers)

def execMirrorCopyCreate (m : FabMsg) (nsid : Nat) (descriptor : Bytes) (s : State) : Host.Outcome State Fault Refusal :=
  s.done (s.fabRequestIn m 0x02 fun s =>
    match s.createCopy m nsid descriptor with
    | (ok, s) => s.fabReply m.src 0x02 m.msgId (.mirrorAck nsid 0 ok))

/-- MIRROR_COPY_RELEASE: the copy becomes an ordinary namespace of the member. -/
def State.releaseCopy (s : State) (m : FabMsg) (nsid : Nat) : State :=
  match s.ns? nsid with
  | none => s
  | some n =>
    if n.copyOf = some m.src then
      let held := s.fab.heldWrites.filter fun h => h.mm.nsid != nsid
      let s := { s with fab := { s.fab with heldWrites := held, applied := s.fab.applied.filter fun x => x.1 != nsid } }
      (s.bindNs { n with copyOf := none }).sendKeepers
    else s

def execMirrorCopyRelease (m : FabMsg) (nsid : Nat) (s : State) : Host.Outcome State Fault Refusal :=
  s.done (s.fabRequestIn m 0x02 fun s => (s.releaseCopy m nsid).fabReply m.src 0x02 m.msgId (.mirrorAck nsid 0 true))

/-- MIRROR_RELEASE: a release is sent again until it is acknowledged. -/
def State.sendRelease (s : State) (nsid addr : Nat) : State :=
  match s.member? nsid addr with
  | some m => if m.releasing then s.fabRequest addr 0x01 (.copyRelease nsid) none nsid 0 else s
  | none => s

def execMirrorRelease (nsid member : Nat) (s : State) : Host.Outcome State Fault Refusal :=
  s.done (if s.islandOn ∧ s.dev.phase = .service then s.sendRelease nsid member else s)

/-- RELEASE_ACKNOWLEDGED: the release stops. -/
def State.releaseDone (s : State) (nsid addr : Nat) : State :=
  let mine := fun (m : MirrorMember) => m.nsid == nsid && m.addr == addr && m.releasing
  let out := s.fab.outMsgs.filter fun o => !(o.dst == addr && o.body == FabPayload.copyRelease nsid)
  { s with fab := { s.fab with members := s.fab.members.filter fun m => !mine m, outMsgs := out } }

def execReleaseAcknowledged (nsid member : Nat) (s : State) : Host.Outcome State Fault Refusal :=
  s.done (if s.islandOn ∧ s.dev.phase = .service then s.releaseDone nsid member else s)

/-! ## Resync (R429) -/

/-- The items of a snapshot walk, in key order; none where a value cannot be read. -/
def walkRecs (key : Bytes) : List Rec → State → Option (List ResyncItem) × State
  | [], s => (some [], s)
  | r :: rs, s =>
    let v := if r.deleted then (⟨[], none⟩, s) else s.readLoc asWritten r.loc 0 (s.locLen r.loc)
    match v with
    | (⟨_, some _⟩, s) => (none, s)
    | (⟨b, none⟩, s) =>
      match walkRecs key rs s with
      | (some l, s) => (some (⟨key, r.stamp, r.session, if r.deleted then none else some b⟩ :: l), s)
      | x => x

def walkKeys : List KeyEntry → State → Option (List ResyncItem) × State
  | [], s => (some [], s)
  | e :: es, s =>
    match walkRecs e.key e.recs s with
    | (none, s) => (none, s)
    | (some a, s) =>
      match walkKeys es s with
      | (some b, s) => (some (a ++ b), s)
      | x => x

/-- The records of a sealed namespace, stream by stream. -/
def walkStream (key : Bytes) : List SealedRec → State → Option (List (Bytes × RecordHdr × Bytes)) × State
  | [], s => (some [], s)
  | r :: rs, s =>
    match s.readRecord asWritten r with
    | (⟨_, some _⟩, s) => (none, s)
    | (⟨b, none⟩, s) =>
      match walkStream key rs s with
      | (some l, s) => (some ((key, r.hdr, b) :: l), s)
      | x => x

def walkStreams : List Stream → State → Option (List (Bytes × RecordHdr × Bytes)) × State
  | [], s => (some [], s)
  | t :: ts, s =>
    match walkStream t.key t.recs s with
    | (none, s) => (none, s)
    | (some a, s) =>
      match walkStreams ts s with
      | (some b, s) => (some (a ++ b), s)
      | x => x

/-- The walk of a namespace sent to a device, from a snapshot at its current ASN; false where it cannot be read. -/
def State.sendWalk (s : State) (n : Ns) (addr : Nat) : Bool × State :=
  let asn := s.peekAsn n.nsid - 1
  match readLeaves asWritten (s.leavesOf n.nsid) s with
  | (.error _, s) => (false, s)
  | (.ok texts, s) =>
  match walkKeys (n.keys.map fun e => { e with recs := e.recs.map (s.seenIn n texts e.key) }) s with
  | (none, s) => (false, s)
  | (some items, s) =>
    match walkStreams (n.streams.map fun t => { t with recs := s.seenRecs n texts t t.recs }) s with
    | (none, s) => (false, s)
    | (some recs, s) => (true, s.fabRequest addr 0x07 (.resync n.nsid asn true true [] items recs) none n.nsid asn)

/-- A DEGRADED member that answers is RESYNCING and gets the descriptor, which a replacement lacks (log entry 97), and the walk;
the writes that follow it come after the snapshot. -/
def State.startResync (s : State) (m : MirrorMember) : State :=
  match s.ns? m.nsid with
  | none => s
  | some n =>
    if s.noRoute m.addr then s
    else
      let asn := s.peekAsn n.nsid - 1
      let s := s.fabRequest m.addr 0x01 (.copyCreate n.nsid n.descriptor) none n.nsid 0
      match (s.setMember { m with state := .resyncing, lastAsn := asn }).sendWalk n m.addr with
      | (true, s) => s
      | (false, s) => (s.setMember { m with state := .degraded }).raise Ev.FAB.MIRROR_DEGRADED

/-- MIRROR_PROBE. -/
def State.probeMember (s : State) (nsid addr : Nat) : State :=
  match s.member? nsid addr with
  | some m => if m.state = .degraded ∧ !m.releasing then s.fabRequest addr 0x05 .query none nsid 0 else s
  | none => s

def execMirrorProbe (nsid member : Nat) (s : State) : Host.Outcome State Fault Refusal :=
  s.done (if s.islandOn ∧ s.dev.phase = .service then s.probeMember nsid member else s)

/-- Keys that a walk passed over and the snapshot lacks. -/
def lacking (n : Ns) (first last : Bool) (from_ : Bytes) (items : List ResyncItem) : List Bytes :=
  let upto := fun (k : Bytes) => last || (match items.getLast? with
    | some i => bytesLe k i.key
    | none => false)
  (n.keys.filter fun e => (first || bytesLe from_ e.key) && upto e.key && !(items.any fun i => i.key == e.key)).map fun e => e.key

/-- The items of a walk stored. -/
def applyItems (nsid asn : Nat) : List ResyncItem → State → Except Nat Unit × State
  | [], s => (.ok (), s)
  | i :: is, s =>
    let r := match i.value with
      | some v => s.storeKey nsid i.key v asn i.stamp i.session true
      | none => s.removeKey nsid i.key i.stamp i.session
    match r with
    | (.error st, s) => (.error st, s)
    | (.ok _, s) => applyItems nsid asn is s

/-- Records at or above a stream's NEXT_SEQ, each checked under R399. -/
def applyRecords (nsid : Nat) : List (Bytes × RecordHdr × Bytes) → State → Bool × State
  | [], s => (true, s)
  | x :: xs, s =>
    match s.ns? nsid with
    | none => (false, s)
    | some n =>
      if x.2.1.seq < (n.streamOr x.1).nextSeq then applyRecords nsid xs s
      else
        match s.applyRecord n x.1 x.2.1 x.2.2 with
        | (.ok _, s) => applyRecords nsid xs s
        | (.error _, s) => (false, s)

/-- The keys that the snapshot lacks are removed: their records go with their values. -/
def dropLacking (nsid : Nat) : List Bytes → State → Except Nat Unit × State
  | [], s => (.ok (), s)
  | k :: ks, s =>
    match s.ns? nsid with
    | none => (.ok (), s)
    | some n =>
      match s.putRecs n k [] ((n.recs k).map fun r => r.loc) false with
      | (.error e, s) => (.error e, s)
      | (.ok _, s) => dropLacking nsid ks s

/-- One message of a walk applied. -/
def State.applyWalk (s : State) (n : Ns) (asn : Nat) (first last : Bool) (from_ : Bytes) (items : List ResyncItem)
    (records : List (Bytes × RecordHdr × Bytes)) : Bool × State :=
  let gone := if n.kind = .sealed then [] else lacking n first last from_ items
  let w := s.tryWrite { n with quota := 0 } true fun s =>
    match dropLacking n.nsid gone s with
    | (.error e, s) => (.error e, s)
    | (.ok _, s) => applyItems n.nsid asn items s
  match w with
  | (.error _, s) => (false, s)
  | (.ok _, s) => applyRecords n.nsid records s

/-- A pull has ended (step 5 of Table 17-11): the namespace's ASNs go on above the walk's, the member that gave it is IN_SYNC and
the set's others are DEGRADED until they have been resynced. -/
def State.pulled (s : State) (src nsid asn : Nat) : State :=
  let addrs := match (s.fab.pulls.find? fun x => x.1 == nsid).bind fun p => s.fab.sets.find? fun x => x.1 == p.2.1 with
    | some x => x.2.2
    | none => []
  let s := { s with fab := { s.fab with pulls := s.fab.pulls.filter fun x => x.1 != nsid }
                    cmd := { s.cmd with nextAsn := SMap.set (fun _ => 1) nsid (max (s.peekAsn nsid) (asn + 1)) s.cmd.nextAsn } }
  let last := s.peekAsn nsid - 1
  addrs.foldl (fun (s : State) a => s.setMember ⟨nsid, a, if a = src then .inSync else .degraded, last, false⟩) s

/-- RESYNC at a member; an empty one that neither begins nor ends a walk asks a member for one (log entry 97). -/
def State.takeResync (s : State) (m : FabMsg) (nsid asn : Nat) (first last : Bool) (from_ : Bytes) (items : List ResyncItem)
    (records : List (Bytes × RecordHdr × Bytes)) : State :=
  let refuse := s.fabReply m.src 0x02 m.msgId (.mirrorAck nsid asn false)
  match s.ns? nsid with
  | none => refuse
  | some n =>
    let mine := n.copyOf == some m.src
    let pulled := s.fab.pulls.any fun x => x.1 == nsid
    if mine && !first && !last && items.isEmpty && records.isEmpty then
      let s := s.fabReply m.src 0x02 m.msgId (.mirrorAck nsid asn true)
      ((s.fabRequest m.src 0x01 (.copyCreate nsid n.descriptor) none nsid 0).sendWalk n m.src).2
    else if mine || pulled then
      match s.applyWalk n asn first last from_ items records with
      | (false, s) => s.fabReply m.src 0x02 m.msgId (.mirrorAck nsid asn false)
      | (true, s) =>
        let s := s.fabReply m.src 0x02 m.msgId (.mirrorAck nsid asn true)
        if last then
          let s := if mine then s.setApplied nsid asn else s.pulled m.src nsid asn
          mirrorHeld nsid s.fab.heldWrites.length s
        else s
    else refuse

def execResync (m : FabMsg) (nsid asn : Nat) (first last : Bool) (from_ : Bytes) (items : List ResyncItem)
    (records : List (Bytes × RecordHdr × Bytes)) (s : State) : Host.Outcome State Fault Refusal :=
  s.done (s.fabRequestIn m 0x02 fun s => s.takeResync m nsid asn first last from_ items records)

/-! ## Queries (R423) -/

/-- The 32-byte state of the device. -/
def State.fabState (s : State) : Bytes :=
  let reg := fun (f : Field) => ((s.liveFields 16 0 f.off).find? fun x => x.1 == f).elim 0 fun x => x.2
  let addr := fun (l : Link) => match l.neigh with
    | some t => t.addr
    | none => 0
  let stat := fun (l : Link) => ((s.liveFab (l.id + 1) 0x040).head?).elim 0 fun x => x.2
  leBytes 2 s.fab.addr ++ leBytes 2 (reg Reg.FAB_SLED.UP) ++ leBytes 2 (reg Reg.FAB_SLED.GW) ++
    (s.fab.links.map fun l => leBytes 1 (stat l)).flatten ++ (s.fab.links.map fun l => leBytes 2 (addr l)).flatten ++
    leBytes 2 (reg Reg.FAB_MIRROR.SETS) ++ leBytes 2 (reg Reg.FAB_MIRROR.NOT_IN_SYNC) ++ leBytes 8 s.serial ++ [0, 0]

def execQueryReq (m : FabMsg) (s : State) : Host.Outcome State Fault Refusal :=
  s.done (s.fabRequestIn m 0x06 fun s => s.fabReply m.src 0x06 m.msgId (.bytes s.fabState))

/-- QUERY_RESP: FAB_QUERY completes, or a probed member resyncs. -/
def State.takeQueryResp (s : State) (m : FabMsg) (reqId : Nat) (st : Bytes) : State :=
  match s.outFor m reqId [0x05] with
  | none => s
  | some o =>
    let s := s.dropOut reqId
    match o.tag with
    | some t => match s.entry? t with
      | some e => s.finishData e stOK [] st
      | none => s
    | none => match s.member? o.nsid o.dst with
      | some x => if x.state = .degraded then s.startResync x else s
      | none => s

def execQueryResp (m : FabMsg) (reqId : Nat) (st : Bytes) (s : State) : Host.Outcome State Fault Refusal :=
  s.done (s.fabTake m fun s => s.takeQueryResp m reqId st)

/-- A command sends a request for itself, once. -/
def State.askFor (s : State) (e : TagEntry) (dst ftype : Nat) (p : FabPayload) : State :=
  if s.fab.outMsgs.any fun o => o.tag == some e.id then s
  else if s.noRoute dst then (s.count Reg.FAB.UNREACHABLE 1).finish e stUnreachable []
  else s.fabRequest dst ftype p (some e.id) 0 0

def fabQueryBody (e : TagEntry) (s : State) : State :=
  if beAt e.msg.param 0 1 = 0 then s.finishData e stOK [] s.fabState
  else s.askFor e (beAt e.msg.param 1 2) 0x05 .query

def execFabQuery (t : TagId) (s : State) : Host.Outcome State Fault Refusal := s.done (s.runCmd t 0x70 fabQueryBody)

/-! ## Forwarded commands (R424) -/

def execFabForward (t : TagId) (s : State) : Host.Outcome State Fault Refusal :=
  s.done (s.runCmd t 0x72 fun e s => s.askFor e (beAt e.msg.param 0 2) 0x03 (.bytes e.msg.value))

/-- FORWARD_REQ at the target: the inner command waits in the receive queues, in its forwarding context. -/
def State.takeForward (s : State) (m : FabMsg) (b : Bytes) : State :=
  let t : TagId := ⟨.forward m.src, m.msgId⟩
  if b.length < 32 ∨ b.length ≠ 32 + beAt b 6 2 + beAt b 8 4 then s.respond t (doneWith stBadField 0 []) false
  else
    s.queueCmd ⟨.forward m.src, .admin, m.msgId, msgOf b⟩

def execForwardReq (m : FabMsg) (msg : Bytes) (s : State) : Host.Outcome State Fault Refusal :=
  s.done (s.fabRequestIn m 0x04 fun s => s.takeForward m msg)

/-- FORWARD_RESP at the source: the answer of a relayed abort, or the inner completion. An inner command that was aborted
makes FAB_FORWARD complete with `ABORTED` and the target's APPLIED. -/
def State.takeForwardResp (s : State) (m : FabMsg) (reqId : Nat) (c : Bytes) : State :=
  match s.outFor m reqId [0x03, 0x08] with
  | none => s
  | some o =>
    let s := s.dropOut reqId
    match o.tag.bind s.entry? with
    | none => s
    | some e =>
      let st := beAt c 0 2
      if o.ftype = 0x08 then s.finish e st []
      else if st = stAborted then s.finish e stAborted (sliceB c 16 8)
      else s.finishData e stOK [] c

def execForwardResp (m : FabMsg) (reqId : Nat) (completion : Bytes) (s : State) : Host.Outcome State Fault Refusal :=
  s.done (s.fabTake m fun s => s.takeForwardResp m reqId completion)

/-- ABORT_RELAY at the target: R187 decides at the target's entry; a command that still waits for admission has no effect. -/
def State.takeRelay (s : State) (m : FabMsg) (reqId : Nat) : State :=
  let r : TagId := ⟨.forward m.src, m.msgId⟩
  let mine := fun (q : QueuedCmd) => q.ctx == .forward m.src && q.tag == reqId
  match s.entry? ⟨.forward m.src, reqId⟩ with
  | none =>
    if s.cmd.queue.any mine then
      let s := { s with cmd := { s.cmd with queue := s.cmd.queue.filter fun q => !mine q } }
      (s.respond ⟨.forward m.src, reqId⟩ (doneWith stAborted 0 [0]) false).respond r (doneWith stOK 0 []) false
    else s.respond r (doneWith stTooLate 0 []) false
  | some f => (s.stopEntry f).respond r (doneWith stOK 0 []) false

def execAbortRelay (m : FabMsg) (reqId : Nat) (s : State) : Host.Outcome State Fault Refusal :=
  s.done (s.fabRequestIn m 0x04 fun s => s.takeRelay m reqId)

/-! ## Retransmission and unreachable destinations (R412) -/

/-- MESSAGE_RETRANSMIT: every frame of the request again, at most seven times. -/
def State.resendOut (s : State) (o : OutMsg) : State :=
  if o.tries < 7 then
    let s := { s with fab := { s.fab with outMsgs := updWhere (fun x => x.msgId == o.msgId) (fun x => { x with tries := x.tries + 1 })
                                            s.fab.outMsgs } }
    (s.count Reg.FAB.MSG_RETX o.frames.length).inject o.link o.frames
  else s

def execMessageRetransmit (msgId : Nat) (s : State) : Host.Outcome State Fault Refusal :=
  s.done (match s.fab.outMsgs.find? fun o => o.msgId == msgId with
    | some o => if s.islandOn then s.resendOut o else s
    | none => s)

/-- The entry that an ABORT names. -/
def State.abortTarget (s : State) (a : TagEntry) : Option TagEntry :=
  s.entry? ⟨.session (beAt a.msg.param 0 2 % 4096), beAt a.msg.param 2 2⟩

/-! ## FAB_MIRROR_SET (R425, R426) -/

/-- The member addresses of DEFINE. -/
def setMembers (m : CmdMsg) : List Nat := (List.range (beAt m.param 4 1)).map fun k => beAt m.value (2 * k) 2

/-- Some address occurs twice. -/
def repeats : List Nat → Bool
  | [] => false
  | a :: as => as.contains a || repeats as

def defineSet (e : TagEntry) (s : State) : State :=
  let id := beAt e.msg.param 2 2
  let n := beAt e.msg.param 4 1
  let l := setMembers e.msg
  if id = 0 ∨ 65534 < id ∨ (s.fab.sets.any fun x => x.1 == id) ∨ n = 0 ∨ 3 < n ∨ e.msg.value.length ≠ 2 * n ∨
      l.contains s.fab.addr ∨ repeats l then s.finish e stBadField []
  else if 256 ≤ s.fab.sets.length then s.finish e stBusy []
  else if s.flash.readOnly then s.finish e stWorn []
  else
    let s := s.journal { s with fab := { s.fab with sets := s.fab.sets ++ [(id, bitOf (beAt e.msg.param 1 1) 0, l)] } } false
    (s.finish e stOK []).sendKeepers

def deleteSet (e : TagEntry) (s : State) : State :=
  let id := beAt e.msg.param 2 2
  let named := (s.table 2).any fun x => match x.2 with
    | some c => bitsOf c.data 16 16 == id
    | none => false
  if !(s.fab.sets.any fun x => x.1 == id) ∨ !e.msg.value.isEmpty then s.finish e stBadField []
  else if named ∨ (s.kv.namespaces.any fun n => n.mirrorSet == some id) then s.finish e stNotPermitted []
  else if s.flash.readOnly then s.finish e stWorn []
  else
    let s := s.journal { s with fab := { s.fab with sets := s.fab.sets.filter fun x => x.1 != id } } false
    (s.finish e stOK []).sendKeepers

/-- Members of a namespace that its binding no longer names are sent a release. -/
def State.releaseMembers (s : State) (nsid : Nat) (keep : List Nat) : State :=
  let out := s.fab.members.filter fun m => m.nsid == nsid && !keep.contains m.addr && !m.releasing
  out.foldl (fun s m => (s.setMember { m with releasing := true, state := .inSync }).sendRelease nsid m.addr) s

/-- A member takes part from the BIND on: IN_SYNC where the namespace is empty, else DEGRADED until it has been resynced
(log entry 98). -/
def State.addMember (s : State) (n : Ns) (addr : Nat) : State :=
  if (s.member? n.nsid addr).any fun m => !m.releasing then s
  else
    let fresh := n.keys.isEmpty && n.streams.isEmpty
    s.setMember ⟨n.nsid, addr, if fresh then .inSync else .degraded, s.peekAsn n.nsid - 1, false⟩

/-- BIND: the descriptor goes to each member, whose answers the row gives. -/
def bindSet (refused unreachable : Bool) (e : TagEntry) (n : Ns) (s : State) : State :=
  let id := beAt e.msg.param 2 2
  if !e.msg.value.isEmpty then s.finish e stBadField []
  else if id = 0xFFFF then
    if s.flash.readOnly then s.finish e stWorn []
    else
      let s := ((s.bindNs { n with mirrorSet := none }).finish e stOK []).releaseMembers n.nsid []
      s.sendKeepers
  else
    match s.fab.sets.find? fun x => x.1 == id with
    | none => s.finish e stBadField []
    | some x =>
      if s.flash.readOnly then s.finish e stWorn []
      else
        let cut := x.2.2.any fun a => s.noRoute a
        let ask := fun (s : State) (a : Nat) =>
          let k := s.fab.nextMsg
          (s.fabRequest a 0x01 (.copyCreate n.nsid n.descriptor) none n.nsid 0).dropOut k
        let s := x.2.2.foldl ask s
        if refused ∧ !cut then s.finish e stMirrorFailed []
        else if unreachable ∨ cut then (s.count Reg.FAB.UNREACHABLE 1).finish e stUnreachable []
        else
          let s := ((s.bindNs { n with mirrorSet := some id }).finish e stOK []).releaseMembers n.nsid x.2.2
          (x.2.2.foldl (fun s a => s.addMember n a) s).sendKeepers

def fabMirrorSetBody (refused unreachable : Bool) (e : TagEntry) (s : State) : State :=
  let op := beAt e.msg.param 0 1
  if op = 1 then defineSet e s
  else if op = 2 then deleteSet e s
  else
    match s.ns? e.msg.nsid with
    | none => s.finish e stNsUnknown []
    | some n => bindSet refused unreachable e n s

def execFabMirrorSet (t : TagId) (refused unreachable : Bool) (s : State) : Host.Outcome State Fault Refusal :=
  s.done (s.runCmd t 0x71 (fabMirrorSetBody refused unreachable))

/-! ## Gateway hellos (R421) -/

def State.takeHello (s : State) (sled index : Nat) : State :=
  if s.isGateway ∧ sled < 4096 ∧ index < 4 ∧ !s.fab.gwLive.contains (sled, index) then
    { s with fab := { s.fab with gwLive := s.fab.gwLive ++ [(sled, index)] } }
  else s

def execGwHello (m : FabMsg) (sled index : Nat) (s : State) : Host.Outcome State Fault Refusal :=
  s.done (if s.islandOn ∧ !s.inStale then s.fabAuth m fun s => s.takeHello sled index else s)

/-- A GW_HELLO goes to the group address. -/
def State.sendHello (s : State) : State :=
  let dest : FrameTo := ⟨Config.floodDst 0x11, 0x11, none, Config.fabFlow (Config.floodDst 0x11) 0⟩
  match s.gatewayPort, s.makeFrames dest (payloadBytes (.hello (s.fab.addr / 16) (s.rd Reg.FAB_CFG.GW_INDEX))) with
  | some p, (fs, s) =>
    let s := { s with dev := { s.dev with routerQuiet := false } }
    let send := fun (s : State) (f : FabFrame) => (s.count Reg.FAB.ORIGINATED 1).sendOn p
      (.ethFabric (s.gatewayTo p 0x034658000000) (s.rd Reg.NET_FAB.FAB_ETHERTYPE) (frameBytes f))
    fs.foldl send s
  | none, _ => s

def execGwHelloPeriod (s : State) : Host.Outcome State Fault Refusal :=
  s.done (if s.islandOn ∧ !s.inStale ∧ s.isGateway then
      s.sendHello
    else s)

def execGwIndexTimeout (sled index : Nat) (s : State) : Host.Outcome State Fault Refusal :=
  s.done { s with fab := { s.fab with gwLive := s.fab.gwLive.filter fun x => x != (sled, index) } }

/-! ## Keeper records and inheritance (chapter 17, Replacement; R431) -/

/-- KEEPER: the neighbour's record is stored; MIRROR_ACK answers it (log entry 96). Its frame is LOCAL, and wakes nothing:
DESIGN CHOICE (log entry 155). -/
def State.takeKeeper (s : State) (link : Nat) (m : FabMsg) (k : KeeperRec) : State :=
  let s := { s with fab := { s.fab with keepers := putWhere (fun x => x.1 == link) (link, k) s.fab.keepers } }
  (s.setLink { s.link link with keeperSeen := s.dev.clockMs }).fabReply m.src 0x02 m.msgId (.mirrorAck 0 0 true)

def execKeeper (link : Nat) (m : FabMsg) (k : KeeperRec) (s : State) : Host.Outcome State Fault Refusal :=
  s.done (if s.islandOn ∧ s.dev.phase = .service ∧ link < 4 ∧ (s.link link).isUp ∧ (s.link link).state ≠ 5 ∧ !s.flash.readOnly ∧
        !s.cmd.paused then
      s.fabAuth m fun s => s.requestCore m 0x02 fun s => s.takeKeeper link m k
    else s)

/-- The body that an accepted offer commits (R431): the hardware and tier are the device's own, JOINED is 1. -/
def State.inheritBody (s : State) (k : KeeperRec) : Option CfgBody :=
  let h := s.cfg.hw
  let b : CfgBody := ⟨k.profile, h.answers.toNat, h.nandId, h.dies, h.heads, h.dramGib, k.fabAddrHi, k.compatPin,
    s.flash.identity, k.regs⟩
  b.joined.filter CfgBody.sound

/-- Agreeing offers accepted: the answers, the commit, and the CONTROLLER reset (steps 2 and 3 of Table 17-11). A record whose
body fails a structural check of R106 is not accepted, as a `CONFIG_WRITE` of it would not be (R112). -/
def State.acceptOffer (s : State) (k : KeeperRec) : State :=
  if (s.inheritBody k).isNone then s
  else
  let s := s.fab.offers.foldl (fun s x => s.fabTell ⟨Config.floodDst 0x13, 0x13, some x.1, 0⟩ (.accept k.digest)) s
  let s := if !s.flash.formatted ∧ s.drbgOk then s.formatFlash else s
  match s.inheritBody k with
  | none => s
  | some b =>
    let p : CfgPending := ⟨.body b, .path .firmware⟩
    let s := { s with cfg := { s.cfg with under := s.cfg.under ++ [p] } }
    let s := s.commitCfg
    let s := { s with fab := { s.fab with inherited := some k } }
    if s.dev.resetBusy then s else s.runController none

/-- INHERIT_OFFER: held by link; offers of one digest from two neighbours or more are accepted, while none differs. -/
def State.takeOffer (s : State) (link : Nat) (k : KeeperRec) : State :=
  let s := { s with fab := { s.fab with offers := putWhere (fun x => x.1 == link) (link, k) s.fab.offers } }
  if 2 ≤ s.fab.offers.length ∧ (s.fab.offers.all fun x => x.2.digest == k.digest) then s.acceptOffer k else s

def execInheritOffer (link : Nat) (k : KeeperRec) (s : State) : Host.Outcome State Fault Refusal :=
  s.done (if s.islandOn ∧ (s.dev.phase = .service ∨ s.dev.phase = .stalemate) ∧ link < 4 ∧ (s.link link).state = 4 ∧
        s.unjoined ∧ !s.dev.resetBusy then s.takeOffer link k
    else s)

/-- INHERIT_ACCEPT: the neighbour has taken the record, which is offered no more on that link. -/
def execInheritAccept (link : Nat) (s : State) : Host.Outcome State Fault Refusal :=
  s.done (if s.islandOn ∧ link < 4 ∧ (s.link link).state = 4 then s.setLink { s.link link with offered := true } else s)

end Sys2Proof.Machine
end

