-- ==== Sys2Proof/Machine/FwOps.lean ====
section
/-! DEFINITION. What firmware update, castling and the boot chain share (chapters 15 and 18): the package's layout, the
slot record and its writes, and the choice of the image that runs (R432 to R434, R447, R448, R450). -/

namespace Sys2Proof.Machine

open Sys2Proof

/-! ## The package (R432, R433) -/

/-- Offset and length of a part in the manifest (R433). -/
def partOff (pkg : Bytes) (id : Nat) : Nat := leAt pkg (64 + 64 * (id - 1) + 4) 4
def partLen (pkg : Bytes) (id : Nat) : Nat := leAt pkg (64 + 64 * (id - 1) + 8) 4

/-- The bytes of a part. -/
def pkgPart (pkg : Bytes) (id : Nat) : Bytes := sliceB pkg (partOff pkg id) (partLen pkg id)

/-- The digest that the manifest gives a part. -/
def partDigest (pkg : Bytes) (id : Nat) : Bytes := sliceB pkg (64 + 64 * (id - 1) + 16) 48

/-- A digest that names no package: the slot is empty (Table 18-10). -/
def noDigest : Bytes := List.replicate 48 0

/-! ## The slot record (R447, Table 18-10) -/

/-- The digest, FUNC_VERSION and SEC_VERSION of a slot: 0 A, 1 B. -/
def SlotRecord.digest (r : SlotRecord) (k : Nat) : Bytes := if k = 0 then r.digestA else r.digestB
def SlotRecord.func (r : SlotRecord) (k : Nat) : Nat := if k = 0 then r.funcA else r.funcB
def SlotRecord.sec (r : SlotRecord) (k : Nat) : Nat := if k = 0 then r.secA else r.secB

/-- A record that names another package in a slot. -/
def SlotRecord.name (r : SlotRecord) (k : Nat) (digest : Bytes) (func sec : Nat) : SlotRecord :=
  if k = 0 then { r with digestA := digest, funcA := func, secA := sec }
  else { r with digestB := digest, funcB := func, secB := sec }

/-- A record of no package, which a first write fills. -/
def SlotRecord.blank : SlotRecord := ⟨0, 0, false, false, false, 0, 0, noDigest, noDigest, 0, 0, 0, 0⟩

/-- The record in force; a blank one where no copy is valid. -/
def Fw.record (f : Fw) : SlotRecord := f.current.getD SlotRecord.blank

/-- The slot that is not active. -/
def SlotRecord.other (r : SlotRecord) : Nat := 1 - r.active

/-- The 256 bytes of a copy (Table 18-10). -/
def SlotRecord.bytes (r : SlotRecord) : Bytes :=
  let b := leBytes 4 0x534C4F54 ++ leBytes 4 r.generation ++ leBytes 1 r.active ++ leBytes 1 (if r.trial then 2 else 1) ++
    leBytes 1 ((if r.reverted then 1 else 0) + (if r.fallback then 2 else 0)) ++ leBytes 1 r.trialStarts ++
    leBytes 4 r.trialSeconds ++ r.digestA ++ r.digestB ++ leBytes 4 r.funcA ++ leBytes 4 r.funcB ++ leBytes 1 r.secA ++
    leBytes 1 r.secB ++ List.replicate 130 0
  b ++ leBytes 4 (crc32c b)

/-- The record that the bytes of a copy hold, where MAGIC and CRC are correct; its GENERATION is `SlotRecord.live`'s. -/
def readSlotRecord (b : Bytes) : Option SlotRecord :=
  if leAt b 0 4 = 0x534C4F54 ∧ leAt b 252 4 = crc32c (b.take 252) then
    some ⟨leAt b 4 4, leAt b 8 1, leAt b 9 1 == 2, bitOf (leAt b 10 1) 0, bitOf (leAt b 10 1) 1, leAt b 11 1, leAt b 12 4,
      sliceB b 16 48, sliceB b 64 48, leAt b 112 4, leAt b 116 4, leAt b 120 1, leAt b 121 1⟩
  else none

/-- A record written to the copy that is not current, its generation one above (R447): what the State holds of a copy is the
record that its bytes hold, none where they hold none. -/
def Fw.put (f : Fw) (r : SlotRecord) : Fw :=
  let r := { r with generation := (f.record).generation + 1 }
  match SlotRecord.live f.rec0, SlotRecord.live f.rec1 with
  | some a, some b => if a.generation < b.generation then { f with rec0 := some r } else { f with rec1 := some r }
  | some _, none => { f with rec1 := some r }
  | none, _ => { f with rec0 := some r }

/-- Castling back (R450): the other slot active, CONFIRMED, REVERTED. -/
def SlotRecord.castledBack (r : SlotRecord) : SlotRecord :=
  { r with active := r.other, trial := false, reverted := true, trialStarts := 0, trialSeconds := 0 }

/-- The confirmation's record (step 2 of R451). -/
def SlotRecord.confirmed (r : SlotRecord) : SlotRecord :=
  { r with trial := false, trialStarts := 0, trialSeconds := 0 }

/-- The bytes that the device knows a slot to hold. -/
def Fw.image (f : Fw) (k : Nat) : Bytes := if k = 0 then f.imageA else f.imageB

/-- A slot is runnable as far as its record goes (R448): it names a package, of SEC_VERSION at the fuse count or above. -/
def State.slotAllowed (s : State) (r : SlotRecord) (k : Nat) : Bool :=
  r.digest k != noDigest && decide (s.key.fuses.rollback ≤ r.sec k)

/-- A_RUNNABLE and B_RUNNABLE (Table 18-13). -/
def State.setRunnable (s : State) (a b : Bool) : State := { s with fw := { s.fw with aRunnable := a, bRunnable := b } }

/-! ## The measured image (R379) -/

/-- MEAS_DIGEST written and read. -/
def State.setMeas (s : State) (d : Bytes) : State :=
  (List.range 12).foldl (fun (s : State) k => s.wrAt Reg.MEAS_DIGEST.MEAS 0 k (wordAt d k)) s
def State.measDigest (s : State) : Bytes :=
  ((List.range 12).map fun k => leBytes 4 (s.rdAt Reg.MEAS_DIGEST.MEAS 0 k)).flatten

/-- The default automata image of the slot that runs becomes IMAGE_ID 1 (R243, Table 18-2). -/
def State.loadAuto (s : State) (b : Bytes) : State :=
  match s.pat.images.find? fun i => i.id == 1 && i.current with
  | some i => if i.bytes = b then s else s.loadImage 1 b
  | none => s.loadImage 1 b

/-- MAX_LEVEL of the image that runs (Table 05-8), where the device knows its bytes. -/
def State.showLevel (s : State) (pkg : Bytes) : State :=
  if pkg.isEmpty then s else s.wr Reg.COMPAT.MAX_LEVEL (leAt pkg 18 2)

/-! ## The boot loader's choice (R448) -/

/-- What the boot loader decides: the record in force, whether it was written, the events that follow, and the ROLLBACK
fuse count. -/
structure BootPick where
  slots  : SlotRecord
  wrote  : Bool
  events : List Event
  fuses  : Nat
  deriving DecidableEq, Repr

/-- Rules 1 to 5 of R448; `ok` says which slots verify. Rule 2 blows the fuses that step 1 of R451 had not reached. -/
def State.bootRule (s : State) (f : StartFindings) (ok : Nat → Bool) : Option BootPick :=
  let fuse := s.key.fuses.rollback
  match s.fw.current with
  | none =>
    let r := { SlotRecord.blank with
      digestA := if f.slotA.verifies then f.slotA.digest else noDigest
      digestB := if f.slotB.verifies then f.slotB.digest else noDigest
      funcA := f.slotA.func, funcB := f.slotB.func, secA := f.slotA.sec, secB := f.slotB.sec }
    if ok 0 ∧ fuse ≤ f.slotA.sec then some ⟨{ r with active := 0 }, true, [], fuse⟩
    else if ok 1 ∧ fuse ≤ f.slotB.sec then some ⟨{ r with active := 1 }, true, [], fuse⟩
    else none
  | some r =>
    if r.trial then
      if r.sec r.other < fuse then some ⟨r.confirmed, true, [Ev.UPD.CONFIRMED], max fuse (r.sec r.active)⟩
      else if r.trialStarts = 3 then some ⟨r.castledBack, true, [Ev.UPD.REVERTED], fuse⟩
      else some ⟨{ r with trialStarts := r.trialStarts + 1 }, true, [], fuse⟩
    else some ⟨r, false, [], fuse⟩

/-- The slot that runs: the chosen one, or the other where only that one is runnable (FALLBACK; in TRIAL a castling
back); none where neither is. -/
def State.bootPick (s : State) (f : StartFindings) (ok : Nat → Bool) : Option BootPick :=
  match s.bootRule f ok with
  | none => none
  | some p =>
    let run := fun k => ok k && s.slotAllowed p.slots k
    if run p.slots.active then some p
    else if run p.slots.other then
      let back := { p.slots.castledBack with reverted := p.slots.reverted || p.slots.trial, fallback := true }
      some ⟨back, true, p.events ++ [Ev.UPD.FALLBACK] ++ (if p.slots.trial then [Ev.UPD.REVERTED] else []), p.fuses⟩
    else none

end Sys2Proof.Machine
end

