-- ==== Sys2Proof/Machine/StartOps.lean ====
section
/-! DEFINITION. Resets and starts (chapter 04): what a reset keeps and clears (Tables 04-5 and 04-6), and the cold and warm
start up to service or stalemate (Tables 04-2 to 04-4, 04-10). -/

namespace Sys2Proof.Machine

open Sys2Proof

/-! ## Retention (R99, R100, R485) -/

/-- Fields that no start changes, whatever their class: fused values, counts that the flash system area keeps, and the
straps, which a start samples afresh (log entry 4). -/
def lastingFields : List Field :=
  [Reg.SERIAL_LO.WORD, Reg.SERIAL_HI.WORD, Reg.NET_MAC_LO.MAC_LO, Reg.NET_MAC_HI.MAC_HI, Reg.DEV_FIELD.WORD,
   Reg.HLT_TEMP.TEMP_LIFE, Reg.HLT_HOURS.POWERED_HOURS, Reg.HLT.FLASH_UNCORR, Reg.HLT.DISK_UNCORR,
   Reg.HLT.TAG_FAILS_LIFE, Reg.PROFILE.STRAP, Reg.PROFILE.IN_FORCE, Reg.PROFILE.SLOT]

/-- A field keeps its value through a reset: class K or W as told; class C until its reload. -/
def fieldKept (k w : Bool) (f : Field) : Bool :=
  lastingFields.contains f || (match f.ret with
    | .k => k
    | .w => w
    | .c => true
    | .l => false
    | .a => false)

/-- The bits of a register that a reset keeps: of the header, the class C bits of EVT_EN only. -/
def keptMask (k w : Bool) (a : Nat) : Word :=
  let off := addrOff a
  if off = hEvtEn then classCMask a
  else if off < 0x40 then 0
  else ((fieldsAt (addrBlock a) (addrPage a) off).filter (fieldKept k w)).foldl (fun m f => m ||| fieldMask f.lo f.width) 0

/-- Register words through a reset (Table 04-6). -/
def retainRegs (k w : Bool) (m : Regs) : Regs :=
  m.foldl (fun r p =>
    let c := keptMask k w p.1
    SMap.set regReset p.1 ((p.2 &&& c) ||| (regReset p.1 &&& ~~~c)) r) []

/-- Class K fields survive every reset but a POR. -/
def StartKind.keepsK : StartKind → Bool
  | .por => false
  | _ => true

/-- Class W fields survive the resets whose column says so, and HIBERNATE. -/
def StartKind.keepsW : StartKind → Bool
  | .pin | .watchdog | .controller | .debug | .hibernateExit => true
  | _ => false

/-- Kinds whose start is cold (Table 04-5, R100, R485). -/
def StartKind.cold : StartKind → Bool
  | .por | .alarm | .railFailed | .railLoss => true
  | _ => false

/-- KIND of START_REASON (Table 04-11). -/
def StartKind.code : StartKind → Nat
  | .por => 0
  | .alarm => 1
  | .pin => 2
  | .watchdog => 3
  | .controller => 4
  | .debug => 5
  | .hibernateExit => 6
  | .railFailed => 7
  | .railLoss => 8

/-! ## What a reset clears (R92, R101, Table 04-5) -/

/-- Mirror members that a reset leaves uncertain: a resync under way fails, and a member whose acknowledgement was awaited
may lack the write (R428, R429; log entry 110). -/
def State.dropMirrors (s : State) : State :=
  let awaited := (s.cmd.tags.map fun e => e.mirrors.map fun a => (e.msg.nsid, a)).flatten
  let lost := s.fab.members.filter fun m => m.state == .resyncing || (m.state == .inSync && awaited.contains (m.nsid, m.addr))
  lost.foldl (fun (s : State) m => s.degradeMember m.nsid m.addr) s

/-- The fabric through a reset: the island keeps its links, map and address; what firmware and DRAM held is gone. -/
def Fab.afterReset (f : Fab) (island : Bool) : Fab :=
  let f := { f with outMsgs := [], sources := [], heldWrites := [], gwLive := [], inject := [] }
  if island then f
  else { f with seeds := [], links := [Link.down 0, Link.down 1, Link.down 2, Link.down 3], sled := [], flows := [], addr := 0,
                addrValid := false }

/-- The debug port through a reset: locked, every halt released, breakpoints and watchpoints gone (R478); FAILS and
LOCKOUT are class K; a POR resets the test access port too (R467). -/
def Dbg.afterReset (d : Dbg) (k : Bool) : Dbg :=
  { Dbg.reset with fails := if k then d.fails else 0, lockout := if k then d.lockout else 0,
                   instr := if k then d.instr else 2, cells := if k then d.cells else [],
                   capture := if k then d.capture else [], observeOk := d.observeOk, fullOk := d.fullOk }

/-- The always-on view of the device through a reset. -/
def Dev.afterReset (d : Dev) (kind : StartKind) (src detail : Nat) : Dev :=
  { d with phase := .starting kind.cold, kind := kind, alarmSrc := src, startDetail := detail, railsFailed := 0,
           power := .active, entering := none, enterTags := [], routerQuiet := false, thermalLimit := 340,
           riseCounting := false, ballastCodes := [], ballastPassed := false, ballastWithdrawn := false,
           domAccess := 0, resetBusy := false, resetWaiter := none, pinsHeld := false }

/-- A reset takes effect: sessions, tags and every volatile copy are gone, so each session's L lapses (R180), and the start of
its kind is about to run. -/
def State.beginReset (s : State) (kind : StartKind) (src detail : Nat) : State :=
  let s := (s.resetHeads.dropMirrors.dropCommit).dropEarly fun _ => true
  let island := kind.keepsIsland && s.islandKept
  let table0 := s.cam.tables.filter fun x => x.1 == 0 && island
  let lapse := fun (n : Ns) => if n.stamped then Ns.advance { n with latest := [] } else n
  { s with
    regs := retainRegs kind.keepsK kind.keepsW s.regs
    dev := s.dev.afterReset kind src detail
    cfg := { s.cfg with frags := [] }
    ports := List.replicate 8 Port.down
    sessions := []
    authTimes := []
    cmd := { s.cmd with tags := [], queue := [], paused := false }
    kv := { s.kv with cache := [], readOnce := [], rebuilding := false, early := []
                      namespaces := s.kv.namespaces.map lapse }
    cam := { s.cam with tables := table0, retained := [], moving := none }
    flash := { s.flash with mounted := false, unsupported := false }
    rdc := { s.rdc with samples := [] }
    srv := { s.srv with suspects := [], suspectsPrev := [] }
    cry := Cry.reset
    key := { s.key with slots := [], vaultOk := false, rootOk := false }
    sea := { s.sea with restored := false }
    fab := s.fab.afterReset island
    fw := { s.fw with activating := none }
    log := { s.log with ring := [] }
    dbg := s.dbg.afterReset kind.keepsK
    mctp := ⟨0, false, false⟩
    latches := []
    portQueue := [] }

/-- The hardware drain of R95 and R85 step 3: buffer, running parity, journal tail and log written into the drain reserve, which
ends with its drain-complete marker (R269), device time saved (R392), the SRAM seal written (R212); when power is lost during
it the buffer is lost, unless an earlier drain still stands in the reserve. -/
def State.hardDrain (s : State) (completes : Bool) : State :=
  if completes then
    let t := s.flushLog
    let t := if t.flash.mounted then t.saveTime else t
    { t with flash := { t.flash with drainMark := true }, kv := { t.kv with sramSeal := some t.sealDir } }
  else
    let u := s.dropBuffer
    { u with log := { u.log with buffer := [] } }

/-- At a start a drain whose marker is valid is applied, and the reserve is erased again (R269, R285). -/
def State.applyDrain (s : State) : State :=
  if s.flash.drainMark then
    let used := s.flash.reserveBlocks.take ((2560 + profSlc s.flash.prof - 1) / max 1 (profSlc s.flash.prof))
    let f := used.foldl (fun (f : Flash) b => f.setBlock { f.block b with state := .reserved, erase := (f.block b).erase + 1 })
      s.flash
    { s with flash := { f with drainMark := false } }.drain
  else s

/-- An APPEND that a reset ends after its sequence number was assigned leaves a void record (R32). -/
def State.voidAssigned (s : State) : State :=
  (s.cmd.tags.filter fun e => e.msg.opcode == 0x08 && e.before).foldl State.voidRecord s

/-- A reset in the phases in which it can occur: it abandons a start, but for one whose rail sequence has failed (R97). -/
def State.resetNow (s : State) (kind : StartKind) (src detail : Nat) (drained : Bool) : State :=
  match s.dev.phase with
  | .unpowered | .railFault _ | .railsLost | .hibernate => s
  | .starting _ => if s.dev.kind = .railFailed then s else s.beginReset kind src detail
  | _ => (s.voidAssigned.hardDrain drained).beginReset kind src detail

/-! ## Steps of a start (Tables 04-2 and 04-3) -/

/-- The boot ROM finds the kill-pending flag (R377). -/
def State.killFuses (s : State) : State :=
  if s.key.killPending then
    { s with key := { s.key with killPending := false, fuses := { s.key.fuses with kill := true, rootGone := true,
                                                                                       root := List.replicate 32 0xFF } } }
  else s

/-- The straps sampled (R53, R108, Table 05-8). -/
def State.sampleStraps (s : State) (x : Straps) : State :=
  let p := x.profile.toNat
  let t := ((s.wr Reg.PROFILE.STRAP p).wr Reg.PROFILE.IN_FORCE (if p = 1 ∨ p = 2 then p else 0)).wr Reg.PROFILE.SLOT
    x.slot.toNat
  { t with dev := { t.dev with straps := x } }

/-- START_REASON and START_COUNT (Table 04-11). -/
def State.recordStart (s : State) (cold : Bool) : State :=
  let t := (s.wr Reg.START_REASON.KIND s.dev.kind.code).wr Reg.START_REASON.COLD (bit cold)
  ((t.wr Reg.START_REASON.ALARM_SRC s.dev.alarmSrc).wr Reg.START_REASON.DETAIL s.dev.startDetail).count
    Reg.START_COUNT.STARTS 1

/-- The boot ROM waits for the debug port (R63, Table 15-7). -/
def State.bootWaits (s : State) : State :=
  { s with dev := { s.dev with phase := .bootWait, spinning := false } }.emit .uartFault

/-- Step 2 of Table 04-2: the self-test, its result kept in the always-on island (R115); the debug port's memories are
empty, and so they are after HIBERNATE, in which their contents are lost (R69, Table 02-12). -/
def State.selfTest (s : State) (cold : Bool) (f : StartFindings) : State :=
  if cold then { s with dev := { s.dev with sramFailed := f.sramFail }, sram := [], dram := [] }
  else if s.dev.kind = .hibernateExit then { s with sram := [], dram := [] }
  else s

/-- Helper reload (Tables 04-2 to 04-4, R93, R444): skipped by a warm start in the Edge profile whose instruction stores held
power and carry the active slot's digest; else every helper is loaded from the active slot. -/
def State.loadHelpers (s : State) (cold : Bool) (f : StartFindings) : State :=
  let d := s.fw.record.digest s.fw.record.active
  let skip := !cold && !s.fabric && f.storesHeld && s.dev.helpers == some d
  if skip then s else { s with dev := { s.dev with helpers := some d } }

/-- Step 3: the image chosen and measured; none where no slot is runnable. A warm start skips re-verification of the
active slot when MEAS_DIGEST equals its digest (Table 04-4). -/
def State.bootImage (s : State) (cold : Bool) (f : StartFindings) : Option State :=
  let skip := fun k => match s.fw.current with
    | some r => !cold && r.active == k && r.digest k == s.measDigest
    | none => false
  let ok := fun k => (if k = 0 then f.slotA.verifies else f.slotB.verifies) || skip k
  match s.bootPick f ok with
  | none => none
  | some p =>
    let t := if p.wrote then { s with fw := s.fw.put p.slots } else s
    let t := p.events.foldl (fun (s : State) e => s.raise e) t
    let t := { t with key := { t.key with fuses := { t.key.fuses with rollback := p.fuses } } }
    let r := t.fw.record
    let t := t.setRunnable (ok 0 && t.slotAllowed r 0) (ok 1 && t.slotAllowed r 1)
    some ((t.setMeas (r.digest r.active)).showLevel (t.fw.image r.active))

/-- Step 4: the entropy source, the DRBG and the known-answer tests (R347 to R349). -/
def State.startCrypto (s : State) (f : StartFindings) : State :=
  let out := f.katFail.filter fun k => decide (k < 8)
  let cry : Cry := { Cry.reset with esOk := f.entropyOk, drbg := if f.entropyOk then 1 else 3, coreOut := out }
  let t := { s with cry := cry }
  let t := if f.entropyOk then t else (t.raise Ev.CRY.ENTROPY_FAIL).report Ev.CRY.DRBG_STOPPED stEntropy
  if out.isEmpty then t else t.raise Ev.CRY.KAT_FAIL

/-- Step 4: the key-store slots unwrapped (R363), counters resumed at their durable limits (R344); every slot is empty
while KILL is blown (R377). -/
def State.openKeys (s : State) (f : StartFindings) : State :=
  let kill := s.key.fuses.kill
  let bad := f.vaultBad.filter fun i => decide (i < 1024)
  let slots := if kill then [] else bad.foldl (fun m i => SMap.set slotDefault i (slotDefault i) m) s.key.vault
  let t := { s with key := { s.key with slots := slots, counters := s.key.limits, vaultOk := bad.isEmpty,
                                        rootOk := !kill && !s.key.fuses.rootGone } }
  if bad.isEmpty then t else t.raise Ev.KEY.VAULT_FAULT

/-- Step 5: class C fields loaded from the current commit (R99); the pinned level comes into force (Table 05-8), and so
does DBG_POLICY. -/
def State.loadConfig (s : State) : State :=
  let regs := match s.cfg.current with
    | some c => loadBody c.2.body s.regs
    | none => clearC s.regs
  let t := { s with regs := regs }
  let pin := t.rd Reg.COMPAT.PINNED
  let t := t.wr Reg.COMPAT_NOW.IN_FORCE (if pin = 0 then t.rd Reg.COMPAT.MAX_LEVEL else pin)
  { t with dbg := { t.dbg with observeOk := t.rdB Reg.DBG_POLICY.OBSERVE_EN, fullOk := t.rdB Reg.DBG_POLICY.FULL_EN } }

/-- Steps 6 and 9: the hardware found (R109, R297). -/
def State.findHardware (s : State) (f : StartFindings) : State :=
  let here := f.channels.filter fun c => c.answers
  let answers := maskOf ((List.range f.channels.length).filter fun k => match f.channels[k]? with
    | some c => c.answers
    | none => false)
  let heads := ((List.range 22).filter fun h => f.heads.getLsbD h).length
  let hw : Hardware := ⟨f.dramGib, BitVec.ofNat 32 answers, here.map fun c => c.nandId,
    here.foldl (fun n c => n + c.dies) 0, heads, f.heads, f.profile.filter profileOk⟩
  { s with cfg := { s.cfg with hw := hw }, flash := { s.flash with found := f.channels, profile := hw.profile } }

/-- The lowest contradiction of the record with the hardware found (R109, Table 04-10). -/
def State.contradiction (s : State) (b : CfgBody) : Option Nat :=
  let h := s.cfg.hw
  if h.dramGib ≠ b.hwDramGib ∨ (h.dramGib ≠ 16 ∧ h.dramGib ≠ 32) then some 1
  else if h.answers &&& ~~~(BitVec.ofNat 32 b.hwFlashCh) ≠ 0 then some 2
  else if h.nandIds.any fun n => n != b.hwNandId then some 3
  else if b.hwDies < h.dies then some 4
  else if b.hwHeads < h.heads then some 5
  else if b.tierId ≠ 0 ∧ s.flash.identity ≠ b.tierId then some 6
  else none

/-- The lowest-numbered cause of stalemate and its detail (R110, Table 04-10). -/
def State.staleCause (s : State) : Option (Nat × Nat) :=
  let p := s.dev.straps.profile.toNat
  match s.cfg.current with
  | none => some (1, bit (CfgCommit.live s.cfg.copy0).isNone + 2 * bit (CfgCommit.live s.cfg.copy1).isNone)
  | some c =>
    if p ≠ 1 ∧ p ≠ 2 then some (2, p)
    else if c.2.body.profile ≠ p then some (3, p)
    else
      match s.contradiction c.2.body, s.dev.sramFailed with
      | some d, _ => some (4, d)
      | none, some g => some (5, g)
      | none, none => if s.key.fuses.kill then some (6, 0) else none

/-- The fabric address (R401): FAB_ADDR_HI of the record joined with SLOT_ID; another address starts discovery anew. -/
def State.setAddress (s : State) : State :=
  match s.cfg.current with
  | some (_, c) =>
    if s.fabric then
      let a := c.body.fabAddrHi / 16 * 16 + s.ownSlot
      if s.fab.addrValid ∧ s.fab.addr = a then s
      else { s with fab := { s.fab with addr := a, addrValid := true, sled := [], flows := [] } }
    else { s with fab := { (s.fab.afterReset false) with addr := 0 } }
  | none => s

/-- The device enters stalemate (R110, R111). -/
def State.enterStalemate (s : State) (cause detail : Nat) : State :=
  let t := { s with dev := { s.dev with phase := .stalemate, spinning := false }, cry := { s.cry with phase := 3 },
                    srv := { s.srv with disk := 0 } }
  let t := ((t.wr Reg.STALE_STAT.ACTIVE 1).wr Reg.STALE_STAT.REASON cause).wr Reg.STALE_STAT.STALE_DETAIL detail
  (t.setAddress.floodOwn).raise Ev.RST.STALEMATE

/-! ## The flash tier mounted (step 12; R57, R258, R280, R282, R284, R285) -/

/-- A channel that trains again: its lost blocks return, those that the map still names as they are (R282). -/
def Flash.restoreChannel (f : Flash) (ch : Nat) : Flash :=
  let mine := fun (b : Block) => b.state == .retired && b.lostOnly && f.chOf b.id == ch && !f.diesLost.contains (f.dieOf b.id)
  let back := (f.blocks.filter mine).length
  let fresh := fun (b : Block) =>
    if f.valid b.id = 0 then { b with state := .free, lostOnly := false, erase := b.erase + 1, used := 0, reads := 0 }
    else { b with state := .closed, lostOnly := false }
  { f with channels := f.channels ||| BitVec.ofNat 32 (2 ^ ch), blocks := updWhere mine fresh f.blocks,
           units := f.units.filter fun u => !(mine (f.block u.block) && f.valid u.block == 0),
           spareNow := f.spareNow + back, retired := f.retired - back }

/-- One channel at a start: it leaves or re-enters service, and dies that it lacks are lost. -/
def State.startChannel (s : State) (ch : Nat) : State :=
  match s.flash.found[ch]? with
  | none => s
  | some c =>
    let trained := s.flash.trains c
    let dies := (List.range s.flash.dieCh.length).filter fun d => s.flash.dieCh.getD d 0 == ch
    if !trained then s.loseChannel ch
    else
      let s := if s.flash.channels.getLsbD ch ∨ dies.isEmpty then s
        else { s with flash := s.flash.restoreChannel ch }
      (dies.drop c.dies).foldl (fun (s : State) d => s.loseDie d) s

/-- Read counters as the newest checkpoint has them; raised by 10 % of the limit unless the last shutdown wrote one. -/
def State.startCounters (s : State) (checkpointed : Bool) : State :=
  let f := s.flash
  let kept := fun (b : Block) => match f.ckptReads.find? fun x => x.1 == b.id with
    | some x => x.2
    | none => 0
  let up := fun (b : Block) =>
    if b.state = .free then b
    else { b with reads := kept b + (if checkpointed then 0 else s.readLimit b / 10) }
  { s with flash := { f with blocks := f.blocks.map up } }

/-- Every channel taken through a start. -/
def State.startChannels (s : State) : List Nat → State
  | [] => s
  | ch :: chs => (s.startChannel ch).startChannels chs

/-- The device leaves read-only where spares are above 0 again; the warnings that hold are raised (log entry 111). -/
def State.startSpares (s : State) : State :=
  let f := s.flash
  let g : Flash := { f with readOnly := f.rootReadOnly && f.spareNow == 0 }
  let s := { s with flash := if f.rootReadOnly && !g.readOnly then g.writeRoot else g }
  (if f.spareNow * 10 < f.spareInit then s.warn Reg.HLT_SUMMARY.FLASH_SPARE Ev.HLT.SPARE_WARN f.spareNow else s).checkWear

/-- The journal is replayed up to the first record that fails or does not follow (R266): records behind it were never
committed. -/
def Flash.replay (f : Flash) : Flash :=
  let rs := journalPrefix f.trimmed f.journal
  { f with journal := rs, journalSeq := match rs.getLast? with
    | some r => r.seq
    | none => f.journalSeq - f.journal.length }

/-- The tier mounts (R285), or is left unmounted where it is not formatted or its identity has no profile: what no drain holds
is lost, the journal is replayed, the channels and counters are taken through the start, the drain is applied, and every stream
opens its blocks. -/
def State.mountFlash (s : State) (checkpointed : Bool) : State :=
  let f := s.flash
  if f.unsupported then s
  else if f.formatted then
    let t := { s with flash := { f with mounted := true } }.dropBuffer
    let t := { t with flash := t.flash.replay }
    let t := (((t.startChannels (List.range 32)).startCounters checkpointed).startSpares).applyDrain
    { t with flash := t.flash.openAll }
  else s

/-- Step 9 of Table 04-2, step 7 of Table 04-3, which a start that ends in stalemate makes too (R110): the identity's profile
looked up (R258), and the temperatures of the last training, by channel: every channel trains at a cold start, and where
20 °C has passed since (R56). A channel that trains below the configured rate says so (R57). -/
def State.startTraining (s : State) (cold : Bool) (temp : Int) : State :=
  let train := (List.range 32).map fun ch =>
    let old := s.dev.trainTemp.getD ch temp
    if cold ∨ old + 20 ≤ temp ∨ temp + 20 ≤ old then temp else old
  let s := { s with dev := { s.dev with trainTemp := train } }
  let low := (List.range 32).filter fun ch => match s.flash.found[ch]? with
    | some c => c.answers && s.flash.fellBack c
    | none => false
  let s := low.foldl (fun (s : State) ch => s.raiseI Ev.FLT_I.RATE_LOWERED ch) s
  if s.flash.profile.isNone && s.cfg.hw.answers != 0 then
    { s with flash := { s.flash with unsupported := true } }.report Ev.FLT.UNSUPPORTED_NAND stMedia
  else s

/-! ## The directory (step 13; R211 to R213) -/

/-- A seal of an image is valid (R211). -/
def State.sealValid (s : State) (d : DirSeal) (dir : SMap (BitVec 48)) (side : SMap (BitVec 16)) : Bool :=
  d.tierId == s.flash.tierId && d.seedCheck == s.dirHash 0 [] % 2 ^ 32 && decide (s.flash.trimmed ≤ d.journalSeq) && decide (d.journalSeq ≤ s.flash.journalSeq) &&
    decide ((s.kv.dirLog.filter fun x => decide (d.journalSeq < x.2.2)).length ≤ 2097152) && d.magic == 0x53454144 &&
    d.sealCrc == crc32c d.body && d.imageCrc == imageCrc dir side

/-- Journal records after the seal replayed: entries that a record's key could decide are freed, and those that name a
retired leaf. -/
def State.replayDir (s : State) (from_ : Nat) : State :=
  let t := (s.kv.dirLog.filter fun x => decide (from_ < x.2.2)).foldl (fun (s : State) x =>
    let h := s.dirHash x.1 x.2.1
    s.freeEntries h (s.decides h x.1 x.2.1)) s
  let dead := fun (w : BitVec 48) => match entLeaf w.toNat with
    | some l => t.kv.retired.contains l
    | none => false
  { t with kv := { t.kv with dir := t.kv.dir.filter fun p => !dead p.2 } }

/-- The directory kept in SRAM, loaded from its saved image, or cleared for a background rebuild. -/
def State.openDirectory (s : State) (held : Bool) : State :=
  let s := s.wr Reg.DIR_STAT.REBUILD_PCT 0
  let saved := match s.kv.saved with
    | some d => s.sealValid d.dirSeal d.dir d.side
    | none => false
  let kept := held && (match s.kv.sramSeal with
    | some d => s.sealValid d s.kv.dir s.kv.side
    | none => false)
  let from_ := match s.kv.sramSeal with
    | some d => d.journalSeq
    | none => s.flash.journalSeq
  let s := { s with kv := { s.kv with sramSeal := none } }
  let s := (s.wr Reg.DIR_STAT.SEALED_START (bit (kept || saved))).wr Reg.DIR_STAT.SRAM_KEPT (bit kept)
  if kept then s.replayDir from_
  else
    match s.kv.saved with
    | some d =>
      if saved then { s with kv := { s.kv with dir := d.dir, side := d.side } }.replayDir d.dirSeal.journalSeq
      else { s with kv := { s.kv with dir := [], side := [], rebuilding := s.flash.mounted } }
    | none => { s with kv := { s.kv with dir := [], side := [], rebuilding := s.flash.mounted } }

/-! ## Tables, time and the disk tier -/

/-- The associative tables loaded from the system area, those whose copy is unreadable empty (R236); table 0 stays as the
island kept it. -/
def State.loadTables (s : State) (lost : List Nat) : State :=
  let gone := lost.filter fun x => ([1, 2, 8, 9, 10, 11, 12, 13, 14, 15] : List Nat).contains x
  let read := s.cam.saved.filter fun x => x.1 != 0 && !lost.contains x.1
  let t := { s with cam := { s.cam with tables := (s.cam.tables.filter fun x => x.1 == 0) ++ read } }
  if gone.isEmpty then t else t.raise Ev.CAM.TABLE_LOST

/-- Device time at the first service after a POR (R392): the larger of the saved value and the island's. -/
def State.resumeTime (s : State) (afterPor : Bool) : State :=
  if afterPor ∨ s.sea.time < s.sea.saved then
    let before := s.sea.time
    let now := max s.sea.time s.sea.saved
    let t := { s with sea := { s.sea with time := now, advHours := max s.sea.advHours s.sea.savedAdv, restored := true,
                                          daysDone := now / 86400 } }.raise Ev.SEA.TIME_RESTORED
    if now = before then t else t.note 0x0F 0x83 0 before
  else s

/-- A head as a start finds it. -/
def Head.fresh (id : Nat) (present : Bool) : Head where
  id := id
  inService := present
  part := false
  x := 0
  target := 0
  stroke := 0
  pes := 0
  lastPes := none
  cal := default
  writing := false
  settledRd := false
  settledWr := false
  partRev := false
  missRun := 0
  goodRun := 0
  rejoinRun := 0
  rdRun := 0
  wrRun := 0
  strokeRun := 0
  revMissed := 0
  wedge := none
  acqRun := 0
  acqAt := (0, 0)
  missed := false
  inU := false
  inhibit := true
  cPes := false
  cMiss := false
  cStroke := false
  shockNow := false
  faults := []

/-- An actuator as a start finds it. -/
def Actuator.fresh (id : Nat) : Actuator := ⟨id, 0, 0, false, 0, 0, false, 0, default⟩

/-- Heads recorded and not found are out of service (R297). -/
def State.missingHeads (s : State) : State :=
  let was := match s.cfg.current with
    | some c => c.2.body.hwHeads
    | none => 0
  let gone := (List.range 22).filter fun h => s.rdc.headsAtFormat.testBit h && !s.cfg.hw.headMask.getLsbD h
  let t := if s.cfg.hw.heads < was then s.raise Ev.SRV.HEAD_OUT else s
  gone.foldl (fun (s : State) h =>
    (s.extentsOn h).foldl (fun (s : State) e => s.note 0x0C 0x81 0 (e.index + e.nsid * 2 ^ 48)) s) t

/-- The disk tier at a start: kept at speed where the servo state held power (Table 04-4), else at rest. -/
def State.startDisk (s : State) (cold held : Bool) : State :=
  let s := { s with rdc := { s.rdc with writeStop := s.rdc.writeStop && s.rdc.spareNow == 0 } }
  let low := s.rdc.formatted && decide (s.rdc.spareNow * 10 < s.rdc.spareInit)
  let s := if low then s.warn Reg.HLT_SUMMARY.DISK_SPARE Ev.HLT.SPARE_WARN (s.rdc.spareNow + 2 ^ 24) else s
  if !cold ∧ held ∧ s.srv.disk = 4 ∧ s.cfg.hw.heads ≠ 0 then
    let t := { s with srv := { s.srv with tries := 0, attempts := 0, fullCal := false, coldStart := false } }
    (t.wr Reg.START_TIME.DISK_100MS (min 65535 (t.rd Reg.START_TIME.SERVICE_MS / 100))).raise Ev.RST.DISK_READY
  else
    let hs := ((List.range 22).filter fun h => s.cfg.hw.headMask.getLsbD h).map fun h => Head.fresh h true
    let srv : Srv := { Srv.reset with heads := hs, actuators := [Actuator.fresh 0, Actuator.fresh 1], coldStart := cold,
                                      savedCal := s.srv.savedCal, tracks := s.srv.tracks }
    let t := { s with srv := srv, dev := { s.dev with spinning := false } }
    t.missingHeads.startSpin

/-- The fabric at a start (R401, R414, R431): the address, a flow seed, INHERITED after an inheritance. -/
def State.startFabric (s : State) : State :=
  let s := s.setAddress
  let s := if s.fabric ∧ s.drbgOk then s.newFlowSeed else s
  let s := if s.fab.inherited.isSome ∧ !s.fab.offers.isEmpty then s.raise Ev.FAB.INHERITED else s
  { s with fab := { s.fab with offers := [] } }.floodOwn

/-! ## Service opens -/

/-- Steps 1 and 2 of Table 03-10, from whatever state: writing stops, the heads retract, an entry is abandoned. -/
def State.stopService (s : State) : State :=
  let s := if s.dev.entering.isSome then s.raise Ev.PWR.ENTRY_ABANDONED else s
  let t := s.retract
  { t with dev := { t.dev with phase := .drained false, riseCounting := false, entering := none, power := .active,
                               routerQuiet := false } }

/-- PWRFAIL_N is recognised in service or stalemate (R85). -/
def State.powerFail (s : State) : State :=
  let t := (s.wake Reg.WAKE_SRC.PWRFAIL).stopService
  { t with dev := { t.dev with pwrfailLow := true } }

/-- The last steps of a start: tiers, directory, tables, service (R88 to R93). -/
def State.openService (s : State) (cold afterPor : Bool) (f : StartFindings) : State :=
  let hib := decide (s.dev.kind = .hibernateExit)
  let t := { s with dev := { s.dev with phase := .service, startMs := s.dev.clockMs }, cry := { s.cry with phase := 1 } }
  let t := t.wr Reg.START_TIME.SERVICE_MS (min 65535 f.serviceMs)
  let t := (t.mountFlash hib).openDirectory (!cold && f.bankGroupsHeld)
  let t := (t.loadTables f.tablesLost).resumeTime afterPor
  let r := t.fw.record
  let img := t.fw.image r.active
  let t := t.loadAuto (if img.isEmpty then f.autoImage else pkgPart img 8)
  let t := ((t.startDisk cold f.servoHeld).startFabric).rewatchAll
  let t := t.raise Ev.RST.START_DONE
  let t := t.note 0x03 0x80 0 ((t.word 0x40040).toNat + (t.word 0xC004C).toNat * 2 ^ 32)
  if t.dev.pwrfailLow then t.powerFail else t

/-- A staging session through a start: a verification that was cut off is repeated (R436, R441). -/
def Fw.afterStart (f : Fw) : Fw :=
  let f := f.stopVerify
  { f with staging := f.staging.map fun g => { g with fromHost := false, fromPeer := false, peers := [] } }

/-- Step 1: the fuses that are due, the straps and the start's record. -/
def State.strapped (s : State) (cold : Bool) (f : StartFindings) : State :=
  let s := (s.killFuses.sampleStraps f.straps).recordStart cold
  { s with fw := s.fw.afterStart }

/-- Steps 2 and 3: the loader measured, the self-test, the image that runs; none where no slot is runnable. -/
def State.booted (s : State) (cold : Bool) (f : StartFindings) : Option State :=
  (s.selfTest cold f).bootImage cold f

/-- A loader that verifies has been measured (R378). -/
def State.measured (s : State) (cold : Bool) : State :=
  { s with dev := { s.dev with loaderMeasured := s.dev.loaderMeasured || cold } }

/-- The clock monitor at a start: an input lost before it or during it, HIBERNATE included, is reported (R68; log entry
152). -/
def State.reportClocks (s : State) : State :=
  let s := if s.dev.crystalFail then s.raise Ev.PWR.CRYSTAL_FAIL else s
  if s.dev.refSdLost then s.raise Ev.PWR.REFCLK_SD_LOST else s

/-- Steps 4 to 9: cryptography, keys, the record in force, the hardware, the helpers, and the flash channels trained. -/
def State.prepared (s : State) (cold : Bool) (f : StartFindings) : State :=
  (((((s.startCrypto f).openKeys f).loadConfig).findHardware f).loadHelpers cold f).reportClocks.startTraining cold
    f.temperature

/-- A start runs from its straps to service, stalemate or the boot ROM's wait. -/
def State.startRun (s : State) (cold : Bool) (f : StartFindings) : State :=
  let por := decide (s.dev.kind = .por) || (decide (s.dev.kind = .railFailed) && !s.dev.loaderMeasured)
  let s := s.strapped cold f
  if f.straps.testMode then { s with dev := { s.dev with phase := .testMode, spinning := false } }
  else if !f.sfdpOk || !f.loaderOk then s.bootWaits
  else
    let s := s.measured cold
    match s.booted cold f with
    | none => s.bootWaits
    | some s =>
      let s := s.prepared cold f
      match s.staleCause with
      | some c => s.enterStalemate c.1 c.2
      | none => s.openService cold por f

end Sys2Proof.Machine
end

