-- ==== Sys2Proof/Machine/Starts.lean ====
section
/-! DEFINITION. The rows of chapters 02 to 04 and 15 that start, reset, power or alarm the device: rail sequences, resets,
starts, PWRFAIL_N and the alarms (R51, R85, R94 to R100, R374 to R377, R485). -/

namespace Sys2Proof.Machine

open Sys2Proof

/-! ## Alarms (R374 to R377) -/

/-- The rails are up: sensors on them can raise an alarm. -/
def State.powered (s : State) : Bool :=
  match s.dev.phase with
  | .unpowered | .railFault _ | .railsLost | .hibernate => false
  | _ => true

/-- A power loss after a completed drain is no alarm (R100, R375). -/
def State.powerGoes (s : State) : Bool := decide (s.dev.phase = .drained true) && s.dev.pwrfailLow

/-- What an alarm zeroes (R375). -/
def State.eraseKeys (s : State) : State :=
  { s with key := { s.key with slots := [] }, cry := { s.cry with drbg := 0, suspended := [], pages := [] } }

/-- The ALARM reset: the erasure, the drain, the reset (Table 04-5); it overtakes a failed rail sequence (R97). -/
def State.alarmReset (s : State) (src : Nat) (drained : Bool) : State :=
  let t := s.eraseKeys
  let t := match t.dev.phase with
    | .starting _ => t
    | _ => t.hardDrain drained
  t.beginReset .alarm src 0

/-- An environmental alarm (R376): the count rises, HOURS restarts; the alarm that takes the count to 16 is an intrusion. -/
def State.envAlarm (s : State) (src : Nat) (drained : Bool) : State :=
  let n := min 16 (s.key.envCount + 1)
  let intrudes := decide (s.key.envCount = 15)
  let t := { s with key := { s.key with envCount := n, envHours := 0, killPending := s.key.killPending || intrudes } }
  t.alarmReset (if intrudes then 5 else src) drained

/-- VOLTAGE_ALARM: beyond an absolute maximum the device is not specified (R47). -/
def execVoltageAlarm (beyondMax drained : Bool) (s : State) : Host.Outcome State Fault Refusal :=
  if s.dev.phase ≠ .unpowered ∧ beyondMax then .fault .beyondAbsoluteMaximum
  else s.done (if s.powered && !s.powerGoes then s.envAlarm 1 drained else s)

def execClockAlarm (drained : Bool) (s : State) : Host.Outcome State Fault Refusal :=
  s.done (if s.powered then s.envAlarm 2 drained else s)

def execTemperatureAlarm (drained : Bool) (s : State) : Host.Outcome State Fault Refusal :=
  s.done (if s.powered then s.envAlarm 3 drained else s)

/-- SHIELD_ALARM: an intrusion alarm; with the rails down it sets the flag, and the next start blows the fuses (R377). -/
def execShieldAlarm (drained : Bool) (s : State) : Host.Outcome State Fault Refusal :=
  s.done (if s.dev.phase = .unpowered then s
    else
      let t := { s with key := { s.key with killPending := true } }
      if s.powered then t.alarmReset 4 drained else t)

/-- ENV_COUNT_DECREMENT (R376): 24 powered hours without an environmental alarm. -/
def execEnvCountDecrement (s : State) : Host.Outcome State Fault Refusal :=
  s.done (if s.powered then { s with key := { s.key with envCount := s.key.envCount - 1, envHours := 0 } } else s)

/-! ## Rail sequences (R51, R485) -/

/-- The enables driven high; the sequence's outcome is the start's, unless RAIL_FAULT says otherwise. -/
def State.raiseRails (s : State) : State := s.raiseTo 3

/-- A step of the sequence misses PGOOD: the enables are lowered, the fault is recorded, and after three failures in a row
nothing is retried. -/
def State.railMiss (s : State) (step : Nat) : State :=
  let s := (s.raiseTo (step - 2)).lowerRails (step - 2)
  let n := s.dev.railsFailed + 1
  let t := { s with regs := retainRegs true false s.regs, fab := s.fab.afterReset false,
                    dev := { s.dev with phase := .railFault n, kind := .railFailed, alarmSrc := 0, startDetail := 0,
                                        railsFailed := n } }
  (t.wr Reg.START_REASON.KIND 7).wr Reg.START_REASON.COLD 1

/-- A sequence with its result; the start is of a kind, or one after failed sequences. -/
def State.sequence (s : State) (kind : StartKind) (r : RailResult) : State :=
  match r with
  | .allGood => { s.raiseRails with dev := { s.raiseRails.dev with phase := .starting kind.cold, kind := kind } }
  | .missed step => s.railMiss step

/-- Always-on power is lost (R99): the vault, fuses, flash, disk and NOR stay; device time stops and its counter is lost
(R391, R392). -/
def State.powerOff (s : State) : State :=
  let s := s.dropBuffer
  let s := { s with log := { s.log with buffer := [] } }.beginReset .por 0 0
  { s with dev := { s.dev with phase := .unpowered, helpers := none, loaderMeasured := false, sramFailed := none, spinning := false,
                               slowCarry := 0 }
           kv := { s.kv with sramSeal := none }, srv := { s.srv with disk := 0 },
           sea := { s.sea with time := 0, daysDone := 0, advHours := 0 } }

def execAlwaysOnPowerLoss (s : State) : Host.Outcome State Fault Refusal :=
  s.done (if s.dev.phase = .unpowered then s else s.powerOff)

/-- POR: it follows a loss of always-on power, told or not (R99). -/
def execPor (r : RailResult) (s : State) : Host.Outcome State Fault Refusal :=
  s.done ((if s.dev.phase = .unpowered then s else s.powerOff).sequence .por r)

/-- RAIL_FAULT: the sequence of the start that is about to run misses a PGOOD. -/
def execRailFault (step : Nat) (s : State) : Host.Outcome State Fault Refusal :=
  s.done (match s.dev.phase with
    | .starting _ => if 3 ≤ step ∧ step ≤ 5 then s.railMiss step else s
    | _ => s)

/-- RAIL_RETRY: 1 s after a failure, while fewer than three have followed one another. -/
def execRailRetry (r : RailResult) (s : State) : Host.Outcome State Fault Refusal :=
  s.done (match s.dev.phase with
    | .railFault n => if n < 3 then s.sequence .railFailed r else s
    | _ => s)

/-! ## Resets -/

/-- A pulse between the two bounds of Table 02-13 is recognised or ignored: a free value. -/
def State.pulse (s : State) (ns ignored recognised : Nat) : Bool × State :=
  if recognised ≤ ns then (true, s)
  else if ns < ignored then (false, s)
  else (Config.freeBool s.free, s.tookFree)

/-- RESET_N recognised: a PIN reset; from HIBERNATE with the rails raised, after three rail failures a new sequence
(R485). -/
def State.pinReset (s : State) (drained : Bool) : State :=
  match s.dev.phase with
  | .hibernate => (s.beginReset .pin 0 0).raiseRails
  | .railFault n =>
    if n < 3 then s
    else { s.raiseRails with dev := { s.raiseRails.dev with phase := .starting true, railsFailed := 0 } }
  | _ => s.resetNow .pin 0 0 drained

def execPin (lowNs : Nat) (drained : Bool) (s : State) : Host.Outcome State Fault Refusal :=
  s.done (match s.pulse lowNs 50000 100000 with
    | (true, t) => t.pinReset drained
    | (false, t) => t)

/-- The watchdogs run: control firmware does, or a start has not loaded WDT_EN yet (R98). -/
def State.watchdogOn (s : State) : Bool :=
  match s.dev.phase with
  | .starting _ => true
  | .service | .stalemate | .drained _ => s.rdB Reg.WDT_CFG.WDT_EN
  | _ => false

/-- WATCHDOG: a core that is not halted misses its watchdog (R98, R478). -/
def execWatchdog (core : Nat) (drained : Bool) (s : State) : Host.Outcome State Fault Refusal :=
  let halted := s.dbg.cores.any fun c => c.id == core && c.halted
  s.done (if s.watchdogOn ∧ core < 8 ∧ !halted then s.resetNow .watchdog 0 core drained else s)

/-! ## Starts -/

/-- The outcome of a start that takes the state to `t`: KILL and the root's erasure are blown where they were pending
(R377), ROLLBACK bits as rule 2 of R448 completes a confirmation, and the memories of the debug port are as before, or
empty after a self-test. -/
def State.doneStart (s t : State) : Host.Outcome State Fault Refusal :=
  let left := fun (old new : Memory) => if new.isEmpty then [] else old
  .next { t with pending := s.pending, sram := left s.sram t.sram, dram := left s.dram t.dram,
                 key := { t.key with fuses := { s.killFuses.key.fuses with
                            rollback := max s.key.fuses.rollback t.key.fuses.rollback } } }

def execColdStart (f : StartFindings) (s : State) : Host.Outcome State Fault Refusal :=
  if s.dev.phase = .starting true then s.doneStart (s.startRun true f) else s.done s

/-- Steps 4 and 5 of R96: the request that started the reset completes, as the last completion posted. -/
def State.endController (s : State) : State :=
  match s.dev.resetWaiter with
  | some w => s.answer w stOK
  | none => s

/-- WARM_START: after a reset or HIBERNATE, or as steps 4 to 6 of a CONTROLLER reset; the sessions end with it. -/
def execWarmStart (f : StartFindings) (s : State) : Host.Outcome State Fault Refusal :=
  if s.dev.phase = .starting false then s.doneStart (s.startRun false f)
  else if s.dev.resetBusy ∧ (s.dev.phase = .service ∨ s.dev.phase = .stalemate) then
    s.doneStart ((s.endController.beginReset .controller 0 0).startRun false f)
  else s.done s

/-! ## Loss of the switched rails, and PWRFAIL_N (R85, R100) -/

/-- SWITCHED_RAIL_LOSS: a power loss after a completed drain while PWRFAIL_N is low, else a voltage alarm. -/
def execSwitchedRailLoss (drained : Bool) (s : State) : Host.Outcome State Fault Refusal :=
  s.done (if s.powerGoes then
      let t := (s.beginReset .railLoss 0 0).lowerRails 3
      { t with dev := { t.dev with phase := .railsLost, spinning := false }, srv := { t.srv with disk := 0 } }
    else if s.powered then s.envAlarm 1 drained
    else s)

/-- PWRFAIL_N recognised: Table 03-10 in service and in stalemate; during the wait a fall repeats no drain; in every other
phase its level is kept. -/
def State.pwrfailFalls (s : State) : State :=
  match s.dev.phase with
  | .service | .stalemate => s.powerFail
  | _ => { s with dev := { s.dev with pwrfailLow := true, riseCounting := false } }

def execPwrfail (lowNs : Nat) (s : State) : Host.Outcome State Fault Refusal :=
  s.done (match s.pulse lowNs 500 2000 with
    | (true, t) => t.pwrfailFalls
    | (false, t) => t)

/-- DRAIN_COMPLETE: step 3 of Table 03-10 has written its marker. -/
def execDrainComplete (s : State) : Host.Outcome State Fault Refusal :=
  s.done (if s.dev.phase = .drained false then
      let t := s.hardDrain true
      { t with dev := { t.dev with phase := .drained true } }
    else s)

/-- PWRFAIL_N rises: the 100 ms count starts again. -/
def execPwrfailNRise (s : State) : Host.Outcome State Fault Refusal :=
  s.done { s with dev := { s.dev with pwrfailLow := false,
                                      riseCounting := match s.dev.phase with
                                        | .drained _ => true
                                        | .railsLost => true
                                        | _ => false } }

/-- Service, or stalemate, resumes in ACTIVE; the `POWER_STATE`s abandoned complete. -/
def State.resumeService (s : State) : State :=
  let ts := s.dev.enterTags
  let phase : Phase := if s.rdB Reg.STALE_STAT.ACTIVE then .stalemate else .service
  let t := { s with dev := { s.dev with phase := phase, power := .active, enterTags := [], riseCounting := false }
                    flash := { s.flash with drainMark := false } }
  (t.raise Ev.PWR.PWRFAIL_SEEN).finishTags stAbandoned ts

/-- PWRFAIL_RESUME: PWRFAIL_N has been high for 100 ms; every halted core must have resumed (R478). With the rails lost
they are raised again, for a cold start (R100). -/
def execPwrfailResume (s : State) : Host.Outcome State Fault Refusal :=
  s.done (if s.dev.pwrfailLow ∨ !s.dev.riseCounting then s
    else
      match s.dev.phase with
      | .drained true => if s.dev.pinsHeld || s.dbg.cores.any (fun c => c.halted) then s else s.resumeService
      | .railsLost =>
        { s.raiseRails with dev := { s.raiseRails.dev with phase := .starting true, riseCounting := false } }
      | _ => s)

end Sys2Proof.Machine
end

