-- ==== Sys2Proof/Machine/PowerRows.lean ====
section
/-! DEFINITION. Commands of chapters 3 and 19 that time, sensors and the supplies send: wakes and the power timers (R72,
R73), the power cap (R83, R84), temperatures (R54, R466), the reference inputs (R68), the ballast (R86, R87), powered hours
(R482) and the log's writing to flash (R463). -/

namespace Sys2Proof.Machine

open Sys2Proof

/-! ## Wakes (R72, R79) -/

/-- WAKE_N or the wake timer: a warm start from HIBERNATE, with its DETAIL; else an entry reverses or the device wakes. -/
def State.wakeBy (s : State) (src : Field) (detail : Nat) : State :=
  if s.dev.phase = .hibernate then (s.beginReset .hibernateExit 0 detail).raiseRails else s.arrive src

def execWakeN (lowNs : Nat) (s : State) : Host.Outcome State Fault Refusal :=
  s.done (match s.pulse lowNs 50000 100000 with
    | (true, t) => t.wakeBy Reg.WAKE_SRC.WAKE_PIN 0
    | (false, t) => t)

def execWakeTimer (s : State) : Host.Outcome State Fault Refusal := s.done (s.wakeBy Reg.WAKE_SRC.TIMER 1)

/-! ## IDLE and the power timers (R73) -/

/-- No command is queued, no flit is in transit and no background work that the state holds is due (R73). -/
def State.restful (s : State) : Bool :=
  s.cmd.queue.isEmpty && s.cmd.tags.all (fun e => e.state == .posted) && s.cfg.under.isEmpty && s.cfg.waiting.isEmpty &&
  s.fab.links.all (fun l => l.input0.isEmpty && l.input1.isEmpty && l.out0.isEmpty && l.out1.isEmpty) &&
  !s.kv.rebuilding && s.flash.refresh.isEmpty

def execIdle (s : State) : Host.Outcome State Fault Refusal :=
  s.done (if s.dev.phase = .service ∧ s.dev.power = .active ∧ s.dev.entering = none ∧ s.restful then
      { s with dev := { s.dev with power := .idle } }
    else s)

/-- A timer's entry begins, or goes on where it was told to pause; another entry under way is not changed. -/
def State.timerEntry (s : State) (m : PowerMode) (pause : Bool) : State :=
  if s.dev.entering = none ∨ s.dev.entering = some m then s.enterState m none (!pause) else s

/-- STANDBY_AFTER expires: from ACTIVE or IDLE, unless SLEEP_AFTER has expired by then. -/
def execStandbyAfter (pause : Bool) (s : State) : Host.Outcome State Fault Refusal :=
  let standby := s.rd Reg.PWR_TIMERS.STANDBY_AFTER
  let sleep := s.rd Reg.PWR_TIMERS.SLEEP_AFTER
  s.done (if s.dev.phase = .service ∧ standby ≠ 0 ∧ (sleep = 0 ∨ standby < sleep) ∧
      (s.dev.power = .active ∨ s.dev.power = .idle) then s.timerEntry .standby pause
    else s)

/-- SLEEP_AFTER expires: from ACTIVE, IDLE or STANDBY. -/
def execSleepAfter (pause : Bool) (s : State) : Host.Outcome State Fault Refusal :=
  s.done (if s.dev.phase = .service ∧ s.rd Reg.PWR_TIMERS.SLEEP_AFTER ≠ 0 ∧ s.dev.power ≠ .sleep then
      s.timerEntry .sleep pause
    else s)

/-! ## The power cap (R83, R84) -/

/-- The effective cap, 0.1 W. -/
def State.effCap (s : State) : Nat := min (s.rd Reg.PWR_CAP.CAP) s.dev.thermalLimit

/-- THERMAL_LIMIT_FALL: 10 ms with a sensor at 105 °C or above; an event as the limit comes to lie below PWR_CAP. -/
def execThermalLimitFall (s : State) : Host.Outcome State Fault Refusal :=
  s.done (if s.powered ∧ 105 ≤ s.dev.hottest then
      let was := s.dev.thermalLimit
      let t := { s with dev := { s.dev with thermalLimit := max 80 (was - 10) } }
      if s.rd Reg.PWR_CAP.CAP ≤ was ∧ t.dev.thermalLimit < s.rd Reg.PWR_CAP.CAP then t.raise Ev.PWR.THERM_LIMIT else t
    else s)

/-- THERMAL_LIMIT_RISE: 100 ms with every sensor at 100 °C or below. -/
def execThermalLimitRise (s : State) : Host.Outcome State Fault Refusal :=
  s.done (if s.powered ∧ s.dev.hottest ≤ 100 then
      { s with dev := { s.dev with thermalLimit := min 340 (s.dev.thermalLimit + 10) } }
    else s)

/-- One step is taken or released (Table 03-9): the next only after the current one has reached its limit. Whether one
estimate brings a step to its limit, or releases it, the spec does not state: a free value. -/
def State.throttle (s : State) (past : Bool) : State :=
  let n := s.rd Reg.PWR_CAP.THROTTLE
  let whole := Config.freeBool s.free
  if past then
    if n = 0 then s.wr Reg.PWR_CAP.THROTTLE 1
    else
      let t := s.tookFree
      if !whole then t
      else if n < 6 then t.wr Reg.PWR_CAP.THROTTLE (n + 1)
      else t.raise Ev.PWR.CAP_MISS
  else if n = 0 then s
  else if whole then s.tookFree.wr Reg.PWR_CAP.THROTTLE (n - 1)
  else s.tookFree

/-- POWER_ESTIMATE: the estimate of 10 µs against the cap, which the response to PWRFAIL_N ignores (R85), and the averages
that PWR_EST shows. -/
def execPowerEstimate (est est1 est100 : Nat) (s : State) : Host.Outcome State Fault Refusal :=
  s.done (if s.powered then
      let t := (s.wr Reg.PWR_EST.EST1 (min 511 est1)).wr Reg.PWR_EST.EST100 (min 511 est100)
      if s.dev.phase = .service ∨ s.dev.phase = .stalemate then t.throttle (decide (s.effCap < est)) else t
    else s)

/-! ## Temperatures (R54, R466) -/

/-- A signed byte as a temperature. -/
def byteTemp (b : Nat) : Int := if b < 128 then (b : Int) else (b : Int) - 256

/-- Firmware or the always-on island serves register pages. -/
def State.serving (s : State) : Bool :=
  match s.dev.phase with
  | .service | .stalemate | .drained _ => true
  | _ => false

/-- A reading of the sensors: THERM_N follows it in every state (R54); HLT_TEMP and the warning while pages are served. -/
def State.sense (s : State) (hottest : Int) (sensor : Nat) : State :=
  let pin := if 110 ≤ hottest then true else if hottest ≤ 100 then false else s.dev.thermN
  let t := { s with dev := { s.dev with hottest := hottest, thermN := pin } }
  if s.serving then
    let peak := max (byteTemp (t.rd Reg.HLT_TEMP.TEMP_MAX)) hottest
    let life := max (byteTemp (t.rd Reg.HLT_TEMP.TEMP_LIFE)) hottest
    let t := (t.wr Reg.HLT_TEMP.TEMP_NOW (tempByte hottest)).wr Reg.HLT_TEMP.SENSOR (sensor % 256)
    ((t.wr Reg.HLT_TEMP.TEMP_MAX (tempByte peak)).wr Reg.HLT_TEMP.TEMP_LIFE (tempByte life)).checkTemp
  else t

/-- THERM_N: the pin follows the hottest sensor; which sensor it is the command does not tell. -/
def execThermN (hottest : Int) (s : State) : Host.Outcome State Fault Refusal :=
  s.done (if hottest = s.dev.hottest then s.sense hottest (s.rd Reg.HLT_TEMP.SENSOR)
    else s.tookFree.sense hottest (Config.freeNat s.free))

def execTempWarn (hottest : Int) (sensor : Nat) (s : State) : Host.Outcome State Fault Refusal :=
  s.done (s.sense hottest sensor)

/-! ## Reference inputs (R68) -/

/-- A host port whose reference is lost goes down. -/
def State.dropPort (s : State) (p : Nat) : State :=
  if (s.port p).up then
    s.portLost p
  else s

def execRefclkSdLost (s : State) : Host.Outcome State Fault Refusal :=
  s.done (if s.dev.refSdLost then s
    else
      let t := { s with dev := { s.dev with refSdLost := true } }
      if s.powered then
        let t := (List.range 8).foldl (fun (t : State) p => t.dropPort p) t
        let t := (t.fab.links.map fun l => l.id).foldl (fun (t : State) l => t.linkDown l) t
        t.raise Ev.PWR.REFCLK_SD_LOST
      else t)

/-- REFCLK_SD_RESTORED: the links come up again by their own bring-up. -/
def execRefclkSdRestored (s : State) : Host.Outcome State Fault Refusal :=
  s.done { s with dev := { s.dev with refSdLost := false } }

def execCrystalFail (s : State) : Host.Outcome State Fault Refusal :=
  s.done (if s.dev.crystalFail then s
    else
      let t := { s with dev := { s.dev with crystalFail := true } }
      if s.powered then t.raise Ev.PWR.CRYSTAL_FAIL else t)

def execCrystalReturn (s : State) : Host.Outcome State Fault Refusal :=
  s.done { s with dev := { s.dev with crystalFail := false } }

/-! ## The ballast (R86, R87, R90) -/

/-- A quotient rounded to the nearest whole number, as the worked example of chapter 03 rounds. -/
def nearestQuot (a b : Nat) : Nat := (2 * a + b) / (2 * b)

/-- The whole part of a square root below 2^32. -/
def isqrt (n : Nat) : Nat :=
  (List.range 32).reverse.foldl (fun r k => if (r + 2 ^ k) * (r + 2 ^ k) ≤ n then r + 2 ^ k else r) 0

/-- Capacitance in 10 µF from sums of 16 codes: c = i × 0.010 ÷ (V1 − V2), the scale of the codes cancelling. -/
def ballastCap (s1 s2 rload : Nat) : Nat := nearestQuot (50000 * (s1 + s2)) ((s1 - s2) * rload)

/-- Usable energy in mJ as a fraction: e = c × (V1² − VMIN²) ÷ 2, with V1 = sum × DIV × 75 ÷ 2^18 mV. -/
def ballastEnergy (s1 s2 rload div vmin : Nat) : Int × Nat :=
  (((s1 + s2 : Nat) : Int) * (((75 * s1 * div) ^ 2 : Nat) - (vmin ^ 2 * 2 ^ 36 : Nat)),
   (s1 - s2) * rload * 4000 * 2 ^ 36)

/-- Lowest safe voltage in mV: v_ok = √(VMIN² + 2 × EREQ ÷ c). -/
def ballastVok (s1 s2 rload vmin ereq : Nat) : Nat :=
  (isqrt (4 * (vmin ^ 2 * (s1 + s2) + 4000 * ereq * (s1 - s2) * rload) / (s1 + s2)) + 1) / 2

/-- The hold-up voltage of a code, mV (rounded to the nearest), and whether it is at or above V_OK. -/
def holdVolts (code div : Nat) : Nat := nearestQuot (code * div * 75) 16384

def State.sampleHolds (s : State) (code : Nat) : Bool :=
  decide (s.rd Reg.BAL_MEAS.V_OK * 16384 ≤ code * s.rd Reg.BAL_CFG0.DIV * 75)

/-- BALLAST_WARN is raised or cleared (Table 19-4). -/
def State.checkBallast (s : State) : State :=
  if s.ballastFitted ∧ s.rdB Reg.BAL_STAT.TESTED ∧ !s.bufferedOk then
    s.warn Reg.HLT_SUMMARY.BALLAST Ev.HLT.BALLAST_WARN (s.rd Reg.BAL_MEAS.E_AVAIL + s.rd Reg.BAL_STAT.FAIL_REASON * 2 ^ 16)
  else if s.bufferedOk then s.wr Reg.HLT_SUMMARY.BALLAST 0
  else s

/-- BUFFERED acknowledgement is allowed or withdrawn, as the last test and the last three samples tell; a withdrawal
writes the buffer to media and asks for a new test. -/
def State.judgeBallast (s : State) : State :=
  let ok := s.dev.ballastPassed && s.dev.ballastCodes.all fun c => s.sampleHolds c
  let t :=
    if s.rdB Reg.BAL_STAT.BAL_OK then
      if ok then s
      else
        let t := { s with dev := { s.dev with ballastPassed := false, ballastWithdrawn := true } }
        ((t.wr Reg.BAL_STAT.BAL_OK 0).raise Ev.PWR.BAL_FAIL).drain
    else if ok then
      let t := s.wr Reg.BAL_STAT.BAL_OK 1
      if s.dev.ballastWithdrawn then
        { t with dev := { t.dev with ballastWithdrawn := false } }.raise Ev.PWR.BAL_PASS
      else t
    else s
  t.checkBallast

/-- The measurements of a test that was charged and saw a drop of 16 codes or more: FAIL_REASON. -/
def State.measureBallast (s : State) (s1 s2 : Nat) : State × Nat :=
  let rload := s.rd Reg.BAL_CFG0.RLOAD
  let ereq := s.rd Reg.BAL_CFG1.EREQ
  let vmin := s.rd Reg.BAL_CFG1.VMIN
  let e := ballastEnergy s1 s2 rload (s.rd Reg.BAL_CFG0.DIV) vmin
  let t := s.wr Reg.BAL_STAT.CAP (min 65535 (ballastCap s1 s2 rload))
  let t := t.wr Reg.BAL_MEAS.E_AVAIL (min 65535 (nearestQuot e.1.toNat e.2))
  let t := t.wr Reg.BAL_MEAS.V_OK (min 65535 (ballastVok s1 s2 rload vmin ereq))
  (t, if (ereq * e.2 : Nat) ≤ e.1 then 0 else 3)

/-- A test that measures nothing leaves CAP, E_AVAIL and V_OK at values that the spec does not state. -/
def State.unmeasured (s : State) : State :=
  let t := ((s.wr Reg.BAL_STAT.CAP (Config.freeNat s.free % 65536)).wr Reg.BAL_MEAS.E_AVAIL
    (Config.freeNat (s.free + 1) % 65536)).wr Reg.BAL_MEAS.V_OK (Config.freeNat (s.free + 2) % 65536)
  t.tookFree.tookFree.tookFree

/-- One ballast test with its readings: V1 and V2 as sums of 16 samples, BALLAST_LOAD asserted between the two once the
reserve is charged (R86). -/
def State.ballastTest (s : State) (charged : Bool) (s1 s2 : Nat) : State :=
  let r : State × Nat :=
    if !charged then (s.unmeasured, 1)
    else
      let t := (s.emit (.ballastLoad true)).emit (.ballastLoad false)
      if s1 < s2 + 256 then (t.unmeasured, 2) else t.measureBallast s1 s2
  let t := (r.1.wr Reg.BAL_STAT.TESTED 1).wr Reg.BAL_STAT.FAIL_REASON r.2
  { t with dev := { t.dev with ballastPassed := decide (r.2 = 0) } }.judgeBallast

/-- BALLAST_TEST: once at every start, where a ballast is fitted. -/
def execBallastTest (charged : Bool) (v1 v2 : Nat) (s : State) : Host.Outcome State Fault Refusal :=
  s.done (if s.dev.phase = .service ∧ s.ballastFitted ∧ !s.rdB Reg.BAL_STAT.TESTED then s.ballastTest charged v1 v2 else s)

/-- BALLAST_RETEST: 60 s after a test or a withdrawal, while acknowledgement is not allowed and nothing that was
acknowledged waits in the buffer. -/
def execBallastRetest (charged : Bool) (v1 v2 : Nat) (s : State) : Host.Outcome State Fault Refusal :=
  s.done (if s.dev.phase = .service ∧ s.ballastFitted ∧ s.rdB Reg.BAL_STAT.TESTED ∧ !s.bufferedOk ∧ s.drained then
      s.ballastTest charged v1 v2
    else s)

/-- BALLAST_SAMPLE: a 1 ms sample (R87). -/
def execBallastSample (code : Nat) (s : State) : Host.Outcome State Fault Refusal :=
  let code := min 1023 code
  s.done (if s.serving then
      let t := (s.wr Reg.BAL_NOW.SNS_CODE code).wr Reg.BAL_NOW.VHOLD
        (min 65535 (holdVolts code (s.rd Reg.BAL_CFG0.DIV)))
      let t := { t with dev := { t.dev with ballastCodes := (code :: t.dev.ballastCodes).take 3 } }
      if s.dev.phase = .service ∧ s.ballastFitted then t.judgeBallast else t
    else s)

/-! ## Powered hours, the log -/

/-- POWERED_HOUR (R482): HOURS of ENV_COUNT, ADV_HOURS and POWERED_HOURS. -/
def execPoweredHour (s : State) : Host.Outcome State Fault Refusal :=
  s.done (if s.powered then
      { s with key := { s.key with envHours := min 23 (s.key.envHours + 1) }
               sea := { s.sea with advHours := s.sea.advHours + 1 } }.count Reg.HLT_HOURS.POWERED_HOURS 1
    else s)

/-- LOG_FLUSH: within 1 s of their making (R463). -/
def execLogFlush (s : State) : Host.Outcome State Fault Refusal :=
  s.done (if s.dev.phase = .service then s.flushLog else s)

end Sys2Proof.Machine
end

