-- ==== Sys2Proof/Machine/FwCmds.lean ====
section
/-! DEFINITION. Firmware update (chapter 18): staging, verification, activation and its pause, confirmation, castling back,
and distribution between peers (R435 to R451). -/

namespace Sys2Proof.Machine

open Sys2Proof

/-! ## Fetching from peers (R445, R446) -/

def State.setStaging (s : State) (g : Option Staging) : State := { s with fw := { s.fw with staging := g } }

/-- The staging session ends: its chunks go. -/
def State.endStaging (s : State) : State :=
  (s.forgetSys fun o => match o with
    | .chunk _ => true
    | _ => false).setStaging none

/-- The chunk that a waiting CHUNK_REQ asks for. -/
def OutMsg.chunkAsked (o : OutMsg) (digest : Bytes) : Option Nat :=
  match o.body with
  | .chunkReq d k => if d = digest then some k else none
  | _ => none

/-- Chunks asked for and not yet answered. -/
def State.chunksAsked (s : State) (digest : Bytes) : List Nat := s.fab.outMsgs.filterMap fun o => o.chunkAsked digest

/-- Requests go to a peer, the lowest missing chunk first, while at most four are outstanding there (log entry 113). -/
def fetchMore (peer : Nat) : Nat → State → State
  | 0, s => s
  | n + 1, s =>
    match s.fw.staging with
    | none => s
    | some g =>
      let asked := s.chunksAsked g.digest
      let open_ := (s.fab.outMsgs.filter fun o => o.dst == peer && (o.chunkAsked g.digest).isSome).length
      let next := (List.range (chunkCount g.len)).find? fun k => !(g.chunks.any fun c => c.1 == k) && !asked.contains k
      match next with
      | some k =>
        if open_ < 4 ∧ g.stage = 1 ∧ g.peers.contains peer ∧ s.fabric ∧ !s.flash.readOnly then
          fetchMore peer n (s.fabRequest peer 0x09 (.chunkReq g.digest k) none 0 0)
        else s
      | none => s

def State.fetch (s : State) (peer : Nat) : State := fetchMore peer 4 s

/-- Requests for a package are given up. -/
def State.dropFetches (s : State) (keep : OutMsg → Bool) : State :=
  { s with fab := { s.fab with outMsgs := s.fab.outMsgs.filter fun o => o.ftype != 0x09 || keep o } }

/-- Every peer that is a source is asked for what is missing. -/
def State.refetch (s : State) : State :=
  match s.fw.staging with
  | some g => g.peers.foldl (fun (s : State) p => s.fetch p) s
  | none => s

/-- A peer refuses or is unreachable: the session stays open and asks every other peer. -/
def State.losePeer (s : State) (peer : Nat) : State :=
  match s.fw.staging with
  | none => s
  | some g =>
    let g := { g with peers := g.peers.filter fun p => p != peer }
    ((s.setStaging (some g)).dropFetches fun o => o.dst != peer).refetch

/-- A peer becomes a source, and is asked for what is missing. -/
def State.addPeer (s : State) (peer : Nat) : State :=
  match s.fw.staging with
  | none => s
  | some g =>
    let ps := if g.peers.contains peer then g.peers else g.peers ++ [peer]
    (s.setStaging (some { g with fromPeer := true, peers := ps })).fetch peer

/-- What follows when a request's destination is unreachable (R412, R428, R446). -/
def State.unreached (s : State) (o : OutMsg) : State :=
  let s := (s.dropOut o.msgId).count Reg.FAB.UNREACHABLE 1
  match o.tag with
  | some t =>
    match s.entry? t with
    | none => s
    | some e =>
      if o.ftype = 0x08 then
        let f := (s.abortTarget e).filter fun f => f.msg.opcode == 0x72 && f.state != .posted
        let s := s.finish e stTooLate []
        match f with
        | some f => (s.detach f.id).finish f stUnreachable []
        | none => s
      else s.finish e stUnreachable []
  | none =>
    if o.ftype = 0x09 then s.losePeer o.dst
    else if s.fab.pulls.any fun x => x.1 == o.nsid && o.ftype == 0x07 then s.pullElsewhere o.nsid
    else if (o.ftype = 0x01 ∨ o.ftype = 0x07) ∧ o.body ≠ .copyRelease o.nsid then s.loseMember o.nsid o.dst else s

def execMessageUnreachable (msgId : Nat) (s : State) : Host.Outcome State Fault Refusal :=
  s.done (match s.fab.outMsgs.find? fun o => o.msgId == msgId with
    | some o => s.unreached o
    | none => s)

/-! ## Staging (R435 to R440) -/

/-- A session opened for a package. -/
def State.openStaging (s : State) (digest : Bytes) (len func sec : Nat) : State :=
  (s.endStaging.setStaging (some ⟨digest, len, func, sec, 1, [], false, false, [], 0⟩)).dropFetches fun _ => false

/-- CHUNKS_HELD and FIRST_MISSING (Table 18-4). -/
def Fw.progress (f : Fw) : Bytes := beBytes 2 (f.stagingField fun g => g.chunks.length) ++ beBytes 2 f.firstMissing

/-- FUNC_VERSION of the active image. -/
def Fw.activeFunc (f : Fw) : Nat := f.record.func f.record.active

/-- The versions of a package lie below the device's. -/
def State.versionLow (s : State) (func sec : Nat) : Bool :=
  decide (sec < s.key.fuses.rollback) || decide (func < s.fw.activeFunc)

/-- The status with which an FW_OPEN fails before it looks at the staging (R439). -/
def State.openFails (s : State) (m : CmdMsg) : Option Nat :=
  let len := leAt m.value 48 4
  if len = 0 ∨ 25165824 < len then some stBadField
  else if s.versionLow (leAt m.value 52 4) (leAt m.value 56 1) then some stVersionLow
  else if beAt m.param 2 1 = 1 ∧ !s.fabric then some stNotPermitted
  else none

/-- The session joined or opened has the host, and PEER where it is asked for, as a source. -/
def State.joinStaging (s : State) (m : CmdMsg) : State :=
  let s := match s.fw.staging with
    | some g => s.setStaging (some { g with fromHost := true })
    | none => s
  if beAt m.param 2 1 = 1 then s.addPeer (beAt m.param 0 2) else s

/-- A session opens anew, where the flash tier can keep it. -/
def fwOpenNew (e : TagEntry) (past : Bool) (s : State) : State :=
  let v := e.msg.value
  if s.noTier then s.finish e stMedia s.fw.progress
  else if s.flash.readOnly then s.finish e stWorn s.fw.progress
  else
    let t := s.openStaging (sliceB v 0 48) (leAt v 48 4) (leAt v 52 4) (leAt v 56 1)
    let t := (if past then t.raise Ev.UPD.SUPERSEDED else t).joinStaging e.msg
    t.finish e stOK t.fw.progress

def fwOpenBody (e : TagEntry) (s : State) : State :=
  match s.openFails e.msg with
  | some st => s.finish e st s.fw.progress
  | none =>
    match s.fw.staging with
    | none => fwOpenNew e false s
    | some g =>
      if g.digest = sliceB e.msg.value 0 48 then
        let t := s.joinStaging e.msg
        t.finish e stOK t.fw.progress
      else if e.cls ≠ .data ∧ e.msg.supersede ∧ g.func ≤ leAt e.msg.value 52 4 then fwOpenNew e true s
      else s.finish e stStagingBusy s.fw.progress

def execFwOpen (t : TagId) (s : State) : Host.Outcome State Fault Refusal := s.done (s.runCmd t 0x60 fwOpenBody)

/-- The length of a chunk. -/
def Staging.chunkLen (g : Staging) (k : Nat) : Nat := min 65536 (g.len - 65536 * k)

/-- The checks of R440 on a chunk, after its digest: none where it is to be stored or is held. -/
def State.chunkFails (s : State) (g : Staging) (k crc : Nat) (b : Bytes) : Option Nat :=
  if chunkCount g.len ≤ k ∨ b.length ≠ g.chunkLen k then some stBadField
  else if crc ≠ crc32c b then some stChunkCheck
  else if g.chunks.any fun c => c.1 == k then none
  else if s.noTier then some stMedia
  else if s.sysFull b.length then some stDevFull
  else if s.flash.readOnly then some stWorn
  else none

/-- A chunk is held; the one that completes the set moves the staging to COMPLETE. -/
def State.holdChunk (s : State) (g : Staging) (k : Nat) (b : Bytes) : State :=
  if g.chunks.any fun c => c.1 == k then s
  else
    let s := s.saveSys (.chunk k) b.length
    let g := { g with chunks := g.chunks ++ [(k, b)] }
    if g.chunks.length = chunkCount g.len then
      (s.setStaging (some { g with stage := 2 })).raise Ev.UPD.STAGED_COMPLETE
    else s.setStaging (some g)

/-- The staging that DTAG names. -/
def Fw.named (f : Fw) (dtag : Bytes) : Option Staging := f.staging.filter fun g => sliceB g.digest 0 4 == dtag

def fwChunkBody (e : TagEntry) (s : State) : State :=
  let k := beAt e.msg.param 0 4
  match s.fw.named (sliceB e.msg.param 8 4) with
  | none => s.finish e stPackage s.fw.progress
  | some g =>
    match s.chunkFails g k (beAt e.msg.param 4 4) e.msg.value with
    | some st => s.finish e st s.fw.progress
    | none =>
      let t := s.holdChunk g k e.msg.value
      t.finish e stOK t.fw.progress

def execFwChunk (t : TagId) (s : State) : Host.Outcome State Fault Refusal := s.done (s.runCmd t 0x61 fwChunkBody)

def execFwStatus (t : TagId) (s : State) : Host.Outcome State Fault Refusal :=
  s.done (s.runCmd t 0x62 fun e s => s.finishData e stOK [] s.fwStatus)

/-! ## Verification (R441, Table 18-5) -/

/-- The package as its chunks make it up. -/
def Staging.package (g : Staging) : Bytes :=
  ((List.range (chunkCount g.len)).map fun k => match g.chunks.find? fun c => c.1 == k with
    | some c => c.2
    | none => []).flatten

/-- One part entry of the manifest (R433): its place follows the one before and ends by SIG_OFFSET. -/
def partOk (pkg : Bytes) (sig id : Nat) : Bool :=
  let o := 64 * id
  let low := if id = 1 then 576 else partOff pkg (id - 1) + partLen pkg (id - 1)
  decide (leAt pkg o 1 = id) && allZero (sliceB pkg (o + 1) 3) && allZero (sliceB pkg (o + 12) 4) &&
    decide (1 ≤ partLen pkg id) && decide (low ≤ partOff pkg id) && decide (partOff pkg id + partLen pkg id ≤ sig)

/-- Step 2: the manifest's digest, its fields, and the OPEN record. -/
def Staging.manifestOk (g : Staging) (pkg : Bytes) : Bool :=
  let sig := leAt pkg 20 4
  sha384 (sliceB pkg 0 576) == g.digest && decide (leAt pkg 0 4 = 0x4C504B47) && decide (leAt pkg 4 2 = 1) &&
    decide (leAt pkg 6 2 = 8) && decide (leAt pkg 8 4 = g.len) && decide (leAt pkg 12 4 = g.func) &&
    decide (leAt pkg 16 1 = g.sec) && decide (g.sec ≤ 64) && allZero (sliceB pkg 17 1) && decide (1 ≤ leAt pkg 18 2) &&
    decide (sig ≤ g.len) && allZero (sliceB pkg 24 40) && (List.range 8).all fun k => partOk pkg sig (k + 1)

/-- A signature over the manifest verifies under the root key that a fused digest stands for. -/
def signedUnder (fused pkg sig : Bytes) : Bool :=
  sha256 (Config.rootKey fused) == fused && hssVerify (Config.rootKey fused) (sliceB pkg 0 576) sig

/-- Step 3: the signature block (R434), which ends at PKG_LEN. -/
def State.signed (s : State) (pkg : Bytes) : Bool :=
  let o := leAt pkg 20 4
  let v := leAt pkg o 4
  let w := leAt pkg (o + 4 + v) 4
  decide (o + 8 + v + w = pkg.length) && signedUnder s.key.fuses.vendorPk pkg (sliceB pkg (o + 4) v) &&
    (!s.key.fuses.enrolled || (decide (w ≠ 0) && signedUnder s.key.fuses.operPk pkg (sliceB pkg (o + 8 + v) w)))

/-- Steps 2 to 6: the status of the first that fails. -/
def State.packageFails (s : State) (g : Staging) (pkg : Bytes) : Option Nat :=
  if !g.manifestOk pkg then some stPackage
  else if !s.signed pkg then some stSignature
  else if !((List.range 8).all fun k => sha384 (pkgPart pkg (k + 1)) == partDigest pkg (k + 1)) then some stPackage
  else if s.versionLow g.func g.sec then some stVersionLow
  else if leAt pkg 18 2 < s.rd Reg.COMPAT.PINNED then some stPackage
  else none

/-- A write of the slot record that fails: the copy that is not current has been erased (R447). -/
def Fw.spoil (f : Fw) : Fw :=
  match SlotRecord.live f.rec0, SlotRecord.live f.rec1 with
  | some a, some b => if a.generation < b.generation then { f with rec0 := none } else { f with rec1 := none }
  | some _, none => f
  | none, some _ => f
  | none, none => f

/-- Bytes written to a slot. -/
def Fw.setImage (f : Fw) (k : Nat) (b : Bytes) : Fw := if k = 0 then { f with imageA := b } else { f with imageB := b }

/-- A_RUNNABLE or B_RUNNABLE of one slot. -/
def Fw.setRuns (f : Fw) (k : Nat) (b : Bool) : Fw := if k = 0 then { f with aRunnable := b } else { f with bRunnable := b }

/-- An OFFER to each slot present in the sled map (R445); an offer awaits no response and is sent once (log entry 112). -/
def State.sendOffers (s : State) : State :=
  match s.fw.staging with
  | none => s
  | some g =>
    if s.fabric ∧ g.stage = 4 ∧ s.rdB Reg.UPD_CFG.PEER_PUSH then
      let dests := (s.fab.sled.filter fun x => x.present && decide (x.slot ≠ s.ownSlot)).map fun x => s.fab.addr / 16 * 16 + x.slot
      let one := fun (s : State) (dst : Nat) =>
        s.fabTell ⟨dst, 0x09, none, Config.fabFlow dst 0⟩ (.offer g.digest g.len g.func g.sec)
      dests.foldl one s
    else s

/-- LAST_VERIFY, and the completion with FIRST_MISSING. -/
def State.verifyEnds (s : State) (e : TagEntry) (st : Nat) : State :=
  let t := { s with fw := { s.fw with lastVerify := st } }
  t.finish e st (beBytes 2 t.fw.firstMissing)

/-- A step of Table 18-5 fails. -/
def State.verifyFails (s : State) (e : TagEntry) (g : Staging) (st : Nat) : State :=
  ((s.setStaging (some g)).report Ev.UPD.VERIFY_FAIL st).verifyEnds e st

/-- Step 9: the record names the package in the inactive slot, and the staging is VERIFIED. -/
def State.verifyStep9 (s : State) (e : TagEntry) (g : Staging) (fails : Option Nat) : State :=
  let r := s.fw.record
  let k := r.other
  if fails = some 9 then { s with fw := s.fw.spoil }.verifyFails e { g with stage := 2, vstep := 0 } stMedia
  else
    let t := { s with fw := s.fw.put (r.name k g.digest g.func g.sec) }
    let t := { t with fw := t.fw.setRuns k (t.slotAllowed t.fw.record k) }
    ((t.setStaging (some { g with stage := 4, vstep := 0 })).raise Ev.UPD.VERIFIED).sendOffers.verifyEnds e stOK

/-- Step 8: the inactive slot programmed with the package. -/
def State.verifyStep8 (s : State) (e : TagEntry) (g : Staging) (fails upTo : Option Nat) : State :=
  if fails = some 8 then s.verifyFails e { g with stage := 2, vstep := 0 } stMedia
  else
    let g := { g with vstep := 8 }
    let t := { s with fw := s.fw.setImage s.fw.record.other g.package }.setStaging (some g)
    if upTo = some 8 then t else t.verifyStep9 e g fails

/-- Step 7: the inactive slot marked empty in the record; from here on it holds no runnable image until step 9 ends. -/
def State.verifyStep7 (s : State) (e : TagEntry) (g : Staging) (fails upTo : Option Nat) : State :=
  let r := s.fw.record
  let k := r.other
  if fails = some 7 then { s with fw := s.fw.spoil }.verifyFails e { g with stage := 2, vstep := 0 } stMedia
  else
    let g := { g with vstep := 7 }
    let t := { s with fw := ((s.fw.put (r.name k noDigest 0 0)).setRuns k false).setImage k [] }.setStaging (some g)
    if upTo = some 7 then t else t.verifyStep8 e g fails upTo

/-- Steps 1 to 6, which record nothing, and then the others: `bad` lists chunks whose stored CRC fails, `fails` is the step that
the NOR fails, and with `upTo` the verification stays under way after that step. -/
def State.verifySteps (s : State) (e : TagEntry) (g : Staging) (bad : List Nat) (fails upTo : Option Nat) : State :=
  if g.stage = 3 then
    if g.vstep = 6 then s.verifyStep7 e g fails upTo
    else if g.vstep = 7 then s.verifyStep8 e g fails upTo
    else s.verifyStep9 e g fails
  else
    let good := g.chunks.filter fun c => !bad.contains c.1
    if good.length < g.chunks.length then (s.verifyFails e { g with stage := 1, chunks := good } stChunkCheck).refetch
    else if s.noHash then s.verifyEnds e stInternal
    else
      match s.packageFails g g.package with
      | some st => s.verifyFails e { g with stage := 2 } st
      | none =>
        let g := { g with stage := 3, vstep := 6 }
        let t := s.setStaging (some g)
        if upTo = some 6 then t else t.verifyStep7 e g fails upTo

def fwVerifyBody (bad : List Nat) (fails upTo : Option Nat) (e : TagEntry) (s : State) : State :=
  match s.fw.staging with
  | none => s.verifyEnds e stPackage
  | some g =>
    if g.chunks.length < chunkCount g.len then s.verifyEnds e stBadField
    else if s.fw.record.trial then s.verifyEnds e stNotPermitted
    else if sliceB g.digest 0 4 ≠ sliceB e.msg.param 0 4 then s.verifyEnds e stPackage
    else s.verifySteps e g bad fails upTo

def execFwVerify (t : TagId) (badChunks : List Nat) (r : VerifyRun) (s : State) : Host.Outcome State Fault Refusal :=
  s.done (s.runCmd t 0x63 (fwVerifyBody badChunks r.norFailsAt r.upTo))

/-! ## Activation (R442 to R444, Tables 18-7 and 18-8) -/

/-- A long command (R442). One that executes and is not yet done waits for the disk tier or for another device. -/
def State.isLong (s : State) (e : TagEntry) : Bool :=
  e.before && ((e.state == .executing &&
      ([0x07, 0x06, 0x05, 0x12, 0x72, 0x4A, 0x4B, 0x01].contains e.msg.opcode ||
        ([0x02, 0x04, 0x0D].contains e.msg.opcode && decide (4194304 < e.msg.value.length)) ||
        (match s.ns? e.msg.nsid with
         | some n => s.readsDisk n e.msg
         | none => false))) ||
    !s.stampReady e.msg)

/-- The wait of R442 and steps 1 and 2: with no long command under way, admission pauses; when no admitted command but
`keep` can run or is to be posted and the protected write buffer is on media, the swap is made and admission resumes
(R189). -/
def State.pauseFor (s : State) (keep : Option TagId) (swap : State → State) : State :=
  let others := s.cmd.tags.filter fun e => some e.id != keep
  if others.any s.isLong then s
  else
    let s := { s with cmd := { s.cmd with paused := true } }
    if others.any fun e => e.state == .committed || e.state == .executing || s.canStart e then s
    else
      let d := s.drain.flushLog
      if d.drained then
        let t := swap d
        { t with cmd := { t.cmd with paused := false } }
      else d

/-- The code of the active slot starts: MEAS_DIGEST, MAX_LEVEL and the default automata image are its own. -/
def State.startCode (s : State) : State :=
  let r := s.fw.record
  let img := s.fw.image r.active
  let t := (s.setMeas (r.digest r.active)).showLevel img
  if img.isEmpty then t else t.loadAuto (pkgPart img 8)

/-- Castling back in service (R450). -/
def State.castleBack (s : State) : State :=
  { s with fw := s.fw.put s.fw.record.castledBack }.raise Ev.UPD.REVERTED

/-- Castling into TRIAL: REVERTED and FALLBACK told of earlier swaps. -/
def SlotRecord.castled (r : SlotRecord) : SlotRecord :=
  { r with active := r.other, trial := true, reverted := false, fallback := false, trialStarts := 1, trialSeconds := 0 }

/-- A swap under the table of the profile; false where a part of the slot to run fails its check: in the Fabric profile the
record has been written by then and is castled back, in the Edge profile nothing has. -/
def State.swapSlots (s : State) (back partsOk : Bool) : State × Bool :=
  let go := fun (s : State) =>
    if back then s.castleBack else { s with fw := s.fw.put s.fw.record.castled }.raise Ev.UPD.ACTIVATED
  if partsOk then ((go s).startCode, true)
  else if s.fabric then ((go s).castleBack, false)
  else (s, false)

/-- FW_ACTIVATE waits, with admission open. -/
def fwActivateBody (e : TagEntry) (s : State) : State :=
  if s.fw.activating = some e.id then s
  else
    match s.fw.staging with
    | none => s.finish e stNotVerified []
    | some g =>
      if g.stage ≠ 4 then s.finish e stNotVerified []
      else if sliceB g.digest 0 4 ≠ sliceB e.msg.param 0 4 then s.finish e stPackage []
      else if s.fw.record.trial then s.finish e stNotPermitted []
      else { s with fw := { s.fw with activating := some e.id } }

def execFwActivate (t : TagId) (s : State) : Host.Outcome State Fault Refusal := s.done (s.runCmd t 0x64 fwActivateBody)

/-- The swap that FW_ACTIVATE waits for. -/
def State.activateSwap (s : State) (e : TagEntry) (partsOk : Bool) : State :=
  let s := { s with fw := { s.fw with activating := none } }
  match s.swapSlots false partsOk with
  | (t, true) => t.endStaging.finish e stOK []
  | (t, false) => t.finish e stPackage []

def execActivationPause (partsOk : Bool) (s : State) : Host.Outcome State Fault Refusal :=
  s.done (match s.fw.activating.bind s.entry? with
    | some e =>
      if s.dev.phase = .service then s.pauseFor (some e.id) fun s => s.activateSwap e partsOk else s
    | none => s)

/-! ## Confirmation, castling back, discarding (R449 to R451) -/

/-- The fuses blown to a count (step 1 of R451); where a bit fails its read-back, how many have been blown the spec does not
state. -/
def State.blowRollback (s : State) (n : Nat) (fuseOk : Bool) : State × Bool :=
  let old := s.key.fuses.rollback
  let set := fun (s : State) (k : Nat) => { s with key := { s.key with fuses := { s.key.fuses with rollback := k } } }
  if n ≤ old then (s, true)
  else if fuseOk then (set s n, true)
  else (set s.tookFree (old + Config.freeNat s.free % (n - old)), false)

/-- Which slots are runnable after the fuse count has risen. -/
def State.recheckSlots (s : State) : State :=
  let r := s.fw.record
  s.setRunnable (s.fw.aRunnable && s.slotAllowed r 0) (s.fw.bRunnable && s.slotAllowed r 1)

/-- FW_CONFIRM; `pause` stops between the fuses and the record. -/
def fwConfirmBody (fuseOk pause : Bool) (e : TagEntry) (s : State) : State :=
  let r := s.fw.record
  if !r.trial then s.finish e stNotPermitted []
  else
    match s.blowRollback (r.sec r.active) fuseOk with
    | (t, false) => t.recheckSlots.finish e stInternal []
    | (t, true) =>
      if pause then t.recheckSlots
      else
        let t := { t.recheckSlots with fw := t.recheckSlots.fw.put r.confirmed }.raise Ev.UPD.CONFIRMED
        t.finish e stOK (beBytes 1 t.key.fuses.rollback)

def execFwConfirm (t : TagId) (r : ConfirmRun) (s : State) : Host.Outcome State Fault Refusal :=
  s.doneBlown (s.runCmd t 0x65 (fwConfirmBody r.fuseOk r.pause))

/-- The slot castled back to can run: its parts pass, and its SEC_VERSION is at the fuse count or above. -/
def State.backOk (s : State) (partsOk : Bool) : Bool := partsOk && s.slotAllowed s.fw.record s.fw.record.other

def fwDiscardBody (partsOk : Bool) (e : TagEntry) (s : State) : State :=
  if beAt e.msg.param 0 1 = 1 then
    if s.fw.staging.isNone then s.finish e stAbsent []
    else if s.flash.readOnly then s.finish e stWorn []
    else (s.endStaging.dropFetches fun _ => false).finish e stOK []
  else if !s.fw.record.trial then s.finish e stNotPermitted []
  else
    s.pauseFor (some e.id) fun s =>
      match s.swapSlots true (s.backOk partsOk) with
      | (t, true) => t.finish e stOK []
      | (t, false) => t.finish e stPackage []

def execFwDiscard (t : TagId) (partsOk : Bool) (s : State) : Host.Outcome State Fault Refusal :=
  s.done (s.runCmd t 0x66 (fwDiscardBody partsOk))

/-- TRIAL_EXPIRY: 86,400 powered seconds in TRIAL. -/
def execTrialExpiry (partsOk : Bool) (s : State) : Host.Outcome State Fault Refusal :=
  s.done (if s.dev.phase = .service ∧ s.fw.record.trial then
      s.pauseFor none fun s => (s.swapSlots true (s.backOk partsOk)).1
    else s)

/-- TRIAL_SECONDS: each 3,600 powered seconds in TRIAL are recorded. -/
def execTrialSeconds (s : State) : Host.Outcome State Fault Refusal :=
  let r := s.fw.record
  s.done (if s.powered ∧ r.trial then { s with fw := s.fw.put { r with trialSeconds := r.trialSeconds + 3600 } } else s)

/-! ## Messages between peers (R445, R446) -/

/-- OFFER: a session is opened, or gains a source; an offer never supersedes. -/
def State.takeOfferOf (s : State) (src : Nat) (digest : Bytes) (len func sec : Nat) : State :=
  match s.fw.staging with
  | some g => if g.digest = digest then s.addPeer src else s
  | none =>
    if s.rdB Reg.UPD_CFG.PEER_ACCEPT ∧ s.key.fuses.rollback ≤ sec ∧ s.fw.activeFunc < func ∧ len ≠ 0 ∧ len ≤ 25165824 ∧
        !s.flash.readOnly ∧ !s.noTier then (s.openStaging digest len func sec).addPeer src
    else s

def execOffer (m : FabMsg) (digest : Bytes) (len func sec : Nat) (s : State) : Host.Outcome State Fault Refusal :=
  s.done (s.fabTake m fun s => s.takeOfferOf m.src digest len func sec)

def execOfferPeriod (s : State) : Host.Outcome State Fault Refusal :=
  s.done (if s.dev.phase = .service then s.sendOffers else s)

/-- A chunk of the package of a digest, where the device holds the package: in a slot, or complete in staging. The bytes of
a slot that the model has not seen written are free values. -/
def State.servedChunk (s : State) (digest : Bytes) (k : Nat) : Option (Bytes × Bool) :=
  let r := s.fw.record
  let cut := fun (pkg : Bytes) => if pkg.length ≤ 65536 * k then none else some (sliceB pkg (65536 * k) 65536, false)
  let slot := fun (i : Nat) => r.digest i == digest && digest != noDigest
  let staged := s.fw.staging.filter fun g => g.digest == digest && decide (2 ≤ g.stage)
  match staged with
  | some g => (g.chunks.find? fun c => c.1 == k).map fun c => (c.2, false)
  | none =>
    if slot 0 ∧ !s.fw.imageA.isEmpty then cut s.fw.imageA
    else if slot 1 ∧ !s.fw.imageB.isEmpty then cut s.fw.imageB
    else if (slot 0 ∨ slot 1) ∧ k < 384 then
      some ((List.range (1 + Config.freeNat s.free % 65536)).map fun i => (Config.freeWord s.free i).setWidth 8, true)
    else none

/-- CHUNK_REQ is answered by CHUNK or REFUSE. -/
def State.serveChunk (s : State) (m : FabMsg) (digest : Bytes) (k : Nat) : State :=
  if !s.rdB Reg.UPD_CFG.PEER_SERVE then s.fabReply m.src 0x09 m.msgId (.updRefuse digest stNotPermitted)
  else
    match s.servedChunk digest k with
    | none => s.fabReply m.src 0x09 m.msgId (.updRefuse digest stPackage)
    | some (b, free) => (if free then s.tookFree else s).fabReply m.src 0x09 m.msgId (.chunk digest k (crc32c b) b)

def execChunkReq (m : FabMsg) (digest : Bytes) (index : Nat) (s : State) : Host.Outcome State Fault Refusal :=
  s.done (s.fabRequestIn m 0x09 fun s => s.serveChunk m digest index)

/-- CHUNK: the request that it answers ends, it is stored as FW_CHUNK would store it, and the next is asked for. -/
def State.takeChunk (s : State) (m : FabMsg) (digest : Bytes) (k crc : Nat) (b : Bytes) : State :=
  let mine := fun (o : OutMsg) => o.dst == m.src && o.chunkAsked digest == some k
  if s.fab.outMsgs.any mine then
    let s := s.dropFetches fun o => !mine o
    match s.fw.staging with
    | none => s
    | some g =>
      if g.digest ≠ digest then s
      else if (s.chunkFails g k crc b).isSome then s.fetch m.src
      else (s.holdChunk g k b).fetch m.src
  else s

def execChunk (m : FabMsg) (digest : Bytes) (index crc : Nat) (bytes : Bytes) (s : State) :
    Host.Outcome State Fault Refusal :=
  s.done (s.fabTake m fun s => s.takeChunk m digest index crc bytes)

/-- REFUSE: it answers a request to that peer. -/
def execUpdateRefuse (m : FabMsg) (digest : Bytes) (_status : Nat) (s : State) : Host.Outcome State Fault Refusal :=
  s.done (s.fabTake m fun s =>
    if s.fab.outMsgs.any fun o => o.dst == m.src && (o.chunkAsked digest).isSome then s.losePeer m.src else s)

end Sys2Proof.Machine
end

