-- ==== Sys2Proof/Machine/DebugPort.lean ====
section
/-! DEFINITION. The serial debug port (chapter 20): the test access port and boundary scan, the unlock levels, accesses to
registers, memory and core state, and the debug of the control cores (R467 to R481). -/

namespace Sys2Proof.Machine

open Sys2Proof

/-! ## The test access port (R467, Table 20-2) -/

/-- Always-on power runs the TAP. -/
def State.tapOn (s : State) : Bool := decide (s.dev.phase ≠ .unpowered)

/-- Another instruction is loaded: outputs that a pin-driving one held return to the reset state (R480). -/
def State.loadIr (s : State) (code : Nat) : State :=
  let t := { s with dbg := { s.dbg with instr := code, pinDriven := false } }
  if s.dbg.pinDriven then t.emit .pinsReset else t

/-- A scan of the data register of the instruction loaded: what Capture-DR took goes out on TDO. -/
def State.scan (s : State) (bytes : Bytes) : State :=
  { s with dbg := { s.dbg with capture := bytes } }.emit (.tdo bytes)

/-- The bypass register, for an instruction that acts as BYPASS or selects it. -/
def State.bypass (s : State) : State := (s.loadIr 0xFF).scan [0]

/-- An instruction that needs the rails and a level at least as high. -/
def State.tapOp (s : State) (code level : Nat) (go : State → State) : State :=
  if !s.tapOn then s
  else if s.powered ∧ level ≤ s.dbg.level then go (s.loadIr code)
  else s.bypass

def execTrstN (lowNs : Nat) (s : State) : Host.Outcome State Fault Refusal :=
  s.done (if s.tapOn then
      match s.pulse lowNs 1 100 with
      | (true, t) => t.loadIr 0x02
      | (false, t) => t
    else s)

/-- IDCODE of stepping A1. -/
def idcodeValue : Nat := 0x166165D3

def execIdcode (s : State) : Host.Outcome State Fault Refusal :=
  s.done (if s.tapOn then (s.loadIr 0x02).scan (leBytes 4 idcodeValue) else s)

def execBypass (s : State) : Host.Outcome State Fault Refusal := s.done (if s.tapOn then s.bypass else s)

def execDbgStatus (s : State) : Host.Outcome State Fault Refusal :=
  s.done (if s.tapOn then (s.loadIr 0x10).scan (leBytes 4 (s.live 0x4C0040).toNat) else s)

/-! ## Boundary scan (R479 to R481) -/

/-- Cells of the boundary register. -/
def boundaryCells : Nat := 868

/-- The boundary register captured: what the balls carry is not the device's to say. -/
def State.scanPins (s : State) : State :=
  let b := (List.range ((boundaryCells + 7) / 8)).map fun i => (Config.freeWord s.free i).setWidth 8
  s.tookFree.scan b

/-- Cells shifted in. -/
def State.shiftCells (s : State) (cells : List Bool) : State := { s with dbg := { s.dbg with cells := cells.take boundaryCells } }

def execSamplePreload (cells : List Bool) (s : State) : Host.Outcome State Fault Refusal :=
  s.done (if s.tapOn then ((s.loadIr 0x01).scanPins).shiftCells cells else s)

/-- Where a pin-driving instruction takes effect (R480). -/
def State.pinsAllowed (s : State) : Bool :=
  s.powered && (decide (s.dbg.level = 2) || decide (s.dev.phase = .bootWait) || decide (s.dev.phase = .testMode))

/-- At full unlock the device first performs steps 1 to 4 of Table 03-10; its links go down, and service ends until the next
start. -/
def State.holdPins (s : State) : State :=
  if s.dev.phase = .bootWait ∨ s.dev.phase = .testMode ∨ s.dev.pinsHeld then s
  else
    let s := match s.dev.phase with
      | .service | .stalemate => s.stopService
      | _ => s
    let s := if s.dev.phase = .drained true then s
      else
        let t := s.hardDrain true
        { t with dev := { t.dev with phase := .drained true } }
    let s := (List.range 8).foldl (fun (t : State) p => t.dropPort p) s
    let s := (s.fab.links.map fun l => l.id).foldl (fun (t : State) l => t.linkDown l) s
    { s with dev := { s.dev with pinsHeld := true } }.raise Ev.DBG.PINS_HELD

/-- A pin-driving instruction. -/
def State.drivePins (s : State) (code : Nat) (go : State → State) : State :=
  if !s.tapOn then s
  else if s.pinsAllowed then
    let t := (s.loadIr code).holdPins
    go { t with dbg := { t.dbg with pinDriven := true } }
  else s.bypass

/-- The outputs follow the cells. -/
def State.driveCells (s : State) (cells : List Bool) : State :=
  let t := s.shiftCells cells
  (t.emit (.pins t.dbg.cells)).scanPins

def execExtest (cells : List Bool) (s : State) : Host.Outcome State Fault Refusal :=
  s.done (s.drivePins 0x00 fun s => s.driveCells cells)

def execExtestPulse (cells : List Bool) (s : State) : Host.Outcome State Fault Refusal :=
  s.done (s.drivePins 0x08 fun s => s.driveCells cells)

def execExtestTrain (cells : List Bool) (s : State) : Host.Outcome State Fault Refusal :=
  s.done (s.drivePins 0x09 fun s => s.driveCells cells)

/-- CLAMP: the outputs hold the cells shifted in before, with bypass selected. -/
def execClamp (s : State) : Host.Outcome State Fault Refusal :=
  s.done (s.drivePins 0x03 fun s => (s.emit (.pins s.dbg.cells)).scan [0])

def execHighz (s : State) : Host.Outcome State Fault Refusal :=
  s.done (s.drivePins 0x04 fun s => (s.emit .pinsHighZ).scan [0])

/-! ## Unlocking (R469 to R473) -/

/-- The 64 bytes of a challenge (Table 20-4). -/
def State.challengeBytes (s : State) (level : Nat) (nonce : Bytes) : Bytes :=
  leBytes 4 0x44424743 ++ leBytes 1 level ++ [0, 0, 0] ++ leBytes 8 s.serial ++ leBytes 4 s.devField ++
    leBytes 4 (s.word 0x40044).toNat ++ List.replicate 8 0 ++ nonce

/-- A new challenge replaces any earlier one, and a check of that one's response. -/
def State.newChallenge (s : State) (level : Nat) : State :=
  let r := s.random 32
  let c := s.challengeBytes level r.1
  let t := r.2
  { t with dbg := { t.dbg with challenge := some c, chalLevel := level, response := [], pending := false } }.scan c

/-- A relock: at once from observe, by a DEBUG reset from full. -/
def State.relock (s : State) : State :=
  if s.dbg.level = 2 then s.resetNow .debug 0 0 true else { s with dbg := { s.dbg with level := 0 } }

def State.takeChallenge (s : State) (level : Nat) (otherBits : Bool) : State :=
  if otherBits then s
  else if level = 0 then s.relock
  else if 3 ≤ level ∨ s.noChallenge then s
  else s.newChallenge level

def execDbgChallenge (level : Nat) (otherBits : Bool) (s : State) : Host.Outcome State Fault Refusal :=
  s.done (s.tapOp 0x11 0 fun s => s.takeChallenge level otherBits)

def execDbgRelock (s : State) : Host.Outcome State Fault Refusal := s.done (s.tapOp 0x11 0 fun s => s.relock)

/-- CHALLENGE_EXPIRY: a response whose check has begun is still checked. -/
def execChallengeExpiry (s : State) : Host.Outcome State Fault Refusal :=
  s.done (if s.dbg.pending then s else { s with dbg := { s.dbg with challenge := none, response := [] } })

/-- LEN of a response (R471). -/
def responseLen (ws : List Word) : Nat := (ws.head?.getD 0).toNat

/-- The last word of a response has come; a LEN outside 20 to 32,768 is known to fail with its first word. -/
def responseDone (ws : List Word) : Bool :=
  let n := responseLen ws
  decide (n < 20) || decide (32768 < n) || decide (n ≤ 4 * ws.length)

/-- DBG_RESPONSE appends a word; words without a valid challenge, or during a check, are discarded. -/
def State.takeResponse (s : State) (w : Word) : State :=
  if s.dbg.challenge.isNone ∨ s.dbg.pending then s
  else
    let ws := s.dbg.response ++ [w]
    { s with dbg := { s.dbg with response := ws, pending := responseDone ws } }

def execDbgResponse (word : Word) (s : State) : Host.Outcome State Fault Refusal :=
  s.done (s.tapOp 0x12 0 fun s => s.takeResponse word)

/-- What follows LEN in a response. -/
def responseBody (ws : List Word) : Bytes :=
  ((ws.map fun w => leBytes 4 w.toNat).flatten.take (responseLen ws)).drop 4

/-- The check of an observe response. -/
def State.observePasses (s : State) (challenge : Bytes) (ws : List Word) : Bool :=
  s.dbg.observeOk && decide (responseLen ws = 20) && (match s.slotKey 0 with
    | some k => cmac k challenge == responseBody ws
    | none => false)

/-- The check of a full response. -/
def State.fullPasses (s : State) (challenge : Bytes) (ws : List Word) : Bool :=
  let b := responseBody ws
  let v := leAt b 60 4
  let o := leAt b (124 + v) 4
  let vpk := sliceB b 0 60
  let opk := sliceB b (64 + v) 60
  let f := s.key.fuses
  s.dbg.fullOk && decide (20 ≤ responseLen ws) && decide (responseLen ws ≤ 32768) && decide (b.length = 128 + v + o) &&
    sha256 vpk == f.vendorPk && hssVerify vpk challenge (sliceB b 64 v) &&
    (if f.enrolled then sha256 opk == f.operPk && hssVerify opk challenge (sliceB b (128 + v) o)
     else allZero opk && decide (o = 0))

/-- Every live key is zeroed; GEN values stay (step 1 of R472). -/
def State.zeroKeys (s : State) : State :=
  let t := s.eraseKeys
  let slots := (s.key.slots.map fun p => (p.1, ({ p.2 with attr := 0, key := [] } : Slot))).filter fun p => p.2 != slotDefault p.1
  { t with key := { t.key with slots := slots } }

/-- Suspended operations end with `KEY_CHANGED` and are counted (step 2 of R472): their commands are posted with it. -/
def State.endLatched (s : State) : State :=
  let held := s.cry.suspended.map fun x => x.order
  let es := s.cmd.tags.filter fun e => held.contains e.order && e.state != .posted
  es.foldl (fun (t : State) e => (t.detach e.id).finish e stKeyChanged []) (s.count Reg.CRY.KEY_CHANGES held.length)

/-- Full is granted (R472). -/
def State.grantFull (s : State) : State :=
  let t := s.endLatched.zeroKeys
  let t := (t.sessions.map fun x => x.id).foldl (fun (t : State) id => t.endSession id) t
  let t := { t with cry := { t.cry with phase := 2 }, dbg := { t.dbg with level := 2 } }
  t.raise Ev.DBG.UNLOCK_FULL

/-- A response that fails (R471). -/
def State.unlockFails (s : State) : State :=
  let n := min 31 (s.dbg.fails + 1)
  { s with dbg := { s.dbg with fails := n, lockout := min (2 ^ (n - 1)) 1024 } }.raise Ev.DBG.UNLOCK_FAIL

/-- The check of a response ends. -/
def State.endCheck (s : State) : State :=
  match s.dbg.challenge with
  | none => s
  | some c =>
    let ws := s.dbg.response
    let t := { s with dbg := { s.dbg with pending := false, challenge := none, response := [] } }
    if s.dbg.chalLevel = 1 then
      if s.observePasses c ws then
        { t with dbg := { t.dbg with fails := 0, level := 1 } }.raise Ev.DBG.UNLOCK_OBSERVE
      else t.unlockFails
    else if s.fullPasses c ws then { t with dbg := { t.dbg with fails := 0 } }.grantFull
    else t.unlockFails

def execUnlockCheck (s : State) : Host.Outcome State Fault Refusal :=
  s.done (if s.powered ∧ s.dbg.pending then s.endCheck else s)

/-- LOCKOUT_EXPIRY: its seconds have run down. -/
def execLockoutExpiry (s : State) : Host.Outcome State Fault Refusal :=
  s.done (if s.powered then { s with dbg := { s.dbg with lockout := 0 } } else s)

def execDbgReset (key : BitVec 16) (reset : Bool) (s : State) : Host.Outcome State Fault Refusal :=
  s.done (s.tapOp 0x15 2 fun s => if key = 0x5AFE ∧ reset then s.resetNow .debug 0 0 true else s)

/-! ## Accesses (R474 to R476, Table 20-5) -/

/-- The 12 bytes that Capture-DR returns for an access. -/
def accessBytes (a : DbgAccess) (addr op data status : Nat) : Bytes :=
  leBytes 4 (data % 2 ^ 32) ++ leBytes 5 addr ++ leBytes 1 (op + a.space % 4 * 4 + bit a.inc * 16) ++ leBytes 2 status

/-- An access is reported as unfinished. -/
def State.beginAccess (s : State) (a : DbgAccess) (addr op : Nat) : State :=
  { s with dbg := { s.dbg with lastAddr := addr, capture := accessBytes a addr op 0 stBusy } }

/-- An access ends with data and a status. -/
def State.endAccess (s : State) (a : DbgAccess) (op status data : Nat) : State :=
  let words := if op = 1 ∧ status = stOK then [BitVec.ofNat 32 data] else []
  { s with dbg := { s.dbg with capture := accessBytes a s.dbg.lastAddr op data status } }.emit
    (.regResult .debug status words)

/-- The core and word that a core-state address names. -/
def coreWord (addr : Nat) : Nat × Nat := (addr / 2 ^ 32 % 8, addr % 512)

/-- The statuses of R475 that need no register rule: an address outside its space, then what a level or a region
withholds. -/
def State.accessFails (s : State) (a : DbgAccess) (addr : Nat) (write : Bool) : Option Nat :=
  let c := coreWord addr
  let outside : Bool := match a.space with
    | 0 => decide (2 ^ 32 ≤ addr)
    | 1 => decide (0x1000000 < addr + 4)
    | 2 => decide (s.cfg.hw.dramGib * 2 ^ 30 < addr + 4)
    | 3 => decide (67 < c.2) || decide (addr ≠ c.1 * 2 ^ 32 + c.2)
    | _ => true
  if a.reserved ≠ 0 ∨ outside = true then some stBadField
  else if s.dbg.level < 2 ∧ (write ∨ a.space ≠ 0) then some stNotPermitted
  else if a.space = 1 ∧ Config.withheldSram addr then some stNotPermitted
  else if a.space = 3 ∧ !(s.dbg.cores.any fun k => k.id == c.1 && k.halted) then some stNotPermitted
  else none

/-- The words of a core's state. -/
def State.coreRegs (s : State) (k : Nat) : List Word := ((s.dbg.cores.find? fun c => c.id == k).map fun c => c.regs).getD []

/-- A read of a space. -/
def State.readSpace (s : State) (a : DbgAccess) (addr : Nat) : State :=
  let c := coreWord addr
  match a.space with
  | 0 =>
    match s.regRead .debug addr 1 with
    | (st, vs, t) => t.endAccess a 1 st ((vs.head?.getD 0).toNat)
  | 1 => s.endAccess a 1 stOK (leNat (s.sram.readBytes addr 4))
  | 2 => s.endAccess a 1 stOK (leNat (s.dram.readBytes addr 4))
  | _ => s.endAccess a 1 stOK ((s.coreRegs c.1).getD c.2 0).toNat

/-- A write of a space; a register write is answered when it is done. What it stores in core SRAM and DRAM `memAfter` says. -/
def State.writeSpace (s : State) (a : DbgAccess) (addr : Nat) (v : Word) : State :=
  let c := coreWord addr
  match a.space with
  | 0 => s.regWrite .debug (.path .debug) addr v (BitVec.allOnes 32)
  | 1 => s.endAccess a 2 stOK 0
  | 2 => s.endAccess a 2 stOK 0
  | _ =>
    let put := fun (k : Core_) => if k.id = c.1 then { k with regs := k.regs.set c.2 v } else k
    { s with dbg := { s.dbg with cores := s.dbg.cores.map put } }.endAccess a 2 stOK 0

/-- The address of an access: 40 bits, or with INC 4 above the last one's. -/
def State.accessAddr (s : State) (a : DbgAccess) : Nat := if a.inc then (s.dbg.lastAddr + 4) % 2 ^ 40 else a.addr % 2 ^ 40

/-- The status with which an access ends without being made: in SLEEP nothing is done (R474). -/
def State.accessStatus (s : State) (a : DbgAccess) (write : Bool) : Option Nat :=
  if s.dev.power = .sleep ∨ !s.answersRegs then some stBusy else s.accessFails a (s.accessAddr a) write

/-- One access. -/
def State.access (s : State) (a : DbgAccess) (op : Nat) (go : Nat → State → State) : State :=
  let addr := s.accessAddr a
  let t := s.beginAccess a addr op
  match s.accessStatus a (op = 2) with
  | some st => t.endAccess a op st 0
  | none => go addr t

/-- Core SRAM and DRAM after a write access (R475): four bytes, least significant first. -/
def State.memAfter (s : State) (a : DbgAccess) (v : Word) : Memory × Memory :=
  let b := leBytes 4 v.toNat
  if s.powered ∧ 1 ≤ s.dbg.level ∧ s.accessStatus a true = none then
    if a.space = 1 then (s.sram.writeBytes (s.accessAddr a) b, s.dram)
    else if a.space = 2 then (s.sram, s.dram.writeBytes (s.accessAddr a) b)
    else (s.sram, s.dram)
  else (s.sram, s.dram)

def execDbgAccessRead (a : DbgAccess) (s : State) : Host.Outcome State Fault Refusal :=
  s.done (s.tapOp 0x13 1 fun s => s.access a 1 fun addr s => s.readSpace a addr)

def execDbgAccessWrite (a : DbgAccess) (value : Word) (s : State) : Host.Outcome State Fault Refusal :=
  s.doneMem (s.tapOp 0x13 1 fun s => s.access a 2 fun addr s => s.writeSpace a addr value) (s.memAfter a value).1
    (s.memAfter a value).2

/-! ## Control cores (R477, R478) -/

/-- The words of core state: 32 general registers, the program counter and the status word, low word first. -/
def coreWords : Nat := 68

/-- What a core's registers hold once it has run is not stated (R477). -/
def Core_.stopped (c : Core_) (cause free : Nat) : Core_ :=
  { c with halted := true, cause := cause, regs := (List.range coreWords).map fun i => Config.freeWord (free + c.id) i }

/-- Cores halt, each for its cause; which of several halts last is not stated. -/
def State.haltCores (s : State) (which : List (Nat × Nat)) : State :=
  let live := which.filter fun x => s.dbg.cores.any fun c => c.id == x.1 && !c.halted
  if live.isEmpty then s
  else
    let stop := fun (c : Core_) => match live.find? fun x => x.1 == c.id with
      | some x => c.stopped x.2 s.free
      | none => c
    let last := (live.getD (Config.freeNat (s.free + 8) % live.length) (0, 0)).1
    let t := { s with free := s.free + 9, dbg := { s.dbg with cores := s.dbg.cores.map stop, lastHalted := last } }
    t.raise Ev.DBG.CORE_HALTED

/-- The cores of a selection. -/
def coreList (cores : BitVec 8) : List Nat := (List.range 8).filter fun k => cores.getLsbD k

/-- What DBG_CORE captures. -/
def State.coreCapture (s : State) : Bytes :=
  let k := s.dbg.lastHalted
  let halted := maskOf ((s.dbg.cores.filter fun c => c.halted).map fun c => c.id)
  let cause := ((s.dbg.cores.find? fun c => c.id == k).map fun c => c.cause).getD 0
  let pc := ((s.coreRegs k).getD 64 0).toNat + ((s.coreRegs k).getD 65 0).toNat * 2 ^ 32
  leBytes 1 halted ++ leBytes 1 (k + cause * 8) ++ leBytes 6 (pc % 2 ^ 48) ++ [0]

/-- A DBG_CORE update, and the capture that follows. -/
def State.coreOp (s : State) (go : State → State) : State :=
  s.tapOp 0x14 2 fun s =>
    let t := go s
    t.scan t.coreCapture

/-- A change of the cores selected. -/
def State.onCores (s : State) (cores : BitVec 8) (f : Core_ → Core_) : State :=
  { s with dbg := { s.dbg with cores := s.dbg.cores.map fun c => if cores.getLsbD c.id then f c else c } }

def execHalt (cores : BitVec 8) (s : State) : Host.Outcome State Fault Refusal :=
  s.done (s.coreOp fun s => s.haltCores ((coreList cores).map fun k => (k, 0)))

def execResume (cores : BitVec 8) (s : State) : Host.Outcome State Fault Refusal :=
  s.done (s.coreOp fun s => s.onCores cores fun c => { c with halted := false })

/-- STEP: each halted core selected runs one instruction and halts again. -/
def execStep (cores : BitVec 8) (s : State) : Host.Outcome State Fault Refusal :=
  s.done (s.coreOp fun s =>
    let ks := (coreList cores).filter fun k => s.dbg.cores.any fun c => c.id == k && c.halted
    (s.onCores cores fun c => { c with halted := false }).haltCores (ks.map fun k => (k, 1)))

def execSetBreakpoint (cores : BitVec 8) (unit : Nat) (addr : BitVec 48) (s : State) : Host.Outcome State Fault Refusal :=
  s.done (s.coreOp fun s => s.onCores cores fun c =>
    { c with breaks := putWhere (fun x => x.1 == unit % 8) (unit % 8, addr) c.breaks })

def execClearBreakpoint (cores : BitVec 8) (unit : Nat) (s : State) : Host.Outcome State Fault Refusal :=
  s.done (s.coreOp fun s => s.onCores cores fun c => { c with breaks := dropWhere (fun x => x.1 == unit % 8) c.breaks })

/-- A watchpoint covers one aligned 8-byte word; there are units 0 to 3. -/
def execSetWatchpoint (cores : BitVec 8) (unit : Nat) (addr : BitVec 48) (kind : Nat) (s : State) :
    Host.Outcome State Fault Refusal :=
  s.done (s.coreOp fun s =>
    if unit < 4 then
      s.onCores cores fun c =>
        { c with watches := putWhere (fun x => x.1 == unit) (unit, addr &&& ~~~(7 : BitVec 48), kind % 4) c.watches }
    else s)

def execClearWatchpoint (cores : BitVec 8) (unit : Nat) (s : State) : Host.Outcome State Fault Refusal :=
  s.done (s.coreOp fun s => s.onCores cores fun c => { c with watches := dropWhere (fun x => x.1 == unit) c.watches })

def execSetHaltAll (s : State) : Host.Outcome State Fault Refusal :=
  s.done (s.coreOp fun s => { s with dbg := { s.dbg with haltAll := true } })

def execClearHaltAll (s : State) : Host.Outcome State Fault Refusal :=
  s.done (s.coreOp fun s => { s with dbg := { s.dbg with haltAll := false } })

/-- A hit halts its core, and with HALT_ALL every other core too (cause 4). -/
def State.coreHit (s : State) (core cause : Nat) (has : Core_ → Bool) : State :=
  if s.serving ∧ s.dbg.cores.any fun c => c.id == core && !c.halted && has c then
    let rest := if s.dbg.haltAll then ((List.range 8).filter fun k => k != core).map fun k => (k, 4) else []
    s.haltCores ((core, cause) :: rest)
  else s

def execBreakpointHit (core unit : Nat) (s : State) : Host.Outcome State Fault Refusal :=
  s.done (s.coreHit core 2 fun c => c.breaks.any fun x => x.1 == unit)

def execWatchpointHit (core unit : Nat) (s : State) : Host.Outcome State Fault Refusal :=
  s.done (s.coreHit core 3 fun c => c.watches.any fun x => x.1 == unit && x.2.2 != 0)

end Sys2Proof.Machine
end

