-- ==== Sys2Proof/Machine/Dispatch.lean ====
section
/-! DEFINITION. One arm per command: a direct call of its meaning. -/

namespace Sys2Proof.Machine

open Sys2Proof

/-- A command's effect on everything but the queue. -/
def exec (i : Instr) (s : State) : Host.Outcome State Fault Refusal :=
  match i with
  | .get t rd => Sys2Proof.Machine.execGet t rd s
  | .put t pause => Sys2Proof.Machine.execPut t pause s
  | .delete t pause => Sys2Proof.Machine.execDelete t pause s
  | .cas t rd pause => Sys2Proof.Machine.execCas t rd pause s
  | .getRange t rd => Sys2Proof.Machine.execGetRange t rd s
  | .list t rd => Sys2Proof.Machine.execList t rd s
  | .scan t rd => Sys2Proof.Machine.execScan t rd s
  | .append t pause => Sys2Proof.Machine.execAppend t pause s
  | .batch t rd pause => Sys2Proof.Machine.execBatch t rd pause s
  | .flush t => Sys2Proof.Machine.execFlush t s
  | .abort t => Sys2Proof.Machine.execAbort t s
  | .partBegin t pause => Sys2Proof.Machine.execPartBegin t pause s
  | .partPut t pause => Sys2Proof.Machine.execPartPut t pause s
  | .partCommit t pause => Sys2Proof.Machine.execPartCommit t pause s
  | .watchArm t => Sys2Proof.Machine.execWatchArm t s
  | .watchDisarm t => Sys2Proof.Machine.execWatchDisarm t s
  | .purgeExpired t pause => Sys2Proof.Machine.execPurgeExpired t pause s
  | .nsCreate t => Sys2Proof.Machine.execNsCreate t s
  | .nsDelete t => Sys2Proof.Machine.execNsDelete t s
  | .nsQuery t => Sys2Proof.Machine.execNsQuery t s
  | .powerState t pause => Sys2Proof.Machine.execPowerState t pause s
  | .resetController t => Sys2Proof.Machine.execResetController t s
  | .regRead t => Sys2Proof.Machine.execRegRead t s
  | .regWrite t => Sys2Proof.Machine.execRegWrite t s
  | .configWrite t => Sys2Proof.Machine.execConfigWrite t s
  | .configFactory t => Sys2Proof.Machine.execConfigFactory t s
  | .keyProvision t fuseOk => Sys2Proof.Machine.execKeyProvision t fuseOk s
  | .keyErase t => Sys2Proof.Machine.execKeyErase t s
  | .timeAdvance t => Sys2Proof.Machine.execTimeAdvance t s
  | .patternLoad t => Sys2Proof.Machine.execPatternLoad t s
  | .camWrite r => Sys2Proof.Machine.execCamWrite r s
  | .fwOpen t => Sys2Proof.Machine.execFwOpen t s
  | .fwChunk t => Sys2Proof.Machine.execFwChunk t s
  | .fwStatus t => Sys2Proof.Machine.execFwStatus t s
  | .fwVerify t badChunks r => Sys2Proof.Machine.execFwVerify t badChunks r s
  | .fwActivate t => Sys2Proof.Machine.execFwActivate t s
  | .fwConfirm t r => Sys2Proof.Machine.execFwConfirm t r s
  | .fwDiscard t partsOk => Sys2Proof.Machine.execFwDiscard t partsOk s
  | .fabQuery t => Sys2Proof.Machine.execFabQuery t s
  | .fabMirrorSet t refused unreachable => Sys2Proof.Machine.execFabMirrorSet t refused unreachable s
  | .fabForward t => Sys2Proof.Machine.execFabForward t s
  | .hostCryptoServicePut t suspend => Sys2Proof.Machine.execHostCryptoServicePut t suspend s
  | .hostCryptoServiceGet t => Sys2Proof.Machine.execHostCryptoServiceGet t s
  | .hostCryptoServiceDelete t => Sys2Proof.Machine.execHostCryptoServiceDelete t s
  | .commandPosted t => Sys2Proof.Machine.execCommandPosted t s
  | .mctpRegRead h addr count => Sys2Proof.Machine.execMctpRegRead h addr count s
  | .mctpRegWrite h addr value mask => Sys2Proof.Machine.execMctpRegWrite h addr value mask s
  | .configWriteFragment h index reserved bytes => Sys2Proof.Machine.execConfigWriteFragment h index reserved bytes s
  | .mctpConfigFactory h => Sys2Proof.Machine.execMctpConfigFactory h s
  | .mctpResetController h => Sys2Proof.Machine.execMctpResetController h s
  | .mctpFwStatus h => Sys2Proof.Machine.execMctpFwStatus h s
  | .configFragmentSetExpiry => Sys2Proof.Machine.execConfigFragmentSetExpiry s
  | .setEndpointId c op eid => Sys2Proof.Machine.execSetEndpointId c op eid s
  | .getEndpointId c => Sys2Proof.Machine.execGetEndpointId c s
  | .getMctpVersionSupport c msgType => Sys2Proof.Machine.execGetMctpVersionSupport c msgType s
  | .getMessageTypeSupport c => Sys2Proof.Machine.execGetMessageTypeSupport c s
  | .getVendorDefinedMessageSupport c selector => Sys2Proof.Machine.execGetVendorDefinedMessageSupport c selector s
  | .smbusClockTimeout => Sys2Proof.Machine.execSmbusClockTimeout s
  | .claim w page lock sticky => Sys2Proof.Machine.execClaim w page lock sticky s
  | .release w page => Sys2Proof.Machine.execRelease w page s
  | .lock w page value => Sys2Proof.Machine.execLock w page value s
  | .sticky w page => Sys2Proof.Machine.execSticky w page s
  | .evtStatClear w page bits => Sys2Proof.Machine.execEvtStatClear w page bits s
  | .evtForce w page bits => Sys2Proof.Machine.execEvtForce w page bits s
  | .errClr w page => Sys2Proof.Machine.execErrClr w page s
  | .reqOn w page => Sys2Proof.Machine.execReqOn w page s
  | .reqOff w page => Sys2Proof.Machine.execReqOff w page s
  | .rstCtrlController w key => Sys2Proof.Machine.execRstCtrlController w key s
  | .pinnedWrite w level => Sys2Proof.Machine.execPinnedWrite w level s
  | .logSelWrite w value => Sys2Proof.Machine.execLogSelWrite w value s
  | .registerWrite w addr value mask => Sys2Proof.Machine.execRegisterWrite w addr value mask s
  | .configCommit r => Sys2Proof.Machine.execConfigCommit r s
  | .rcRead w addr => Sys2Proof.Machine.execRcRead w addr s
  | .counterLowRead w addr => Sys2Proof.Machine.execCounterLowRead w addr s
  | .domainAccessPowerOff page => Sys2Proof.Machine.execDomainAccessPowerOff page s
  | .hello d f => Sys2Proof.Machine.execHello d f s
  | .data d f => Sys2Proof.Machine.execData d f s
  | .ack d f => Sys2Proof.Machine.execAck d f s
  | .close d f => Sys2Proof.Machine.execClose d f s
  | .ackDelayExpiry session => Sys2Proof.Machine.execAckDelayExpiry session s
  | .retransmissionTimer session seq => Sys2Proof.Machine.execRetransmissionTimer session seq s
  | .halfOpenExpiry session => Sys2Proof.Machine.execHalfOpenExpiry session s
  | .sessionIdle session => Sys2Proof.Machine.execSessionIdle session s
  | .retxEnd session => Sys2Proof.Machine.execRetxEnd session s
  | .closeTimeout session => Sys2Proof.Machine.execCloseTimeout session s
  | .arpRequest d => Sys2Proof.Machine.execArpRequest d s
  | .neighbourSolicitation d => Sys2Proof.Machine.execNeighbourSolicitation d s
  | .echoRequest d payload => Sys2Proof.Machine.execEchoRequest d payload s
  | .fabricFrameOnHostPort port vlan dstMac etherType f => Sys2Proof.Machine.execFabricFrameOnHostPort port vlan dstMac etherType f s
  | .pause port quanta => Sys2Proof.Machine.execPause port quanta s
  | .linkUp l => Sys2Proof.Machine.execLinkUp l s
  | .linkDown port => Sys2Proof.Machine.execLinkDown port s
  | .anFail port => Sys2Proof.Machine.execAnFail port s
  | .por r => Sys2Proof.Machine.execPor r s
  | .pin lowNs drained => Sys2Proof.Machine.execPin lowNs drained s
  | .watchdog core drained => Sys2Proof.Machine.execWatchdog core drained s
  | .coldStart f => Sys2Proof.Machine.execColdStart f s
  | .warmStart f => Sys2Proof.Machine.execWarmStart f s
  | .railFault step => Sys2Proof.Machine.execRailFault step s
  | .railRetry r => Sys2Proof.Machine.execRailRetry r s
  | .switchedRailLoss drained => Sys2Proof.Machine.execSwitchedRailLoss drained s
  | .pwrfail lowNs => Sys2Proof.Machine.execPwrfail lowNs s
  | .drainComplete => Sys2Proof.Machine.execDrainComplete s
  | .pwrfailResume => Sys2Proof.Machine.execPwrfailResume s
  | .voltageAlarm beyondMax drained => Sys2Proof.Machine.execVoltageAlarm beyondMax drained s
  | .clockAlarm drained => Sys2Proof.Machine.execClockAlarm drained s
  | .temperatureAlarm drained => Sys2Proof.Machine.execTemperatureAlarm drained s
  | .shieldAlarm drained => Sys2Proof.Machine.execShieldAlarm drained s
  | .envCountDecrement => Sys2Proof.Machine.execEnvCountDecrement s
  | .wakeN lowNs => Sys2Proof.Machine.execWakeN lowNs s
  | .wakeTimer => Sys2Proof.Machine.execWakeTimer s
  | .idle => Sys2Proof.Machine.execIdle s
  | .standbyAfter pause => Sys2Proof.Machine.execStandbyAfter pause s
  | .sleepAfter pause => Sys2Proof.Machine.execSleepAfter pause s
  | .routerIslandQuiet => Sys2Proof.Machine.execRouterIslandQuiet s
  | .thermalLimitFall => Sys2Proof.Machine.execThermalLimitFall s
  | .thermalLimitRise => Sys2Proof.Machine.execThermalLimitRise s
  | .powerEstimate est est1 est100 => Sys2Proof.Machine.execPowerEstimate est est1 est100 s
  | .thermN hottest => Sys2Proof.Machine.execThermN hottest s
  | .tempWarn hottest sensor => Sys2Proof.Machine.execTempWarn hottest sensor s
  | .refclkSdLost => Sys2Proof.Machine.execRefclkSdLost s
  | .refclkSdRestored => Sys2Proof.Machine.execRefclkSdRestored s
  | .crystalFail => Sys2Proof.Machine.execCrystalFail s
  | .crystalReturn => Sys2Proof.Machine.execCrystalReturn s
  | .ballastTest charged v1 v2 => Sys2Proof.Machine.execBallastTest charged v1 v2 s
  | .ballastSample code => Sys2Proof.Machine.execBallastSample code s
  | .ballastRetest charged v1 v2 => Sys2Proof.Machine.execBallastRetest charged v1 v2 s
  | .directorySave => Sys2Proof.Machine.execDirectorySave s
  | .reqWindow => Sys2Proof.Machine.execReqWindow s
  | .reseed => Sys2Proof.Machine.execReseed s
  | .directoryRebuild => Sys2Proof.Machine.execDirectoryRebuild s
  | .retiredIndexSweep => Sys2Proof.Machine.execRetiredIndexSweep s
  | .dailyPass => Sys2Proof.Machine.execDailyPass s
  | .demotion extent toDisk => Sys2Proof.Machine.execDemotion extent toDisk s
  | .uploadExpired upload => Sys2Proof.Machine.execUploadExpired upload s
  | .checkpoint => Sys2Proof.Machine.execCheckpoint s
  | .garbageCollection => Sys2Proof.Machine.execGarbageCollection s
  | .promotion => Sys2Proof.Machine.execPromotion s
  | .staticLevelling => Sys2Proof.Machine.execStaticLevelling s
  | .readDisturbRefresh block bad => Sys2Proof.Machine.execReadDisturbRefresh block bad s
  | .patrol reads => Sys2Proof.Machine.execPatrol reads s
  | .staleBlockErase block passes => Sys2Proof.Machine.execStaleBlockErase block passes s
  | .forcedDemote => Sys2Proof.Machine.execForcedDemote s
  | .retrained ch temperature rate => Sys2Proof.Machine.execRetrained ch temperature rate s
  | .programStatusFail block => Sys2Proof.Machine.execProgramStatusFail block s
  | .eraseStatusFail block => Sys2Proof.Machine.execEraseStatusFail block s
  | .dieLost die => Sys2Proof.Machine.execDieLost die s
  | .chOffline ch => Sys2Proof.Machine.execChOffline ch s
  | .servoWedge head w => Sys2Proof.Machine.execServoWedge head w s
  | .voiceCoilUpdate actuator => Sys2Proof.Machine.execVoiceCoilUpdate actuator s
  | .spinUp r => Sys2Proof.Machine.execSpinUp r s
  | .spinupRetry r => Sys2Proof.Machine.execSpinupRetry r s
  | .fullCalibration failed cal => Sys2Proof.Machine.execFullCalibration failed cal s
  | .spinDown => Sys2Proof.Machine.execSpinDown s
  | .seekTimeout t => Sys2Proof.Machine.execSeekTimeout t s
  | .preampFault actuator resp => Sys2Proof.Machine.execPreampFault actuator resp s
  | .motStatus resp => Sys2Proof.Machine.execMotStatus resp s
  | .bandCleaning => Sys2Proof.Machine.execBandCleaning s
  | .tether link p => Sys2Proof.Machine.execTether link p s
  | .tetherPeriod link => Sys2Proof.Machine.execTetherPeriod link s
  | .tetherTimeout link => Sys2Proof.Machine.execTetherTimeout link s
  | .laneLockLost link ns => Sys2Proof.Machine.execLaneLockLost link ns s
  | .linkTrainingRetry link trained => Sys2Proof.Machine.execLinkTrainingRetry link trained s
  | .dataFlit link f => Sys2Proof.Machine.execDataFlit link f s
  | .retry link fseq crcOk => Sys2Proof.Machine.execRetry link fseq crcOk s
  | .wake link crcOk => Sys2Proof.Machine.execWake link crcOk s
  | .quiet link crcOk => Sys2Proof.Machine.execQuiet link crcOk s
  | .transit ing vc f => Sys2Proof.Machine.execTransit ing vc f s
  | .state link f m slot seq b => Sys2Proof.Machine.execState link f m slot seq b s
  | .statePeriod => Sys2Proof.Machine.execStatePeriod s
  | .sledMapEntryTimeout slot => Sys2Proof.Machine.execSledMapEntryTimeout slot s
  | .routeChanged => Sys2Proof.Machine.execRouteChanged s
  | .mirrorWrite m mm b => Sys2Proof.Machine.execMirrorWrite m mm b s
  | .mirrorAck m nsid asn accepted => Sys2Proof.Machine.execMirrorAck m nsid asn accepted s
  | .forwardReq m msg => Sys2Proof.Machine.execForwardReq m msg s
  | .forwardResp m reqId completion => Sys2Proof.Machine.execForwardResp m reqId completion s
  | .queryReq m => Sys2Proof.Machine.execQueryReq m s
  | .queryResp m reqId st => Sys2Proof.Machine.execQueryResp m reqId st s
  | .resync m nsid asn first last from_ items records => Sys2Proof.Machine.execResync m nsid asn first last from_ items records s
  | .abortRelay m reqId => Sys2Proof.Machine.execAbortRelay m reqId s
  | .keeper link m k => Sys2Proof.Machine.execKeeper link m k s
  | .gwHello m sled index => Sys2Proof.Machine.execGwHello m sled index s
  | .gwHelloPeriod => Sys2Proof.Machine.execGwHelloPeriod s
  | .gwIndexTimeout sled index => Sys2Proof.Machine.execGwIndexTimeout sled index s
  | .inheritOffer link k => Sys2Proof.Machine.execInheritOffer link k s
  | .inheritAccept link => Sys2Proof.Machine.execInheritAccept link s
  | .messageRetransmit msgId => Sys2Proof.Machine.execMessageRetransmit msgId s
  | .messageUnreachable msgId => Sys2Proof.Machine.execMessageUnreachable msgId s
  | .sourceEntryExpiry src => Sys2Proof.Machine.execSourceEntryExpiry src s
  | .flowletGap flow => Sys2Proof.Machine.execFlowletGap flow s
  | .seedPeriod => Sys2Proof.Machine.execSeedPeriod s
  | .mirrorProbe nsid member => Sys2Proof.Machine.execMirrorProbe nsid member s
  | .mirrorRelease nsid member => Sys2Proof.Machine.execMirrorRelease nsid member s
  | .offer m digest len func sec => Sys2Proof.Machine.execOffer m digest len func sec s
  | .offerPeriod => Sys2Proof.Machine.execOfferPeriod s
  | .chunkReq m digest index => Sys2Proof.Machine.execChunkReq m digest index s
  | .chunk m digest index crc bytes => Sys2Proof.Machine.execChunk m digest index crc bytes s
  | .updateRefuse m digest status => Sys2Proof.Machine.execUpdateRefuse m digest status s
  | .esHealthFail => Sys2Proof.Machine.execEsHealthFail s
  | .drbgReseed => Sys2Proof.Machine.execDrbgReseed s
  | .operationResume op => Sys2Proof.Machine.execOperationResume op s
  | .serviceResultExpiry page => Sys2Proof.Machine.execServiceResultExpiry page s
  | .camScrub bad => Sys2Proof.Machine.execCamScrub bad s
  | .tileRetention tile => Sys2Proof.Machine.execTileRetention tile s
  | .deviceTimeSave => Sys2Proof.Machine.execDeviceTimeSave s
  | .mirrorPurgeApply nsid => Sys2Proof.Machine.execMirrorPurgeApply nsid s
  | .trialSeconds => Sys2Proof.Machine.execTrialSeconds s
  | .trialExpiry partsOk => Sys2Proof.Machine.execTrialExpiry partsOk s
  | .activationPause partsOk => Sys2Proof.Machine.execActivationPause partsOk s
  | .logFlush => Sys2Proof.Machine.execLogFlush s
  | .trstN lowNs => Sys2Proof.Machine.execTrstN lowNs s
  | .idcode => Sys2Proof.Machine.execIdcode s
  | .bypass => Sys2Proof.Machine.execBypass s
  | .samplePreload cells => Sys2Proof.Machine.execSamplePreload cells s
  | .dbgStatus => Sys2Proof.Machine.execDbgStatus s
  | .extest cells => Sys2Proof.Machine.execExtest cells s
  | .clamp => Sys2Proof.Machine.execClamp s
  | .highz => Sys2Proof.Machine.execHighz s
  | .extestPulse cells => Sys2Proof.Machine.execExtestPulse cells s
  | .extestTrain cells => Sys2Proof.Machine.execExtestTrain cells s
  | .dbgChallenge level otherBits => Sys2Proof.Machine.execDbgChallenge level otherBits s
  | .dbgRelock => Sys2Proof.Machine.execDbgRelock s
  | .challengeExpiry => Sys2Proof.Machine.execChallengeExpiry s
  | .dbgResponse word => Sys2Proof.Machine.execDbgResponse word s
  | .unlockCheck => Sys2Proof.Machine.execUnlockCheck s
  | .lockoutExpiry => Sys2Proof.Machine.execLockoutExpiry s
  | .dbgAccessRead a => Sys2Proof.Machine.execDbgAccessRead a s
  | .dbgAccessWrite a value => Sys2Proof.Machine.execDbgAccessWrite a value s
  | .halt cores => Sys2Proof.Machine.execHalt cores s
  | .resume cores => Sys2Proof.Machine.execResume cores s
  | .step cores => Sys2Proof.Machine.execStep cores s
  | .setBreakpoint cores unit addr => Sys2Proof.Machine.execSetBreakpoint cores unit addr s
  | .clearBreakpoint cores unit => Sys2Proof.Machine.execClearBreakpoint cores unit s
  | .setWatchpoint cores unit addr kind => Sys2Proof.Machine.execSetWatchpoint cores unit addr kind s
  | .clearWatchpoint cores unit => Sys2Proof.Machine.execClearWatchpoint cores unit s
  | .setHaltAll => Sys2Proof.Machine.execSetHaltAll s
  | .clearHaltAll => Sys2Proof.Machine.execClearHaltAll s
  | .breakpointHit core unit => Sys2Proof.Machine.execBreakpointHit core unit s
  | .watchpointHit core unit => Sys2Proof.Machine.execWatchpointHit core unit s
  | .dbgReset key reset => Sys2Proof.Machine.execDbgReset key reset s
  | .pwrfailNRise => Sys2Proof.Machine.execPwrfailNRise s
  | .alwaysOnPowerLoss => Sys2Proof.Machine.execAlwaysOnPowerLoss s
  | .idleFlit link ack cr0 cr1 crcOk => Sys2Proof.Machine.execIdleFlit link ack cr0 cr1 crcOk s
  | .poweredHour => Sys2Proof.Machine.execPoweredHour s
  | .receiveQueueAdmission => Sys2Proof.Machine.execReceiveQueueAdmission s
  | .commitPointPassed t => Sys2Proof.Machine.execCommitPointPassed t s
  | .mirrorCopyCreate m nsid descriptor => Sys2Proof.Machine.execMirrorCopyCreate m nsid descriptor s
  | .mirrorCopyRelease m nsid => Sys2Proof.Machine.execMirrorCopyRelease m nsid s
  | .releaseAcknowledged nsid member => Sys2Proof.Machine.execReleaseAcknowledged nsid member s
  | .unsupportedControlCommand c code => Sys2Proof.Machine.execUnsupportedControlCommand c code s

end Sys2Proof.Machine
end

