-- ==== Sys2Proof/Machine/Tick.lean ====
section
/-! DEFINITION. The passing of one millisecond (log entry 1): the model's clock, device time under R391, the
unlock lockout of R471, and the end of a PAUSE (R138). -/

namespace Sys2Proof.Machine

open Sys2Proof

/-- Always-on power is present: the device-time counter runs (R391). -/
def State.aonPowered (s : State) : Bool := decide (s.dev.phase ≠ .unpowered)

/-- One more second of device time; at 0.98 while the crystal is lost (R391): of every 50 seconds one is not
counted. -/
def tickSecond (s : State) : State :=
  if s.dev.crystalFail then
    if s.dev.slowCarry = 49 then { s with dev := { s.dev with slowCarry := 0 } }
    else { s with dev := { s.dev with slowCarry := s.dev.slowCarry + 1 },
                  sea := { s.sea with time := (s.sea.time + 1) % 2 ^ 64 } }
  else { s with sea := { s.sea with time := (s.sea.time + 1) % 2 ^ 64 } }

/-- One more powered second of lockout (R471, R482). -/
def tickLockout (s : State) : State :=
  if s.powered then { s with dbg := { s.dbg with lockout := s.dbg.lockout - 1 } } else s

/-- A PAUSE ends: its quanta, 512 bit times each, run out within the millisecond (log entry 72). -/
def tickPorts (s : State) : State :=
  ((s.ports.zipIdx.filter fun x => decide (0 < x.1.pauseQuanta)).map fun x => x.2).foldl (fun (s : State) p =>
    (s.setPort p { s.port p with pauseQuanta := 0 }).pumpPort p) s

/-- One millisecond on an empty queue. -/
def tick (s : State) : State :=
  if s.aonPowered then
    let s := tickPorts { s with dev := { s.dev with clockMs := s.dev.clockMs + 1 } }
    if s.dev.clockMs % 1000 = 0 then tickLockout (tickSecond s) else s
  else s

end Sys2Proof.Machine
end

