-- ==== Sys2Proof/Safety.lean ====
section
/-! DEFINITION. What counts as a safe state and a safe run of the block, in the terms that the statements use. -/

namespace Sys2Proof.Machine

open Sys2Proof

/-- The state is well kept: the memories of the debug port are in canonical form, and a device whose KILL fuse is blown has
lost its root (R377). -/
def State.Kept (s : State) : Prop :=
  s.sram.wf = true ∧ s.dram.wf = true ∧ (s.key.fuses.kill = true → s.key.fuses.rootGone = true)

/-- No fuse of `a` has come back in `b` (Table 15-1: a fuse is blown once and stays blown). -/
def Fuses.stayBlown (a b : Fuses) : Prop :=
  (a.kill = true → b.kill = true) ∧ (a.rootGone = true → b.rootGone = true) ∧ (a.enrolled = true → b.enrolled = true) ∧
    a.rollback ≤ b.rollback ∧ a.vendorPk = b.vendorPk

/-- A run of steps that has not stopped. -/
def RunsTo : Nat → State → State → Prop
  | 0, s, t => t = s
  | n + 1, s, t => ∃ u, step s = .next u ∧ RunsTo n u t

/-! ## Commands of the tag table -/

/-- The entry of a tag holds the command of an opcode, and nothing that the command waits for is outstanding (R178 to
R182). -/
def State.Starts (s : State) (t : TagId) (opcode : Nat) (e : TagEntry) : Prop :=
  s.entry? t = some e ∧ e.msg.opcode = opcode ∧ s.canStart e = true

/-- The same, for a command that names a namespace which exists, on a flash tier that the device serves (R258). -/
def State.StartsIn (s : State) (t : TagId) (opcode : Nat) (e : TagEntry) (n : Ns) : Prop :=
  s.Starts t opcode e ∧ e.msg.nsid ≠ 0 ∧ s.ns? e.msg.nsid = some n ∧ s.noTier = false

/-- The state in which a command's own effect begins: its entry is executing. -/
def State.begun (s : State) (e : TagEntry) : State := s.setEntry { e with state := .executing }

/-- A command has been answered (R165, Table 07-3): its entry is posted with the completion where a session waits for it,
and is freed where none does. A session that ends with the frames of that response takes the posted entry with it (R146,
R152). -/
def State.Answers (u : State) (e : TagEntry) (c : Completion) : Prop :=
  match e.id.ctx with
  | .session id => u.entry? e.id = some { e with state := .posted, result := some c } ∨
      (u.session? id = none ∧ u.entry? e.id = none)
  | _ => u.entry? e.id = none

/-- No other live entry shares an entry's admission order (R161). -/
def State.Sole (s : State) (e : TagEntry) : Prop := ∀ f ∈ s.cmd.tags, f.order = e.order → f.id = e.id

/-- No change of the configuration record waits or is under way (R102). -/
def State.NoCommit (s : State) : Prop := s.cfg.under = [] ∧ s.cfg.waiting = []

/-- A register access by a path of its own passes the checks on the path itself (checks 1 and 2 of Table 05-5) in the
state `b`, with no change of the configuration record outstanding. -/
def State.Reaches (s : State) (p : Path) (b : State) : Prop :=
  s.answersRegs = true ∧ b = s.pathArrives p ∧ b.pathCheck p = none ∧ b.dev.resetBusy = false ∧ b.NoCommit

/-- The same, for a page that exists and whose block the path may write (checks 3 and 4). -/
def State.WritesPage (s : State) (p : Path) (page : Nat) (b : State) : Prop :=
  s.Reaches p b ∧ pagePresent (page / 64) (page % 64) = true ∧ b.mayWrite p (page / 64) false = true

/-- A Fegrazil MCTP request is taken (R132, R133): it arrived whole, under the enterprise number, at a device that answers and
executes no other, and leaves it in the state `b`. -/
def State.TakesMctp (s : State) (h : MctpHdr) (b : State) : Prop :=
  h.addr = s.smbusAddr ∧ h.pecOk = true ∧ h.enterprise = 0xF6A2 ∧ h.reserved = 0 ∧ s.answersRegs = true ∧
    b = s.arrive Reg.WAKE_SRC.SMBUS ∧ b.mctp.busy = false

/-- An MCTP control request is taken (R132). -/
def State.TakesControl (s : State) (c : MctpCtl) (b : State) : Prop :=
  c.addr = s.smbusAddr ∧ c.pecOk = true ∧ bitOf c.inst 7 = true ∧ s.answersRegs = true ∧ b = s.arrive Reg.WAKE_SRC.SMBUS

/-- The OWNER word of a page. -/
def State.ownerWord (s : State) (page : Nat) : Word := s.word (pageBase page + hOwner)

/-- A session goes on with what waits on it: no CLOSE has come, and the sequence numbers last (R146, R152). -/
def Session.goesOn (x : Session) : Prop :=
  x.closing = none ∧ x.nextSeq + x.outbox.length < 2 ^ 63 ∧ x.nextAckSeq < 2 ^ 64

/-- Nothing but what an answer may change differs: register counters, the event log, the tag table, sessions, the output and
the frames that wait for a paused port. -/
def State.Answering (s u : State) : Prop :=
  ∃ r l cm ss o q, u = { s with regs := r, log := l, cmd := cm, sessions := ss, out := o, portQueue := q }

/-- The answer of entry `e` changes nothing else but this: units already programmed for the command become garbage (R161); the
response to a forwarded command goes out as a fabric message (R412); and a session whose last SEQ or whose acknowledgement of
a CLOSE left with the response ends (R146, R152). -/
def State.AnswerFrame (s : State) (e : TagEntry) (u : State) : Prop :=
  ∃ m, (s.dropEarly fun t => t == e.id).Answering m ∧
    match e.id.ctx with
    | .session id => u = m ∨ ∃ x, m.session? id = some x ∧ (x.closeAcked = true ∨ x.spent = true) ∧ u = m.endSession id
    | .forward src => ∃ p, u = m.fabReply src 0x04 e.id.tag p
    | .orphan _ => u = m

/-- Every command of the tag table but `keep` has been answered: no wait of R442 is left. -/
def State.AllAnswered (s : State) (keep : Option TagId) : Prop := ∀ f ∈ s.cmd.tags, some f.id = keep ∨ f.state = .posted

/-- Background work of a kind is done (R75): in service, with the tier mounted, not in SLEEP, and neither an entry stops it nor,
unless it is mandatory (R283), step 1 of Table 03-9. -/
def State.Works (s : State) (w : Work) (must : Bool) : Prop :=
  s.dev.phase = .service ∧ s.flash.mounted = true ∧ s.dev.power ≠ .sleep ∧ s.entryStops w = false ∧
    (w = .upkeep ∨ must = true ∨ s.workStopped = false)

/-- Every unit that the flash map named is still mapped. -/
def Flash.KeepsUnits (f g : Flash) : Prop := ∀ e ∈ f.map, ∃ d ∈ g.map, d.lmu = e.lmu

/-- A fabric message whose tag verified is taken in the state `b` (R411, R72). -/
def State.TakesMsg (s : State) (m : FabMsg) (b : State) : Prop :=
  s.islandOn = true ∧ s.dev.phase = .service ∧ m.tagOk = true ∧ b = s.arrive Reg.WAKE_SRC.FAB_FRAME

/-- A source's request is not one of those received before, and not below their window (R412). -/
def State.NewFrom (s : State) (m : FabMsg) : Prop :=
  match s.source? m.src with
  | none => s.fab.sources.length < 4096
  | some e => m.msgId ∉ e.seen ∧ e.highest ≤ m.msgId + 1024

/-- A fabric request is executed in the state `b` (R412, R443): no activation pauses, and it is new from its source, which is
noted. -/
def State.FreshRequest (s : State) (m : FabMsg) (b : State) : Prop :=
  s.cmd.paused = false ∧ ∃ a, s.TakesMsg m a ∧ a.NewFrom m ∧ b = a.noteSource m.src m.msgId

/-- A link takes tethers and training (R406). -/
def State.HasLink (s : State) (link : Nat) : Prop := s.islandOn = true ∧ link < 4 ∧ (s.link link).trained = true

/-- The state after one output. -/
def State.Emits (s u : State) (o : Output) : Prop := u.out = s.out ++ [o]

/-- A write has passed its commit point with its result fixed (R166, Table 07-3). -/
def State.Commits (u : State) (e : TagEntry) (c : Completion) : Prop :=
  ∃ media mirrors degraded, u.entry? e.id =
    some { e with state := .committed, result := some c, media := media, mirrors := mirrors, degraded := degraded }

/-- A write that starts in the state `b` has made its searches of the classifier, each once, and no mirror set bars it (R223,
R428): its entry is then `f`, in the state `u`. -/
def State.Classifies (b : State) (n : Ns) (e : TagEntry) (search : State → List Classified × State) (f : TagEntry)
    (u : State) : Prop :=
  if e.classed = [] then
    f = { e with classed := (search b).1 } ∧ u = (search b).2.setEntry f ∧ (search b).2.writeBlocked n (search b).1 = false
  else f = e ∧ u = b

/-- The same, where a STRICT set without a member IN_SYNC bars the write. -/
def State.Barred (b : State) (n : Ns) (e : TagEntry) (search : State → List Classified × State) (f : TagEntry)
    (u : State) : Prop :=
  e.classed = [] ∧ f = { e with classed := (search b).1 } ∧ u = (search b).2 ∧ u.writeBlocked n f.classed = true

/-- The entry of a command that starts. -/
def TagEntry.started (e : TagEntry) : TagEntry := { e with state := .executing }

end Sys2Proof.Machine
end

