-- ==== Sys2Proof/Certificates/Slice0/Obligations.lean ====
section
/-! DEFINITION. The statements for the provers. Each docstring cites the rules it formalises; where a clause rests on a choice
of the model, it names the log entry. -/

open Sys2Proof Sys2Proof.Machine


/-- A step takes the command at the front of the queue and is exec of it on the state with the queue's rest. For every
state s whose queue is c followed by rest, step s is exec c on s with rest as its queue. That the commands wait in one
queue is the model's choice (log entry 1). (00 Scope and conventions, 95 What each step holds) -/
def Obligations.FrontCommandRuns : Prop :=
  ∀ (s : State) (c : Instr) (rest : List Instr), s.pending = c :: rest → step s = exec c { s with pending := rest }

/-- On an empty queue a step is one millisecond of the device's own clock. For every state whose queue is empty: while the
always-on supply is absent nothing changes at all; otherwise the model's millisecond clock rises by one, the queue
stays empty, and where the clock does not reach a whole second device time and the lockout count stay as they are. At
a whole second device time rises by 1 s modulo 2^64, but for one second of every 50 while the crystal is lost, and the
lockout falls by a second while the device is powered. That an idle step is a millisecond is the model's choice (log
entry 1). (R391, R471, 00 Scope and conventions) -/
def Obligations.EmptyQueueLetsTimePass : Prop :=
  ∀ s : State, s.pending = [] →
    (s.dev.phase = .unpowered → step s = .next s) ∧
    (s.dev.phase ≠ .unpowered → ∃ u, step s = .next u ∧ u.dev.clockMs = s.dev.clockMs + 1 ∧ u.pending = [] ∧
      ((s.dev.clockMs + 1) % 1000 ≠ 0 → u.sea = s.sea ∧ u.dbg = s.dbg) ∧
      ((s.dev.clockMs + 1) % 1000 = 0 →
        u.sea.time = (if s.dev.crystalFail ∧ s.dev.slowCarry = 49 then s.sea.time else (s.sea.time + 1) % 2 ^ 64) ∧
        u.dbg.lockout = (if s.powered then s.dbg.lockout - 1 else s.dbg.lockout)))

/-- Every step keeps the debug memories canonical and a device with KILL blown without its root. For every state s that is
well kept (both memories of the debug port strictly rising with no cell at its unlisted value, and the root gone
wherever KILL is blown), and for every command of all 250 or an idle tick at the front of its queue: if step s answers
a next state t, then t is well kept. The canonical form of the memories is the model's (log entry 7). (R377, R475,
Table 20-5, Table 15-1) -/
def Obligations.EveryStepKeepsTheStateSound : Prop :=
  ∀ s t : State, s.Kept → step s = .next t → t.Kept

/-- The state after reset is well kept, and it is the device at t0 of the cold start that follows a POR. State.reset is
well kept. It holds KIND POR with a cold start about to run, the power state ACTIVE, the port locked with IDCODE
selected, the next ASN and the event sequence number at 1, no fuse blown, no session, tag, namespace or link, and no
command waiting. Values for which the spec gives none are the model's (log entries 3 to 5). (R377, Table 04-11, Table
03-11) -/
def Obligations.ResetStateIsSound : Prop :=
  State.reset.Kept ∧ State.reset.dev.kind = .por ∧ State.reset.dev.phase = .starting true ∧
    State.reset.dev.power = .active ∧ State.reset.dbg.level = 0 ∧ State.reset.dbg.instr = 0x02 ∧
    State.reset.log.nextSeq = 1 ∧ (∀ n, (State.reset.takeAsn n).1 = 1) ∧ State.reset.key.fuses.kill = false ∧
    State.reset.key.fuses.rollback = 0 ∧ State.reset.sessions = [] ∧ State.reset.cmd.tags = [] ∧
    State.reset.kv.namespaces = [] ∧ (∀ l ∈ State.reset.fab.links, l.state = 0) ∧ State.reset.pending = [] ∧
    (∀ a, State.reset.word a = regReset a)

/-- No step of the device brings a blown fuse back. For every state s and every step of it that answers a next state t:
KILL, the root's loss and ENROL, once blown, are blown in t; the count of blown ROLLBACK bits does not fall; and
VENDOR_PK, which is fused at manufacture, is the same. (R377, Table 15-1, R378) -/
def Obligations.NoStepUnblowsAFuse : Prop :=
  ∀ s t : State, step s = .next t → s.key.fuses.stayBlown t.key.fuses

/-- A command acts on everything but the queue of commands that wait. For every command c of all 250 and every state s: if
exec c s answers a next state, that state's queue is the queue of s. The queue is the model's (log entry 1). (00 Scope
and conventions) -/
def Obligations.CommandsLeaveTheQueue : Prop :=
  ∀ (c : Instr) (s t : State), exec c s = .next t → t.pending = s.pending

/-- Of all commands only a memory write of the debug port and a start change the debug memories or fuses outside enrolment
and rollback. For every command c other than DBG_ACCESS_WRITE, COLD_START and WARM_START, a next state of exec c s
holds core SRAM and DRAM as s holds them, byte for byte. For every command other than KEY_PROVISION, FW_CONFIRM,
COLD_START and WARM_START it holds the fuses as s holds them. (R475, Table 20-5, R377) -/
def Obligations.OnlyTheDebugPortWritesItsMemories : Prop :=
  ∀ (c : Instr) (s t : State), exec c s = .next t →
    ((∀ a v, c ≠ .dbgAccessWrite a v) → (∀ f, c ≠ .coldStart f) → (∀ f, c ≠ .warmStart f) →
      ∀ a, t.sram.read a = s.sram.read a ∧ t.dram.read a = s.dram.read a) ∧
    ((∀ x y, c ≠ .keyProvision x y) → (∀ x y, c ≠ .fwConfirm x y) → (∀ f, c ≠ .coldStart f) → (∀ f, c ≠ .warmStart f) →
      t.key.fuses = s.key.fuses)

/-- No command is refused, and only a voltage beyond the absolute maximum ratings stops the machine. For every command c
and state s, exec c s is never a refusal; it answers a next state unless c is VOLTAGE_ALARM of a powered device with a
rail beyond its absolute maximum, where R47 gives the device no behaviour and the fault beyondAbsoluteMaximum stops
the machine. (R47, 00 Scope and conventions) -/
def Obligations.EveryCommandHasAMeaning : Prop :=
  ∀ (c : Instr) (s : State), (∃ t, exec c s = .next t) ∨
    (∃ d, c = .voltageAlarm true d ∧ s.dev.phase ≠ .unpowered ∧ exec c s = .fault .beyondAbsoluteMaximum)

/-- A byte written to a debug memory reads back, every other byte stays, and the canonical form is kept. For every memory
in canonical form, address and byte: the written memory is in canonical form, reads the byte at the address, and reads
every other address as before; a run of bytes leaves every address outside it as before; and two memories in canonical
form that read alike at every address are equal. The value of an unlisted byte is the model's (log entry 7). (R475,
Table 20-5) -/
def Obligations.MemoryCellsReadBack : Prop :=
  ∀ m : Memory, m.wf = true →
    (∀ a b, (m.write a b).wf = true ∧ (m.write a b).read a = b ∧ ∀ x, x ≠ a → (m.write a b).read x = m.read x) ∧
    (∀ a bs, (m.writeBytes a bs).wf = true ∧ ∀ x, (x < a ∨ a + bs.length ≤ x) → (m.writeBytes a bs).read x = m.read x) ∧
    (∀ m' : Memory, m'.wf = true → (∀ a, m'.read a = m.read a) → m' = m)

/-- A register field written reads back, and every other field and register keeps its value. For every state whose
register words are in canonical form, fields f and g that lie within a word, instances and copies: the field of f
reads v modulo 2^width after v is written to it; a field g of another register, or of bits that do not meet f's, reads
as before; and nothing but the register words changes. The canonical form of the words is the model's (log entry 4).
(R116, R117, R119) -/
def Obligations.RegisterFieldsReadBack : Prop :=
  ∀ (s : State) (f g : Field) (i k j l v : Nat), SMap.wf regReset s.regs = true → f.lo + f.width ≤ 32 →
    g.lo + g.width ≤ 32 →
    (s.wrAt f i k v).rdAt f i k = v % 2 ^ f.width ∧
    (g.addr j l ≠ f.addr i k ∨ g.lo + g.width ≤ f.lo ∨ f.lo + f.width ≤ g.lo →
      (s.wrAt f i k v).rdAt g j l = s.rdAt g j l) ∧
    s.wrAt f i k v = { s with regs := (s.wrAt f i k v).regs } ∧ SMap.wf regReset (s.wrAt f i k v).regs = true

/-- GET and GET_RANGE answer OK with the bytes stored, or NO_SUCH_KEY where the key is absent. For every admitted GET or
GET_RANGE that may run in a namespace that exists, with no disk to wait for: of a value of at most 64 MiB whose record
is found and whose bytes are read whole, GET answers OK with its length and those bytes; of a longer value
BAD_VALUE_LENGTH with its length; GET_RANGE answers OK with the value's length and the bytes from OFFSET, up to LENGTH
or the end; an OFFSET beyond the end answers BAD_FIELD and an absent key NO_SUCH_KEY. In a sealed namespace, once the
leaf page of the stream is read, GET answers OK with PARAM 104 and the stream head, and GET_RANGE OK with the next
sequence number and the exported records from OFFSET on; a stream that does not exist answers NO_SUCH_KEY; and a page
that cannot be read ends either with the failure's status. In a sealed namespace a GET changes nothing after that read
but what an answer changes. (R169, R171, R388, R30, R205) -/
def Obligations.GetReturnsTheStoredBytes : Prop :=
  ∀ (s : State) (t : TagId) (e : TagEntry) (n : Ns) (rd : MediaReads), (s.begun e).readsDisk n e.msg = false →
    (s.StartsIn t 0x01 e n →
      (∀ x s1, n.kind = .sealed → (s.begun e).readStreamLeaf n e.msg.key rd = (x, s1) →
        ∃ u, exec (.get t rd) s = .next u ∧ s1.AnswerFrame e u ∧
          (∀ st, x = .error st → u.Answers e (doneWith st e.asn [])) ∧
          (∀ l str, x = .ok l → n.stream? e.msg.key = some str →
            u.Answers e (doneData stOK e.asn (beBytes 8 104) str.head)) ∧
          (∀ l, x = .ok l → n.stream? e.msg.key = none → u.Answers e (doneWith stNoSuchKey e.asn []))) ∧
      (n.kind ≠ .sealed → ∀ r s1,
        (s.begun e).findRec n e.msg.key e.msg.stamp rd true = (.ok (some r), s1) →
        (67108864 < s1.locLen r.loc → ∃ u, exec (.get t rd) s = .next u ∧
          u.Answers e (doneWith stBadValueLen e.asn (beBytes 8 (s1.locLen r.loc)))) ∧
        (∀ b s2, s1.locLen r.loc ≤ 67108864 → s1.readLoc rd r.loc 0 (s1.locLen r.loc) = (⟨b, none⟩, s2) →
          ∃ u, exec (.get t rd) s = .next u ∧ u.Answers e (doneData stOK e.asn (beBytes 8 (s1.locLen r.loc)) b))) ∧
      (n.kind ≠ .sealed → ∀ s1, (s.begun e).findRec n e.msg.key e.msg.stamp rd true = (.ok none, s1) →
        ∃ u, exec (.get t rd) s = .next u ∧ u.Answers e (doneWith stNoSuchKey e.asn []))) ∧
    (s.StartsIn t 0x05 e n →
      let off := beAt e.msg.param 0 8
      let want := if beAt e.msg.param 8 4 = 0 then 67108864 else beAt e.msg.param 8 4
      (n.kind ≠ .sealed → ∀ r s1, (s.begun e).findRec n e.msg.key e.msg.stamp rd false = (.ok (some r), s1) →
        (∀ b s2, off ≤ s1.locLen r.loc → s1.readLoc rd r.loc off (min want (s1.locLen r.loc - off)) = (⟨b, none⟩, s2) →
          ∃ u, exec (.getRange t rd) s = .next u ∧ u.Answers e (doneData stOK e.asn (beBytes 8 (s1.locLen r.loc)) b)) ∧
        (s1.locLen r.loc < off → ∃ u, exec (.getRange t rd) s = .next u ∧ u.Answers e (doneWith stBadField e.asn []))) ∧
      (n.kind ≠ .sealed → ∀ s1, (s.begun e).findRec n e.msg.key e.msg.stamp rd false = (.ok none, s1) →
        ∃ u, exec (.getRange t rd) s = .next u ∧ u.Answers e (doneWith stNoSuchKey e.asn [])) ∧
      (n.kind = .sealed → ∀ x s1, (s.begun e).readStreamLeaf n e.msg.key rd = (x, s1) →
        (∀ st, x = .error st → ∃ u, exec (.getRange t rd) s = .next u ∧ u.Answers e (doneWith st e.asn [])) ∧
        (∀ l, x = .ok l → n.stream? e.msg.key = none →
          ∃ u, exec (.getRange t rd) s = .next u ∧ u.Answers e (doneWith stNoSuchKey e.asn [])) ∧
        (∀ l str b size s2, x = .ok l → n.stream? e.msg.key = some str → (off = 0 ∨ str.firstSeq ≤ off) →
          let recs := s1.seenRecs n l str (str.recs.filter fun r => decide (off ≤ r.hdr.seq))
          exportGo rd (if beAt e.msg.param 8 4 = 0 then recs.length else beAt e.msg.param 8 4) 0 recs s1 =
            (⟨b, none⟩, size, s2) →
          ∃ u, exec (.getRange t rd) s = .next u ∧ u.Answers e (doneData stOK e.asn (beBytes 8 str.nextSeq) b))))

/-- LIST answers the keys of its range in order or their count, and a SCAN without an image counts its subjects. For every
admitted LIST or SCAN that may run and whose leaf pages are read: a LIST with LIMIT 0 or COUNT_ONLY answers OK with
COUNT the number of keys of the range present under its stamp and no data; otherwise with the first LIMIT of them that
64 MiB hold, each behind its length, COUNT their number and MORE exactly where keys remain. A SCAN whose LIMIT is 0,
whose IMAGE is 0 and whose subject is the key alone answers OK with COUNT the number of subjects in its range. In an
ARRIVAL namespace both leave everything but what an answer changes as the leaf reads left it, but that a SCAN frees
pattern images that nothing uses. A leaf page that cannot be read ends either with the failure's status. Whether a
LIST reads its leaf pages before its answer is the model's choice (log entry 145). (R172, R246, R247, R249, R250,
R245) -/
def Obligations.ListAndScanCountAndReturnKeys : Prop :=
  ∀ (s : State) (t : TagId) (e : TagEntry) (n : Ns) (rd : MediaReads) (x : Except Nat Texts) (s1 : State),
    readLeaves rd ((s.begun e).leavesIn n.nsid e.msg.range) (s.begun e) = (x, s1) →
    (s.StartsIn t 0x06 e n →
      let ks := (n.keysAt e.msg.stamp).filter e.msg.range.has
      let got := listGo (beAt e.msg.param 0 4) 0 ks
      (∀ st, x = .error st → ∃ u, exec (.list t rd) s = .next u ∧ u.Answers e (doneWith st e.asn []) ∧ s1.AnswerFrame e u) ∧
      (∀ l, x = .ok l → beAt e.msg.param 0 4 = 0 ∨ e.msg.countOnly = true → ∃ u, exec (.list t rd) s = .next u ∧
        u.Answers e (doneData stOK e.asn (beBytes 4 ks.length) []) ∧ (n.stamped = false → s1.AnswerFrame e u)) ∧
      (∀ l, x = .ok l → beAt e.msg.param 0 4 ≠ 0 → e.msg.countOnly = false → ∃ u, exec (.list t rd) s = .next u ∧
        u.Answers e { doneData stOK e.asn (beBytes 4 got.length)
          ((got.map fun k => leBytes 2 k.length ++ k).foldl (fun a b => a ++ b) []) with
            more := decide (got.length < ks.length) } ∧ (n.stamped = false → s1.AnswerFrame e u))) ∧
    (s.StartsIn t 0x07 e n → (scanCmd e.msg.param).limit = 0 → (scanCmd e.msg.param).image = 0 →
      (∀ st, x = .error st → ∃ u, exec (.scan t rd) s = .next u ∧ u.Answers e (doneWith st e.asn []) ∧ s1.AnswerFrame e u) ∧
      (∀ l, x = .ok l → (scanCmd e.msg.param).subject = 1 → ∃ u, exec (.scan t rd) s = .next u ∧
        u.Answers e (doneData stOK e.asn (beBytes 4 (min (2 ^ 32 - 1)
          ((s1.subjects n e.msg.range e.msg.stamp l).foldl (fun k g => k + g.length) 0))) []) ∧
        (n.stamped = false → ∃ m, s1.AnswerFrame e m ∧ u = m.freeImages)))

/-- PUT, DELETE, CAS and BATCH whose checks hold and whose change fits pass their commit point with result OK. For every
admitted write that may run in a namespace that exists and makes its searches of the classifier: where a STRICT mirror
set has no member IN_SYNC it answers MIRROR_FAILED; otherwise it starts, and with a pause that is all it does. A PUT
of a good digest whose key is not held, or that is neither CREATE_ONLY nor in a distribution namespace, a DELETE of a
key held, a CAS whose comparison succeeds and a BATCH whose entries all pass and of which one changes its key are,
where the tried change succeeds, COMMITTED with OK (CAS: PARAM says whether the key was present). A PUT under
CREATE_ONLY of a key held answers KEY_EXISTS, of a bad digest DIGEST_MISMATCH, a failing comparison its status with
PRESENT, and a BATCH with a failing entry that entry's status and index; these change no key. A DELETE of an absent
key, a PUT of a chunk held and a BATCH that changes nothing answer OK_ABSENT or OK where no mirror awaits them. (R166,
R169, R170, R173, R223, R397, R428) -/
def Obligations.WritesPassTheirCommitPoint : Prop :=
  ∀ (s : State) (t : TagId) (e f : TagEntry) (n : Ns) (rd : MediaReads) (p : Bool) (s1 : State),
    (s.StartsIn t 0x02 e n →
      ((s.begun e).Barred n e.started (classifyKey n.nsid e.msg.key) f s1 →
        ∃ u, exec (.put t p) s = .next u ∧ u.Answers f (doneWith stMirrorFailed e.asn []) ∧ s1.AnswerFrame f u) ∧
      ((s.begun e).Classifies n e.started (classifyKey n.nsid e.msg.key) f s1 → exec (.put t true) s = .next s1 ∧
        ∀ q, q = (if n.kind = .distribution then s1.hashed e.msg.value.length else s1) →
          (n.kind = .distribution → q.noHash = false) →
          (badDigest n e.msg.key e.msg.value = true →
            ∃ u, exec (.put t false) s = .next u ∧ u.Answers f (doneWith stDigest e.asn []) ∧
              (q.count Reg.SEA.DIGEST_MISMATCH 1).AnswerFrame f u) ∧
          (badDigest n e.msg.key e.msg.value = false →
            (∀ w, (n.seenBy e.msg.key e.msg.stamp (tagSess e.id) = none ∨
                e.msg.createOnly = false ∧ n.kind ≠ .distribution) →
              q.tryPut n f e.msg.value f.tier = (.ok (), w) →
              ∃ u, exec (.put t false) s = .next u ∧ u.Commits f (doneWith stOK e.asn [])) ∧
            (∀ r, n.seenBy e.msg.key e.msg.stamp (tagSess e.id) = some r → e.msg.createOnly = true →
              ∃ u, exec (.put t false) s = .next u ∧ u.Answers f (doneWith stKeyExists e.asn []) ∧ q.AnswerFrame f u) ∧
            (∀ r, n.seenBy e.msg.key e.msg.stamp (tagSess e.id) = some r → e.msg.createOnly = false →
              n.kind = .distribution → q.mirrorPlan n [(f.mirror, .keys [])] = [] →
              ∃ u, exec (.put t false) s = .next u ∧ u.Answers f (doneWith stOK e.asn []) ∧ q.AnswerFrame f u)))) ∧
    (s.StartsIn t 0x03 e n →
      ((s.begun e).Barred n e.started (fun s => ([], s)) f s1 →
        ∃ u, exec (.delete t p) s = .next u ∧ u.Answers f (doneWith stMirrorFailed e.asn []) ∧ s1.AnswerFrame f u) ∧
      ((s.begun e).Classifies n e.started (fun s => ([], s)) f s1 → exec (.delete t true) s = .next s1 ∧
        (∀ r w, n.seenBy e.msg.key e.msg.stamp (tagSess e.id) = some r → s1.tryDelete n f = (.ok (), w) →
          ∃ u, exec (.delete t false) s = .next u ∧ u.Commits f (doneWith stOK e.asn [])) ∧
        (n.seenBy e.msg.key e.msg.stamp (tagSess e.id) = none → s1.mirrorPlan n [(0, .keys [])] = [] →
          ∃ u, exec (.delete t false) s = .next u ∧ u.Answers f (doneWith stAbsent e.asn []) ∧ s1.AnswerFrame f u))) ∧
    (s.StartsIn t 0x04 e n → (s.begun e).readsDisk n e.msg = false →
      ((s.begun e).Barred n e.started (classifyKey n.nsid e.msg.key) f s1 →
        ∃ u, exec (.cas t rd p) s = .next u ∧ u.Answers f (doneWith stMirrorFailed e.asn []) ∧ s1.AnswerFrame f u) ∧
      ((s.begun e).Classifies n e.started (classifyKey n.nsid e.msg.key) f s1 → ∀ res held s2,
        s1.compare n e.msg.key (e.msg.value.take (beAt e.msg.param 0 4)) (bitOf (beAt e.msg.param 4 1) 0)
          e.msg.stamp (tagSess e.id) rd = (res, held, s2) →
        (∀ st, res = some st →
          ∃ u, exec (.cas t rd p) s = .next u ∧ u.Answers f (doneWith st e.asn (presentParam held)) ∧ s2.AnswerFrame f u) ∧
        (res = none → exec (.cas t rd true) s = .next s2) ∧
        (∀ w, res = none → s2.tryPut n f (e.msg.value.drop (beAt e.msg.param 0 4)) f.tier = (.ok (), w) →
          ∃ u, exec (.cas t rd false) s = .next u ∧
            u.Commits f (doneWith stOK e.asn
              (presentParam (n.seenBy e.msg.key e.msg.stamp (tagSess e.id)).isSome))))) ∧
    (s.StartsIn t 0x09 e n → (s.begun e).readsDisk n e.msg = false →
      ((s.begun e).Barred n e.started (classifyAll n.nsid e.msg.batch) f s1 →
        ∃ u, exec (.batch t rd p) s = .next u ∧ u.Answers f (doneWith stMirrorFailed e.asn []) ∧ s1.AnswerFrame f u) ∧
      ((s.begun e).Classifies n e.started (classifyAll n.nsid e.msg.batch) f s1 →
        (∀ i st s2, batchFails n f rd 0 e.msg.batch s1 = (some (i, st), s2) → s1.spaceFails n f i = none →
          ∃ u, exec (.batch t rd p) s = .next u ∧ u.Answers f (doneWith st e.asn (beBytes 2 i)) ∧ s2.AnswerFrame f u) ∧
        (∀ s2, batchFails n f rd 0 e.msg.batch s1 = (none, s2) → exec (.batch t rd true) s = .next s2 ∧
          (∀ w, (s2.batchChanges f n) ≠ [] → s2.tryBatch n f ((s2.batchChanges f n).map fun x => x.1) = (.ok (), w) →
            ∃ u, exec (.batch t rd false) s = .next u ∧ u.Commits f (doneWith stOK e.asn [])) ∧
          (s2.batchChanges f n = [] → s2.mirrorPlan n (f.classed.map fun c => (c.mirror, .keys [])) = [] →
            ∃ u, exec (.batch t rd false) s = .next u ∧ u.Answers f (doneWith stOK e.asn []) ∧ s2.AnswerFrame f u))))

/-- A plain PUT makes exactly its value the key's record and touches no other key; a DELETE leaves the key no record. For
every admitted PUT of at most 256 bytes that may run in a mutable ARRIVAL namespace, that no mirror set blocks and
whose tried store succeeds: the command is COMMITTED with OK, and in the next state the namespace holds for the key
exactly one record, which is the value of the PUT under its stamp and session, while every other key of the namespace
holds the records that it held. For every admitted DELETE of a key held whose tried removal succeeds: the key holds no
record and every other key is as before. (R166, R169, R202, R204, R179) -/
def Obligations.PutMakesItsRecordCurrent : Prop :=
  ∀ (s : State) (t : TagId) (e f : TagEntry) (n : Ns) (s1 : State), n.stamped = false →
    (∀ w, s.StartsIn t 0x02 e n → n.kind = .mutable_ → e.msg.createOnly = false → e.msg.value.length ≤ 256 →
      (s.begun e).Classifies n e.started (classifyKey n.nsid e.msg.key) f s1 →
      s1.tryPut n f e.msg.value f.tier = (.ok (), w) →
      ∃ u n', exec (.put t false) s = .next u ∧ u.Commits f (doneWith stOK e.asn []) ∧ u.ns? n.nsid = some n' ∧
        n'.recs e.msg.key = [⟨e.msg.stamp, tagSess e.id, false, .inline e.msg.value⟩] ∧
        ∀ k, k ≠ e.msg.key → n'.recs k = n.recs k) ∧
    (∀ r w, s.StartsIn t 0x03 e n → n.current e.msg.key = some r →
      (s.begun e).Classifies n e.started (fun s => ([], s)) f s1 → s1.tryDelete n f = (.ok (), w) →
      ∃ u n', exec (.delete t false) s = .next u ∧ u.Commits f (doneWith stOK e.asn []) ∧ u.ns? n.nsid = some n' ∧
        n'.recs e.msg.key = [] ∧ ∀ k, k ≠ e.msg.key → n'.recs k = n.recs k)

/-- APPEND first takes its sequence number, then commits the receipt; PURGE_EXPIRED commits what it removed. For every
admitted APPEND that may run: without a number yet, where the seal key is present, the stream is not full, nothing
blocks it and the record fits, the paused command takes the stream's next sequence number, the device time and its
classification, and only executes; a record that does not fit answers its failure and takes no number; with a number,
or at once without a pause, the record stored makes it COMMITTED with OK, PARAM the sequence number and the 56-byte
receipt SEQ, CHAIN, CMAC as data, CHAIN and CMAC computed from the stream's head; a failure then leaves a void record.
COMMIT_POINT_PASSED passes the same commit point. A PURGE_EXPIRED that finds nothing expired answers OK with 0 and 0;
its commit point is the purge of its first stream; run to its end it is COMMITTED with the numbers of records and
streams removed; of a stream key that holds nothing it answers NO_SUCH_KEY. (R384, R385, R386, R387, R394, R395, R166,
R32) -/
def Obligations.AppendSealsAndPurgeRemoves : Prop :=
  ∀ (s : State) (t : TagId) (e f : TagEntry) (n : Ns) (k : Bytes) (s1 : State),
    (∀ q, s.slotKey n.sealSlot = some k →
      let receipt := fun (x : TagEntry) => doneData stOK e.asn (beBytes 8 (x.hdrIn n k).seq)
        (leBytes 8 (x.hdrIn n k).seq ++ (x.hdrIn n k).chain ++ (x.hdrIn n k).cmac)
      let g : TagEntry := { f with seqNo := some (n.streamOr e.msg.key).nextSeq }
      (s.StartsIn t 0x08 e n → e.seqNo = none → (n.streamOr e.msg.key).nextSeq ≠ 2 ^ 64 - 1 →
        (s.begun e).Classifies n { e.started with stepTime := s.sea.time } (classifyKey n.nsid e.msg.key) f s1 →
        (∀ st w, s1.tryAppend n f k = (.error st, w) → ∃ u, exec (.append t true) s = .next u ∧
          u.Answers f (doneWith st e.asn []) ∧ s1.AnswerFrame f u) ∧
        (∀ w, s1.tryAppend n f k = (.ok (), w) → exec (.append t true) s = .next (s1.setEntry g) ∧
          ∀ w', (s1.setEntry g).tryAppend n g k = (.ok (), w') →
            ∃ u, exec (.append t false) s = .next u ∧ u.Commits g (receipt g))) ∧
      (s.StartsIn t 0x08 e n → e.seqNo = some q →
        (∀ w, (s.begun e).tryAppend n e.started k = (.ok (), w) →
          ∃ u, exec (.append t false) s = .next u ∧ u.Commits e (receipt e)) ∧
        (∀ st w, (s.begun e).tryAppend n e.started k = (.error st, w) →
          ∃ u, exec (.append t false) s = .next u ∧ u.Answers e (doneWith st e.asn []) ∧
            (w.voidRecord e.started).AnswerFrame e u)) ∧
      (s.entry? t = some e → e.msg.opcode = 0x08 → e.state = .executing → s.dev.phase = .service →
        s.ns? e.msg.nsid = some n → ∀ w, s.tryAppend n e k = (.ok (), w) →
        ∃ u, exec (.commitPointPassed t) s = .next u ∧ u.Commits e (receipt e))) ∧
    (s.StartsIn t 0x12 e n → e.purging = none → (s.begun e).Classifies n e.started (fun s => ([], s)) f s1 →
      let due := fun (x : Stream) => 0 < expiredRun s.sea.time (e.purgeLimit.getD x.recs.length) x.recs
      exec (.purgeExpired t true) s = .next s1 ∧
      (e.msg.key ≠ [] → e.purgeStreams n = [] → ∃ u, exec (.purgeExpired t false) s = .next u ∧
        u.Answers f (doneWith stNoSuchKey e.asn []) ∧ s1.AnswerFrame f u) ∧
      (e.msg.key = [] ∨ e.purgeStreams n ≠ [] → ∀ w m l,
        purgeGo n.nsid s.sea.time (((e.purgeStreams n).filter due).take 1) e.purgeLimit s1 = (w, m, l) →
        (m = 0 → ∃ u, exec (.purgeExpired t false) s = .next u ∧ u.Answers f (doneWith stOK e.asn (purgeParam 0 0)) ∧
          s1.AnswerFrame f u) ∧
        (m ≠ 0 → s.flash.readOnly = false →
          let g : TagEntry := { f with state := .committed, purging := some (l, m),
                                       result := some (doneWith stOK e.asn (purgeParam m l.length)) }
          (∀ n' w' k' l', (w.setEntry g).ns? n.nsid = some n' →
            purgeGo n.nsid w.sea.time (g.purgeStreams n') g.purgeLimit (w.setEntry g) = (w', k', l') →
            ∃ u, exec (.purgeExpired t false) s = .next u ∧
              u.Commits f (doneWith stOK e.asn (purgeParam (m + k') (l ++ l').length)))))) ∧
    (s.entry? t = some e → e.msg.opcode = 0x12 → e.state = .executing → e.purging = none → s.dev.phase = .service →
      s.ns? e.msg.nsid = some n → s.flash.readOnly = false →
      let due := fun (x : Stream) => 0 < expiredRun s.sea.time (e.purgeLimit.getD x.recs.length) x.recs
      ∀ w m l, purgeGo n.nsid s.sea.time (((e.purgeStreams n).filter due).take 1) e.purgeLimit s = (w, m, l) → m ≠ 0 →
        ∃ u, exec (.commitPointPassed t) s = .next u ∧ u.entry? t = some { e with
          state := .committed, result := some (doneWith stOK e.asn (purgeParam m l.length)), purging := some (l, m) })

/-- PART_BEGIN opens an upload under the next identifier, PART_PUT stores a part of it, PART_COMMIT joins the parts. For
every admitted command that may run: a PART_BEGIN with fewer than 1,024 uploads open and whose opening fits is
COMMITTED with the upload's identifier as PARAM, the upload stands last among the open ones, and the next identifier
rises by one; with 1,024 open it answers BUSY_RETRY. A PART_PUT of a part of the upload's length, whose store fits, is
COMMITTED with OK; of another length it answers BAD_VALUE_LENGTH. A PART_COMMIT of an upload with every part stored,
that nothing blocks and whose joining fits, is COMMITTED with OK; with a part missing it answers BAD_FIELD with the
lowest missing part, and KEY_EXISTS under CREATE_ONLY for a key held. A PART_PUT or PART_COMMIT of no open upload
answers BAD_FIELD. (R174, R166) -/
def Obligations.PartsFormAnUpload : Prop :=
  ∀ (s : State) (t : TagId) (e f : TagEntry) (n : Ns) (u0 : Upload) (s1 : State),
    (s.StartsIn t 0x0C e n →
      (1024 ≤ s.cmd.uploads.length →
        ∃ u, exec (.partBegin t false) s = .next u ∧ u.Answers e (doneWith stBusy e.asn []) ∧ s.AnswerFrame e u) ∧
      (∀ w, s.cmd.uploads.length < 1024 → (s.begun e).tryPartBegin n e.started = (.ok (), w) →
        ∃ u, exec (.partBegin t false) s = .next u ∧ u.Commits e (doneWith stOK e.asn (beBytes 8 s.cmd.nextUpload)) ∧
          u.cmd.uploads = s.cmd.uploads ++ [(s.begun e).newUpload n e] ∧ u.cmd.nextUpload = s.cmd.nextUpload + 1)) ∧
    (s.StartsIn t 0x0D e n →
      (s.upload? (beAt e.msg.param 0 8) = none →
        ∃ u, exec (.partPut t false) s = .next u ∧ u.Answers e (doneWith stBadField e.asn []) ∧ s.AnswerFrame e u) ∧
      (s.upload? (beAt e.msg.param 0 8) = some u0 → u0.nsid = n.nsid →
        beAt e.msg.param 8 4 < partCount u0.totalLen u0.partMib →
        (∀ w, e.msg.value.length = u0.partLen (beAt e.msg.param 8 4) →
          (s.begun e).tryPart n e.started u0 = (.ok (), w) →
          ∃ u, exec (.partPut t false) s = .next u ∧ u.Commits e (doneWith stOK e.asn [])) ∧
        (e.msg.value.length ≠ u0.partLen (beAt e.msg.param 8 4) →
          ∃ u, exec (.partPut t false) s = .next u ∧ u.Answers e (doneWith stBadValueLen e.asn []) ∧ s.AnswerFrame e u))) ∧
    (s.StartsIn t 0x0E e n →
      (s.upload? (beAt e.msg.param 0 8) = none → (s.begun e).Classifies n e.started (fun s => ([], s)) f s1 →
        ∃ u, exec (.partCommit t false) s = .next u ∧ u.Answers f (doneWith stBadField e.asn []) ∧ s1.AnswerFrame f u) ∧
      (s.upload? (beAt e.msg.param 0 8) = some u0 → u0.nsid = n.nsid →
        (s.begun e).Classifies n e.started (classifyKey n.nsid u0.key) f s1 →
        (∀ k, u0.missing = some k →
          ∃ u, exec (.partCommit t false) s = .next u ∧ u.Answers f (doneWith stBadField e.asn (beBytes 4 k)) ∧
            s1.AnswerFrame f u) ∧
        (u0.missing = none → (e.msg.createOnly && (n.seenBy u0.key e.msg.stamp (tagSess e.id)).isSome) = true →
          ∃ u, exec (.partCommit t false) s = .next u ∧ u.Answers f (doneWith stKeyExists e.asn []) ∧
            s1.AnswerFrame f u) ∧
        (∀ w, u0.missing = none → (e.msg.createOnly && (n.seenBy u0.key e.msg.stamp (tagSess e.id)).isSome) = false →
          s1.tryJoin n f u0 f.tier = (.ok (), w) →
          ∃ u, exec (.partCommit t false) s = .next u ∧ u.Commits f (doneWith stOK e.asn []))))

/-- COMMAND_POSTED answers a committed write, FLUSH answers once the buffer is on media, and ABORT stops its target. A
committed entry whose mirrors have all answered, under BUFFERED while that is allowed, is answered by COMMAND_POSTED
with its fixed result, OK and OK_ABSENT becoming OK_DEGRADED_MIRROR where a mirror was lost, a CAM_WRITE with its
change applied; under MEDIA it is answered once the drained buffer is empty. A purge that has purged its first stream
first purges the others. An admitted FLUSH that may run answers OK once the drain leaves nothing of its scope in the
buffer, and NAMESPACE_UNKNOWN where its namespace is gone. An admitted ABORT that may run and may name the target
session, whose target is live, is neither ABORT nor RESET_CONTROLLER and has no forwarded message outstanding, answers
OK, and the target is answered ABORTED with APPLIED 1 exactly where it was committed; of a tag that holds nothing or
is posted it answers TOO_LATE. (R176, R183, R184, R185, R186, R187, R235, R395) -/
def Obligations.FlushAbortAndPostingAnswer : Prop :=
  ∀ (s : State) (t : TagId) (e f : TagEntry),
    (s.entry? t = some e → e.state = .committed → e.mirrors = [] → e.purging = none →
      (e.media = false → s.bufferedOk = true →
        ∃ u, exec (.commandPosted t) s = .next u ∧ u.Answers e e.posting ∧ (s.camEnd e).AnswerFrame e u) ∧
      (e.media = true ∨ s.bufferedOk = false → (s.camEnd e).drain.drained = true →
        ∃ u, exec (.commandPosted t) s = .next u ∧ u.Answers e e.posting ∧ (s.camEnd e).drain.AnswerFrame e u)) ∧
    (∀ l m n w k r, s.entry? t = some e → e.purging = some (l, m) → s.ns? e.msg.nsid = some n →
      purgeGo n.nsid s.sea.time (e.purgeStreams n) e.purgeLimit s = (w, k, r) →
      ∃ u g, exec (.commandPosted t) s = .next u ∧ (s.purgeEnd e).entry? t = some g ∧ g.purging = none ∧
        g.result = some (doneWith stOK e.asn (purgeParam (m + k) (l ++ r).length)) ∧
        (g.mirrors = [] → g.media = false → (s.purgeEnd e).bufferedOk = true → u.Answers g g.posting)) ∧
    (s.Starts t 0x0A e →
      (e.msg.nsid ≠ 0 → s.ns? e.msg.nsid = none → ∃ u, exec (.flush t) s = .next u ∧
        u.Answers e (doneWith stNsUnknown e.asn []) ∧ s.AnswerFrame e u) ∧
      (e.msg.nsid = 0 ∨ (∃ n, s.ns? e.msg.nsid = some n) → (s.begun e).drain.flushed e.msg.nsid = true →
        ∃ u, exec (.flush t) s = .next u ∧ u.Answers e (doneWith stOK e.asn []) ∧
          (s.begun e).drain.AnswerFrame e u)) ∧
    (s.Starts t 0x0B e →
      let target : TagId := ⟨.session (beAt e.msg.param 0 2 % 4096), beAt e.msg.param 2 2⟩
      (e.cls ≠ .data ∨ t.ctx = target.ctx) →
      (s.entry? target = some f → f.msg.opcode ≠ 0x0B → f.msg.opcode ≠ 0x45 → f.state ≠ .posted →
        s.forwardOf target = none → s.Sole e → s.Sole f →
        ∃ u, exec (.abort t) s = .next u ∧ u.Answers e (doneWith stOK e.asn []) ∧
          u.Answers f (doneWith stAborted f.asn [if f.state = .committed then 1 else 0])) ∧
      (s.entry? target = none ∨ (s.entry? target = some f ∧ f.msg.opcode ≠ 0x0B ∧ f.msg.opcode ≠ 0x45 ∧ f.state = .posted) →
        ∃ u, exec (.abort t) s = .next u ∧ u.Answers e (doneWith stTooLate e.asn []) ∧ s.AnswerFrame e u))

/-- WATCH_ARM binds a watch to the image version of its admission, and WATCH_DISARM removes it with its states. For every
admitted WATCH_ARM that may run, with WATCH_ID not 0, EVENT_NS a mutable ARRIVAL namespace, the image version present
and the device not read-only: without REBIND, the watch not armed and fewer than 4,096 watches, it answers OK and the
watch stands last among the armed ones, at the command's ASN; with REBIND and the watch armed, it answers OK and the
watch names the new image version at the command's ASN, its states keeping the counters that both images have; nothing
but this, the images that nothing uses any more and what an answer changes is touched. A WATCH_ARM with WATCH_ID 0
answers BAD_FIELD. For every admitted WATCH_DISARM of an armed watch on a device not read-only: it answers OK, and
neither the watch nor any of its states is left, every other watch and state being kept; of a watch not armed it
answers BAD_FIELD. (R252, R253, R254, R245) -/
def Obligations.WatchesAreArmedAndDisarmed : Prop :=
  ∀ (s : State) (t : TagId) (e : TagEntry) (n : Ns),
    let p := e.msg.param
    let mine := fun (w : Watch) => w.nsid == n.nsid && w.id == beAt p 0 2
    let own := fun (x : WatchState) => x.nsid == n.nsid && x.id == beAt p 0 2
    (s.StartsIn t 0x10 e n →
      (∀ img, beAt p 0 2 ≠ 0 → s.eventNsOk (beAt p 4 2) = true → s.imageVer? (beAt p 2 2) e.version = some img →
        s.flash.readOnly = false →
        (bitOf (beAt p 8 1) 0 = false → s.pat.watches.any mine = false → s.pat.watches.length < 4096 →
          ∃ u, exec (.watchArm t) s = .next u ∧ u.Answers e (doneWith stOK e.asn []) ∧
            ({ s with pat := { s.pat with watches := s.pat.watches ++
              [(⟨n.nsid, beAt p 0 2, img.id, img.version, beAt p 4 2, beAt p 6 2, e.msg.key, e.asn⟩ : Watch)] } } : State).AnswerFrame e u) ∧
        (∀ w old, bitOf (beAt p 8 1) 0 = true → s.pat.watches.find? mine = some w →
          old = (match s.imageVer? w.imageId w.version with
            | some i => imgCounters i.bytes
            | none => 0) →
          ∃ u, exec (.watchArm t) s = .next u ∧ u.Answers e (doneWith stOK e.asn []) ∧
            ({ s.begun e with pat := { s.pat with
                watches := putWhere mine { w with imageId := img.id, version := img.version, armAsn := e.asn } s.pat.watches,
                states := updWhere own (fun x => { x with counters := keptCtrs old (imgCounters img.bytes) x.counters })
                  s.pat.states } } : State).freeImages.AnswerFrame e u)) ∧
      (beAt p 0 2 = 0 →
        ∃ u, exec (.watchArm t) s = .next u ∧ u.Answers e (doneWith stBadField e.asn []) ∧ s.AnswerFrame e u)) ∧
    (s.StartsIn t 0x11 e n →
      (s.pat.watches.any mine = true → s.flash.readOnly = false →
        ∃ u, exec (.watchDisarm t) s = .next u ∧ u.Answers e (doneWith stOK e.asn []) ∧
          ({ s.begun e with pat := { s.pat with watches := s.pat.watches.filter (fun w => !mine w),
                                                states := s.pat.states.filter (fun x => !own x) } } : State).freeImages.AnswerFrame e u) ∧
      (s.pat.watches.any mine = false →
        ∃ u, exec (.watchDisarm t) s = .next u ∧ u.Answers e (doneWith stBadField e.asn []) ∧ s.AnswerFrame e u))

/-- NS_CREATE adds exactly the described namespace, NS_DELETE removes exactly its own, and NS_QUERY reports one. For every
admitted command that may run: an NS_CREATE of an ID that names nothing, whose descriptor passes its checks, answers
OK, and the namespace with that ID is the one its descriptor describes, created at the command's ASN; of an ID that
exists it answers KEY_EXISTS, and with a descriptor that fails a check that check's status. An NS_DELETE of a
namespace that no mirror holds and that keeps no unexpired sealed record, on a device not read-only, answers OK, and
the ID names nothing and has no leaf page. Every other namespace stays as it was, until the answer. An NS_DELETE of a
sealed namespace with an unexpired record answers RETENTION_HELD and removes nothing. NS_QUERY answers OK with the
descriptor, the counts of keys, usage, next ASN and horizon, and changes only what an answer changes. (R175, R176,
R389, R483, R382) -/
def Obligations.NamespacesComeAndGo : Prop :=
  ∀ (s : State) (t : TagId) (e : TagEntry) (n : Ns),
    (s.Starts t 0x40 e →
      (s.ns? e.msg.nsid = none → (s.begun e).createFails e.msg.value = none →
        ∃ u m : State, exec (.nsCreate t) s = .next u ∧ u.Answers e (doneWith stOK e.asn []) ∧
          m = s.addNs (nsOf e.msg.nsid e.asn e.msg.value none) ∧ m.AnswerFrame e u ∧
          m.ns? e.msg.nsid = some (nsOf e.msg.nsid e.asn e.msg.value none) ∧ ∀ i, i ≠ e.msg.nsid → m.ns? i = s.ns? i) ∧
      (∀ st, s.ns? e.msg.nsid = none → (s.begun e).createFails e.msg.value = some st →
        ∃ u, exec (.nsCreate t) s = .next u ∧ u.Answers e (doneWith st e.asn []) ∧ s.AnswerFrame e u) ∧
      (s.ns? e.msg.nsid = some n →
        ∃ u, exec (.nsCreate t) s = .next u ∧ u.Answers e (doneWith stKeyExists e.asn []) ∧ s.AnswerFrame e u)) ∧
    (s.StartsIn t 0x41 e n → n.mirrorSet = none → n.copyOf = none →
      (¬ (n.kind = .sealed ∧ s.unexpired n = true) → s.flash.readOnly = false →
        ∃ u m : State, exec (.nsDelete t) s = .next u ∧ u.Answers e (doneWith stOK e.asn []) ∧
          m = (s.begun e).dropNs e.msg.nsid ∧ m.AnswerFrame e u ∧
          m.ns? e.msg.nsid = none ∧ (∀ i, i ≠ e.msg.nsid → m.ns? i = s.ns? i) ∧ m.key = s.key ∧ m.cfg = s.cfg ∧
          ∀ x ∈ m.kv.leaves, x.nsid ≠ e.msg.nsid) ∧
      (n.kind = .sealed → s.unexpired n = true →
        ∃ u, exec (.nsDelete t) s = .next u ∧ u.Answers e (doneWith stRetention e.asn []) ∧ s.AnswerFrame e u)) ∧
    (s.StartsIn t 0x42 e n →
      ∃ u, exec (.nsQuery t) s = .next u ∧ s.AnswerFrame e u ∧
        u.Answers e (doneData stOK e.asn [] (n.descriptor ++ leBytes 8 n.keyCount ++ leBytes 8 (s.usage n) ++
          leBytes 8 (s.peekAsn n.nsid) ++ leBytes 8 n.horizon)))

/-- POWER_STATE enters the state it names: IDLE at once, ACTIVE by waking, STANDBY with the disk spun down. For every
admitted POWER_STATE that may run: in stalemate it answers STALEMATE_ONLY; naming a code above 4 it answers BAD_FIELD;
naming IDLE it answers OK and nothing else changes. In service, naming ACTIVE it answers OK, no entry is under way any
more and a device not hibernating is ACTIVE. With no entry under way, one that names STANDBY, SLEEP or HIBERNATE and
pauses leaves that entry under way for its tag alone; one that names STANDBY and runs to its end answers OK with the
device in STANDBY, the spindle no longer turning and the disk spinning down unless it was stopped, stopping or failed.
(R72, R73, R76, R79, R81, Table 03-5) -/
def Obligations.PowerStateCommandsEnterStates : Prop :=
  ∀ (s : State) (t : TagId) (e : TagEntry), s.Starts t 0x44 e →
    let k := beAt e.msg.param 0 1
    (s.dev.phase = .stalemate → ∀ p,
      ∃ u, exec (.powerState t p) s = .next u ∧ u.Answers e (doneWith stStalemate e.asn []) ∧ s.AnswerFrame e u) ∧
    (s.dev.phase = .service →
      (4 < k → ∀ p, ∃ u, exec (.powerState t p) s = .next u ∧ u.Answers e (doneWith stBadField e.asn []) ∧ s.AnswerFrame e u) ∧
      (k = 1 → ∀ p, ∃ u, exec (.powerState t p) s = .next u ∧ u.Answers e (doneWith stOK e.asn []) ∧ s.AnswerFrame e u) ∧
      (k = 0 → ∀ p, ∃ u, exec (.powerState t p) s = .next u ∧ u.Answers e (doneWith stOK e.asn []) ∧
        u.dev.entering = none ∧ (s.dev.power ≠ .hibernate → u.dev.power = .active)) ∧
      (∀ m, modeOf k = some m → s.dev.entering = none → s.dev.enterTags = [] →
        ∃ u, exec (.powerState t true) s = .next u ∧ u.dev.entering = some m ∧ u.dev.enterTags = [t] ∧
          u.srv = s.srv ∧ u.entry? t = some { e with state := .executing }) ∧
      (k = 2 → s.dev.entering = none → s.dev.enterTags = [] →
        ∃ u, exec (.powerState t false) s = .next u ∧ u.Answers e (doneWith stOK e.asn []) ∧ u.dev.power = .standby ∧
          u.dev.entering = none ∧
          u.srv.disk = (if s.srv.disk = 0 ∨ s.srv.disk = 5 ∨ s.srv.disk = 6 then s.srv.disk else 5)))

/-- REG_READ answers the registers, REG_WRITE is applied or waits for its commit, CONFIG_WRITE and CONFIG_FACTORY form
one. For every admitted command that may run: a REG_READ whose checks pass answers OK with the registers read,
otherwise with the status of the check that fails. A REG_WRITE whose checks fail answers that status, which ERR_CAPT
of its page captures; one that passes and touches no class C field nor RST_CTRL is applied and answers OK. With no
commit under way or waiting, a REG_WRITE that passes and touches class C fields, a CONFIG_WRITE whose body passes its
structural checks, and a CONFIG_FACTORY in a valid profile with the tier formatted, each form a commit of exactly that
change and stay executing; a CONFIG_WRITE of a body that fails them, or in the Fabric profile has no room for JOINED,
answers BAD_FIELD. (R102, R113, R114, R118, R119, R126, R127, R131) -/
def Obligations.RegisterCommandsAccessAndCommit : Prop :=
  ∀ (s : State) (t : TagId) (e : TagEntry),
    let p := e.msg.param
    let a := beAt p 0 4
    let v := BitVec.ofNat 32 (beAt p 4 4)
    let m := BitVec.ofNat 32 (beAt p 8 4)
    let formed := fun (c : CfgChange) (u : State) =>
      u.cfg.under = [⟨c, .tag t⟩] ∧ u.cfg.waiting = [] ∧ u.regs = s.regs ∧ u.entry? t = some { e with state := .executing }
    (s.Starts t 0x48 e → ∀ st ws s1, (s.begun e).regRead (TagId.path t) a (beAt p 4 2) = (st, ws, s1) →
      ∃ u, exec (.regRead t) s = .next u ∧
        u.Answers e (if st = stOK then doneData stOK e.asn [] (wordBytes ws) else doneWith st e.asn [])) ∧
    (s.Starts t 0x49 e → s.NoCommit → a ≠ 0xC0040 →
      (∀ st, (s.begun e).writeCheck (TagId.path t) a v m = some st →
        ∃ u, exec (.regWrite t) s = .next u ∧ u.Answers e (doneWith st e.asn []) ∧ (s.refuseWrite a st).AnswerFrame e u) ∧
      ((s.begun e).writeCheck (TagId.path t) a v m = none →
        (m &&& classCMask a = 0 → ∃ u, exec (.regWrite t) s = .next u ∧ u.Answers e (doneWith stOK e.asn []) ∧
          (((s.begun e).powerPage a).applyWrite (TagId.path t) a v m).AnswerFrame e u) ∧
        (m &&& classCMask a ≠ 0 → ∃ u, exec (.regWrite t) s = .next u ∧ formed (.reg a v m) u))) ∧
    (s.Starts t 0x4A e → s.NoCommit →
      (∀ b, (parseBody e.msg.value).bind (fun b => if s.fabric then b.joined else some b) = some b →
        ∃ u, exec (.configWrite t) s = .next u ∧ formed (.body b) u) ∧
      ((parseBody e.msg.value).bind (fun b => if s.fabric then b.joined else some b) = none →
        ∃ u, exec (.configWrite t) s = .next u ∧ u.Answers e (doneWith stBadField e.asn []) ∧ s.AnswerFrame e u)) ∧
    (s.Starts t 0x4B e → s.NoCommit → s.dev.phase = .service → s.flash.formatted = true →
      (s.dev.straps.profile = 1 ∨ s.dev.straps.profile = 2 →
        ∃ u, exec (.configFactory t) s = .next u ∧ formed .factory u) ∧
      (s.dev.straps.profile = 0 ∨ s.dev.straps.profile = 3 →
        ∃ u, exec (.configFactory t) s = .next u ∧ u.Answers e (doneWith stBadField e.asn []) ∧ s.AnswerFrame e u))

/-- A commit of the configuration record takes the next generation in the copy that is not current, and a failed one
changes nothing. For every state with one commit of a whole body under way, no other change waiting and the current
generation below 0xFFFF_FFFE: a CONFIG_COMMIT whose read-back succeeds leaves as current commit that body under the
next generation (1 where no copy was valid), and no commit is under way; the copy that was current is kept. A
CONFIG_COMMIT whose read-back fails twice leaves the current commit as it was, no commit under way, and beside the
answer of whoever asked neither namespaces, flash, keys nor fabric changed. With none under way a CONFIG_COMMIT
changes nothing. (R102, R104, R106, R107) -/
def Obligations.ConfigCommitWritesTheOtherCopy : Prop :=
  ∀ (s : State) (b : CfgBody) (w : Waiter) (r : NorResult),
    (s.cfg.under = [] → exec (.configCommit r) s = .next s) ∧
    (s.cfg.under = [⟨.body b, w⟩] → s.cfg.waiting = [] →
      (r ≠ .failed → (∀ c, s.cfg.current = some c → c.2.generation < 0xFFFFFFFE) →
        ∃ u k, exec (.configCommit r) s = .next u ∧ u.cfg.under = [] ∧
          u.cfg.current = some (k, ⟨(match s.cfg.current with
            | some c => c.2.generation + 1
            | none => 1), b⟩) ∧
          (∀ c, s.cfg.current = some c → (if c.1 = 0 then u.cfg.copy0 else u.cfg.copy1) = some c.2 ∧ k = 1 - c.1)) ∧
      (∃ u m : State, exec (.configCommit .failed) s = .next u ∧ u.cfg.under = [] ∧ u.cfg.current = s.cfg.current ∧
        m.kv = s.kv ∧ m.flash = s.flash ∧ m.key = s.key ∧ m.fab = s.fab ∧ m.cmd = s.cmd ∧ u = m.answer w stMedia))

/-- KEY_PROVISION puts the new key and generation into the slot and its vault record, KEY_ERASE empties it. For every
admitted command that may run, whose slot keys no open session and whose admission order is its own: a KEY_PROVISION
that passes its checks answers OK with the new generation, and the slot and its vault record hold the new key; a
KEY_ERASE that passes its checks answers OK with the next generation and leaves the slot empty under it, or answers
OK_ABSENT with the generation where the slot was empty. Either failing its checks answers the status of the first that
fails. An enrolment on a device not enrolled with a hash core, confirmed, with a key of the allowed types that needs
no blown bit cleared, and that reads back, blows ENROL and the digest's OPER_PK bits and answers OK; a device already
enrolled answers NOT_PERMITTED. (R365, R370, R371, R372, R380) -/
def Obligations.SlotsAreProvisionedAndErased : Prop :=
  ∀ (s : State) (t : TagId) (e : TagEntry), s.Sole e →
    let k := provision e.msg.param
    let i := beAt e.msg.param 0 2
    let old := s.slot i
    (s.Starts t 0x50 e → k.op ≠ 3 →
      (∀ st f, (s.begun e).slotCheck k.slot (k.pflags % 2 = 1) k.expect false = some st →
        ∃ u, exec (.keyProvision t f) s = .next u ∧ u.Answers e (doneWith st e.asn []) ∧ s.AnswerFrame e u) ∧
      (∀ x s1 f, (s.begun e).slotCheck k.slot (k.pflags % 2 = 1) k.expect false = none →
        (s.begun e).newKey k e.msg.value = (.ok x, s1) → (∀ y ∈ s.sessions, y.keySlot ≠ k.slot) →
        ∃ u m : State, exec (.keyProvision t f) s = .next u ∧ u.Answers e (doneWith stOK e.asn (beBytes 2 x.gen)) ∧
          m.AnswerFrame e u ∧ m.key.slots = SMap.set slotDefault k.slot x s.key.slots ∧
          m.key.vault = SMap.set slotDefault k.slot x s.key.vault ∧ m.key.fuses = s.key.fuses ∧ m.kv = s.kv) ∧
      (∀ st s1 f, (s.begun e).slotCheck k.slot (k.pflags % 2 = 1) k.expect false = none →
        (s.begun e).newKey k e.msg.value = (.error st, s1) →
        ∃ u, exec (.keyProvision t f) s = .next u ∧ u.Answers e (doneWith st e.asn []) ∧ s1.AnswerFrame e u)) ∧
    (s.Starts t 0x51 e → (s.begun e).slotCheck i (beAt e.msg.param 4 1 = 1) (beAt e.msg.param 2 2) true = none →
      (old.present = true → (∀ y ∈ s.sessions, y.keySlot ≠ i) →
        ∃ u m : State, exec (.keyErase t) s = .next u ∧ u.Answers e (doneWith stOK e.asn (beBytes 2 (old.gen + 1))) ∧
          m.AnswerFrame e u ∧ m.key.slots = SMap.set slotDefault i ⟨old.gen + 1, 0, []⟩ s.key.slots ∧
          m.key.vault = SMap.set slotDefault i ⟨old.gen + 1, 0, []⟩ s.key.vault ∧ m.kv = s.kv) ∧
      (old.present = false →
        ∃ u, exec (.keyErase t) s = .next u ∧ u.Answers e (doneWith stAbsent e.asn (beBytes 2 old.gen)) ∧
          s.AnswerFrame e u)) ∧
    (s.Starts t 0x50 e → k.op = 3 →
      (s.key.fuses.enrolled = true → ∀ f,
        ∃ u, exec (.keyProvision t f) s = .next u ∧ u.Answers e (doneWith stNotPermitted e.asn []) ∧ s.AnswerFrame e u) ∧
      (s.key.fuses.enrolled = false → bitOf k.pflags 1 = true → hssTypesOk e.msg.value = true → s.noHash = false →
        (List.zipWith (fun (a b : Byte) => a &&& ~~~b) s.key.fuses.operPk (sha256 e.msg.value)).all (fun b => b == 0) = true →
        ∃ u, exec (.keyProvision t true) s = .next u ∧ u.Answers e (doneWith stOK e.asn []) ∧
          u.key.fuses = { s.key.fuses with
            enrolled := true, operPk := List.zipWith (fun a b => a ||| b) s.key.fuses.operPk (sha256 e.msg.value) }))

/-- TIME_ADVANCE to a later time within 30 days sets device time to it, and any other target never moves it back. For
every admitted TIME_ADVANCE that may run: a target before device time or more than 2,592,000 s after it answers
BAD_FIELD with device time; a target equal to it answers OK with it; where less than 24 powered hours have passed
since the last advance it answers NOT_PERMITTED; on a read-only device WRITE_PROTECTED_WORN; each of these changes
nothing else. Otherwise it answers OK with the target, device time is the target and is saved, no powered hours count
since this advance, and the total rises by the difference. (R393) -/
def Obligations.TimeIsAdvancedOnlyForwardAndBounded : Prop :=
  ∀ (s : State) (t : TagId) (e : TagEntry), s.Starts t 0x52 e →
    let target := beAt e.msg.param 0 8
    let now := s.sea.time
    (target < now ∨ now + 2592000 < target →
      ∃ u, exec (.timeAdvance t) s = .next u ∧ u.Answers e (doneWith stBadField e.asn (beBytes 8 now)) ∧ s.AnswerFrame e u) ∧
    (target = now →
      ∃ u, exec (.timeAdvance t) s = .next u ∧ u.Answers e (doneWith stOK e.asn (beBytes 8 now)) ∧ s.AnswerFrame e u) ∧
    (now < target → target ≤ now + 2592000 →
      (s.advOk = false → ∃ u, exec (.timeAdvance t) s = .next u ∧
        u.Answers e (doneWith stNotPermitted e.asn (beBytes 8 now)) ∧ s.AnswerFrame e u) ∧
      (s.advOk = true → s.flash.readOnly = true → ∃ u, exec (.timeAdvance t) s = .next u ∧
        u.Answers e (doneWith stWorn e.asn (beBytes 8 now)) ∧ s.AnswerFrame e u) ∧
      (s.advOk = true → s.flash.readOnly = false → ∃ u m : State, exec (.timeAdvance t) s = .next u ∧
        u.Answers e (doneWith stOK e.asn (beBytes 8 target)) ∧ m.AnswerFrame e u ∧
        m.sea = { s.sea with time := target, saved := target, savedAdv := 0, advHours := 0, advMade := true,
                             advTotal := s.sea.advTotal + (target - now) } ∧ m.kv = s.kv ∧ m.key = s.key))

/-- PATTERN_LOAD makes its image the current version of its ID or removes the ID, CAM_WRITE changes, reads or searches its
table. For every admitted command that may run on a device with its flash tier, not read-only and with room in the
system area: a PATTERN_LOAD of an ID other than 1 with an image that passes the checks of R244 and fits the store
answers OK, and the current image of the ID is those bytes under the next version; a delete of a loaded ID that no
watch is bound to answers OK and the ID has no current image; an invalid image answers PATTERN_INVALID and changes
nothing. A CAM_WRITE that no commit and no change before it holds up and that passes the conditions of R234 answers
OK: a write, invalidate or move leaves the table as the operation changes it and every other table as it was, a READ
gives the entries from INDEX on, those invalid with free values (log entry 146), a SEARCH the matches, and tiles
searched leave retention; beside that neither changes more than an answer changes. A change that pauses only starts;
at its commit point, which COMMIT_POINT_PASSED passes too, it is COMMITTED with OK, saved, and no word of its table
has changed yet. A condition that fails answers its status and changes nothing. (R231, R233, R234, R235, R243, R244,
R245, R484) -/
def Obligations.ImagesAndTablesAreLoaded : Prop :=
  ∀ (s : State) (t : TagId) (e : TagEntry),
    let i := beAt e.msg.param 0 2
    let b := e.msg.value
    let k := camCmd e.msg.param
    (s.Starts t 0x58 e → i ≠ 1 → s.flash.readOnly = false →
      (beAt e.msg.param 2 1 = 1 → s.noHash = false → imgInvalid b (decide ((s.tableCfg (imgFilter b)).tiles ≠ 0)) = false →
        (s.begun e).storeUsed + (b.length + 4095) / 4096 ≤ 4096 → s.noTier = false → (s.begun e).sysFull b.length = false →
        ∃ u, exec (.patternLoad t) s = .next u ∧ u.Answers e (doneWith stOK e.asn []) ∧
          u.image? i = some ⟨i, s.pat.nextVersion, b, true⟩ ∧ ∀ j, j ≠ i → u.image? j = s.image? j) ∧
      (beAt e.msg.param 2 1 = 1 → s.noHash = false → imgInvalid b (decide ((s.tableCfg (imgFilter b)).tiles ≠ 0)) = true →
        ∃ u, exec (.patternLoad t) s = .next u ∧ u.Answers e (doneWith stPatternInvalid e.asn []) ∧ s.AnswerFrame e u) ∧
      (∀ img, beAt e.msg.param 2 1 ≠ 1 → s.image? i = some img → s.pat.watches.all (fun w => w.imageId != i) = true →
        ∃ u, exec (.patternLoad t) s = .next u ∧ u.Answers e (doneWith stOK e.asn []) ∧ u.image? i = none ∧
          ∀ j, j ≠ i → u.image? j = s.image? j)) ∧
    (s.Starts t 0x59 e → s.camHeld t = false → ∀ p,
      (∀ st, (s.begun e).camCheck b k true = some st →
        ∃ u, exec (.camWrite ⟨t, p⟩) s = .next u ∧ u.Answers e (doneWith st e.asn []) ∧ s.AnswerFrame e u) ∧
      ((s.begun e).camCheck b k true = none →
        (k.op = 5 → ∃ u, exec (.camWrite ⟨t, p⟩) s = .next u ∧ s.tookFree.AnswerFrame e u ∧ u.Answers e (doneData stOK e.asn
          (beBytes 4 k.count) (camReadData (s.tableCfg k.table) (s.table k.table) s.free k.index k.count))) ∧
        (k.op = 6 → ∃ u, exec (.camWrite ⟨t, p⟩) s = .next u ∧
          ({ s with cam := (s.noteSearch (s.tableCfg k.table) 1).cam } : State).AnswerFrame e u ∧
          let d := camSearchData (camFind (s.tableCfg k.table) (s.table k.table) (leNat b)) (k.count = 1)
          u.Answers e (doneData stOK e.asn d.1 d.2)) ∧
        (k.op ≠ 5 → k.op ≠ 6 → s.noTier = false → s.flash.readOnly = false →
          (s.begun e).sysFull (tableBytes (camApply (s.tableCfg k.table) k b (s.table k.table))) = false →
          exec (.camWrite ⟨t, true⟩) s = .next (s.begun e) ∧
          ∃ u, exec (.camWrite ⟨t, false⟩) s = .next u ∧ u.Answers e (doneWith stOK e.asn []) ∧
            u.table k.table = camApply (s.tableCfg k.table) k b (s.table k.table) ∧
            ∀ j, j ≠ k.table → u.table j = s.table j))) ∧
    (s.entry? t = some e → e.msg.opcode = 0x59 → e.state = .executing → s.dev.phase = .service → 1 ≤ k.op → k.op ≤ 4 →
      ∃ u, exec (.commitPointPassed t) s = .next u ∧ u.Commits e (doneWith stOK e.asn []) ∧
        u.cam.tables = s.cam.tables ∧ (∃ x, u.cam.moving = some (t, x)) ∧
        (k.table ≠ 0 → (k.table, camApply (s.tableCfg k.table) k b (s.table k.table)) ∈ u.cam.saved))

/-- A service PUT leaves its result on the claimed page, GET answers it, DELETE and expiry take it away, a resumed PUT
completes. For every admitted service command that may run and whose page no other session owns: a PUT whose
descriptor and checks pass and whose core is in service either waits for gondola frames and is admitted still, or is
suspended with its result to come, or completes with the operation's status, and its page belongs to it with the
result, plaintext in its frames; without a nonce it completes with that status; with a bad descriptor it answers
BAD_FIELD; the page is claimed without a result in each. A GET of a held result answers OK with its length and bytes,
otherwise NO_SUCH_KEY; a DELETE of an owned page answers OK and frees it. An operation that resumes under the
generation it latched leaves its result on its page and completes its command; SERVICE_RESULT_EXPIRY takes the result
and leaves the page owned. (R341, R350, R355, R357, R358, R359) -/
def Obligations.TheHostCryptoServiceHoldsResults : Prop :=
  ∀ (s : State) (t : TagId) (e f : TagEntry) (p : SvcResult), e.msg.nsid = 0 → s.Sole e → s.svcForeign t.ctx e.msg.page = false →
    let q := svcReq e.msg.value
    let b := (s.begun e).setSvcPage ⟨e.msg.page, t.ctx, none, false, []⟩
    let gen := if q.hash then 0 else (s.slot q.slot).gen
    let core := (b.svcCore q).getD 0
    let frames := if q.decrypts then (b.freeFrames core).take (framesFor q.textLen) else []
    (s.Starts t 0x02 e → s.cry.suspended.all (fun x => x.order != e.order) = true →
      (svcBad e.msg.value = true → ∃ u, exec (.hostCryptoServicePut t false) s = .next u ∧
        u.Answers e (doneWith stBadField e.asn []) ∧ b.AnswerFrame e u) ∧
      (∀ st, svcBad e.msg.value = false → b.svcCheck q = some st → ∃ u, exec (.hostCryptoServicePut t false) s = .next u ∧
        u.Answers e (doneWith st e.asn []) ∧ b.AnswerFrame e u) ∧
      (svcBad e.msg.value = false → b.svcCheck q = none → b.svcWaits q = true →
        ∀ x, exec (.hostCryptoServicePut t x) s = .next (b.setEntry { e with state := .admitted })) ∧
      (svcBad e.msg.value = false → b.svcCheck q = none → b.svcWaits q = false →
        (if q.hash then s.noHash else s.noCipher) = false → ∀ r s1, (b.count Reg.CRY.SVC_OPS 1).svcIv q = (r, s1) →
        (∀ st, r = .error st → ∃ u, exec (.hostCryptoServicePut t false) s = .next u ∧
          u.Answers e (doneWith st e.asn [])) ∧
        (∀ iv, r = .ok iv →
          let o := svcRun (s.slot q.slot).key q iv
          let plain := q.decrypts && o.status == stOK
          (∃ u m : State, exec (.hostCryptoServicePut t false) s = .next u ∧ u.Answers e (doneWith o.status e.asn []) ∧
            m.AnswerFrame e u ∧ m.svcPage? e.msg.page =
              some ⟨e.msg.page, t.ctx, some (svcResult q gen iv o), plain, if plain then frames else []⟩) ∧
          (s.cry.phase = 1 → q.hash = false → (s.cry.suspended.filter fun x => x.core == core).length < 16 →
            ∃ u, exec (.hostCryptoServicePut t true) s = .next u ∧ u.entry? t = some e.started ∧
              u.cry.suspended = s.cry.suspended ++ [⟨s.cry.nextOp, core, e.msg.page, q.slot, gen, e.order, o.status,
                svcResult q gen iv o, plain, q.work, frames⟩])))) ∧
    (s.Starts t 0x01 e → s.svcPage? e.msg.page = some p →
      (∀ r, p.result = some r → ∃ u, exec (.hostCryptoServiceGet t) s = .next u ∧
        u.Answers e (doneData stOK e.asn (beBytes 8 r.length) r) ∧ s.AnswerFrame e u) ∧
      (p.result = none → ∃ u, exec (.hostCryptoServiceGet t) s = .next u ∧
        u.Answers e (doneWith stNoSuchKey e.asn []) ∧ s.AnswerFrame e u)) ∧
    (s.Starts t 0x03 e → s.svcPage? e.msg.page = some p →
      ∃ u, exec (.hostCryptoServiceDelete t) s = .next u ∧ u.Answers e (doneWith stOK e.asn []) ∧
        u.svcPage? e.msg.page = none) ∧
    (∀ x, s.cry.suspended.find? (fun y => y.op == x.op) = some x → (s.slot x.slot).gen = x.gen → s.svcPage? x.page = some p →
      s.entryAt x.order = some f →
      ∃ u m : State, exec (.operationResume x.op) s = .next u ∧ u.Answers f (doneWith x.status f.asn []) ∧ m.AnswerFrame f u ∧
        m.svcPage? x.page =
          some { p with result := some x.result, plain := x.plain, frames := if x.plain then x.frames else [] } ∧
        (∀ y ∈ u.cry.suspended, y.op ≠ x.op)) ∧
    (s.svcPage? p.page = some p →
      exec (.serviceResultExpiry p.page) s = .next (s.setSvcPage { p with result := none, plain := false, frames := [] }))

/-- A third health failure within 60 s takes the entropy source out, and a reseed without it stops the DRBG. For every
state: ES_HEALTH_FAIL of a source out of service changes nothing; of a source in service the failure is recorded, and
where it is the third or later within 60 s the source leaves service and a DRBG in state 1 goes to 2, otherwise the
source stays and ES_RESTARTS counts. DRBG_RESEED of a DRBG in state 1 or 2 makes it 1 with a healthy source and 3
without one, and changes nothing of one in another state. Keys, slots and pages stay as they were. (R347, R348) -/
def Obligations.EntropyFailuresStopTheDrbg : Prop :=
  ∀ s : State,
    let recent := s.dev.clockMs :: s.cry.esFails.filter fun t => decide (s.dev.clockMs ≤ t + 60000)
    (s.cry.esOk = false → exec .esHealthFail s = .next s) ∧
    (s.cry.esOk = true → 3 ≤ recent.length → ∃ u, exec .esHealthFail s = .next u ∧
      u.cry = { s.cry with esFails := recent, esOk := false, drbg := if s.cry.drbg = 1 then 2 else s.cry.drbg } ∧
      u.key = s.key) ∧
    (s.cry.esOk = true → recent.length < 3 →
      exec .esHealthFail s = .next (({ s with cry := { s.cry with esFails := recent } } : State).count Reg.CRY_DRBG.ES_RESTARTS 1)) ∧
    (s.cry.drbg = 0 ∨ s.cry.drbg = 3 → exec .drbgReseed s = .next s) ∧
    (s.cry.drbg = 1 ∨ s.cry.drbg = 2 →
      (s.cry.esOk = true → exec .drbgReseed s = .next { s with cry := { s.cry with drbg := 1 } }) ∧
      (s.cry.esOk = false → ∃ u, exec .drbgReseed s = .next u ∧ u.cry = { s.cry with drbg := 3 } ∧ u.key = s.key))

/-- An ABORT naming another session from a data session is not permitted, nor is one naming an ABORT or a reset a valid
one. For every admitted ABORT that may run, its PARAM naming a session and a tag: sent by a data session and naming
another session it answers NOT_PERMITTED; naming, from a session that may name it, a tag that holds ABORT or
RESET_CONTROLLER it answers BAD_FIELD. In either case nothing else changes. An admin or recovery session is held to no
session: naming any that holds no such tag it answers TOO_LATE. (R186) -/
def Obligations.AbortNamesItsOwnSessionOnly : Prop :=
  ∀ (s : State) (t : TagId) (e f : TagEntry), s.Starts t 0x0B e →
    let target : TagId := ⟨.session (beAt e.msg.param 0 2 % 4096), beAt e.msg.param 2 2⟩
    (e.cls = .data → t.ctx ≠ target.ctx →
      ∃ u, exec (.abort t) s = .next u ∧ u.Answers e (doneWith stNotPermitted e.asn []) ∧ s.AnswerFrame e u) ∧
    ((e.cls ≠ .data ∨ t.ctx = target.ctx) → s.entry? target = some f → f.msg.opcode = 0x0B ∨ f.msg.opcode = 0x45 →
      ∃ u, exec (.abort t) s = .next u ∧ u.Answers e (doneWith stBadField e.asn []) ∧ s.AnswerFrame e u) ∧
    (e.cls ≠ .data → s.entry? target = none →
      ∃ u, exec (.abort t) s = .next u ∧ u.Answers e (doneWith stTooLate e.asn []) ∧ s.AnswerFrame e u)

/-- CLAIM makes the writer the page's owner, LOCK and STICKY are the owner's, and RELEASE clears the owner and, unless
STICKY, the lock. For every writer whose access reaches a present page that it may write: a CLAIM of a page that is
free or its own leaves PATH and SESSION naming the writer, and sets LOCK and STICKY where it asks for them; on a page
of its own, LOCK takes the value written unless it would clear a sticky lock, STICKY becomes 1, and RELEASE leaves
PATH and SESSION 0 and LOCK clear unless STICKY is 1. Each answers OK, and of all registers only that OWNER word
changes. Clearing a sticky lock answers NOT_PERMITTED, and of all registers only ERR_CAPT of the page changes. (R116,
R122, R124, R131, Table 05-3) -/
def Obligations.OwnersClaimLockAndRelease : Prop :=
  ∀ (s b : State) (p : Path) (page : Nat) (lock sticky : Bool), s.WritesPage p page b →
    let a := pageBase page + hOwner
    let w := b.ownerWord page
    let sets := fun (c : Instr) (q : Word → Prop) => ∃ u w', exec c s = .next u ∧ u.regs = SMap.set regReset a w' b.regs ∧
      q w' ∧ u.out = b.out ++ [.regResult p stOK []]
    (wordGet w 12 3 = 0 ∨ b.owns p (pageBase page) = true →
      sets (.claim p page lock sticky) fun w' => wordGet w' 12 3 = Path.code p ∧ wordGet w' 0 12 = Path.session p % 4096 ∧
        w'.getLsbD 16 = (lock || w.getLsbD 16) ∧ w'.getLsbD 17 = (sticky || w.getLsbD 17)) ∧
    (wordGet w 12 3 ≠ 0 → b.owns p (pageBase page) = true →
      (lock = true ∨ w.getLsbD 17 = false ∨ w.getLsbD 16 = false →
        sets (.lock p page lock) fun w' => w'.getLsbD 16 = lock ∧ ∀ i, i ≠ 16 → w'.getLsbD i = w.getLsbD i) ∧
      (w.getLsbD 17 = true → w.getLsbD 16 = true → ∃ u, exec (.lock p page false) s = .next u ∧
        u.out = b.out ++ [.regResult p stNotPermitted []] ∧
        ∃ c, u.regs = SMap.set regReset (pageBase page + hErrCapt) c b.regs) ∧
      sets (.sticky p page) (fun w' => w'.getLsbD 17 = true ∧ ∀ i, i ≠ 17 → w'.getLsbD i = w.getLsbD i) ∧
      sets (.release p page) fun w' => wordGet w' 12 3 = 0 ∧ wordGet w' 0 12 = 0 ∧
        w'.getLsbD 17 = w.getLsbD 17 ∧ w'.getLsbD 16 = (w.getLsbD 17 && w.getLsbD 16))

/-- While a page is owned, a write from any other path or session is not permitted; debug at full unlock and clearing
events are excepted. For every access of a path that reaches a register of a present page: where another owner holds
the page, the path is not the debug port and the register is not EVT_STAT, the write answers NOT_PERMITTED and of the
page's words only ERR_CAPT may change. Where the path owns the page, or none does, or it is the debug port at full, or
it clears EVT_STAT, ownership does not refuse it: a write that the other checks allow is never refused for the owner.
An unowned page's LOCK refuses only fields that LOCK protects. (R123) -/
def Obligations.OnlyTheOwnerWritesAnOwnedPage : Prop :=
  ∀ (s b : State) (p : Path) (a : Nat) (v m : Word), s.Reaches p b → a % 4 = 0 → m ≠ 0 →
    pagePresent (addrBlock a) (addrPage a) = true →
    let base := a - addrOff a
    let owner := wordGet (b.word (base + hOwner)) 12 3
    let evt := addrOff a == hEvtStat
    b.mayWrite p (addrBlock a) evt = true →
    (owner ≠ 0 → b.owns p base = false → p ≠ .debug → evt = false →
      ∃ u, exec (.registerWrite p a v m) s = .next u ∧ u.out = b.out ++ [.regResult p stNotPermitted []] ∧
        ∃ w, u.regs = SMap.set regReset (base + hErrCapt) w b.regs) ∧
    (owner = 0 ∨ b.owns p base = true ∨ p = .debug ∨ evt = true →
      (covered a m).all (fun f => f.access == .ro || f.access == .rc) = false →
      (p = .debug ∨ (covered a m).any (fun f => f.access == .rwl) = false ∨
        (b.word (base + hOwner)).getLsbD 16 = false) → addrOff a ≠ hOwner →
      b.writeCheck p a v m = (if b.inRange8 a v m then none else some stBadField))

/-- EVT_STAT bits clear, EVT_FORCE raises its events, ERR_CLR empties ERR_CAPT, and PWR_REQ keeps the newer request. For
every access that reaches a present page: clearing EVT_STAT removes exactly the bits written, from whichever path may;
EVT_FORCE raises each event named, forced; ERR_CLR leaves ERR_CAPT 0. On a page with a domain REQ_ON sets its bit and
clears REQ_OFF, REQ_OFF the reverse and lets go of what accesses held on (that the newer request stands is the model's
choice, log entry 52); on a page without one both answer NOT_PERMITTED. Each other answers OK. 1 ms after the last
access a page's domains are no longer held on by it, and nothing else changes. (R19, R71, R118, R119, R120, R130) -/
def Obligations.EventAndPowerRequestsAreRegisterWrites : Prop :=
  ∀ (s b : State) (p : Path) (page : Nat) (bits : Word),
    let base := pageBase page
    let free := wordGet (b.ownerWord page) 12 3 = 0 ∨ b.owns p base = true
    let doms := pageDomains (page / 64) (page % 64)
    exec (.domainAccessPowerOff page) s =
      .next { s with dev := { s.dev with domAccess := s.dev.domAccess &&& ~~~(BitVec.ofNat 196 (maskOf doms)) } } ∧
    (s.Reaches p b → pagePresent (page / 64) (page % 64) = true → b.mayWrite p (page / 64) true = true → bits ≠ 0 →
      ∃ u, exec (.evtStatClear p page bits) s = .next u ∧ u.out = b.out ++ [.regResult p stOK []] ∧
        u.regs = SMap.set regReset (base + hEvtStat) (b.word (base + hEvtStat) &&& ~~~bits) b.regs) ∧
    (s.WritesPage p page b → free →
      (bits ≠ 0 → ∃ u, exec (.evtForce p page bits) s = .next u ∧
        u.regs = (b.forceEvents (page / 64) (page % 64) bits).regs ∧
        u.log = (b.forceEvents (page / 64) (page % 64) bits).log) ∧
      (∃ u, exec (.errClr p page) s = .next u ∧ u.out = b.out ++ [.regResult p stOK []] ∧
        u.regs = SMap.set regReset (base + hErrCapt) 0 b.regs) ∧
      (doms ≠ [] → ∃ u w, exec (.reqOn p page) s = .next u ∧ u.regs = SMap.set regReset (base + hPwrReq) w b.regs ∧
        w.getLsbD 0 = true ∧ w.getLsbD 1 = false ∧ ∀ i, 2 ≤ i → w.getLsbD i = (b.word (base + hPwrReq)).getLsbD i) ∧
      (doms ≠ [] → ∃ u w, exec (.reqOff p page) s = .next u ∧ u.regs = SMap.set regReset (base + hPwrReq) w b.regs ∧
        w.getLsbD 0 = false ∧ w.getLsbD 1 = true ∧ (∀ i, 2 ≤ i → w.getLsbD i = (b.word (base + hPwrReq)).getLsbD i) ∧
        u.dev.domAccess = b.dev.domAccess &&& ~~~(BitVec.ofNat 196 (maskOf doms))) ∧
      (doms = [] → ∃ u v, exec (.reqOn p page) s = .next u ∧ exec (.reqOff p page) s = .next v ∧
        u.out = b.out ++ [.regResult p stNotPermitted []] ∧ v.out = b.out ++ [.regResult p stNotPermitted []]))

/-- LOG_SEL takes its value, a pin waits for its commit or is too high, RST_CTRL resets only under its key, and other
writes apply. For every access that reaches its register, unowned or the writer's: LOG_SEL takes the value written; a
PINNED level above the highest of the firmware answers BAD_FIELD and leaves the pin, another forms a commit of exactly
that write; RST_CTRL under a key other than 0x5AFE answers BAD_FIELD, under 0x5AFE a CONTROLLER reset is under way.
Any other write whose checks pass and that touches no class C field answers OK with the register written and the
page's domains powered; one whose check fails answers that status, which ERR_CAPT captures. (R9, R96, R97, R102, R118,
R119, R127, R131, R465) -/
def Obligations.NamedRegisterWritesTakeEffect : Prop :=
  ∀ (s b : State) (p : Path) (v m : Word) (level key : BitVec 16) (a : Nat),
    (s.WritesPage p (20 * 64) b → (wordGet (b.ownerWord (20 * 64)) 12 3 = 0 ∨ b.owns p (pageBase (20 * 64)) = true) →
      ∃ u, exec (.logSelWrite p v) s = .next u ∧ u.out = b.out ++ [.regResult p stOK []] ∧
        u.regs = SMap.set regReset 0x50006C v b.regs) ∧
    (s.WritesPage p 0 b → (wordGet (b.ownerWord 0) 12 3 = 0 ∨ b.owns p 0 = true) →
      (b.rd Reg.COMPAT.MAX_LEVEL < level.toNat → ∃ u, exec (.pinnedWrite p level) s = .next u ∧
        u.out = b.out ++ [.regResult p stBadField []] ∧ u.cfg = b.cfg) ∧
      (level.toNat ≤ b.rd Reg.COMPAT.MAX_LEVEL → ∃ u, exec (.pinnedWrite p level) s = .next u ∧ u.out = b.out ∧
        u.cfg.under = [⟨.reg compatAddr (level.setWidth 32) 0xFFFF, .path p⟩] ∧ u.regs = b.regs)) ∧
    (s.WritesPage p (3 * 64) b → (wordGet (b.ownerWord (3 * 64)) 12 3 = 0 ∨ b.owns p (pageBase (3 * 64)) = true) →
      (key ≠ 0x5AFE → ∃ u, exec (.rstCtrlController p key) s = .next u ∧
        u.out = b.out ++ [.regResult p stBadField []] ∧ u.dev = b.dev) ∧
      (key = 0x5AFE → ∃ u, exec (.rstCtrlController p key) s = .next u ∧ u.dev.resetBusy = true)) ∧
    (s.Reaches p b → a ≠ 0xC0040 →
      (∀ st, b.writeCheck p a v m = some st → ∃ u, exec (.registerWrite p a v m) s = .next u ∧
        u.out = b.out ++ [.regResult p st []] ∧ u.cfg = b.cfg ∧ u.kv = b.kv ∧ u.regs = (b.refuseWrite a st).regs) ∧
      (b.writeCheck p a v m = none → m &&& classCMask a = 0 → ∃ u, exec (.registerWrite p a v m) s = .next u ∧
        u.regs = ((b.powerPage a).applyWrite p a v m).regs ∧ u.dev = ((b.powerPage a).applyWrite p a v m).dev ∧
        u.out = ((b.powerPage a).applyWrite p a v m).out ++ [.regResult p stOK []]))

/-- A register read gives the live value and clears its RC fields; the low word of a counter latches the high word for its
reader. For every read that reaches a present register its path may read, on a page that is powered: a reader that
holds no latch for the address is given the register's live value, with the register's RC fields cleared and every
other register as it was; of the low word of a 64-bit counter the high word read at that moment is latched for that
reader in place of an earlier latch. A reader that holds a latch for the address is given the latched word and gives
the latch up. A read that fails its checks answers the status and no word. (R18, R127, R128, R131) -/
def Obligations.ReadsClearAndLatch : Prop :=
  ∀ (s b : State) (p : Path) (a : Nat), s.answersRegs = true → b = s.pathArrives p → b.pathCheck p = none →
    b.powerPage a = b →
    let m := ((fieldsOf a).filter fun f => f.access == .rc).foldl (fun w f => w ||| fieldMask f.lo f.width) (0 : Word)
    let none? := b.latches.find? fun l => l.reader == p && l.addr == a
    (a % 4 = 0 → pagePresent (addrBlock a) (addrPage a) = true → b.mayRead p (addrBlock a) = true →
      (none? = none → isPairLow a = false → ∃ u, exec (.rcRead p a) s = .next u ∧
        u.out = b.out ++ [.regResult p stOK [b.live a]] ∧ u.latches = b.latches ∧
        u.regs = (if m = 0 then b.regs else SMap.set regReset a (b.word a &&& ~~~m) b.regs)) ∧
      (none? = none → isPairLow a = true → ∃ u, exec (.counterLowRead p a) s = .next u ∧
        u.out = b.out ++ [.regResult p stOK [b.live a]] ∧
        u.latches = (b.latches.filter fun x => !(x.reader == p && x.addr == a + 4)) ++ [⟨p, a + 4, b.live (a + 4)⟩]) ∧
      (∀ l, none? = some l → ∃ u, exec (.rcRead p a) s = .next u ∧ u.out = b.out ++ [.regResult p stOK [l.high]] ∧
        u.latches = b.latches.filter fun x => !(x.reader == p && x.addr == a))) ∧
    (a % 4 ≠ 0 ∨ pagePresent (addrBlock a) (addrPage a) = false → ∃ u, exec (.rcRead p a) s = .next u ∧
      u.out = b.out ++ [.regResult p stBadField []] ∧ u.regs = b.regs)

/-- An event like the newest record within 10 ms raises REPEATS and makes no record, another makes one, and notes are
never merged. For every state and implemented event: where the newest record held is of the same block, instance and
bit and was made at most 10 ms before, raising the event leaves the sequence number of the next record as it is, and
each record held is as before but that those of the newest record's number have REPEATS one higher, up to its 16-bit
limit; otherwise the next sequence number rises. A note always takes a sequence number of its own. (R464) -/
def Obligations.RepeatedEventsRaiseTheNewestRecord : Prop :=
  ∀ (s : State) (e : Event) (i st d : Nat) (f : Bool), bitOf (evtMask e.block e.inst) e.bit = true →
    (∀ r, s.log.newest = some r → r.block = e.block → r.inst = e.instNo i → r.bit = e.bit →
      s.dev.clockMs ≤ r.madeMs + 10 →
      (s.raiseWith e i f st d).log.nextSeq = s.log.nextSeq ∧
      (s.raiseWith e i f st d).log.held = s.log.held.map fun x =>
        if x.seq = r.seq then { x with repeats := min 65535 (x.repeats + 1) } else x) ∧
    ((∀ r, s.log.newest = some r → ¬ (r.block = e.block ∧ r.inst = e.instNo i ∧ r.bit = e.bit ∧
        s.dev.clockMs ≤ r.madeMs + 10)) →
      s.log.nextSeq < (s.raiseWith e i f st d).log.nextSeq) ∧
    (∀ b c, s.log.nextSeq < (s.note b c st d).log.nextSeq)

/-- Each Fegrazil MCTP request that is taken is answered under its own code, tag and byte 7, or waits for its commit or
reset. A request for another address, without a good PEC or under another enterprise number changes nothing; while one
is executed another is answered BUSY_RETRY, and one whose reserved byte is not 0 BAD_FIELD, each with that byte
repeated. For every request that the device takes: REG_READ of 1 to 64 registers is answered with the status and
registers of the read, and of another count with BAD_FIELD; REG_WRITE with the status of the check that fails, which
ERR_CAPT captures, or OK with the page powered and the register written where no class C field is touched; a fragment
of CONFIG_WRITE of a wrong index or length is BAD_FIELD and one of more than 1,024 bytes is discarded; one that leaves
the set incomplete replaces the copy of its index and is answered OK, the one that completes a valid body empties the
set and forms its commit, and of an invalid one is answered BAD_FIELD; CONFIG_FACTORY in a valid profile with a
formatted tier forms a commit, without a valid profile is BAD_FIELD, and in stalemate for cause 6 NOT_PERMITTED;
RESET_CONTROLLER puts a reset under way that answers it last, and is RESET_ABORTED while one runs; FW_STATUS is
answered with the record of Table 18-6. A set left incomplete expires, and a clock held low releases the lines. (R64,
R97, R102, R113, R114, R118, R127, R132, R133, R134, Table 05-6) -/
def Obligations.MctpRequestsAreAnsweredOnce : Prop :=
  ∀ (s b : State) (h : MctpHdr) (addr n r : Nat) (v m : Word) (bytes : Bytes),
    exec .configFragmentSetExpiry s = .next { s with cfg := { s.cfg with frags := [] } } ∧
    exec .smbusClockTimeout s = .next (s.emit .smbusReleased) ∧
    (h.addr ≠ s.smbusAddr ∨ h.pecOk = false ∨ h.enterprise ≠ 0xF6A2 → exec (.mctpFwStatus h) s = .next s) ∧
    (1012 < bytes.length → exec (.configWriteFragment h n r bytes) s = .next s) ∧
    (h.addr = s.smbusAddr → h.pecOk = true → h.enterprise = 0xF6A2 → s.answersRegs = true →
      b = s.arrive Reg.WAKE_SRC.SMBUS →
      (b.mctp.busy = true → ∃ u, exec (.mctpFwStatus h) s = .next u ∧
        u.out = b.out ++ [.mctpResponse 6 h.tag h.reserved stBusy []]) ∧
      (b.mctp.busy = false → h.reserved ≠ 0 → ∃ u, exec (.mctpFwStatus h) s = .next u ∧
        u.out = b.out ++ [.mctpResponse 6 h.tag h.reserved stBadField []])) ∧
    (s.TakesMctp h b →
      (∀ st ws s1, 1 ≤ n → n ≤ 64 → b.regRead .mctp addr n = (st, ws, s1) →
        ∃ u, exec (.mctpRegRead h addr n) s = .next u ∧ u.out = s1.out ++ [.mctpResponse 1 h.tag 0 st (wordBytes ws)] ∧
          u.latches = s1.latches ∧ u.regs = s1.regs) ∧
      (n = 0 ∨ 64 < n → ∃ u, exec (.mctpRegRead h addr n) s = .next u ∧
        u.out = b.out ++ [.mctpResponse 1 h.tag 0 stBadField []]) ∧
      (∃ u, exec (.mctpFwStatus h) s = .next u ∧ u.out = b.out ++ [.mctpResponse 6 h.tag 0 stOK b.fwStatus] ∧
        u.fw = b.fw) ∧
      (b.dev.resetBusy = false → ∃ u, exec (.mctpResetController h) s = .next u ∧ u.dev.resetBusy = true ∧
        u.dev.resetWaiter = some (.mctp h.tag 5)) ∧
      (b.dev.resetBusy = true → ∃ u, exec (.mctpResetController h) s = .next u ∧
        u.out = b.out ++ [.mctpResponse 5 h.tag 0 stResetAborted []] ∧ u.mctp.busy = false) ∧
      (bytes.length ≤ 1012 → 15 < n ∨ r ≠ 0 ∨ bytes.length ≠ 1008 →
        ∃ u, exec (.configWriteFragment h n r bytes) s = .next u ∧ u.cfg = b.cfg ∧
          u.out = b.out ++ [.mctpResponse 3 h.tag 0 stBadField []]) ∧
      (b.inStale = true ∧ b.rd Reg.STALE_STAT.REASON = 6 → ∃ u, exec (.mctpConfigFactory h) s = .next u ∧
        u.out = b.out ++ [.mctpResponse 4 h.tag 0 stNotPermitted []] ∧ u.cfg = b.cfg) ∧
      (b.inStale = false → b.dev.straps.profile = 0 ∨ b.dev.straps.profile = 3 →
        ∃ u, exec (.mctpConfigFactory h) s = .next u ∧ u.cfg = b.cfg ∧
          u.out = b.out ++ [.mctpResponse 4 h.tag 0 stBadField []]) ∧
      (b.NoCommit →
        (addr ≠ 0xC0040 →
          (∀ st, b.mctpBusy.writeCheck .mctp addr v m = some st → ∃ u, exec (.mctpRegWrite h addr v m) s = .next u ∧
            u.out = b.out ++ [.mctpResponse 2 h.tag 0 st []] ∧ u.mctp.busy = false ∧
            u.regs = (b.refuseWrite addr st).regs) ∧
          (b.mctpBusy.writeCheck .mctp addr v m = none → m &&& classCMask addr = 0 →
            ∃ u, exec (.mctpRegWrite h addr v m) s = .next u ∧ u.mctp.busy = false ∧
              u.regs = ((b.mctpBusy.powerPage addr).applyWrite .mctp addr v m).regs ∧
              u.dev = ((b.mctpBusy.powerPage addr).applyWrite .mctp addr v m).dev)) ∧
        (n ≤ 15 → bytes.length = 1008 →
          let frags := putWhere (fun (f : Nat × Bytes) => f.1 == n) (n, bytes) b.cfg.frags
          let whole := ((List.range 16).map fun i => ((frags.find? fun f => f.1 == i).map fun f => f.2).getD []).flatten
          let body := (parseBody whole).bind fun y => if b.fabric then y.joined else some y
          (frags.length ≠ 16 → ∃ u, exec (.configWriteFragment h n 0 bytes) s = .next u ∧ u.cfg.frags = frags ∧
            u.out = b.out ++ [.mctpResponse 3 h.tag 0 stOK []]) ∧
          (frags.length = 16 → body = none → ∃ u, exec (.configWriteFragment h n 0 bytes) s = .next u ∧
            u.cfg = { b.cfg with frags := [] } ∧ u.out = b.out ++ [.mctpResponse 3 h.tag 0 stBadField []]) ∧
          (∀ x, frags.length = 16 → body = some x →
            ∃ u, exec (.configWriteFragment h n 0 bytes) s = .next u ∧ u.cfg.frags = [] ∧
              u.cfg.under = [⟨.body x, .mctp h.tag 3⟩] ∧ u.mctp.busy = true)) ∧
        (b.inStale = false → b.flash.formatted = true → b.dev.straps.profile = 1 ∨ b.dev.straps.profile = 2 →
          ∃ u, exec (.mctpConfigFactory h) s = .next u ∧ u.cfg.under = [⟨.factory, .mctp h.tag 4⟩] ∧
            u.mctp.busy = true)))

/-- The device answers the MCTP control messages it supports, and any other with completion code 0x05. For every control
request at the device's address with its PEC and request bit, at a device that answers: Set Endpoint ID of an ID from
1 to 254 sets it and answers it; Get Endpoint ID answers the ID held; version and message type support are answered as
one version and one vendor type; Vendor Defined Message Support of selector 0 answers the enterprise number 0xF6A2 and
two bytes that the spec leaves open; any command not supported answers completion code 5. A request at another address
changes nothing. That the layout is DSP0236's is presumed (log entry 53). (R132) -/
def Obligations.MctpControlMessagesAreAnswered : Prop :=
  ∀ (s b : State) (c : MctpCtl) (op eid code : Nat),
    (c.addr ≠ s.smbusAddr ∨ c.pecOk = false → exec (.getEndpointId c) s = .next s) ∧
    (s.TakesControl c b →
      (op % 4 ≠ 2 → op % 4 ≠ 3 → 0 < eid → eid < 255 → ∃ u, exec (.setEndpointId c op eid) s = .next u ∧
        u.mctp = { b.mctp with eid := eid, eidSet := true } ∧
        u.out = b.out ++ [.mctpControl 1 0 [0, BitVec.ofNat 8 eid, 0]]) ∧
      (∃ u, exec (.getEndpointId c) s = .next u ∧ u.out = b.out ++ [.mctpControl 2 0 [BitVec.ofNat 8 b.mctp.eid, 0, 0]] ∧
        u.mctp = b.mctp) ∧
      (∃ u, exec (.getMctpVersionSupport c 0) s = .next u ∧
        u.out = b.out ++ [.mctpControl 4 0 [1, 0xF1, 0xF3, 0xF0, 0]] ∧ u.mctp = b.mctp) ∧
      (∃ u, exec (.getMessageTypeSupport c) s = .next u ∧ u.out = b.out ++ [.mctpControl 5 0 [1, 0x7F]] ∧
        u.mctp = b.mctp) ∧
      (∃ u v, exec (.getVendorDefinedMessageSupport c 0) s = .next u ∧ v.length = 2 ∧
        u.out = b.out ++ [.mctpControl 6 0 ([0xFF, 1] ++ beBytes 4 0xF6A2 ++ v)] ∧ u.mctp = b.mctp) ∧
      (∃ u, exec (.unsupportedControlCommand c code) s = .next u ∧ u.out = b.out ++ [.mctpControl code 5 []] ∧
        u.mctp = b.mctp))

/-- A HELLO that passes every check opens a half-open session with keys derived from both nonces; one that fails is
refused by its check. For every HELLO taken: malformed fields are refused BAD_FIELD, an empty KEY_ID slot SLOT_EMPTY,
no cipher core in service INTERNAL_ERROR; with a wrong MAC sessions, tag table and output are unchanged; with the
right MAC, a class that the session table or the slot bars is refused NOT_PERMITTED, another than recovery in
stalemate STALEMATE, with no place BUSY_RETRY, without the DRBG ENTROPY_FAULT, and no refusal opens a session.
Otherwise, once the oldest half-open sessions above the limit have ended, the lowest free session ID is opened with
the derived keys and the reply under the same key goes to the HELLO's own addresses. A refusal goes there too; on a
paused port it waits and nothing is put out. (R143, R148, R149, R150, R151, R224, Table 06-5) -/
def Obligations.HelloOpensASession : Prop :=
  ∀ (s b : State) (d : Datagram) (f : SkpFrame), s.takesUdp d = true → b = s.wake Reg.WAKE_SRC.HOST_FRAME →
    let h := helloOf f.body
    (∀ (c : State) (st : Nat), (c.refuse d st).sessions = c.sessions ∧ (c.refuse d st).cmd = c.cmd ∧
      (c.refuse d st).out = (if c.paused d.port then c.out
        else c.out ++ [.refuse (c.udpTo d.port d.srcMac d.v6 d.srcIp d.srcPort (refuseBytes st)) (refuseBytes st)])) ∧
    (helloBad f = true → exec (.hello d f) s = .next (b.refuse d stBadField)) ∧
    (helloBad f = false → b.slotKey h.keyId = none → exec (.hello d f) s = .next (b.refuse d stSlotEmpty)) ∧
    (∀ key, helloBad f = false → b.slotKey h.keyId = some key →
      let mac := cmac key (skpHeader 0x01 f.session f.seq f.ackSeq f.credit f.bodyLen ++ f.body.take 20)
      (b.noCipher = true → exec (.hello d f) s = .next (b.refuse d stInternal)) ∧
      (b.noCipher = false → mac ≠ h.mac →
        ∃ u, exec (.hello d f) s = .next u ∧ u.sessions = b.sessions ∧ u.cmd = b.cmd ∧ u.out = b.out) ∧
      (∀ bars c, b.noCipher = false → mac = h.mac → b.tableBars d h.cls = (bars, c) →
        (bars = true ∨ c.keyBars h = true → exec (.hello d f) s = .next (c.refuse d stNotPermitted)) ∧
        (bars = false → c.keyBars h = false →
          (c.inStale = true → h.cls ≠ 3 → exec (.hello d f) s = .next (c.refuse d stStalemate)) ∧
          ((c.inStale = true → h.cls = 3) →
            (4096 ≤ c.sessions.length - c.evicted.length →
              exec (.hello d f) s = .next ((c.report Ev.SKP.SESSIONS_FULL stBusy).refuse d stBusy)) ∧
            (c.sessions.length - c.evicted.length < 4096 →
              (c.drbgOk = false → exec (.hello d f) s = .next (c.refuse d stEntropy)) ∧
              (∀ t i, c.drbgOk = true → t = c.evicted.foldl (fun (x : State) j => x.endSession j) c →
                t.freeSession = some i →
                let reply := helloReply key (t.draw 16) h.nonce i (t.rd Reg.COMPAT_NOW.IN_FORCE) t.grant
                ∃ u, exec (.hello d f) s = .next u ∧
                  u.session? i = some (newSession h d f key (t.draw 16) i t.cmd.nextOrder t.grant) ∧
                  (∀ j, j ≠ i → u.session? j = t.session? j) ∧ u.cmd.tags = t.cmd.tags ∧
                  (t.paused d.port = false → u.out = t.out ++
                    [.helloReply (t.udpTo d.port d.srcMac d.v6 d.srcIp d.srcPort reply) i reply])))))))

/-- A protected frame is taken once: a repeat, a frame beyond the credit and a bad tag change no command; a whole message
is queued. For every DATA frame of a live session: a repeat or a frame below the window only makes an acknowledgement
due, one beyond the credit granted or with a bad tag leaves every session as it was, and none of the three changes a
command. One that passes, on a session that neither closes nor has used up its sequence numbers, puts a whole
well-formed command message whose tag has no message under way at the end of the receive queues, if these are not
full; a fragment that breaks its rules, or a reserved bit in the frame's SESSION, is answered BAD_FIELD and queues
nothing; one shorter than its own header is dropped (the model's choice, log entry 158). A CLOSE that passes leaves
the session closing. A frame of the last sequence number of its space ends the session. An ACK above every ACK
sequence number before it, whose tag is good, is taken: its sequence number and address are the session's; with a bad
tag it changes no session, and below them nothing. (R20, R143, R146, R152, R153, R154, R155, R158, R159, R160, R161,
Table 06-6) -/
def Obligations.ProtectedFramesAreTakenOnce : Prop :=
  ∀ (s b : State) (d : Datagram) (f : SkpFrame) (x : Session), s.takesUdp d = true → frameOk f = true →
    b = s.wake Reg.WAKE_SRC.HOST_FRAME → b.session? (sidOf f) = some x →
    let ack := gcmDec x.rxKey (x.rxSalt ++ beBytes 8 f.seq)
      (skpHeader 0x04 f.session f.seq f.ackSeq f.credit f.bodyLen) f.body f.tag
    (x.check 0x03 f = .replay → ∃ u, exec (.data d f) s = .next u ∧ u.cmd = b.cmd ∧ u.out = b.out ∧
      u.sessions = (b.setSession { x with ackDue := true }).sessions) ∧
    (x.check 0x03 f = .beyondCredit ∨ x.check 0x03 f = .badTag → ∃ u, exec (.data d f) s = .next u ∧ u.cmd = b.cmd ∧
      u.out = b.out ∧ u.sessions = b.sessions) ∧
    (∀ p, x.check 0x03 f = .body p → x.goesOn →
      let g := fragOf p
      (p.length < 16 → ∃ u, exec (.data d f) s = .next u ∧ u.cmd.queue.length = b.cmd.queue.length) ∧
      (16 ≤ p.length → (x.assembling.find? fun a => a.tag == g.tag) = none →
        (fragBad x.frag none g = true ∨ 4096 ≤ f.session → ∃ u, exec (.data d f) s = .next u ∧
          u.cmd.queue.length = b.cmd.queue.length ∧
          .completion ⟨.session (sidOf f), g.tag⟩ (doneWith stBadField 0 []) ∈ u.out) ∧
        (fragBad x.frag none g = false → f.session < 4096 → g.len = g.msgLen → b.cmd.queue.length < 16384 →
          ∃ (u : State) (q : List QueuedCmd) (c : QueuedCmd), exec (.data d f) s = .next u ∧ u.cmd.queue = q ++ [c] ∧
            q.length = b.cmd.queue.length ∧ c.tag = g.tag ∧ c.cls = x.cls ∧ c.msg = msgOf g.bytes))) ∧
    (∀ p, x.check 0x05 f = .body p →
      (x.goesOn → f.seq + 1 < 2 ^ 63 → ∃ u y, exec (.close d f) s = .next u ∧ u.session? (sidOf f) = some y ∧
        y.closing = some f.seq ∧ u.cmd.queue.length = b.cmd.queue.length) ∧
      (2 ^ 63 ≤ f.seq + 1 → ∃ u, exec (.close d f) s = .next u ∧ u.session? (sidOf f) = none)) ∧
    (f.seq ≤ x.ackHigh ∨ f.bodyLen ≠ 128 → exec (.ack d f) s = .next b) ∧
    (x.ackHigh < f.seq → f.bodyLen = 128 → ack = none → ∃ u, exec (.ack d f) s = .next u ∧
      u.sessions = b.sessions ∧ u.cmd = b.cmd ∧ u.out = b.out) ∧
    (∀ map, x.ackHigh < f.seq → f.bodyLen = 128 → ack = some map → x.goesOn → f.seq + 1 < 2 ^ 64 →
      ∃ u y, exec (.ack d f) s = .next u ∧ u.session? (sidOf f) = some y ∧ y.ackHigh = f.seq ∧ y.halfOpen = false ∧
        y.hostIp = d.srcIp ∧ y.hostPort = d.srcPort ∧ y.port = d.port ∧ u.cmd.queue.length = b.cmd.queue.length)

/-- Session timers send what is due or end their session, and touch no other session. For every live session: when the
acknowledgement delay expires with one due on a port that is not paused, the ACK frame is sent to the session's host,
and a session that closes or has used up a sequence space ends; a held frame's timer sends the same bytes again, where
the port is not paused, and after sixteen sendings ends the session; a half-open session ends at its expiry, an idle
one without tags, queued commands or frames at its own where that is enabled, one with held frames at the end of
retransmission, a closing one at its timeout. Where a session does not meet the condition the four expiries change
nothing; other sessions are unchanged by the end of one. (R146, R150, R152, R155, R156) -/
def Obligations.SessionTimersSendOrEnd : Prop :=
  ∀ (s : State) (i seq : Nat) (x : Session), s.session? i = some x →
    (x.ackDue = true → s.paused x.port = false →
      let bytes := x.frame s.grant 0x04 x.nextAckSeq x.bitmap
      (∃ u, exec (.ackDelayExpiry i) s = .next u ∧ u.cmd.queue.length = s.cmd.queue.length ∧
        u.out = s.out ++ [.ackFrame (s.toHost x bytes) i x.nextAckSeq bytes] ∧
        (x.closing ≠ none ∨ 2 ^ 63 ≤ x.nextSeq ∨ 2 ^ 64 ≤ x.nextAckSeq + 1 → u.session? i = none) ∧
        (x.closing = none → x.nextSeq < 2 ^ 63 → x.nextAckSeq + 1 < 2 ^ 64 → ∃ y, u.session? i = some y ∧
          y.nextAckSeq = x.nextAckSeq + 1 ∧ y.ackDue = false ∧ y.ackSent = x.inOrder ∧ y.creditSent = s.grant))) ∧
    (∀ h, (x.held.find? fun y => y.seq == seq) = some h →
      (h.sent < 16 → ∃ u, exec (.retransmissionTimer i seq) s = .next u ∧ u.cmd = s.cmd ∧
        u.out = if s.paused x.port then s.out else s.out ++ [.frame (s.toHost x h.bytes) i seq h.bytes]) ∧
      (16 ≤ h.sent → ∃ u, exec (.retransmissionTimer i seq) s = .next u ∧ u.session? i = none)) ∧
    (let ends : Instr → Prop := fun c => ∃ u, exec c s = .next u ∧ u.session? i = none ∧
        ∀ j, j ≠ i → u.session? j = s.session? j
     (x.halfOpen = true → ends (.halfOpenExpiry i)) ∧
     (s.rd Reg.SKP_CFG.SESSION_IDLE ≠ 0 → x.held = [] → x.outbox = [] →
       (∀ e ∈ s.cmd.tags, e.id.ctx ≠ .session i) → (∀ c ∈ s.cmd.queue, c.ctx ≠ .session i) → ends (.sessionIdle i)) ∧
     (x.held ≠ [] → ends (.retxEnd i)) ∧
     (x.closing ≠ none → ends (.closeTimeout i))) ∧
    (x.halfOpen = false → exec (.halfOpenExpiry i) s = .next s) ∧
    (s.rd Reg.SKP_CFG.SESSION_IDLE = 0 ∨ x.held ≠ [] → exec (.sessionIdle i) s = .next s) ∧
    (x.held = [] → exec (.retxEnd i) s = .next s) ∧
    (x.closing = none → exec (.closeTimeout i) s = .next s)

/-- A port answers ARP, neighbour solicitations and echo requests by itself, obeys PAUSE, and its link goes up and down.
For every frame taken while the device is not in SLEEP: an ARP request or a neighbour solicitation for the device's
own address is answered to its sender and nothing else changes; an echo request is answered with its payload and
counted, and beyond 100 in the port's second (of the device's clock: the model's choice, log entry 158) changes
nothing; an answer is put out unless the port is paused. A PAUSE with quanta obeyed holds its port, a quanta of 0
sends what waited. A port that may link comes up, one that is up goes down with its pause cleared, and a failed
negotiation leaves the ports and raises its event on every lane of the port. A fabric frame under the fabric EtherType
is routed by a gateway that it addresses, a GW_HELLO ends there, and every other is discarded with an event. (R138,
R139, R141, R144) -/
def Obligations.PortsAnswerAndLink : Prop :=
  ∀ (s : State) (d : Datagram) (payload : Bytes) (p q : Nat) (vlan : Option Nat) (mac : BitVec 48) (et : Nat)
      (eee : Bool) (f : FabFrame),
    (s.portAwake = true → s.framed d = true → s.addressed d = true →
      (d.v6 = false → exec (.arpRequest d) s = .next (s.sendOn d.port (.arpReply (s.ethTo d.port d.srcMac) d.dstIp))) ∧
      (d.v6 = true → d.extHdr = false → exec (.neighbourSolicitation d) s =
        .next (s.sendOn d.port (.neighbourAdvert (s.ethTo d.port d.srcMac) d.dstIp)))) ∧
    (∀ o, s.paused p = false → s.sendOn p o = s.emit o) ∧
    (∀ o, s.paused p = true → (s.sendOn p o).out = s.out) ∧
    (s.portAwake = true → s.takesIp d = true →
      let now := s.dev.clockMs / 1000
      let n := if (s.port d.port).echoSecond = now then (s.port d.port).echoCount else 0
      (n < 100 → exec (.echoRequest d payload) s = .next ((s.setPort d.port
        { s.port d.port with echoSecond := now, echoCount := n + 1 }).sendOn d.port
          (.echoReply (s.ipTo d.port d.srcMac d.v6 d.srcIp) payload))) ∧
      (100 ≤ n → exec (.echoRequest d payload) s = .next s)) ∧
    (s.rdB Reg.NET_PORTMODE.PAUSE_EN = true → s.portsServe p = true → 0 < q % 65536 →
      exec (.pause p q) s = .next (s.setPort p { s.port p with pauseQuanta := q % 65536 })) ∧
    (s.rdB Reg.NET_PORTMODE.PAUSE_EN = true → s.portsServe p = true → q % 65536 = 0 →
      exec (.pause p q) s = .next ((s.setPort p { s.port p with pauseQuanta := 0 }).pumpPort p)) ∧
    (s.rdB Reg.NET_PORTMODE.PAUSE_EN = false → exec (.pause p q) s = .next s) ∧
    (s.portLinks p = true → (s.port p).up = false → p < s.ports.length →
      (∃ u, exec (.linkUp ⟨p, eee⟩) s = .next u ∧ (u.port p).up = true ∧
        (u.port p).anDone = s.rdB Reg.NET_PORTMODE.AN_EN ∧
        (u.port p).eee = (s.rdB Reg.NET_PORTMODE.AN_EN && eee && s.rdB Reg.NET_PORTMODE.EEE_EN) ∧ ∀ k, k ≠ p → u.port k = s.port k) ∧
      (s.rdB Reg.NET_PORTMODE.AN_EN = true → exec (.anFail p) s = .next ((s.portLanes p).foldl
        (fun (t : State) l => t.raiseI Ev.NET_I.AN_FAIL (l + 2)) s))) ∧
    (s.portExists p = true → (s.port p).up = true → p < s.ports.length →
      ∃ u, exec (.linkDown p) s = .next u ∧ (u.port p).up = false ∧ (u.port p).pauseQuanta = 0 ∧
        ∀ k, k ≠ p → u.port k = s.port k) ∧
    (s.portsServe p = true → s.tagTaken vlan = true → et = s.rd Reg.NET_FAB.FAB_ETHERTYPE →
      let taken := s.fabric = true ∧ s.rdB Reg.NET_FAB.GATEWAY_EN = true ∧ s.ownMac mac.toNat = true ∧
        s.ingressOk .gateway f = true
      let w := { s with dev := { s.dev with routerQuiet := false } }
      (taken → f.ftype ≠ 0x11 → exec (.fabricFrameOnHostPort p vlan mac et f) s = .next (w.route .gateway 0 f)) ∧
      (taken → f.ftype = 0x11 → exec (.fabricFrameOnHostPort p vlan mac et f) s = .next (w.terminate .gateway 0 f)) ∧
      (¬ taken → exec (.fabricFrameOnHostPort p vlan mac et f) s = .next (s.raise Ev.NET.FAB_DISCARD)))

/-- The first command of the receive queues is admitted with the next ASN, or completes with the first check that fails.
For every state that admits commands and a command at the front of the receive queues, which leaves the queue: where
no check of Table 07-1 fails and no controller reset is under way, the tag table gains at its end one admitted entry
with the command, the next ASN of its series and the next admission order, the sessions stay, and only the end of a
PAUSE is put out, where the queues were full; while a controller reset is under way that entry is answered
RESET_ABORTED; where a check fails, the series and the order are unchanged, the tag table too while the command's
session goes on, and, where that session is open, the completion with that check's status is put out. A state that
does not admit is unchanged. (R161, R163, R164, R165, R97, Table 07-1) -/
def Obligations.CommandsAreAdmittedInOrder : Prop :=
  ∀ (s : State) (c : QueuedCmd) (cs : List QueuedCmd),
    (s.admits = false → exec .receiveQueueAdmission s = .next s) ∧
    (s.admits = true → s.cmd.queue = [] → exec .receiveQueueAdmission s = .next s) ∧
    (s.admits = true → s.cmd.queue = c :: cs →
      let b := { s with cmd := { s.cmd with queue := cs } }
      (b.refusal c = none → s.dev.resetBusy = false → ∃ u e, exec .receiveQueueAdmission s = .next u ∧
        u.cmd.tags = s.cmd.tags ++ [e] ∧ e.id = ⟨c.ctx, c.tag⟩ ∧ e.msg = c.msg ∧ e.cls = c.cls ∧ e.state = .admitted ∧
        e.result = none ∧ e.asn = SMap.get oneNat s.cmd.nextAsn c.msg.asnSpace ∧ e.order = s.cmd.nextOrder ∧
        u.cmd.nextOrder = s.cmd.nextOrder + 1 ∧
        u.cmd.nextAsn = SMap.set oneNat c.msg.asnSpace (e.asn + 1) s.cmd.nextAsn ∧ u.cmd.queue = cs ∧
        u.sessions = s.sessions ∧ u.out = (if cs.length = 16383 then b.pauseHosts 0 else b).out) ∧
      (b.refusal c = none → s.dev.resetBusy = true → ∃ u e, exec .receiveQueueAdmission s = .next u ∧
        e.id = ⟨c.ctx, c.tag⟩ ∧ e.msg = c.msg ∧ u.Answers e (doneWith stResetAborted e.asn []) ∧ u.cmd.queue.length = cs.length) ∧
      (∀ st p, b.refusal c = some (st, p) → ∃ u, exec .receiveQueueAdmission s = .next u ∧
        u.cmd.nextAsn = s.cmd.nextAsn ∧ u.cmd.nextOrder = s.cmd.nextOrder ∧ u.cmd.queue.length = cs.length ∧
        ((∀ i x, c.ctx = .session i → s.session? i = some x → x.goesOn ∧ x.nextSeq + x.outbox.length + 1 < 2 ^ 63) →
          u.cmd = b.cmd) ∧
        (∀ i, c.ctx = .session i → (s.session? i).isSome = true →
          .completion ⟨c.ctx, c.tag⟩ (doneWith st 0 p) ∈ u.out)))

/-- FW_OPEN opens, joins or supersedes a staging session, FW_CHUNK adds the chunk it carries, and FW_DISCARD of staging
ends it. For every such command that may run: an FW_OPEN that fails a check answers that check's status; else, with no
session, or one of another digest that a command of no data session supersedes, it answers MEDIA_ERROR on a tier that
the device cannot serve, WORN_READ_ONLY on a worn one, and else OK with the digest, length and versions given, no
chunk, and the host as a source; with a session of its digest it answers OK and keeps its chunks; with one of another
digest and no right to supersede it answers STAGING_BUSY. An FW_CHUNK whose DTAG names no session answers
PACKAGE_MISMATCH, one that fails a check that status, and any other OK with the chunk held, the session COMPLETE with
the last. FW_STATUS answers its record. FW_DISCARD of staging answers OK and leaves no session, OK_ABSENT where there
is none, and WORN_READ_ONLY on a worn tier. (R435, R436, R437, R438, R439, R440, R451) -/
def Obligations.FirmwareIsStagedInChunks : Prop :=
  ∀ (s b : State) (t : TagId) (e : TagEntry) (g : Staging) (p : Bool), b = s.begun e →
    let v := e.msg.value
    (s.Starts t 0x60 e →
      (∀ st, b.openFails e.msg = some st → ∃ u, exec (.fwOpen t) s = .next u ∧
        u.Answers e (doneWith st e.asn s.fw.progress) ∧ s.AnswerFrame e u) ∧
      (b.openFails e.msg = none →
        (s.fw.staging = none ∨ s.fw.staging = some g ∧ g.digest ≠ sliceB v 0 48 ∧ e.cls ≠ .data ∧
            e.msg.supersede = true ∧ g.func ≤ leAt v 52 4 →
          (b.noTier = true → ∃ u, exec (.fwOpen t) s = .next u ∧
            u.Answers e (doneWith stMedia e.asn s.fw.progress) ∧ s.AnswerFrame e u) ∧
          (b.noTier = false → s.flash.readOnly = true → ∃ u, exec (.fwOpen t) s = .next u ∧
            u.Answers e (doneWith stWorn e.asn s.fw.progress) ∧ s.AnswerFrame e u) ∧
          (b.noTier = false → s.flash.readOnly = false →
            ∃ u x, exec (.fwOpen t) s = .next u ∧ u.fw.staging = some x ∧ x.digest = sliceB v 0 48 ∧
              x.len = leAt v 48 4 ∧ x.func = leAt v 52 4 ∧ x.sec = leAt v 56 1 ∧ x.stage = 1 ∧ x.chunks = [] ∧
              x.fromHost = true ∧ u.Answers e (doneWith stOK e.asn u.fw.progress))) ∧
        (s.fw.staging = some g → g.digest = sliceB v 0 48 →
          ∃ u x, exec (.fwOpen t) s = .next u ∧ u.fw.staging = some x ∧ x.digest = g.digest ∧ x.len = g.len ∧
            x.stage = g.stage ∧ x.chunks = g.chunks ∧ x.fromHost = true ∧
            u.Answers e (doneWith stOK e.asn u.fw.progress)) ∧
        (s.fw.staging = some g → g.digest ≠ sliceB v 0 48 →
          ¬ (e.cls ≠ .data ∧ e.msg.supersede = true ∧ g.func ≤ leAt v 52 4) → ∃ u, exec (.fwOpen t) s = .next u ∧
            u.Answers e (doneWith stStagingBusy e.asn s.fw.progress) ∧ s.AnswerFrame e u))) ∧
    (s.Starts t 0x61 e →
      let k := beAt e.msg.param 0 4
      (s.fw.named (sliceB e.msg.param 8 4) = none → ∃ u, exec (.fwChunk t) s = .next u ∧
        u.Answers e (doneWith stPackage e.asn s.fw.progress) ∧ s.AnswerFrame e u) ∧
      (s.fw.named (sliceB e.msg.param 8 4) = some g →
        (∀ st, b.chunkFails g k (beAt e.msg.param 4 4) v = some st → ∃ u, exec (.fwChunk t) s = .next u ∧
          u.Answers e (doneWith st e.asn s.fw.progress) ∧ s.AnswerFrame e u) ∧
        (b.chunkFails g k (beAt e.msg.param 4 4) v = none →
          let held := if (g.chunks.any fun c => c.1 == k) = true then g
            else if g.chunks.length + 1 = chunkCount g.len then { g with chunks := g.chunks ++ [(k, v)], stage := 2 }
            else { g with chunks := g.chunks ++ [(k, v)] }
          ∃ u, exec (.fwChunk t) s = .next u ∧ u.fw = { s.fw with staging := some held, activating := u.fw.activating } ∧
            u.Answers e (doneWith stOK e.asn u.fw.progress)))) ∧
    (s.Starts t 0x62 e → ∃ u, exec (.fwStatus t) s = .next u ∧ u.Answers e (doneData stOK e.asn [] b.fwStatus) ∧
      s.AnswerFrame e u) ∧
    (s.Starts t 0x66 e → beAt e.msg.param 0 1 = 1 →
      (s.fw.staging = none → ∃ u, exec (.fwDiscard t p) s = .next u ∧ u.Answers e (doneWith stAbsent e.asn []) ∧
        s.AnswerFrame e u) ∧
      (s.fw.staging = some g → s.flash.readOnly = true → ∃ u, exec (.fwDiscard t p) s = .next u ∧
        u.Answers e (doneWith stWorn e.asn []) ∧ s.AnswerFrame e u) ∧
      (s.fw.staging = some g → s.flash.readOnly = false → ∃ u, exec (.fwDiscard t p) s = .next u ∧
        u.Answers e (doneWith stOK e.asn []) ∧
        u.fw = { s.fw with staging := none, activating := u.fw.activating }))

/-- A verified package stands in the slot that is not active; activation makes that slot active in TRIAL; confirmation and
castling back end the trial. For every such command that may run, with a generation to write: FW_VERIFY outside a
trial of a complete session that its DTAG names, no chunk of which fails, on a device with a hash engine, answers the
status of the first check that fails, the slots as they were, or OK with the session VERIFIED, the bytes in the slot
that is not active and that slot named in the record; where the NOR fails a step it answers MEDIA_ERROR with the
session COMPLETE; it may stand after step 6 with nothing recorded, and go on from there. FW_ACTIVATE of a VERIFIED
session waits; with every other command answered, the write buffer on media and good parts the pause makes the other
slot active in TRIAL, ends the session and answers OK; with the buffer not on media it stays paused; with bad parts in
the Edge profile the slots stay and PACKAGE_MISMATCH answers. In a trial FW_CONFIRM answers OK with the rollback fuses
at the greater of their count and the image's SEC_VERSION and the record confirmed, and may stand between the two;
FW_DISCARD and the trial's expiry castle back likewise to a runnable slot. Each record written has the next
generation. (R441, R442, R443, R444, R447, R448, R449, R450, R451, Table 18-5, Table 18-7) -/
def Obligations.FirmwareIsVerifiedAndSwapped : Prop :=
  ∀ (s : State) (t : TagId) (e : TagEntry) (g : Staging) (bad : List Nat) (p q : Bool) (k : Nat),
    let r := s.fw.record
    let next := fun (x : SlotRecord) => { x with generation := r.generation + 1 }
    let room := r.generation + 2 < 0xFFFFFFFF
    let ready := fun (w : State) => ({ w with cmd := { w.cmd with paused := true } }).drain.flushLog
    let named := fun (f : Fw) => f.image r.other = g.package ∧ f.image (1 - r.other) = s.fw.image (1 - r.other) ∧
      f.record.digest r.other = g.digest ∧ f.record.active = r.active ∧ f.record.trial = false
    (s.Starts t 0x63 e → s.fw.staging = some g → chunkCount g.len ≤ g.chunks.length → r.trial = false → room →
      sliceB g.digest 0 4 = sliceB e.msg.param 0 4 →
      (g.stage ≠ 3 → (∀ c ∈ g.chunks, c.1 ∉ bad) →
        (s.noHash = true → ∃ u, exec (.fwVerify t bad ⟨none, none⟩) s = .next u ∧ u.fw.staging = some g ∧
          u.Answers e (doneWith stInternal e.asn (beBytes 2 u.fw.firstMissing))) ∧
        (s.noHash = false → match s.packageFails g g.package with
          | none =>
            (∃ u, exec (.fwVerify t bad ⟨none, none⟩) s = .next u ∧ named u.fw ∧ u.fw.lastVerify = stOK ∧
              u.fw.staging = some { g with stage := 4, vstep := 0 } ∧
              u.Answers e (doneWith stOK e.asn (beBytes 2 u.fw.firstMissing))) ∧
            (∃ u, exec (.fwVerify t bad ⟨none, some 6⟩) s = .next u ∧ u.entry? t = some e.started ∧
              u.fw = { s.fw with staging := some { g with stage := 3, vstep := 6 } }) ∧
            (7 ≤ k → k ≤ 9 → ∃ u, exec (.fwVerify t bad ⟨some k, none⟩) s = .next u ∧ u.fw.lastVerify = stMedia ∧
              u.fw.staging = some { g with stage := 2, vstep := 0 } ∧
              u.Answers e (doneWith stMedia e.asn (beBytes 2 u.fw.firstMissing)))
          | some st => ∃ u, exec (.fwVerify t bad ⟨none, none⟩) s = .next u ∧
            u.fw = { s.fw with staging := some { g with stage := 2 }, lastVerify := st, activating := u.fw.activating } ∧
            u.Answers e (doneWith st e.asn (beBytes 2 u.fw.firstMissing)))) ∧
      (g.stage = 3 → g.vstep = 6 → ∃ u, exec (.fwVerify t bad ⟨none, none⟩) s = .next u ∧ named u.fw ∧
        u.fw.staging = some { g with stage := 4, vstep := 0 } ∧
        u.Answers e (doneWith stOK e.asn (beBytes 2 u.fw.firstMissing)))) ∧
    (s.Starts t 0x64 e → s.fw.staging = some g → g.stage = 4 → sliceB g.digest 0 4 = sliceB e.msg.param 0 4 →
      r.trial = false → s.fw.activating = none → ∃ u, exec (.fwActivate t) s = .next u ∧
        u.fw = { s.fw with activating := some t } ∧ u.entry? t = some e.started) ∧
    (s.fw.activating = some t → s.entry? t = some e → s.dev.phase = .service → s.AllAnswered (some t) →
      ((ready s).drained = false → exec (.activationPause p) s = .next (ready s)) ∧
      ((ready s).drained = true →
        (room → ∃ u, exec (.activationPause true) s = .next u ∧ u.fw.record = next r.castled ∧ u.fw.staging = none ∧
          u.fw.activating = none ∧ u.cmd.paused = false ∧ u.Answers e (doneWith stOK e.asn [])) ∧
        (s.fabric = false → ∃ u, exec (.activationPause false) s = .next u ∧ u.fw = { s.fw with activating := none } ∧
          u.cmd.paused = false ∧ u.Answers e (doneWith stPackage e.asn [])))) ∧
    (s.Starts t 0x65 e → r.trial = true →
      let blown := { s.key.fuses with rollback := max s.key.fuses.rollback (r.sec r.active) }
      (room → ∃ u, exec (.fwConfirm t ⟨true, false⟩) s = .next u ∧ u.key.fuses = blown ∧
        u.fw.record = next r.confirmed ∧ u.Answers e (doneWith stOK e.asn (beBytes 1 u.key.fuses.rollback))) ∧
      (∃ u, exec (.fwConfirm t ⟨true, true⟩) s = .next u ∧ u.key.fuses = blown ∧ u.fw.record = r ∧
        u.entry? t = some e.started) ∧
      (s.key.fuses.rollback < r.sec r.active → ∃ u, exec (.fwConfirm t ⟨false, p⟩) s = .next u ∧ u.fw.record = r ∧
        u.key.fuses.rollback < r.sec r.active ∧ u.Answers e (doneWith stInternal e.asn []))) ∧
    (s.Starts t 0x65 e → r.trial = false → ∃ u, exec (.fwConfirm t ⟨p, q⟩) s = .next u ∧
      u.Answers e (doneWith stNotPermitted e.asn []) ∧ s.AnswerFrame e u) ∧
    (r.trial = true → s.slotAllowed r r.other = true → room →
      (s.Starts t 0x66 e → beAt e.msg.param 0 1 ≠ 1 → s.AllAnswered (some t) → (ready (s.begun e)).drained = true →
        ∃ u, exec (.fwDiscard t true) s = .next u ∧ u.fw.record = next r.castledBack ∧ u.cmd.paused = false ∧
          u.Answers e (doneWith stOK e.asn [])) ∧
      (s.dev.phase = .service → s.AllAnswered none → (ready s).drained = true →
        ∃ u, exec (.trialExpiry true) s = .next u ∧ u.fw.record = next r.castledBack ∧ u.cmd.paused = false)) ∧
    (r.trial = true → s.powered = true →
      exec .trialSeconds s = .next { s with fw := s.fw.put { r with trialSeconds := r.trialSeconds + 3600 } })

/-- FAB_QUERY of another device and FAB_FORWARD send one request and wait; FAB_MIRROR_SET keeps the sets; RESET_CONTROLLER
answers last. For every such command that may run: FAB_QUERY of the device itself answers its state; of another
device, and FAB_FORWARD, with no request of its own outstanding and a route, sends one request under the next MSG_ID,
whose frames wait for the router, and stays executing; without a route it answers UNREACHABLE. A DEFINE of an unused
ID with one to three different other members answers OK and adds the set; a DELETE of a set that no namespace or
classifier entry names answers OK and removes it, of one that a namespace names NOT_PERMITTED; a BIND to a set whose
members can be reached and all accept answers OK with the namespace bound, where one refuses MIRROR_FAILED and where
one is unreachable UNREACHABLE, the binding as it was; a BIND to 0xFFFF unbinds it. RESET_CONTROLLER while a
controller reset runs answers RESET_ABORTED; otherwise it puts one under way, which answers it when it ends. (R423,
R424, R425, R426, R97, R412, R416, Table 17-4) -/
def Obligations.FabricCommandsAskTheFabric : Prop :=
  ∀ (s b : State) (t : TagId) (e : TagEntry) (n : Ns), b = s.begun e →
    let p := e.msg.param
    let id := beAt p 2 2
    let asks := fun (c : Instr) (dst ftype : Nat) (body : FabPayload) =>
      (s.fab.outMsgs.any fun o => o.tag == some t) = false →
      (b.noRoute dst = false →
        let fs := (b.makeFrames ⟨dst, ftype, none, Config.fabFlow dst 0⟩ (payloadBytes body)).1
        ∃ u, exec c s = .next u ∧ u.entry? t = some e.started ∧ u.out = s.out ∧
          u.fab = { s.fab with nextMsg := s.fab.nextMsg + 1, inject := s.fab.inject ++ fs.map fun f => (none, f)
                               outMsgs := s.fab.outMsgs ++ [⟨s.fab.nextMsg, dst, ftype, body, fs, none, 0, some t, 0, 0⟩] }) ∧
      (b.noRoute dst = true → ∃ u, exec c s = .next u ∧ u.Answers e (doneWith stUnreachable e.asn []) ∧ s.AnswerFrame e u)
    (s.Starts t 0x70 e → (beAt p 0 1 = 0 → ∃ u, exec (.fabQuery t) s = .next u ∧
        u.Answers e (doneData stOK e.asn [] b.fabState) ∧ s.AnswerFrame e u) ∧
      (beAt p 0 1 ≠ 0 → asks (.fabQuery t) (beAt p 1 2) 0x05 .query)) ∧
    (s.Starts t 0x72 e → asks (.fabForward t) (beAt p 0 2) 0x03 (.bytes e.msg.value)) ∧
    (s.Starts t 0x71 e → s.flash.readOnly = false →
      (beAt p 0 1 = 1 → 0 < id → id ≤ 65534 → (s.fab.sets.any fun x => x.1 == id) = false → 1 ≤ beAt p 4 1 →
        beAt p 4 1 ≤ 3 → e.msg.value.length = 2 * beAt p 4 1 → s.fab.addr ∉ setMembers e.msg →
        (setMembers e.msg).Nodup → s.fab.sets.length < 256 → ∃ u, exec (.fabMirrorSet t false false) s = .next u ∧
          u.fab.sets = s.fab.sets ++ [(id, bitOf (beAt p 1 1) 0, setMembers e.msg)] ∧
          u.Answers e (doneWith stOK e.asn [])) ∧
      (beAt p 0 1 = 2 → (s.fab.sets.any fun x => x.1 == id) = true → e.msg.value = [] →
        ((s.kv.namespaces.any fun x => x.mirrorSet == some id) = true → ∃ u,
          exec (.fabMirrorSet t false false) s = .next u ∧ u.Answers e (doneWith stNotPermitted e.asn []) ∧
          s.AnswerFrame e u) ∧
        ((s.kv.namespaces.any fun x => x.mirrorSet == some id) = false →
          (∀ x ∈ s.table 2, ∀ c, x.2 = some c → bitsOf c.data 16 16 ≠ id) → ∃ u,
          exec (.fabMirrorSet t false false) s = .next u ∧ u.Answers e (doneWith stOK e.asn []) ∧
          u.fab.sets = s.fab.sets.filter fun x => x.1 != id)) ∧
      (∀ x, beAt p 0 1 = 3 → id ≠ 0xFFFF → e.msg.value = [] → s.ns? e.msg.nsid = some n →
        (s.fab.sets.find? fun y => y.1 == id) = some x → (∀ a ∈ x.2.2, s.noRoute a = false) →
        (∃ u y, exec (.fabMirrorSet t false false) s = .next u ∧ u.ns? n.nsid = some y ∧ y.mirrorSet = some id ∧
          u.Answers e (doneWith stOK e.asn [])) ∧
        (∃ u y, exec (.fabMirrorSet t true false) s = .next u ∧ u.ns? n.nsid = some y ∧ y.mirrorSet = n.mirrorSet ∧
          u.Answers e (doneWith stMirrorFailed e.asn [])) ∧
        (∃ u y, exec (.fabMirrorSet t false true) s = .next u ∧ u.ns? n.nsid = some y ∧ y.mirrorSet = n.mirrorSet ∧
          u.Answers e (doneWith stUnreachable e.asn []))) ∧
      (beAt p 0 1 = 3 → id = 0xFFFF → e.msg.value = [] → s.ns? e.msg.nsid = some n →
        ∃ u y, exec (.fabMirrorSet t false false) s = .next u ∧ u.ns? n.nsid = some y ∧ y.mirrorSet = none ∧
          u.Answers e (doneWith stOK e.asn []))) ∧
    (s.Starts t 0x45 e →
      (s.dev.resetBusy = true → ∃ u, exec (.resetController t) s = .next u ∧
        u.Answers e (doneWith stResetAborted e.asn []) ∧ s.AnswerFrame e u) ∧
      (s.dev.resetBusy = false → ∃ u x, exec (.resetController t) s = .next u ∧ u.dev.resetBusy = true ∧
        u.dev.resetWaiter = some (.tag x) ∧ x.tag = t.tag))

/-- A POR, RESET_N, a watchdog and rail sequences lead to the start of their kind with every session, tag and live key
gone. For every such event: a POR whose rails come up, in their order, leaves a cold start of kind POR about to run,
and one whose sequence fails, like a rail fault at a start about to run, the wait after a failure. A recognised
RESET_N pulse or a watchdog that runs, on a powered device that has not failed a rail sequence, leaves a warm start of
its kind about to run with no session, tag, queued command or live key; RESET_N does so from HIBERNATE too, and after
three failures it begins a new sequence. A pulse shorter than 50 us changes nothing. A retry begins a cold start of
kind RAIL_FAILED or fails once more, and none is made after three failures. (R51, R94, R97, R98, R99, R100, R485,
Table 04-5) -/
def Obligations.ResetsLeadToAStart : Prop :=
  ∀ (s : State) (ns core step n : Nat) (d : Bool),
    let resets := fun (c : Instr) (k : StartKind) => ∃ u, exec c s = .next u ∧ u.dev.phase = .starting false ∧
      u.dev.kind = k ∧ u.sessions = [] ∧ u.cmd.tags = [] ∧ u.cmd.queue = [] ∧ u.key.slots = []
    let raised : List Output := [.rails true false false, .rails true true false, .rails true true true]
    (∃ u l, exec (.por .allGood) s = .next u ∧ u.dev.phase = .starting true ∧ u.dev.kind = .por ∧ u.out = l ++ raised) ∧
    (∃ u m, exec (.por (.missed step)) s = .next u ∧ u.dev.phase = .railFault m ∧ u.dev.kind = .railFailed) ∧
    (100000 ≤ ns → s.powered = true → (∀ c, s.dev.phase = .starting c → s.dev.kind ≠ .railFailed) →
      resets (.pin ns d) .pin) ∧
    (100000 ≤ ns → s.dev.phase = .hibernate → resets (.pin ns d) .pin) ∧
    (100000 ≤ ns → s.dev.phase = .railFault n → 3 ≤ n → ∃ u, exec (.pin ns d) s = .next u ∧
      u.dev.phase = .starting true ∧ u.dev.railsFailed = 0 ∧ u.out = s.out ++ raised) ∧
    (ns < 50000 → exec (.pin ns d) s = .next s) ∧
    (s.watchdogOn = true → core < 8 → (s.dbg.cores.any fun c => c.id == core && c.halted) = false →
      (∀ c, s.dev.phase = .starting c → s.dev.kind ≠ .railFailed) → resets (.watchdog core d) .watchdog) ∧
    (∀ c, s.dev.phase = .starting c → 3 ≤ step → step ≤ 5 → ∃ u, exec (.railFault step) s = .next u ∧
      u.dev.phase = .railFault (s.dev.railsFailed + 1) ∧ u.key = s.key ∧ u.kv = s.kv ∧ u.flash = s.flash) ∧
    (s.dev.phase = .railFault n →
      (n < 3 → (∃ u, exec (.railRetry .allGood) s = .next u ∧ u.dev.phase = .starting true ∧ u.dev.kind = .railFailed) ∧
        ∃ u, exec (.railRetry (.missed step)) s = .next u ∧ u.dev.phase = .railFault (s.dev.railsFailed + 1)) ∧
      (3 ≤ n → ∀ r, exec (.railRetry r) s = .next s))

/-- A start ends in service, in stalemate for its cause, or in the boot ROM, and blows the fuses of a pending kill. For
every device at a cold or a warm start about to run, and for one whose CONTROLLER reset has run its steps, and every
findings: with TEST_MODE high it ends in the test mode; where the SFDP or the loader fails, or no slot is runnable, in
the boot ROM's wait; otherwise, where the record, the hardware, the self-test and the fuses show a cause of stalemate,
in stalemate; else in service, or in the drained state under way where PWRFAIL_N is low. In every case a pending kill
has blown KILL and the root's erasure. The end of a CONTROLLER reset answers the MCTP request, or the command of a
live session, that asked for it. (R53, R63, R96, R110, R111, R377, R448, Table 04-2, Table 04-10) -/
def Obligations.StartsEndInServiceOrStalemate : Prop :=
  ∀ (s : State) (f : StartFindings),
    let ends := fun (c : Instr) (b : State) (cold : Bool) => ∃ u, exec c s = .next u ∧
      (s.key.killPending = true → u.key.fuses.kill = true ∧ u.key.fuses.rootGone = true) ∧
      (f.straps.testMode = true → u.dev.phase = .testMode) ∧
      (f.straps.testMode = false →
        (f.sfdpOk = false ∨ f.loaderOk = false → u.dev.phase = .bootWait) ∧
        (f.sfdpOk = true → f.loaderOk = true →
          (((b.strapped cold f).measured cold).booted cold f = none → u.dev.phase = .bootWait) ∧
          (∀ m, ((b.strapped cold f).measured cold).booted cold f = some m →
            ((m.prepared cold f).staleCause.isSome = true → u.dev.phase = .stalemate) ∧
            ((m.prepared cold f).staleCause = none →
              u.dev.phase = if s.dev.pwrfailLow then .drained false else .service))))
    (s.dev.phase = .starting true → ends (.coldStart f) s true ∧ exec (.warmStart f) s = .next s) ∧
    (s.dev.phase = .starting false → ends (.warmStart f) s false ∧ exec (.coldStart f) s = .next s) ∧
    (s.dev.phase = .service ∨ s.dev.phase = .stalemate → s.dev.resetBusy = true →
      ends (.warmStart f) (s.endController.beginReset .controller 0 0) false) ∧
    (s.dev.phase = .service → s.dev.resetBusy = false →
      exec (.warmStart f) s = .next s ∧ exec (.coldStart f) s = .next s) ∧
    (s.dev.phase = .service ∨ s.dev.phase = .stalemate → s.dev.resetBusy = true →
      (∀ tag code, s.dev.resetWaiter = some (.mctp tag code) → ∃ u, exec (.warmStart f) s = .next u ∧
        .mctpResponse code tag 0 stOK [] ∈ u.out) ∧
      (∀ t e i, s.dev.resetWaiter = some (.tag t) → s.entry? t = some e → t.ctx = .session i →
        (s.session? i).isSome = true → ∃ u, exec (.warmStart f) s = .next u ∧
        .completion t (doneWith stOK e.asn []) ∈ u.out))

/-- PWRFAIL_N stops service and parks every head, the drain ends it, and the device resumes 100 ms after the rise or loses
its power. For every such event: a recognised low of PWRFAIL_N in service or stalemate leaves the drained state under
way with every head inhibited, and one shorter than 500 ns changes nothing. DRAIN_COMPLETE completes it, with the
drain-complete marker in the reserve and the directory in SRAM sealed. A rise starts the count of 100 ms, which
resumes the state before, in ACTIVE, where no core is halted and the pins are not held, or begins a cold start where
the rails were lost; it resumes nothing while PWRFAIL_N is low. A loss of the switched rails after a completed drain
lowers the enables in reverse order with no session left, and at any other powered time is a voltage alarm. A loss of
always-on power keeps vault and fuses, and no session, tag or live key. (R85, R99, R100, R60, Table 03-10) -/
def Obligations.PowerLossDrainsAndResumes : Prop :=
  ∀ (s : State) (ns : Nat) (d : Bool),
    (2000 ≤ ns → s.dev.phase = .service ∨ s.dev.phase = .stalemate → ∃ u, exec (.pwrfail ns) s = .next u ∧
      u.dev.phase = .drained false ∧ u.dev.pwrfailLow = true ∧ u.dev.entering = none ∧ u.dev.spinning = false ∧
      u.cmd = s.cmd ∧ ∀ h ∈ u.srv.heads, h.inhibit = true ∧ h.writing = false) ∧
    (ns < 500 → exec (.pwrfail ns) s = .next s) ∧
    (s.dev.phase = .drained false → ∃ u, exec .drainComplete s = .next u ∧ u.dev.phase = .drained true ∧
      u.flash.drainMark = true ∧ u.kv.sramSeal = some u.sealDir) ∧
    (s.dev.phase ≠ .drained false → exec .drainComplete s = .next s) ∧
    (∃ u, exec .pwrfailNRise s = .next u ∧ u = { s with dev := u.dev } ∧ u.dev.pwrfailLow = false ∧
      (∀ c, s.dev.phase = .drained c → u.dev.riseCounting = true)) ∧
    (s.dev.pwrfailLow = true → exec .pwrfailResume s = .next s) ∧
    (s.dev.pwrfailLow = false → s.dev.riseCounting = true →
      (s.dev.phase = .drained true → s.dev.pinsHeld = false → (s.dbg.cores.any fun c => c.halted) = false →
        ∃ u, exec .pwrfailResume s = .next u ∧ u.dev.power = .active ∧ u.dev.enterTags = [] ∧ u.flash.drainMark = false ∧
          u.dev.phase = (if s.rdB Reg.STALE_STAT.ACTIVE then .stalemate else .service)) ∧
      (s.dev.phase = .railsLost → ∃ u, exec .pwrfailResume s = .next u ∧ u.dev.phase = .starting true ∧
        u.out = s.out ++ [.rails true false false, .rails true true false, .rails true true true])) ∧
    (s.dev.phase = .drained true → s.dev.pwrfailLow = true → ∃ u l, exec (.switchedRailLoss d) s = .next u ∧
      u.out = l ++ [.rails true true false, .rails true false false, .rails false false false] ∧
      u.dev.phase = .railsLost ∧ u.dev.kind = .railLoss ∧ u.sessions = [] ∧ u.srv.disk = 0 ∧
      u.key.envCount = s.key.envCount) ∧
    (s.powered = true → ¬ (s.dev.phase = .drained true ∧ s.dev.pwrfailLow = true) →
      ∃ u, exec (.switchedRailLoss d) s = .next u ∧ u.dev.phase = .starting true ∧ u.dev.kind = .alarm ∧
        u.key.slots = [] ∧ u.key.envCount = min 16 (s.key.envCount + 1)) ∧
    (s.dev.phase ≠ .unpowered → ∃ u, exec .alwaysOnPowerLoss s = .next u ∧ u.dev.phase = .unpowered ∧ u.sessions = [] ∧
      u.cmd.tags = [] ∧ u.key.slots = [] ∧ u.key.vault = s.key.vault ∧ u.key.fuses = s.key.fuses) ∧
    (s.dev.phase = .unpowered → exec .alwaysOnPowerLoss s = .next s)

/-- Every alarm of a powered device erases the live keys and the DRBG and begins an ALARM start; the shield and the
sixteenth are intrusions. For every powered device: a clock, temperature or voltage alarm leaves an ALARM cold start
about to run, with no live key and the DRBG not running, the environmental count one higher up to 16, its source the
alarm's own, or 5 with the kill pending where the count reaches 16. A shield alarm is of source 4 with the kill
pending; with the rails down it only sets the kill pending. A voltage beyond an absolute maximum stops the machine
(R47 gives no behaviour). After 24 hours the count falls by one. (R374, R375, R376, R377, R47, Table 04-5) -/
def Obligations.AlarmsEraseTheKeys : Prop :=
  ∀ (s : State) (d : Bool), s.powered = true →
    let erased := fun (c : Instr) (src : Nat) (kill : Bool) => ∃ u, exec c s = .next u ∧ u.dev.phase = .starting true ∧
      u.dev.kind = .alarm ∧ u.dev.alarmSrc = src ∧ u.key.slots = [] ∧ u.cry.drbg = 0 ∧ u.key.killPending = kill ∧
      u.sessions = [] ∧ u.key.envCount = if src = 4 then s.key.envCount else min 16 (s.key.envCount + 1)
    let env := fun (c : Instr) (src : Nat) =>
      (s.key.envCount ≠ 15 → erased c src s.key.killPending) ∧ (s.key.envCount = 15 → erased c 5 true)
    env (.clockAlarm d) 2 ∧ env (.temperatureAlarm d) 3 ∧
    (¬ (s.dev.phase = .drained true ∧ s.dev.pwrfailLow = true) → env (.voltageAlarm false d) 1) ∧
    erased (.shieldAlarm d) 4 true ∧
    (∀ t : State, t.powered = false → t.dev.phase ≠ .unpowered →
      exec (.shieldAlarm d) t = .next { t with key := { t.key with killPending := true } }) ∧
    exec (.voltageAlarm true d) s = .fault .beyondAbsoluteMaximum ∧
    exec .envCountDecrement s =
      .next { s with key := { s.key with envCount := s.key.envCount - 1, envHours := 0 } }

/-- Temperatures move THERM_N and the thermal limit, estimates the throttle, lost references the links, and time the hours
and the log. For every reading: THERM_N is asserted at 110 C or above, released at 100 C or below and held between. On
a powered device the limit falls by 1 W, not below 8 W, at 105 C, and rises by 1 W, not above 34 W, at 100 C or below.
An estimate above the effective cap takes the first throttle step at once; one at the cap with no step taken only
updates the averages. A lost reference takes every host port down, and both references' loss and return are noted. A
powered hour adds one to each count. Saving device time keeps it; a log flush moves the buffer to the last 65,536
records of flash. (R54, R68, R83, R84, R392, R463, R466, R482) -/
def Obligations.SensorsMoveLimitsAndPins : Prop :=
  ∀ (s : State) (h : Int) (n est est1 est100 : Nat),
    let hot := fun (c : Instr) => ∃ u, exec c s = .next u ∧ u.dev.hottest = h ∧
      (110 ≤ h → u.dev.thermN = true) ∧ (h ≤ 100 → u.dev.thermN = false) ∧
      (100 < h → h < 110 → u.dev.thermN = s.dev.thermN)
    let t := (s.wr Reg.PWR_EST.EST1 (min 511 est1)).wr Reg.PWR_EST.EST100 (min 511 est100)
    hot (.thermN h) ∧ hot (.tempWarn h n) ∧
    (s.powered = true →
      (105 ≤ s.dev.hottest → ∃ u, exec .thermalLimitFall s = .next u ∧
        u.dev = { s.dev with thermalLimit := max 80 (s.dev.thermalLimit - 10) }) ∧
      (s.dev.hottest ≤ 100 → exec .thermalLimitRise s =
        .next { s with dev := { s.dev with thermalLimit := min 340 (s.dev.thermalLimit + 10) } }) ∧
      (s.dev.phase = .service → t.rd Reg.PWR_CAP.THROTTLE = 0 → exec (.powerEstimate est est1 est100) s =
        .next (if s.effCap < est then t.wr Reg.PWR_CAP.THROTTLE 1 else t)) ∧
      (s.dev.refSdLost = false → ∃ u, exec .refclkSdLost s = .next u ∧ u.dev.refSdLost = true ∧
        ∀ p, p < 8 → (u.port p).up = false) ∧
      (s.dev.crystalFail = false → exec .crystalFail s =
        .next ({ s with dev := { s.dev with crystalFail := true } }.raise Ev.PWR.CRYSTAL_FAIL)) ∧
      (∃ u, exec .poweredHour s = .next u ∧ u.key = { s.key with envHours := min 23 (s.key.envHours + 1) } ∧
        u.sea = { s.sea with advHours := s.sea.advHours + 1 })) ∧
    exec .refclkSdRestored s = .next { s with dev := { s.dev with refSdLost := false } } ∧
    exec .crystalReturn s = .next { s with dev := { s.dev with crystalFail := false } } ∧
    (s.dev.phase = .service → s.flash.mounted = true →
      (s.Works .upkeep false → ∃ u, exec .deviceTimeSave s = .next u ∧
        u.sea = { s.sea with saved := s.sea.time, savedAdv := s.sea.advHours }) ∧
      (s.log.buffer ≠ [] → s.flash.readOnly = false → s.log.flash.length + s.log.buffer.length ≤ 65536 →
        ∃ u, exec .logFlush s = .next u ∧ u.log = { s.log with flash := s.log.flash ++ s.log.buffer, buffer := [] }))

/-- A wake ends every low-power state and entry, the timers enter them, and a ballast test tells whether buffering may be
allowed. For every such event: WAKE_N held 100 us and the wake timer reverse an entry or wake a device from IDLE,
STANDBY or SLEEP to ACTIVE, and begin a warm start from HIBERNATE; a shorter pulse than 50 us changes nothing. A
restful ACTIVE device goes IDLE. An expiry of STANDBY_AFTER or SLEEP_AFTER that runs to its end puts the device in
that state, the latter where nothing is outstanding and the buffer is empty. The router island goes quiet in SLEEP
with QUIET sent on its trained links. A ballast test that is charged asserts and releases BALLAST_LOAD; one that is
not charged or sees too small a drop fails; one without samples passes just when the energy reaches EREQ. A sample is
the newest of the last three. (R72, R73, R79, R82, R86, R87, R90) -/
def Obligations.WakesTimersAndBallast : Prop :=
  ∀ (s : State) (ns v1 v2 code : Nat) (q : Bool),
    let wakes := fun (c : Instr) =>
      (s.dev.phase = .service → s.dev.entering ≠ none ∨ s.dev.power = .idle ∨ s.dev.power = .standby ∨
          s.dev.power = .sleep → ∃ u, exec c s = .next u ∧ u.dev.power = .active ∧ u.dev.entering = none) ∧
      (s.dev.phase = .hibernate → ∃ u, exec c s = .next u ∧ u.dev.phase = .starting false ∧
        u.dev.kind = .hibernateExit)
    let tests := fun (c : Instr) => ∃ u l, exec c s = .next u ∧
      (q = true → u.out = s.out ++ [.ballastLoad true, .ballastLoad false] ++ l) ∧
      (q = false ∨ v1 < v2 + 256 → u.dev.ballastPassed = false) ∧
      (q = true → v2 + 256 ≤ v1 → s.dev.ballastCodes = [] →
        let e := ballastEnergy v1 v2 (s.rd Reg.BAL_CFG0.RLOAD) (s.rd Reg.BAL_CFG0.DIV) (s.rd Reg.BAL_CFG1.VMIN)
        u.dev.ballastPassed = decide (((s.rd Reg.BAL_CFG1.EREQ * e.2 : Nat) : Int) ≤ e.1))
    (100000 ≤ ns → wakes (.wakeN ns)) ∧ wakes .wakeTimer ∧ (ns < 50000 → exec (.wakeN ns) s = .next s) ∧
    (s.dev.phase = .service →
      (s.dev.power = .active → s.dev.entering = none → s.restful = true →
        exec .idle s = .next { s with dev := { s.dev with power := .idle } }) ∧
      (s.rd Reg.PWR_TIMERS.STANDBY_AFTER ≠ 0 → s.rd Reg.PWR_TIMERS.SLEEP_AFTER = 0 →
        s.dev.power = .active ∨ s.dev.power = .idle → s.dev.entering = none →
        ∃ u, exec (.standbyAfter false) s = .next u ∧ u.dev.power = .standby ∧ u.dev.entering = none) ∧
      (s.rd Reg.PWR_TIMERS.SLEEP_AFTER ≠ 0 → s.dev.power ≠ .sleep → s.dev.entering = none →
        (∃ u, exec (.sleepAfter true) s = .next u ∧ u.dev.entering = some .sleep ∧ u.dev.power = s.dev.power) ∧
        (s.cmd.queue = [] → s.AllAnswered none → s.drained = true →
          ∃ u, exec (.sleepAfter false) s = .next u ∧ u.dev.power = .sleep ∧ u.dev.entering = none)) ∧
      (s.fabric = true → s.dev.power = .sleep → s.dev.routerQuiet = false → ∃ u, exec .routerIslandQuiet s = .next u ∧
        u.dev = { s.dev with routerQuiet := true } ∧
        u.out = s.out ++ (s.fab.links.filter fun l => l.trained).map fun l =>
          .lineFlit l.id (ctlFlit .quiet ((s.link l.id).expect + 255) 0 0 [])) ∧
      (s.ballastFitted = true →
        (s.rdB Reg.BAL_STAT.TESTED = false → tests (.ballastTest q v1 v2)) ∧
        (s.rdB Reg.BAL_STAT.TESTED = true → s.bufferedOk = false → s.drained = true → tests (.ballastRetest q v1 v2)))) ∧
    (s.serving = true → ∃ u, exec (.ballastSample code) s = .next u ∧
      u.dev.ballastCodes = (min 1023 code :: s.dev.ballastCodes).take 3)

/-- No background work or failure of the flash tier loses a mapped unit, and each does its own part. For every flash tier
at work: a checkpoint replaces only its own older copy, keeps the read counts of its blocks and trims the journal no
further than its end; collection with enough free blocks moves nothing, and collection, promotion and levelling that
move units leave every mapped unit mapped, and so do refresh, erases, failed programs and erases, and lost dies and
channels. A refreshed block is queued no more; a patrol notes its day; a stale block that no restored map needs gains
one erase, with its journal record, or is retired where the erase fails; a die is lost once, a channel leaves service;
a retraining notes its temperature, and takes the channel out of service where no rate passes. A block whose erase
failed is retired. (R268, R271, R272, R273, R274, R278, R280, R281, R282, R275, Table 11-7) -/
def Obligations.FlashWorkLosesNoUnit : Prop :=
  ∀ (s : State) (b ch die : Nat) (bad rates : List Nat) (reads : List (Nat × ReadResult)) (temp : Int),
    let keeps := fun (c : Instr) (q : State → Prop) => ∃ u, exec c s = .next u ∧ s.flash.KeepsUnits u.flash ∧ q u
    (s.Works .upkeep false →
      (∃ u, exec .checkpoint s = .next u ∧
        (∀ e ∈ s.flash.map, (∀ x ∈ s.flash.system, x.obj = .checkpoint → e.lmu ∉ x.lmus) →
          ∃ d ∈ u.flash.map, d.lmu = e.lmu) ∧
        s.flash.trimmed ≤ u.flash.trimmed ∧ u.flash.trimmed ≤ max s.flash.trimmed u.flash.journalSeq ∧
        u.flash.ckptReads = ((u.flash.blocks.filter fun x => x.reads != 0).map fun x => (x.id, x.reads)) ∧
        u.kv.namespaces = s.kv.namespaces ∧ u.kv.extents = s.kv.extents) ∧
      keeps (.patrol reads) (fun u => u.flash.map = s.flash.map ∧ u.flash.patrolDay = s.sea.time / 86400) ∧
      ((s.flash.block b).state = .stale → (∀ k, s.kv.back = some k → ∀ e ∈ k.map, e.block ≠ b) →
        keeps (.staleBlockErase b true) (fun u => (u.flash.block b).erase = (s.flash.block b).erase + 1 ∧
          ∃ r ∈ u.flash.journal, ⟨.erased, b, (s.flash.block b).erase + 1⟩ ∈ r.changes) ∧
        (b < s.flash.nBlocks → keeps (.staleBlockErase b false) fun u => (u.flash.block b).state = .retired)) ∧
      (∀ x, s.flash.found[ch]? = some x → s.flash.channels.getLsbD ch = true → ch < s.dev.trainTemp.length →
        s.dev.trainTemp.getD ch 0 + 20 ≤ temp → keeps (.retrained ch temp rates) fun u =>
          u.dev.trainTemp.getD ch 0 = temp ∧
          u.flash.channels = if s.flash.trains { x with passes := rates } = true then s.flash.channels
            else s.flash.channels &&& ~~~(BitVec.ofNat 32 (2 ^ ch)))) ∧
    (s.Works .move s.flash.gcMandatory →
      keeps .garbageCollection (fun u =>
        s.flash.nBlocks * s.rd Reg.FLT_CFG1.GC_START_PM < s.flash.freeCount * 1000 → u = s.stir) ∧
      (∀ v, s.flash.freeCount * 1000 ≤ s.flash.nBlocks * s.rd Reg.FLT_CFG1.GC_START_PM → s.flash.victim = some v →
        keeps .garbageCollection fun u => u.flash = (s.stir.empty v.id).flash ∧ u.kv.namespaces = s.kv.namespaces)) ∧
    (s.Works .move (decide (s.flash.slcTarget < s.flash.slcHeld)) →
      keeps .promotion (fun u => u = s.stir.promote ∧ u.kv.namespaces = s.kv.namespaces)) ∧
    (s.Works .move (s.mustRefresh b) → keeps (.readDisturbRefresh b bad) (fun u => b ∉ u.flash.refresh)) ∧
    (s.Works .move false →
      keeps .staticLevelling (fun u =>
        s.uneven = false → u = { s.stir with flash := { s.flash with levelling := false } }) ∧
      (∀ v, s.rd Reg.FLT_CFG0.SPREAD_LIMIT < s.flash.eraseMax - s.flash.eraseMin ∨ s.flash.levelling = true ∧
          90 * s.rd Reg.FLT_CFG0.SPREAD_LIMIT < 100 * (s.flash.eraseMax - s.flash.eraseMin) →
        s.flash.leastWornCold = some v → keeps .staticLevelling fun u => u.flash =
          { (s.stir.relocate ((s.flash.unitsOf v.id).filter fun e => e.cold)).flash with levelling := true })) ∧
    (s.flash.mounted = true →
      (b < s.flash.nBlocks → keeps (.eraseStatusFail b) (fun u => (u.flash.block b).state = .retired) ∧
        keeps (.programStatusFail b) fun u => u = s.programFailed b ∧ u.kv.namespaces = s.kv.namespaces) ∧
      (die < s.flash.dieCh.length → die ∉ s.flash.diesLost →
        keeps (.dieLost die) fun u => u.flash.diesLost = s.flash.diesLost ++ [die]) ∧
      (s.flash.channels.getLsbD ch = true → keeps (.chOffline ch) fun u =>
        u.flash.channels = s.flash.channels &&& ~~~(BitVec.ofNat 32 (2 ^ ch))))

/-- Demotion moves an extent to disk, the directory is saved, reseeded, rebuilt and swept, days pass, uploads expire and
tables are scrubbed. For every flash tier at work: an extent whose policy asks for disk is demoted to where the disk
wrote it, one to be recalled returns to fresh units where these can be written, each in one journalled step, and
neither changes where its leaf page cannot be sealed; a forced demotion below its lower limit ends. A save keeps the
directory with its seal and a due reseed clears the directory, draws a new seed and starts a rebuild, which its walk
ends; a sweep frees every entry of a retired leaf. A finished window clears its counts; a day that device time has
crossed is done once; an upload idle for its days is gone. A bad table word is rewritten from its copy or becomes
invalid; a tile that holds entries goes to retention; a pending purge of records that all have expired is applied. On
a tier that the device cannot serve every command that names a namespace answers MEDIA_ERROR. (R174, R201, R209, R212,
R214, R227, R232, R258, R277, R283, R391, R400) -/
def Obligations.TiersAndTablesAreMaintained : Prop :=
  ∀ (s b : State) (i tile nsid : Nat) (e : Extent) (n : Ns) (t k : Nat) (fails pause : Bool) (tag : TagId) (c : TagEntry)
      (rd : MediaReads), b = s.stir →
    (s.Works .move false →
      (s.ext? i = some e → e.inUse = true → e.buffered = false →
        (∀ p w band d x, e.disk = false → b.passPolicy e = (p, w) → p = 3 ∨ p = 4 →
          w.backUp.diskWrite false e.media e.sectors = some (band, d, x) →
          let moved := { e with disk := true, band := band, sector := d, lmus := [] }
          (∀ y, w.backUp.moveStep x moved = some y →
            exec (.demotion i true) s = .next { y with flash := y.flash.unmap e.lmus } ∧
            ∃ l, y.ext? i = some { moved with leaf := l }) ∧
          (w.backUp.moveStep x moved = none → exec (.demotion i true) s = .next w)) ∧
        (∀ f, e.disk = true → s.policy e = 2 → e.heat = 15 → s.rdB Reg.DIR_TIER.RECALL_EN = true → s.srv.disk = 4 →
          s.lmusUsed.length + unitsFor e.stored ≤ s.flash.n →
          drainUnits .value (s.coldNs e.nsid) (s.freshLmus (unitsFor e.stored)) s.flash = (f, true) →
          let moved := { e with disk := false, lmus := s.freshLmus (unitsFor e.stored), band := 0, sector := 0 }
          let back := b.backUp.moveStep { b.backUp with flash := f.padDense } moved
          (∀ y, back = some y → ∃ u, exec (.demotion i false) s = .next u ∧
            ∃ l, u.ext? i = some { moved with leaf := l }) ∧
          (back = none → exec (.demotion i false) s = .next b))) ∧
      (s.cfg.hw.heads ≠ 0 → s.flash.demoting = true → s.srv.disk = 4 →
        s.flash.fill < (s.rd Reg.FLT_CFG1.DEMOTE_FORCE_PCT - 5) * 100 →
        exec .forcedDemote s = .next { b with flash := { s.flash with demoting := false } })) ∧
    (s.Works .rebuild false → s.kv.rebuilding = true → ∃ u, exec .directoryRebuild s = .next u ∧
      u.kv.rebuilding = false ∧ u.kv.namespaces = s.kv.namespaces) ∧
    (s.Works .upkeep false →
      (s.rd Reg.DIR_CFG.SAVE_MIN ≠ 0 ∨ 1048576 ≤ s.kv.dirCommits → ∃ u, exec .directorySave s = .next u ∧
        u.kv.saved = some ⟨s.sealDir, s.kv.dir, s.kv.side⟩ ∧ u.kv.dir = s.kv.dir ∧ u.kv.dirCommits = 0) ∧
      (s.reseedDue = true → ∃ u, exec .reseed s = .next u ∧ u.kv.dir = [] ∧ u.kv.rebuilding = true ∧
        (u.slot 1).gen = (s.slot 1).gen + 1 ∧ u.kv.lastReseedMs = some s.dev.clockMs) ∧
      (s.reseedDue = false → exec .reseed s = .next b) ∧
      (65536 ≤ s.kv.retired.length → ∃ u, exec .retiredIndexSweep s = .next u ∧ u.kv.retired = [] ∧
        ∀ p ∈ u.kv.dir, p ∈ s.kv.dir ∧ ∀ l, entLeaf p.2.toNat = some l → l ∉ s.kv.retired) ∧
      (∀ x, s.upload? i = some x → s.rd Reg.CMD_CFG.UPLOAD_IDLE ≤ x.idleDays → ∃ u,
        exec (.uploadExpired i) s = .next u ∧ u.upload? i = none ∧ ∀ j, j ≠ i → u.upload? j = s.upload? j) ∧
      (∀ p x, s.ns? nsid = some n → n.purges = [p] → n.stream? p.1 = some x →
        (∀ r ∈ x.recs, r.hdr.seq < p.2 → r.hdr.expiry ≤ s.sea.time) →
        let gone := x.recs.filter fun r => decide (r.hdr.seq < p.2)
        exec (.mirrorPurgeApply nsid) s =
          .next ((b.purgeCommit { n with purges := [] } (x.purge gone.length) gone).getD b))) ∧
    (1048576 ≤ s.kv.reqCount → ∃ u, exec .reqWindow s = .next u ∧ u.kv.reqCount = 0 ∧ u.kv.hotCount = 0 ∧
      u.kv.dir = s.kv.dir) ∧
    (s.kv.reqCount < 1048576 → exec .reqWindow s = .next s) ∧
    (s.sea.daysDone < s.sea.time / 86400 → ∃ u, exec .dailyPass s = .next u ∧
      u.sea = { s.sea with daysDone := s.sea.daysDone + 1 } ∧
      u.cmd.uploads = s.cmd.uploads.map fun x => { x with idleDays := x.idleDays + 1 }) ∧
    (s.sea.time / 86400 ≤ s.sea.daysDone → exec .dailyPass s = .next s) ∧
    (tile < 32 → s.tileValid tile ≠ 0 → tile ∉ s.cam.retained →
      exec (.tileRetention tile) s = .next { s with cam := { s.cam with retained := s.cam.retained ++ [tile] } }) ∧
    (∀ m, s.cam.saved.find? (fun x => x.1 == t) = some (t, m) → t ≠ 0 → (SMap.get camNone (s.table t) k).isSome = true →
      ∃ u, exec (.camScrub [(t, k, fails)]) s = .next u ∧ u.cam.saved = s.cam.saved ∧
        u.table t = SMap.set camNone k (if fails then none else SMap.get camNone m k) (s.table t)) ∧
    (s.noTier = true → c.msg.nsid ≠ 0 →
      let fails := fun (i : Instr) (op : Nat) => s.Starts tag op c → ∃ u, exec i s = .next u ∧
        u.Answers c (doneWith stMedia c.asn []) ∧ s.AnswerFrame c u
      fails (.get tag rd) 0x01 ∧ fails (.put tag pause) 0x02 ∧ fails (.delete tag pause) 0x03 ∧
        fails (.cas tag rd pause) 0x04 ∧ fails (.getRange tag rd) 0x05 ∧ fails (.list tag rd) 0x06 ∧
        fails (.scan tag rd) 0x07 ∧ fails (.append tag pause) 0x08 ∧ fails (.batch tag rd pause) 0x09 ∧
        fails (.partBegin tag pause) 0x0C ∧ fails (.partPut tag pause) 0x0D ∧ fails (.partCommit tag pause) 0x0E ∧
        fails (.watchArm tag) 0x10 ∧ fails (.watchDisarm tag) 0x11 ∧ fails (.purgeExpired tag pause) 0x12 ∧
        fails (.nsDelete tag) 0x41 ∧ fails (.nsQuery tag) 0x42)

/-- A good wedge gives a head its position, a missed one inhibits it, and the voice coil follows the largest set of heads
it can reach. For every disk at speed: a head that is acquiring has its position again after the third good wedge in a
row. A good wedge of a head in service then gives it that wedge number and position and ends its run of misses, with a
stroke put out; a missed wedge adds to the run and inhibits writing, the eighth in a row drops the head from the
stripe, and more than half a revolution missed takes it out of service. A voice coil update sets the reference to the
middle of the chosen set and sends VCM_SET. A seek that failed is repeated at most three times, then fails its command
with MEDIA_ERROR. A fault poll sends its read frame; a cause that it names disarms the preamplifier, a failed frame is
counted and the third counts as a cause, and the second clear poll arms it again. (R288, R290, R291, R294, R295, R297,
R298, R299, R305, R306, R307) -/
def Obligations.WedgesMoveTheHeads : Prop :=
  ∀ (s : State) (hid act : Nat) (smp : WedgeSample) (h : Head) (a : Actuator) (t : TagId) (e : TagEntry)
      (resp : Option (BitVec 24)),
    (s.srv.disk = 4 → s.head? hid = some h → s.actuator? (hid / 11) = some a → h.inService = true →
      let k := if h.wedge.isSome then h else h.acquire (wedgeSeen s.srv.tracks h.cal smp)
      let next := h.wedge.map fun w => (w + 1) % 640
      (h.wedge = none → k.acqRun < 3 → exec (.servoWedge hid smp) s = .next (s.setHead k)) ∧
      (h.wedge.isSome = true ∨ 3 ≤ k.acqRun →
        (∀ x, wedgePos s.srv.tracks next h.cal smp = some x → ∃ u g m, exec (.servoWedge hid smp) s = .next u ∧
          u.head? hid = some g ∧ g.wedge = some (next.getD k.acqAt.1) ∧ g.x - g.target = x - h.target ∧
          (s.writingBand = none → g.x = x) ∧ g.missRun = 0 ∧ g.missed = false ∧ .maOut hid m ∈ u.out) ∧
        (wedgePos s.srv.tracks next h.cal smp = none → ∃ u g, exec (.servoWedge hid smp) s = .next u ∧
          u.head? hid = some g ∧ g.wedge = next ∧ g.missRun = h.missRun + 1 ∧ g.missed = true ∧ g.inhibit = true ∧
          (h.inhibit = false → g.writing = false) ∧
          (8 ≤ h.missRun + 1 → g.part = false) ∧ (320 < h.revMissed + 1 → g.inService = false)))) ∧
    (s.actuator? act = some a →
      (s.srv.disk = 4 → s.srv.retracted = false →
        let seen := (s.srv.heads.filter fun h => h.id / 11 == a.id && h.inService).filter fun h => !h.missed
        let m := (seen.map fun h => h.reach s.srv.tracks).foldl min 16384
        let c := chooseU a.reference (2 * m) (seen.map fun h => (h.id, h.need))
        ∃ (u : State) (g : Actuator) (i j : Int), exec (.voiceCoilUpdate act) s = .next u ∧ u.actuator? act = some g ∧
          g.reference = (if c.isEmpty then a.reference else ((spanOf c).1 + (spanOf c).2) / 2) ∧
          .motFrame (motBytes 0x10 (field16 i ++ field16 j)) ∈ u.out) ∧
      (s.dev.phase = .service →
        let got := resp.bind fun r => paAnswer 0x04 r
        let b := s.emit (.paFrame act (paRead 0x04))
        (∀ f, got = some f → f ≠ 0 → ∃ u g, exec (.preampFault act resp) s = .next u ∧ u.actuator? act = some g ∧
          g.faultHeld = true ∧ g.armed = false ∧ g.clearPolls = 0 ∧ .paFrame act (paRead 0x04) ∈ u.out) ∧
        (got = none → a.badFrames + 1 < 3 → exec (.preampFault act resp) s =
          .next (b.setActuator { a with badFrames := a.badFrames + 1 })) ∧
        (got = none → 3 ≤ a.badFrames + 1 → ∃ u g, exec (.preampFault act resp) s = .next u ∧ u.actuator? act = some g ∧
          g.faultHeld = true ∧ g.armed = false ∧ g.badFrames = a.badFrames + 1) ∧
        (got = some 0 → a.faultHeld = true → a.clearPolls = 0 → exec (.preampFault act resp) s =
          .next (b.setActuator { a with badFrames := 0, clearPolls := 1 })) ∧
        (got = some 0 → a.faultHeld = true → 1 ≤ a.clearPolls → ∃ u g m, exec (.preampFault act resp) s = .next u ∧
          u.actuator? act = some g ∧ g.faultHeld = false ∧ g.armed = true ∧
          u.out = s.out ++ [.paFrame act (paRead 0x04), .paFrame act (preampArm m)]))) ∧
    (s.srv.disk = 4 →
      (s.srv.seekRepeats < 3 → ∀ o, ∃ u, exec (.seekTimeout o) s = .next u ∧
        u.srv.seekRepeats = s.srv.seekRepeats + 1 ∧ u.cmd = s.cmd) ∧
      (3 ≤ s.srv.seekRepeats → s.entry? t = some e → e.before = true → ∃ u, exec (.seekTimeout (some t)) s = .next u ∧
        u.srv.seekRepeats = 0 ∧ u.Answers e (doneWith stMedia e.asn [])))

/-- A spin-up ends at speed or counts an attempt, three failures take the disk out, and cleaning keeps every extent. For
every spin-up under way: one whose steps all pass leaves the disk at speed with no attempt counted; one that misses a
step brakes the spindle and leaves it at rest with one attempt more, and the third fails the disk. A retry, in service
with PWRFAIL_N high and heads fitted, does the same. A full calibration of a disk at speed takes the heads that fail
it out of service, saves its values on a tier that takes writes and makes the disk write-ready unless writing has
stopped. A spin-down inhibits every head and brakes the spindle, and ends at rest; one of a disk at rest or failed
changes nothing. A motor poll sends STATUS; the third in a row without a good response fails the disk, and at speed a
period out of range holds writing off for 8 polls. Cleaning of bands leaves every extent's index and every namespace
as they were. (R301, R302, R303, R307, R321, R329, R330) -/
def Obligations.TheDiskSpinsUpAndDown : Prop :=
  ∀ (s : State) (r : SpinResult) (bad : List Nat) (cal : CalResult) (resp : Option (BitVec 40)),
    let spins := fun (c : Instr) =>
      (r.missedStep = none → ∃ u, exec c s = .next u ∧ u.srv.disk = 4 ∧ u.srv.attempts = 0 ∧ u.srv.tracks = r.tracks) ∧
      (∀ k, r.missedStep = some k →
        (s.srv.attempts + 1 < 3 → ∃ u, exec c s = .next u ∧ u.srv.disk = 0 ∧ u.srv.attempts = s.srv.attempts + 1 ∧
          .motFrame (motSpin 2) ∈ u.out) ∧
        (3 ≤ s.srv.attempts + 1 → ∃ u, exec c s = .next u ∧ u.srv.disk = 6 ∧ u.dev.spinning = false))
    (s.srv.disk = 1 → spins (.spinUp r)) ∧
    (s.srv.disk = 0 → 0 < s.srv.attempts → s.srv.attempts < 3 → s.dev.phase = .service → s.dev.pwrfailLow = false →
      s.cfg.hw.heads ≠ 0 → spins (.spinupRetry r)) ∧
    (s.srv.disk = 4 → s.srv.fullCal = false → s.dev.entering = none → s.dev.phase = .service →
      ∃ u, exec (.fullCalibration bad cal) s = .next u ∧ u.srv.fullCal = true ∧ u.srv.disk = 4 ∧
        u.srv.writeReady = !s.rdc.writeStop ∧ (∀ i ∈ bad, ∀ g, u.head? i = some g → g.inService = false) ∧
        (s.flash.mounted = true → s.flash.readOnly = false → ∃ l, u.srv.savedCal = some (s.flash.tierId, l))) ∧
    (s.srv.disk = 5 → exec .spinDown s = .next { s with srv := { s.srv with disk := 0 } }) ∧
    (s.srv.disk = 4 → ∃ u, exec .spinDown s = .next u ∧ u.srv.disk = 5 ∧ u.dev.spinning = false ∧
      .motFrame (motSpin 2) ∈ u.out ∧ (∀ h ∈ u.srv.heads, h.inhibit = true ∧ h.writing = false ∧ h.part = false)) ∧
    (s.srv.disk = 0 ∨ s.srv.disk = 6 → exec .spinDown s = .next s) ∧
    (s.dev.phase = .service → s.cfg.hw.heads ≠ 0 →
      let got := resp.bind motAnswer
      let b := s.emit (.motFrame motStatus)
      (got = none → s.srv.statusFails + 1 < 3 → exec (.motStatus resp) s =
        .next { b with srv := { s.srv with statusFails := s.srv.statusFails + 1 } }) ∧
      (got = none → 3 ≤ s.srv.statusFails + 1 → ∃ u, exec (.motStatus resp) s = .next u ∧ u.srv.disk = 6) ∧
      (∀ w, got = some w → s.srv.disk = 4 → ∃ u, exec (.motStatus resp) s = .next u ∧ u.srv.statusFails = 0 ∧
        let ns := bitsOf w.toNat 0 24 * 1000
        u.srv.periodOff = if 8337499 < ns ∨ ns < 8329167 then 8 else s.srv.periodOff - 1)) ∧
    (s.Works .move s.rdc.cleanMand →
      (s.srv.disk = 4 → s.rdc.formatted = true → ∃ u, exec .bandCleaning s = .next u ∧
        (u.kv.extents.map fun e => e.index) = (s.kv.extents.map fun e => e.index) ∧
        u.kv.namespaces = s.kv.namespaces) ∧
      (s.srv.disk ≠ 4 → exec .bandCleaning s = .next s.stir))

/-- A link's state follows the tethers it receives, its flits are buffered in order, and a link that fails goes down. For
every trained link: a valid tether is kept, and gives a link that is up, or one at its third good tether, the state of
Table 17-4; a departing one, a timeout and a lane lock lost for 10 us take the link down; each tether sent carries the
next TSEQ. For every link that is up: the expected flit joins its buffer, one out of order or of a bad CRC asks for a
retry, a RETRY sends again from the flit named, an idle flit returns credits, QUIET and WAKE are noted, and a bad CRC
of any of these is only counted. A STATE newer than the entry is stored and goes on over the other TRUSTED links, one
whose tag fails is only counted, and a slot that times out is absent. A whole sled map leaves no route exception.
(R403, R404, R405, R406, R407, R408, R409, R82, Table 17-2, Table 17-4) -/
def Obligations.LinksFollowTethersAndFlits : Prop :=
  ∀ (s : State) (k ns slot seq c1 : Nat) (p : Tether) (f : Flit) (ff : FabFrame) (m : FabMsg) (gw tr : Bool) (ls : BitVec 4),
    let l := s.link k
    let down := fun (c : Instr) => ∃ u, exec c s = .next u ∧ (u.link k).state = 0 ∧ (u.link k).trained = false
    (s.HasLink k →
      (p.crcOk = false → exec (.tether k p) s = .next (s.countAt Reg.LINK_ERR.CRC_ERRS k 1)) ∧
      (p.crcOk = true → p.departing = true → down (.tether k p)) ∧
      (p.crcOk = true → p.departing = false → ∃ u, exec (.tether k p) s = .next u ∧ (u.link k).neigh = some p ∧
        (u.link k).trained = true ∧ (u.link k).state = if l.isUp then s.linkState l p
          else if 2 ≤ l.good then s.linkState { l with state := 0 } p else l.state) ∧
      (let t := s.stir.tetherOf { l with tseq := (l.tseq + 1) % 2 ^ 32 } false
       ∃ u, exec (.tetherPeriod k) s = .next u ∧ t.tseq = (l.tseq + 1) % 2 ^ 32 ∧ (u.link k).tseq = t.tseq ∧
        s.Emits u (.lineFlit k (ctlFlit .tether (l.expect + 255) 0 0 (tetherBytes t)))) ∧
      down (.tetherTimeout k) ∧ (10000 ≤ ns → down (.laneLockLost k ns)) ∧
      (ns < 10000 → exec (.laneLockLost k ns) s = .next s)) ∧
    (s.islandOn = true → k < 4 → l.trained = false → s.dev.refSdLost = false →
      exec (.linkTrainingRetry k tr) s =
        .next (s.setLink { l with trained := tr, state := if tr then 1 else 0, good := 0 })) ∧
    (s.takesFlits k = true →
      (l.out0 = [] → l.out1 = [] → f.crcOk = true → f.vc = 0 → f.fseq = l.expect → l.input0.length < 128 →
        f.tail = false → ∃ u, exec (.dataFlit k f) s = .next u ∧ (u.link k).input0 = l.input0 ++ [f] ∧
          (u.link k).expect = (l.expect + 1) % 256) ∧
      (f.crcOk = false ∨ l.out0 = [] ∧ l.out1 = [] ∧ f.crcOk = true ∧ f.fseq ≠ l.expect ∧ l.awaiting = false →
        l.retries + 1 < 16 → ∃ u, exec (.dataFlit k f) s = .next u ∧ (u.link k).awaiting = true ∧
          s.Emits u (.lineFlit k (ctlFlit .retry (l.expect + 255) 0 0 (beBytes 1 l.expect)))) ∧
      (∀ x xs, (l.replay.dropWhile fun y => y.fseq != seq) = x :: xs → l.asked.1 ≠ seq →
        ∃ u, exec (.retry k seq true) s = .next u ∧
          u.out = s.out ++ (x :: xs).map fun y => .lineFlit k (flitOnLine ({ y with ack := (l.expect + 255) % 256 } : Flit))) ∧
      (l.out0 = [] → l.out1 = [] → ∃ u, exec (.idleFlit k ns slot c1 true) s = .next u ∧
        (u.link k).credit0 = min 128 (l.credit0 + slot % 16) ∧ (u.link k).credit1 = min 128 (l.credit1 + c1 % 16)) ∧
      (∃ u, exec (.wake k true) s = .next u ∧ u.dev = { s.dev with routerQuiet := false } ∧
        (u.link k).quietPeer = false) ∧
      exec (.quiet k true) s = .next (s.setLink { l with quietPeer := true }) ∧
      (let bad := .next (s.countAt Reg.LINK_ERR.CRC_ERRS k 1)
       exec (.retry k seq false) s = bad ∧ exec (.idleFlit k ns slot c1 false) s = bad ∧ exec (.wake k false) s = bad ∧
         exec (.quiet k false) s = bad)) ∧
    (s.islandOn = true →
      (s.inStale = false → k < 4 → l.trusted = true →
        (m.tagOk = false → exec (.state k ff m slot seq ⟨gw, ls⟩) s = .next (s.count Reg.FAB.AUTH_FAIL 1)) ∧
        (m.tagOk = true → slot < 16 → slot ≠ s.ownSlot →
          (∀ e, s.sledEntry? slot = some e → e.present = true → e.seq < seq) →
          ∃ u, exec (.state k ff m slot seq ⟨gw, ls⟩) s = .next u ∧ u.sledEntry? slot = some ⟨slot, true, gw, ls, seq⟩ ∧
            u.fab.inject = s.fab.inject ++ (s.trustedLinks.filter fun x => x != k).map fun x =>
              (some x, ({ ff with hops := (ff.hops + 1) % 256 } : FabFrame)))) ∧
      (slot ≠ s.ownSlot → ∃ u, exec (.sledMapEntryTimeout slot) s = .next u ∧
        ∀ e ∈ u.fab.sled, e.slot = slot → e.present = false) ∧
      (s.inStale = false → s.unjoined = false → ∃ u, exec .statePeriod s = .next u ∧
        u.fab.ownSeq = s.fab.ownSeq + 1 ∧ ∃ e, u.sledEntry? s.ownSlot = some e ∧ e.present = true ∧
          e.seq = s.fab.ownSeq + 1) ∧
      (s.inStale = false → s.mapWhole = true → ∃ u, exec .routeChanged s = .next u ∧ u.table 0 = []))

/-- A fabric request is executed once: a repeat gets the stored response, a bad tag none, and each kind has its own
effect. For every request message: where its tag fails it is only counted, in the pause of an activation it waits
unexecuted, and where its MSG_ID was received before the stored response waits at local injection again and nothing
else changes. A response waits at local injection in its frames, which are kept for such a repeat. A new request:
QUERY_REQ is answered with the state; a whole forwarded command waits in the receive queues; a relayed abort of no
entry answers TOO_LATE, of an entry OK; a mirrored write of no copy of the source's is refused, one out of its turn is
held, and one in its turn, nothing held, is applied and becomes the ASN last applied, acknowledged as done under the
MEDIA flag only with the buffer drained; a copy is created or refused and released; a walk of no namespace is refused;
a keeper record is stored; a chunk is served or refused. (R411, R412, R417, R423, R424, R426, R427, R429, R187, R443,
R445) -/
def Obligations.FabricRequestsAreExecutedOnce : Prop :=
  ∀ (s a b : State) (m : FabMsg) (mm : MirrorMeta) (body : MirrorBody) (nsid asn k link : Nat) (d msg : Bytes)
      (fl : Bool) (its : List ResyncItem) (recs : List (Bytes × RecordHdr × Bytes)) (kr : KeeperRec) (n : Ns),
    let reqs := [Instr.queryReq m, .forwardReq m msg, .abortRelay m k, .mirrorWrite m mm body,
      .mirrorCopyCreate m nsid d, .mirrorCopyRelease m nsid, .resync m nsid asn fl fl d its recs, .chunkReq m d k]
    let answers := fun (c : Instr) (t : State) (ftype : Nat) (p : FabPayload) =>
      exec c s = .next (t.fabReply m.src ftype m.msgId p)
    let back : TagId := ⟨.forward m.src, m.msgId⟩
    (∀ (t : State) (ftype : Nat) (p : FabPayload),
      let w := t.makeFrames ⟨m.src, ftype, none, Config.fabFlow m.src 0⟩ (replyBytes ftype m.msgId p)
      let u := t.fabReply m.src ftype m.msgId p
      u.fab.inject = t.fab.inject ++ w.1.map (fun f => (none, f)) ∧
      ∀ e, t.source? m.src = some e → ∃ g, u.source? m.src = some g ∧ g.seen = e.seen ∧
        (g.replies.find? fun x => x.1 == m.msgId) = some (m.msgId, w.1)) ∧
    (s.cmd.paused = true → ∀ c ∈ reqs, exec c s = .next s) ∧
    (s.islandOn = true → s.dev.phase = .service → s.cmd.paused = false → m.tagOk = false →
      ∀ c ∈ reqs, exec c s = .next (s.count Reg.FAB.AUTH_FAIL 1)) ∧
    (s.TakesMsg m a → s.cmd.paused = false → ∀ e, a.source? m.src = some e → m.msgId ∈ e.seen →
      (∀ r, (e.replies.find? fun x => x.1 == m.msgId) = some r → ∀ c ∈ reqs, exec c s = .next (a.inject none r.2)) ∧
      ((e.replies.find? fun x => x.1 == m.msgId) = none → ∀ c ∈ reqs, exec c s = .next a)) ∧
    (s.FreshRequest m b →
      answers (.queryReq m) b 0x06 (.bytes b.fabState) ∧
      (32 ≤ msg.length → msg.length = 32 + beAt msg 6 2 + beAt msg 8 4 → b.cmd.queue.length < 16384 →
        ∃ u, exec (.forwardReq m msg) s = .next u ∧
        u.cmd.queue = b.cmd.queue ++ [⟨.forward m.src, .admin, m.msgId, msgOf msg⟩]) ∧
      (b.entry? ⟨.forward m.src, k⟩ = none →
        (b.cmd.queue.any fun q => q.ctx == .forward m.src && q.tag == k) = false →
        exec (.abortRelay m k) s = .next (b.respond back (doneWith stTooLate 0 []) false)) ∧
      (∀ f, b.entry? ⟨.forward m.src, k⟩ = some f →
        exec (.abortRelay m k) s = .next ((b.stopEntry f).respond back (doneWith stOK 0 []) false)) ∧
      (b.ns? mm.nsid = none ∨ b.ns? mm.nsid = some n ∧ n.copyOf ≠ some m.src →
        answers (.mirrorWrite m mm body) b 0x02 (.mirrorAck mm.nsid mm.asn false)) ∧
      (b.ns? mm.nsid = some n → n.copyOf = some m.src → n.stamped = false → b.appliedAsn mm.nsid < mm.asn →
        (mm.prevAsn ≠ b.appliedAsn mm.nsid → exec (.mirrorWrite m mm body) s =
          .next { b with fab := { b.fab with heldWrites := b.fab.heldWrites ++ [⟨m.src, m.msgId, mm, body⟩] } }) ∧
        (∀ t, mm.prevAsn = b.appliedAsn mm.nsid → b.fab.heldWrites = [] → b.applyMirror n mm body = (true, t) →
          ∃ (ok : Bool) (v : State), answers (.mirrorWrite m mm body) v 0x02 (.mirrorAck mm.nsid mm.asn ok) ∧
            v.appliedAsn mm.nsid = mm.asn ∧ v.kv.namespaces = t.kv.namespaces ∧
            (ok = true → mm.media = true → v.drained = true))) ∧
      (b.ns? nsid = none → 0 < nsid → nsid < 4096 → descriptorOk d = true → b.createFails d = none →
        (b.fab.pulls.find? fun x => x.1 == nsid) = none → (∀ x ∈ b.fab.copies, x.1 = nsid → x.2 = m.src) →
        ∃ t : State, answers (.mirrorCopyCreate m nsid d) t 0x02 (.mirrorAck nsid 0 true) ∧
          t.ns? nsid = some (nsOf nsid (b.peekAsn nsid) d (some m.src))) ∧
      (b.ns? nsid = some n → n.copyOf = some m.src → ∃ t : State,
        answers (.mirrorCopyRelease m nsid) t 0x02 (.mirrorAck nsid 0 true) ∧ t.ns? nsid = some { n with copyOf := none }) ∧
      (b.ns? nsid = none → answers (.resync m nsid asn fl fl d its recs) b 0x02 (.mirrorAck nsid asn false)) ∧
      (∀ t, b.ns? nsid = some n → n.copyOf = some m.src → b.applyWalk n asn true false d its recs = (true, t) →
        answers (.resync m nsid asn true false d its recs) t 0x02 (.mirrorAck nsid asn true)) ∧
      (b.rdB Reg.UPD_CFG.PEER_SERVE = false → answers (.chunkReq m d k) b 0x09 (.updRefuse d stNotPermitted)) ∧
      (b.rdB Reg.UPD_CFG.PEER_SERVE = true →
        (b.servedChunk d k = none → answers (.chunkReq m d k) b 0x09 (.updRefuse d stPackage)) ∧
        (∀ x q, b.servedChunk d k = some (x, q) →
          answers (.chunkReq m d k) (if q then b.tookFree else b) 0x09 (.chunk d k (crc32c x) x)))) ∧
    (s.islandOn = true → s.dev.phase = .service → link < 4 → (s.link link).isUp = true → (s.link link).state ≠ 5 →
      s.flash.readOnly = false → s.cmd.paused = false → m.tagOk = true → s.NewFrom m →
      ∃ t : State, answers (.keeper link m kr) t 0x02 (.mirrorAck 0 0 true) ∧
        (t.fab.keepers.find? fun x => x.1 == link) = some (link, kr))

/-- Responses answer the command that waits, unanswered requests are sent again or given up, and peers, gateways and
routes are kept up. For every such event: a response taken answers its command and ends its request, and an
acknowledgement leaves no write of that ASN waiting for its member; a request that has a route waits at local
injection in its frames and is listed until its response comes, is sent again at most seven times, and one unreachable
answers UNREACHABLE; idle sources, flow choices and silent gateway indices are forgotten; a period draws a new flow
seed. A degraded member is probed, a release sent and ended; hellos, offers, chunks and refusals of peers and
inheritance offers are taken as their rules say. A frame served from local injection that is addressed to the device
ends at it, and one at 32 hops is dropped. (R411, R412, R413, R414, R416, R417, R421, R428, R431, R445, R446) -/
def Obligations.ResponsesPeersAndRoutesSettle : Prop :=
  ∀ (s b : State) (m : FabMsg) (t : TagId) (e : TagEntry) (o : OutMsg) (nsid asn id k : Nat) (d c : Bytes) (acc : Bool)
      (x : MirrorMember) (kr : KeeperRec) (f ff : FabFrame) (g : Staging),
    (s.TakesMsg m b →
      (b.outFor m id [0x05] = some o → o.tag = some t → b.entry? t = some e →
        ∃ u, exec (.queryResp m id c) s = .next u ∧ u.Answers e (doneData stOK e.asn [] c) ∧
          ∀ y ∈ u.fab.outMsgs, y.msgId ≠ id) ∧
      (b.outFor m id [0x03, 0x08] = some o → o.ftype = 0x03 → o.tag = some t → b.entry? t = some e →
        beAt c 0 2 ≠ stAborted → ∃ u, exec (.forwardResp m id c) s = .next u ∧
          u.Answers e (doneData stOK e.asn [] c) ∧ ∀ y ∈ u.fab.outMsgs, y.msgId ≠ id) ∧
      (o ∈ b.fab.outMsgs → o.dst = m.src → o.nsid = nsid → o.asn = asn → o.tag = none → o.ftype ∈ [0x01, 0x07, 0x0A] →
        (∀ y ∈ b.fab.pulls, y.1 ≠ nsid) → ∃ u, exec (.mirrorAck m nsid asn acc) s = .next u ∧
          ∀ y ∈ u.cmd.tags, y.msg.nsid = nsid → y.asn = asn → m.src ∉ y.mirrors) ∧
      (b.fw.staging = none → b.rdB Reg.UPD_CFG.PEER_ACCEPT = true → b.key.fuses.rollback ≤ k → b.fw.activeFunc < asn →
        0 < id → id ≤ 25165824 → b.flash.readOnly = false → b.noTier = false → ∃ u y,
        exec (.offer m d id asn k) s = .next u ∧ u.fw.staging = some y ∧ y.digest = d ∧ y.len = id ∧ y.func = asn ∧
          y.sec = k ∧ y.fromPeer = true ∧ y.peers = [m.src]) ∧
      (b.fw.staging = some g → g.digest = d → (b.fab.outMsgs.any fun y => y.dst == m.src && y.chunkAsked d == some k) = true →
        b.chunkFails g k (crc32c c) c = none → (g.chunks.any fun y => y.1 == k) = false →
        ∃ u y, exec (.chunk m d k (crc32c c) c) s = .next u ∧ u.fw.staging = some y ∧ y.chunks = g.chunks ++ [(k, c)]) ∧
      (b.fw.staging = some g → (b.fab.outMsgs.any fun y => y.dst == m.src && (y.chunkAsked d).isSome) = true →
        ∃ u y, exec (.updateRefuse m d k) s = .next u ∧ u.fw.staging = some y ∧ m.src ∉ y.peers ∧
          y.chunks = g.chunks)) ∧
    (∀ ft p, s.noRoute k = false →
      let w := s.makeFrames ⟨k, ft, none, Config.fabFlow k nsid⟩ (payloadBytes p)
      let u := s.fabRequest k ft p none nsid 0
      u.fab.inject = s.fab.inject ++ w.1.map (fun y => (none, y)) ∧
        u.fab.outMsgs = s.fab.outMsgs ++ [⟨s.fab.nextMsg, k, ft, p, w.1, none, 0, none, nsid, 0⟩]) ∧
    ((s.fab.outMsgs.find? fun y => y.msgId == id) = some o →
      (s.islandOn = true → o.tries < 7 → ∃ u, exec (.messageRetransmit id) s = .next u ∧
        u.fab.inject = s.fab.inject ++ o.frames.map fun y => (o.link, y)) ∧
      (7 ≤ o.tries → exec (.messageRetransmit id) s = .next s) ∧
      (o.tag = some t → s.entry? t = some e → o.ftype ≠ 0x08 → ∃ u, exec (.messageUnreachable id) s = .next u ∧
        u.Answers e (doneWith stUnreachable e.asn []) ∧ ∀ y ∈ u.fab.outMsgs, y.msgId ≠ id)) ∧
    exec (.sourceEntryExpiry k) s = .next { s with fab := { s.fab with
      sources := s.fab.sources.filter fun y => y.src != k } } ∧
    exec (.flowletGap k) s = .next { s with fab := { s.fab with
      flows := s.fab.flows.filter fun y => y.1 != k, seeds := s.fab.seeds.filter fun y => y.1 != k } } ∧
    exec (.gwIndexTimeout k id) s = .next { s with fab := { s.fab with
      gwLive := s.fab.gwLive.filter fun y => y != (k, id) } } ∧
    (s.islandOn = true →
      (s.drbgOk = true → ∃ u, exec .seedPeriod s = .next u ∧ u.fab = { s.fab with flowSeed := s.draw 16 }) ∧
      (s.dev.phase = .service → s.member? nsid k = some x →
        (x.state = .degraded → x.releasing = false →
          exec (.mirrorProbe nsid k) s = .next (s.fabRequest k 0x05 .query none nsid 0)) ∧
        (x.releasing = true →
          exec (.mirrorRelease nsid k) s = .next (s.fabRequest k 0x01 (.copyRelease nsid) none nsid 0) ∧
          ∃ u, exec (.releaseAcknowledged nsid k) s = .next u ∧
            ∀ y ∈ u.fab.members, y.nsid = nsid → y.addr = k → y.releasing = false)) ∧
      (s.inStale = false → s.isGateway = true →
        (m.tagOk = true → k < 4096 → id < 4 → (k, id) ∉ s.fab.gwLive → exec (.gwHello m k id) s =
          .next { s with fab := { s.fab with gwLive := s.fab.gwLive ++ [(k, id)] } }) ∧
        (∃ u p, exec .gwHelloPeriod s = .next u ∧ s.gatewayPort = some p ∧ (s.paused p = false →
          ∀ y ∈ (s.makeFrames ⟨Config.floodDst 0x11, 0x11, none, Config.fabFlow (Config.floodDst 0x11) 0⟩
              (payloadBytes (.hello (s.fab.addr / 16) (s.rd Reg.FAB_CFG.GW_INDEX)))).1,
            ∃ h : EthHead, .ethFabric h (s.rd Reg.NET_FAB.FAB_ETHERTYPE) (frameBytes y) ∈ u.out))) ∧
      (s.dev.phase = .service → s.fabric = true → s.fw.staging = some g → g.stage = 4 →
        s.rdB Reg.UPD_CFG.PEER_PUSH = true →
          let dests := (s.fab.sled.filter fun y => y.present && decide (y.slot ≠ s.ownSlot)).map fun y =>
            s.fab.addr / 16 * 16 + y.slot
          exec .offerPeriod s = .next (dests.foldl (fun (q : State) dst =>
            q.fabTell ⟨dst, 0x09, none, Config.fabFlow dst 0⟩ (.offer g.digest g.len g.func g.sec)) s)) ∧
      (k < 4 → (s.link k).state = 4 →
        exec (.inheritAccept k) s = .next (s.setLink { s.link k with offered := true }) ∧
        (s.unjoined = true → s.dev.phase = .service → s.dev.resetBusy = false → s.fab.offers = [] →
          exec (.inheritOffer k kr) s = .next { s with fab := { s.fab with offers := [(k, kr)] } })) ∧
      (∀ rest, s.fab.inject = (none, f) :: rest → f.isLocal = false →
        let q := { s with dev := { s.dev with routerQuiet := false }, fab := { s.fab with inject := rest } }
        let w := ((q.count Reg.FAB.ORIGINATED 1).beginFlowlet f.flow).searchFirst 0 (f.dst % 2 ^ 16 * 2 ^ 64 + 7 * 2 ^ 61)
        let ended := w.2.count Reg.FAB.TERMINATED 1
        w.1 = none →
        (s.fab.addrValid = true → f.dst = s.fab.addr → s.typeAllowed .own f = true →
          exec (.transit .own id ff) s = .next ((if protectedType f.ftype then ended.cipher 1 f.payload.length
            else ended).arrive Reg.WAKE_SRC.FAB_FRAME)) ∧
        (¬ (s.fab.addrValid = true ∧ f.dst = s.fab.addr) → 32 ≤ f.hops →
          exec (.transit .own id ff) s = .next (w.2.count Reg.FAB.DROPPED 1))) ∧
      (s.fab.inject = [] → exec (.transit .own id ff) s = .next { s with dev := { s.dev with routerQuiet := false } }))

/-- The test access port answers IDCODE, BYPASS and STATUS, preloads the cells, and drives the pins only where that is
allowed. For every port with always-on power: TRST_N held 100 ns selects IDCODE, which gives 0x166165D3; BYPASS gives
one 0 bit; STATUS gives its register; a preload keeps the first 868 cells. At full unlock, in the boot ROM's wait or
in the test mode, with the rails up, EXTEST and its two variants put the cells on the pins, CLAMP the cells shifted in
before and HIGHZ none, each selected as the pin-driving instruction, and at full unlock outside those two phases the
pins are held; elsewhere each of the five acts as BYPASS. Without always-on power nothing changes. (R467, R479, R480,
R481, Table 20-2) -/
def Obligations.TapInstructionsScanAndDrive : Prop :=
  ∀ (s : State) (ns : Nat) (cells : List Bool),
    let gives := fun (c : Instr) (code : Nat) (b : Bytes) => ∃ u l, exec c s = .next u ∧ u.out = l ++ [.tdo b] ∧
      u.dbg.instr = code ∧ u.dbg.capture = b
    let drives := fun (c : Instr) (code : Nat) (p : Output) (q : List Bool) => ∃ u, exec c s = .next u ∧
      u.dbg.instr = code ∧ u.dbg.pinDriven = true ∧ u.dbg.cells = q ∧ p ∈ u.out ∧
      (s.dev.phase ≠ .bootWait → s.dev.phase ≠ .testMode → u.dev.pinsHeld = true)
    let cut := cells.take 868
    let pinOps := [Instr.extest cells, .extestPulse cells, .extestTrain cells, .clamp, .highz]
    (s.tapOn = true →
      (100 ≤ ns → ∃ u, exec (.trstN ns) s = .next u ∧ u.dbg.instr = 0x02 ∧ u.dbg.pinDriven = false) ∧
      gives .idcode 0x02 (leBytes 4 0x166165D3) ∧ gives .bypass 0xFF [0] ∧
      gives .dbgStatus 0x10 (leBytes 4 (s.live 0x4C0040).toNat) ∧
      (∃ u, exec (.samplePreload cells) s = .next u ∧ u.dbg.instr = 0x01 ∧ u.dbg.cells = cut ∧
        u.dbg.capture.length = 109) ∧
      (s.pinsAllowed = true → drives (.extest cells) 0x00 (.pins cut) cut ∧ drives (.extestPulse cells) 0x08 (.pins cut) cut ∧
        drives (.extestTrain cells) 0x09 (.pins cut) cut ∧ drives .clamp 0x03 (.pins s.dbg.cells) s.dbg.cells ∧
        drives .highz 0x04 .pinsHighZ s.dbg.cells) ∧
      (s.pinsAllowed = false → ∀ c ∈ pinOps, exec c s = .next s.bypass)) ∧
    (s.tapOn = false → (∀ c ∈ pinOps, exec c s = .next s) ∧ exec .idcode s = .next s ∧ exec .bypass s = .next s ∧
      exec .dbgStatus s = .next s ∧ exec (.samplePreload cells) s = .next s ∧ exec (.trstN ns) s = .next s)

/-- The port unlocks only on a response that passes its check; full unlock erases every key and ends every session, and a
failure locks out. For every powered device: a challenge for level 1 or 2, none being withheld, is the 64 bytes of
Table 20-4 with a fresh nonce; where challenges are withheld none is made. Words of a response are kept while a
challenge holds and no check runs. The check of a response clears the challenge: an observe response that passes gives
level 1 and no failure; a full one level 2, with no live key and no session left; one that fails leaves the level,
counts up to 31 and locks out for 2^(n-1), at most 1,024, seconds. A relock leaves level 0, from full by a DEBUG
reset; DBG_RESET resets at full unlock with its key alone. (R469, R470, R471, R472, R473, Table 20-4) -/
def Obligations.UnlockingNeedsAGoodResponse : Prop :=
  ∀ (s : State) (lvl : Nat) (w : Word) (c : Bytes) (key : BitVec 16), s.powered = true →
    let resets := fun (i : Instr) => s.dev.phase = .service → ∃ u, exec i s = .next u ∧ u.dev.phase = .starting false ∧
      u.dev.kind = .debug ∧ u.dbg.level = 0
    (lvl = 1 ∨ lvl = 2 →
      (s.noChallenge = false → ∃ u, exec (.dbgChallenge lvl false) s = .next u ∧
        u.dbg.challenge = some (s.challengeBytes lvl (s.draw 32)) ∧ u.dbg.chalLevel = lvl ∧ u.dbg.response = [] ∧
        u.dbg.pending = false ∧ u.dbg.level = s.dbg.level ∧ u.free = s.free + 1) ∧
      (s.noChallenge = true → ∃ u, exec (.dbgChallenge lvl false) s = .next u ∧ u.dbg.challenge = s.dbg.challenge ∧
        u.dbg.level = s.dbg.level)) ∧
    exec (.dbgChallenge lvl true) s = .next (s.loadIr 0x11) ∧
    (s.dbg.level ≠ 2 → ∃ u, exec .dbgRelock s = .next u ∧ u.dbg.level = 0 ∧ u.sessions = s.sessions) ∧
    (s.dbg.level = 2 → resets .dbgRelock ∧ resets (.dbgReset 0x5AFE true) ∧
      (key ≠ 0x5AFE → exec (.dbgReset key true) s = .next (s.loadIr 0x15))) ∧
    (s.dbg.level < 2 → exec (.dbgReset key true) s = .next s.bypass) ∧
    (s.dbg.pending = false →
      exec .challengeExpiry s = .next { s with dbg := { s.dbg with challenge := none, response := [] } } ∧
      exec .unlockCheck s = .next s ∧
      (s.dbg.challenge.isSome = true → ∃ u, exec (.dbgResponse w) s = .next u ∧
        u.dbg.response = s.dbg.response ++ [w] ∧ u.dbg.pending = responseDone (s.dbg.response ++ [w])) ∧
      (s.dbg.challenge = none → ∃ u, exec (.dbgResponse w) s = .next u ∧ u.dbg.response = s.dbg.response)) ∧
    (s.dbg.pending = true → exec .challengeExpiry s = .next s) ∧
    (s.dbg.pending = true → s.dbg.challenge = some c →
      let fails := ∃ u, exec .unlockCheck s = .next u ∧ u.dbg.level = s.dbg.level ∧ u.dbg.challenge = none ∧
        u.dbg.fails = min 31 (s.dbg.fails + 1) ∧ u.dbg.lockout = min (2 ^ (min 31 (s.dbg.fails + 1) - 1)) 1024
      (s.dbg.chalLevel = 1 →
        if s.observePasses c s.dbg.response = true then ∃ u, exec .unlockCheck s = .next u ∧ u.dbg.level = 1 ∧
          u.dbg.fails = 0 ∧ u.dbg.challenge = none ∧ u.sessions = s.sessions
        else fails) ∧
      (s.dbg.chalLevel ≠ 1 →
        if s.fullPasses c s.dbg.response = true then ∃ u, exec .unlockCheck s = .next u ∧ u.dbg.level = 2 ∧
          u.dbg.fails = 0 ∧ u.dbg.challenge = none ∧ u.sessions = [] ∧ ∀ i, (u.slot i).key = []
        else fails)) ∧
    exec .lockoutExpiry s = .next { s with dbg := { s.dbg with lockout := 0 } }

/-- At full unlock the port reads and writes memory and core state, halts, runs and steps cores, and sets their
breakpoints. For every powered device at full unlock: an access that a check turns away answers its status and stores
nothing; one that passes reads or writes four bytes of core SRAM or DRAM at its address, least significant first, or a
word of a halted core's state, and a register read answers as its path does. HALT halts every core selected, RESUME
runs it, STEP leaves every halted one halted for cause 1; breakpoints and watchpoints are set and cleared on the cores
selected, HALT_ALL is set and cleared. A hit of a unit set on a running core halts it, and with HALT_ALL every core of
the eight. (R474, R475, R476, R477, R478, Table 20-5) -/
def Obligations.DebugAccessesAndCores : Prop :=
  ∀ (s : State) (a : DbgAccess) (v : Word) (cs : BitVec 8) (n k : Nat) (addr : BitVec 48), s.powered = true →
    s.dbg.level = 2 →
    let at_ := s.accessAddr a
    let read := fun (b : State) (vs : List Word) => ∃ u, exec (.dbgAccessRead a) s = .next u ∧
      u.out = b.out ++ [.regResult .debug stOK vs] ∧ u.sram = s.sram ∧ u.dram = s.dram
    let cores := fun (c : Instr) (q : State → Prop) => ∃ u, exec c s = .next u ∧ u.dbg.instr = 0x14 ∧ q u
    let each := fun (f : Core_ → Core_) (u : State) =>
      u.dbg.cores = s.dbg.cores.map fun c => if cs.getLsbD c.id then f c else c
    (∀ st, s.accessStatus a false = some st → ∃ u, exec (.dbgAccessRead a) s = .next u ∧
      u.out = (s.loadIr 0x13).out ++ [.regResult .debug st []] ∧ st ≠ stOK) ∧
    (s.accessStatus a false = none →
      (a.space = 0 → ∀ st vs x, ((s.loadIr 0x13).beginAccess a at_ 1).regRead .debug at_ 1 = (st, vs, x) →
        ∃ u, exec (.dbgAccessRead a) s = .next u ∧
          u.out = x.out ++ [.regResult .debug st (if st = stOK then [vs.head?.getD 0] else [])]) ∧
      (a.space = 1 → read (s.loadIr 0x13) [BitVec.ofNat 32 (leNat (s.sram.readBytes at_ 4))]) ∧
      (a.space = 2 → read (s.loadIr 0x13) [BitVec.ofNat 32 (leNat (s.dram.readBytes at_ 4))]) ∧
      (a.space = 3 → read (s.loadIr 0x13) [(s.coreRegs (coreWord at_).1).getD (coreWord at_).2 0])) ∧
    (∀ st, s.accessStatus a true = some st → ∃ u, exec (.dbgAccessWrite a v) s = .next u ∧
      u.out = (s.loadIr 0x13).out ++ [.regResult .debug st []] ∧ u.sram = s.sram ∧ u.dram = s.dram) ∧
    (s.accessStatus a true = none → 1 ≤ a.space → a.space ≤ 3 → ∃ u, exec (.dbgAccessWrite a v) s = .next u ∧
      u.out = (s.loadIr 0x13).out ++ [.regResult .debug stOK []] ∧
      u.sram = (if a.space = 1 then s.sram.writeBytes at_ (leBytes 4 v.toNat) else s.sram) ∧
      u.dram = (if a.space = 2 then s.dram.writeBytes at_ (leBytes 4 v.toNat) else s.dram) ∧
      (a.space = 3 → u.dbg.cores = s.dbg.cores.map fun c =>
        if c.id = (coreWord at_).1 then { c with regs := c.regs.set (coreWord at_).2 v } else c)) ∧
    cores (.halt cs) (fun u => ∀ c ∈ u.dbg.cores, cs.getLsbD c.id = true → c.halted = true) ∧
    cores (.resume cs) (each fun c => { c with halted := false }) ∧
    cores (.step cs) (fun u => ∀ c ∈ u.dbg.cores, cs.getLsbD c.id = true →
      (∃ d ∈ s.dbg.cores, d.id = c.id ∧ d.halted = true) → c.halted = true ∧ c.cause = 1) ∧
    cores (.setBreakpoint cs n addr) (each fun c =>
      { c with breaks := putWhere (fun x => x.1 == n % 8) (n % 8, addr) c.breaks }) ∧
    cores (.clearBreakpoint cs n) (each fun c => { c with breaks := dropWhere (fun x => x.1 == n % 8) c.breaks }) ∧
    (n < 4 → cores (.setWatchpoint cs n addr k) (each fun c => { c with
      watches := putWhere (fun x => x.1 == n) (n, addr &&& ~~~(7 : BitVec 48), k % 4) c.watches })) ∧
    cores (.clearWatchpoint cs n) (each fun c => { c with watches := dropWhere (fun x => x.1 == n) c.watches }) ∧
    cores .setHaltAll (fun u => u.dbg.haltAll = true) ∧ cores .clearHaltAll (fun u => u.dbg.haltAll = false) ∧
    (s.serving = true → ∀ d ∈ s.dbg.cores, d.halted = false →
      let hits := fun (c : Instr) => ∃ u, exec c s = .next u ∧ (∀ x ∈ u.dbg.cores, x.id = d.id → x.halted = true) ∧
        (s.dbg.haltAll = true → ∀ x ∈ u.dbg.cores, x.id < 8 → x.halted = true)
      ((d.breaks.any fun x => x.1 == n) = true → hits (.breakpointHit d.id n)) ∧
      ((d.watches.any fun x => x.1 == n && x.2.2 != 0) = true → hits (.watchpointHit d.id n)))
end

