-- ==== Sys2Proof/Laws/Memory.lean ====
section
/-! SUPPORT. The laws of sparse tables and of the byte memory: a read after a write, and the canonical form that every
operation keeps. -/

namespace Sys2Proof.Machine

open Sys2Proof

theorem SMap.wfFrom_mono {α : Type} [DecidableEq α] (d : Nat → α) {lo lo' : Nat} (h : lo' ≤ lo) {m : SMap α}
    (hm : SMap.wfFrom d lo m = true) : SMap.wfFrom d lo' m = true := by
  cases m with
  | nil => rfl
  | cons p t =>
    simp only [SMap.wfFrom, Bool.and_eq_true, decide_eq_true_eq] at hm ⊢
    exact ⟨⟨by omega, hm.1.2⟩, hm.2⟩

/-- A write keeps the canonical form, from any bound at or below its key. -/
theorem SMap.set_wfFrom {α : Type} [DecidableEq α] (d : Nat → α) (k : Nat) (v : α) :
    ∀ (m : SMap α) (lo : Nat), lo ≤ k → SMap.wfFrom d lo m = true → SMap.wfFrom d lo (SMap.set d k v m) = true := by
  intro m
  induction m with
  | nil =>
    intro lo hk _
    by_cases hv : v = d k <;> simp [SMap.set, SMap.wfFrom, hv, hk]
  | cons p t ih =>
    intro lo hk hm
    obtain ⟨a, w⟩ := p
    simp only [SMap.wfFrom, Bool.and_eq_true, decide_eq_true_eq] at hm
    obtain ⟨⟨ha, hw⟩, ht⟩ := hm
    simp only [SMap.set]
    split
    · split
      · simp [SMap.wfFrom, ha, hw, ht]
      · rename_i hlt hv
        simp only [SMap.wfFrom, Bool.and_eq_true, decide_eq_true_eq]
        exact ⟨⟨hk, hv⟩, ⟨by omega, hw⟩, ht⟩
    · split
      · split
        · exact SMap.wfFrom_mono d (by omega) ht
        · rename_i h1 h2 hv
          subst h2
          simp only [SMap.wfFrom, Bool.and_eq_true, decide_eq_true_eq]
          exact ⟨⟨ha, hv⟩, ht⟩
      · rename_i h1 h2
        simp only [SMap.wfFrom, Bool.and_eq_true, decide_eq_true_eq]
        exact ⟨⟨ha, hw⟩, ih (a + 1) (by omega) ht⟩

theorem SMap.set_wf {α : Type} [DecidableEq α] (d : Nat → α) (k : Nat) (v : α) (m : SMap α)
    (h : SMap.wf d m = true) : SMap.wf d (SMap.set d k v m) = true :=
  SMap.set_wfFrom d k v m 0 (Nat.zero_le k) h

/-- In a canonical table nothing below the bound is listed. -/
theorem SMap.get_below {α : Type} [DecidableEq α] (d : Nat → α) {lo k : Nat} (hk : k < lo) {m : SMap α}
    (h : SMap.wfFrom d lo m = true) : SMap.get d m k = d k := by
  cases m with
  | nil => rfl
  | cons p t =>
    simp only [SMap.wfFrom, Bool.and_eq_true, decide_eq_true_eq] at h
    have h1 : k ≠ p.1 := by omega
    have h2 : k < p.1 := by omega
    simp [SMap.get, h1, h2]

/-- Read after write: the key written gives the value, every other key what it gave before. -/
theorem SMap.get_setFrom {α : Type} [DecidableEq α] (d : Nat → α) (k j : Nat) (v : α) :
    ∀ (m : SMap α) (lo : Nat), SMap.wfFrom d lo m = true →
      SMap.get d (SMap.set d k v m) j = if j = k then v else SMap.get d m j := by
  intro m
  induction m with
  | nil =>
    intro lo _
    by_cases hv : v = d k
    · by_cases hj : j = k
      · subst hj; simp [SMap.set, SMap.get, hv]
      · simp [SMap.set, SMap.get, hv, hj]
    · by_cases hj : j = k
      · subst hj; simp [SMap.set, SMap.get, hv]
      · simp [SMap.set, SMap.get, hv, hj]
  | cons p t ih =>
    intro lo hm
    obtain ⟨a, w⟩ := p
    simp only [SMap.wfFrom, Bool.and_eq_true, decide_eq_true_eq] at hm
    obtain ⟨⟨ha, hw⟩, ht⟩ := hm
    simp only [SMap.set]
    by_cases h1 : k < a
    · rw [if_pos h1]
      by_cases hv : v = d k
      · rw [if_pos hv]
        by_cases hj : j = k
        · subst hj
          have h2 : ¬ j = a := by omega
          simp [SMap.get, h1, h2, hv]
        · simp [hj]
      · rw [if_neg hv]
        by_cases hj : j = k
        · subst hj; simp [SMap.get]
        · by_cases hlt : j < k
          · have h2 : ¬ j = a := by omega
            have h3 : j < a := by omega
            simp [SMap.get, hj, hlt, h2, h3]
          · simp [SMap.get, hj, hlt]
    · rw [if_neg h1]
      by_cases h2 : k = a
      · subst h2
        rw [if_pos rfl]
        by_cases hv : v = d k
        · rw [if_pos hv]
          by_cases hj : j = k
          · subst hj
            rw [if_pos rfl, SMap.get_below d (Nat.lt_succ_self j) ht, hv]
          · rw [if_neg hj]
            by_cases hlt : j < k
            · have h3 : SMap.get d t j = d j := SMap.get_below d (by omega) ht
              simp [SMap.get, hj, hlt, h3]
            · simp [SMap.get, hj, hlt]
        · rw [if_neg hv]
          by_cases hj : j = k
          · subst hj; simp [SMap.get]
          · simp [SMap.get, hj]
      · rw [if_neg h2]
        have := ih (a + 1) ht
        by_cases hj : j = k
        · subst hj
          have h3 : ¬ j = a := by omega
          simp [SMap.get, h3, h1, this]
        · by_cases hja : j = a
          · subst hja; simp [SMap.get, hj]
          · by_cases hlt : j < a
            · simp [SMap.get, hj, hja, hlt]
            · simp [SMap.get, hj, hja, hlt, this]

/-- Read after write on a canonical table. -/
theorem SMap.get_set {α : Type} [DecidableEq α] (d : Nat → α) (m : SMap α) (k j : Nat) (v : α)
    (h : SMap.wf d m = true) : SMap.get d (SMap.set d k v m) j = if j = k then v else SMap.get d m j :=
  SMap.get_setFrom d k j v m 0 h

/-! ## Byte memory -/

theorem Memory.write_wf (m : Memory) (a : Nat) (b : Byte) (h : m.wf = true) : (m.write a b).wf = true :=
  SMap.set_wf memDefault a b m h

theorem Memory.read_write (m : Memory) (a j : Nat) (b : Byte) (h : m.wf = true) :
    (m.write a b).read j = if j = a then b else m.read j := SMap.get_set memDefault m a j b h

theorem Memory.writeBytes_wf (bs : Bytes) : ∀ (m : Memory) (a : Nat), m.wf = true → (m.writeBytes a bs).wf = true := by
  induction bs with
  | nil => intro m a h; exact h
  | cons b t ih => intro m a h; exact ih _ _ (Memory.write_wf m a b h)

/-- Outside the bytes written, a memory reads as before. -/
theorem Memory.read_writeBytes_outside (bs : Bytes) : ∀ (m : Memory) (a j : Nat), m.wf = true →
    (j < a ∨ a + bs.length ≤ j) → (m.writeBytes a bs).read j = m.read j := by
  induction bs with
  | nil => intro m a j _ _; rfl
  | cons b t ih =>
    intro m a j h hj
    simp only [List.length_cons] at hj
    show ((m.write a b).writeBytes (a + 1) t).read j = m.read j
    rw [ih _ _ _ (Memory.write_wf m a b h) (by omega), Memory.read_write m a j b h, if_neg (by omega)]

end Sys2Proof.Machine
end

