-- ==== Sys2Proof/Laws/State.lean ====
section
/-! SUPPORT. What the plain updates of State leave unchanged: one lemma per update and field, each true by rfl. -/

namespace Sys2Proof.Machine

open Sys2Proof

@[simp] theorem State.emit_regs (s : State) (o : Output) : (s.emit o).regs = s.regs := rfl
@[simp] theorem State.emit_dev (s : State) (o : Output) : (s.emit o).dev = s.dev := rfl
@[simp] theorem State.emit_cfg (s : State) (o : Output) : (s.emit o).cfg = s.cfg := rfl
@[simp] theorem State.emit_ports (s : State) (o : Output) : (s.emit o).ports = s.ports := rfl
@[simp] theorem State.emit_sessions (s : State) (o : Output) : (s.emit o).sessions = s.sessions := rfl
@[simp] theorem State.emit_authTimes (s : State) (o : Output) : (s.emit o).authTimes = s.authTimes := rfl
@[simp] theorem State.emit_cmd (s : State) (o : Output) : (s.emit o).cmd = s.cmd := rfl
@[simp] theorem State.emit_kv (s : State) (o : Output) : (s.emit o).kv = s.kv := rfl
@[simp] theorem State.emit_cam (s : State) (o : Output) : (s.emit o).cam = s.cam := rfl
@[simp] theorem State.emit_pat (s : State) (o : Output) : (s.emit o).pat = s.pat := rfl
@[simp] theorem State.emit_flash (s : State) (o : Output) : (s.emit o).flash = s.flash := rfl
@[simp] theorem State.emit_srv (s : State) (o : Output) : (s.emit o).srv = s.srv := rfl
@[simp] theorem State.emit_rdc (s : State) (o : Output) : (s.emit o).rdc = s.rdc := rfl
@[simp] theorem State.emit_cry (s : State) (o : Output) : (s.emit o).cry = s.cry := rfl
@[simp] theorem State.emit_key (s : State) (o : Output) : (s.emit o).key = s.key := rfl
@[simp] theorem State.emit_sea (s : State) (o : Output) : (s.emit o).sea = s.sea := rfl
@[simp] theorem State.emit_fab (s : State) (o : Output) : (s.emit o).fab = s.fab := rfl
@[simp] theorem State.emit_fw (s : State) (o : Output) : (s.emit o).fw = s.fw := rfl
@[simp] theorem State.emit_log (s : State) (o : Output) : (s.emit o).log = s.log := rfl
@[simp] theorem State.emit_dbg (s : State) (o : Output) : (s.emit o).dbg = s.dbg := rfl
@[simp] theorem State.emit_mctp (s : State) (o : Output) : (s.emit o).mctp = s.mctp := rfl
@[simp] theorem State.emit_latches (s : State) (o : Output) : (s.emit o).latches = s.latches := rfl
@[simp] theorem State.emit_sram (s : State) (o : Output) : (s.emit o).sram = s.sram := rfl
@[simp] theorem State.emit_dram (s : State) (o : Output) : (s.emit o).dram = s.dram := rfl
@[simp] theorem State.emit_free (s : State) (o : Output) : (s.emit o).free = s.free := rfl
@[simp] theorem State.emit_portQueue (s : State) (o : Output) : (s.emit o).portQueue = s.portQueue := rfl
@[simp] theorem State.emit_pending (s : State) (o : Output) : (s.emit o).pending = s.pending := rfl

@[simp] theorem State.tookFree_regs (s : State) : (s.tookFree).regs = s.regs := rfl
@[simp] theorem State.tookFree_dev (s : State) : (s.tookFree).dev = s.dev := rfl
@[simp] theorem State.tookFree_cfg (s : State) : (s.tookFree).cfg = s.cfg := rfl
@[simp] theorem State.tookFree_ports (s : State) : (s.tookFree).ports = s.ports := rfl
@[simp] theorem State.tookFree_sessions (s : State) : (s.tookFree).sessions = s.sessions := rfl
@[simp] theorem State.tookFree_authTimes (s : State) : (s.tookFree).authTimes = s.authTimes := rfl
@[simp] theorem State.tookFree_cmd (s : State) : (s.tookFree).cmd = s.cmd := rfl
@[simp] theorem State.tookFree_kv (s : State) : (s.tookFree).kv = s.kv := rfl
@[simp] theorem State.tookFree_cam (s : State) : (s.tookFree).cam = s.cam := rfl
@[simp] theorem State.tookFree_pat (s : State) : (s.tookFree).pat = s.pat := rfl
@[simp] theorem State.tookFree_flash (s : State) : (s.tookFree).flash = s.flash := rfl
@[simp] theorem State.tookFree_srv (s : State) : (s.tookFree).srv = s.srv := rfl
@[simp] theorem State.tookFree_rdc (s : State) : (s.tookFree).rdc = s.rdc := rfl
@[simp] theorem State.tookFree_cry (s : State) : (s.tookFree).cry = s.cry := rfl
@[simp] theorem State.tookFree_key (s : State) : (s.tookFree).key = s.key := rfl
@[simp] theorem State.tookFree_sea (s : State) : (s.tookFree).sea = s.sea := rfl
@[simp] theorem State.tookFree_fab (s : State) : (s.tookFree).fab = s.fab := rfl
@[simp] theorem State.tookFree_fw (s : State) : (s.tookFree).fw = s.fw := rfl
@[simp] theorem State.tookFree_log (s : State) : (s.tookFree).log = s.log := rfl
@[simp] theorem State.tookFree_dbg (s : State) : (s.tookFree).dbg = s.dbg := rfl
@[simp] theorem State.tookFree_mctp (s : State) : (s.tookFree).mctp = s.mctp := rfl
@[simp] theorem State.tookFree_latches (s : State) : (s.tookFree).latches = s.latches := rfl
@[simp] theorem State.tookFree_sram (s : State) : (s.tookFree).sram = s.sram := rfl
@[simp] theorem State.tookFree_dram (s : State) : (s.tookFree).dram = s.dram := rfl
@[simp] theorem State.tookFree_out (s : State) : (s.tookFree).out = s.out := rfl
@[simp] theorem State.tookFree_portQueue (s : State) : (s.tookFree).portQueue = s.portQueue := rfl
@[simp] theorem State.tookFree_pending (s : State) : (s.tookFree).pending = s.pending := rfl

@[simp] theorem State.setWord_dev (s : State) (a : Nat) (v : Word) : (s.setWord a v).dev = s.dev := rfl
@[simp] theorem State.setWord_cfg (s : State) (a : Nat) (v : Word) : (s.setWord a v).cfg = s.cfg := rfl
@[simp] theorem State.setWord_ports (s : State) (a : Nat) (v : Word) : (s.setWord a v).ports = s.ports := rfl
@[simp] theorem State.setWord_sessions (s : State) (a : Nat) (v : Word) : (s.setWord a v).sessions = s.sessions := rfl
@[simp] theorem State.setWord_authTimes (s : State) (a : Nat) (v : Word) : (s.setWord a v).authTimes = s.authTimes := rfl
@[simp] theorem State.setWord_cmd (s : State) (a : Nat) (v : Word) : (s.setWord a v).cmd = s.cmd := rfl
@[simp] theorem State.setWord_kv (s : State) (a : Nat) (v : Word) : (s.setWord a v).kv = s.kv := rfl
@[simp] theorem State.setWord_cam (s : State) (a : Nat) (v : Word) : (s.setWord a v).cam = s.cam := rfl
@[simp] theorem State.setWord_pat (s : State) (a : Nat) (v : Word) : (s.setWord a v).pat = s.pat := rfl
@[simp] theorem State.setWord_flash (s : State) (a : Nat) (v : Word) : (s.setWord a v).flash = s.flash := rfl
@[simp] theorem State.setWord_srv (s : State) (a : Nat) (v : Word) : (s.setWord a v).srv = s.srv := rfl
@[simp] theorem State.setWord_rdc (s : State) (a : Nat) (v : Word) : (s.setWord a v).rdc = s.rdc := rfl
@[simp] theorem State.setWord_cry (s : State) (a : Nat) (v : Word) : (s.setWord a v).cry = s.cry := rfl
@[simp] theorem State.setWord_key (s : State) (a : Nat) (v : Word) : (s.setWord a v).key = s.key := rfl
@[simp] theorem State.setWord_sea (s : State) (a : Nat) (v : Word) : (s.setWord a v).sea = s.sea := rfl
@[simp] theorem State.setWord_fab (s : State) (a : Nat) (v : Word) : (s.setWord a v).fab = s.fab := rfl
@[simp] theorem State.setWord_fw (s : State) (a : Nat) (v : Word) : (s.setWord a v).fw = s.fw := rfl
@[simp] theorem State.setWord_log (s : State) (a : Nat) (v : Word) : (s.setWord a v).log = s.log := rfl
@[simp] theorem State.setWord_dbg (s : State) (a : Nat) (v : Word) : (s.setWord a v).dbg = s.dbg := rfl
@[simp] theorem State.setWord_mctp (s : State) (a : Nat) (v : Word) : (s.setWord a v).mctp = s.mctp := rfl
@[simp] theorem State.setWord_latches (s : State) (a : Nat) (v : Word) : (s.setWord a v).latches = s.latches := rfl
@[simp] theorem State.setWord_sram (s : State) (a : Nat) (v : Word) : (s.setWord a v).sram = s.sram := rfl
@[simp] theorem State.setWord_dram (s : State) (a : Nat) (v : Word) : (s.setWord a v).dram = s.dram := rfl
@[simp] theorem State.setWord_free (s : State) (a : Nat) (v : Word) : (s.setWord a v).free = s.free := rfl
@[simp] theorem State.setWord_out (s : State) (a : Nat) (v : Word) : (s.setWord a v).out = s.out := rfl
@[simp] theorem State.setWord_portQueue (s : State) (a : Nat) (v : Word) : (s.setWord a v).portQueue = s.portQueue := rfl
@[simp] theorem State.setWord_pending (s : State) (a : Nat) (v : Word) : (s.setWord a v).pending = s.pending := rfl

@[simp] theorem State.wrAt_dev (s : State) (f : Field) (i k v : Nat) : (s.wrAt f i k v).dev = s.dev := rfl
@[simp] theorem State.wrAt_cfg (s : State) (f : Field) (i k v : Nat) : (s.wrAt f i k v).cfg = s.cfg := rfl
@[simp] theorem State.wrAt_ports (s : State) (f : Field) (i k v : Nat) : (s.wrAt f i k v).ports = s.ports := rfl
@[simp] theorem State.wrAt_sessions (s : State) (f : Field) (i k v : Nat) : (s.wrAt f i k v).sessions = s.sessions := rfl
@[simp] theorem State.wrAt_authTimes (s : State) (f : Field) (i k v : Nat) : (s.wrAt f i k v).authTimes = s.authTimes := rfl
@[simp] theorem State.wrAt_cmd (s : State) (f : Field) (i k v : Nat) : (s.wrAt f i k v).cmd = s.cmd := rfl
@[simp] theorem State.wrAt_kv (s : State) (f : Field) (i k v : Nat) : (s.wrAt f i k v).kv = s.kv := rfl
@[simp] theorem State.wrAt_cam (s : State) (f : Field) (i k v : Nat) : (s.wrAt f i k v).cam = s.cam := rfl
@[simp] theorem State.wrAt_pat (s : State) (f : Field) (i k v : Nat) : (s.wrAt f i k v).pat = s.pat := rfl
@[simp] theorem State.wrAt_flash (s : State) (f : Field) (i k v : Nat) : (s.wrAt f i k v).flash = s.flash := rfl
@[simp] theorem State.wrAt_srv (s : State) (f : Field) (i k v : Nat) : (s.wrAt f i k v).srv = s.srv := rfl
@[simp] theorem State.wrAt_rdc (s : State) (f : Field) (i k v : Nat) : (s.wrAt f i k v).rdc = s.rdc := rfl
@[simp] theorem State.wrAt_cry (s : State) (f : Field) (i k v : Nat) : (s.wrAt f i k v).cry = s.cry := rfl
@[simp] theorem State.wrAt_key (s : State) (f : Field) (i k v : Nat) : (s.wrAt f i k v).key = s.key := rfl
@[simp] theorem State.wrAt_sea (s : State) (f : Field) (i k v : Nat) : (s.wrAt f i k v).sea = s.sea := rfl
@[simp] theorem State.wrAt_fab (s : State) (f : Field) (i k v : Nat) : (s.wrAt f i k v).fab = s.fab := rfl
@[simp] theorem State.wrAt_fw (s : State) (f : Field) (i k v : Nat) : (s.wrAt f i k v).fw = s.fw := rfl
@[simp] theorem State.wrAt_log (s : State) (f : Field) (i k v : Nat) : (s.wrAt f i k v).log = s.log := rfl
@[simp] theorem State.wrAt_dbg (s : State) (f : Field) (i k v : Nat) : (s.wrAt f i k v).dbg = s.dbg := rfl
@[simp] theorem State.wrAt_mctp (s : State) (f : Field) (i k v : Nat) : (s.wrAt f i k v).mctp = s.mctp := rfl
@[simp] theorem State.wrAt_latches (s : State) (f : Field) (i k v : Nat) : (s.wrAt f i k v).latches = s.latches := rfl
@[simp] theorem State.wrAt_sram (s : State) (f : Field) (i k v : Nat) : (s.wrAt f i k v).sram = s.sram := rfl
@[simp] theorem State.wrAt_dram (s : State) (f : Field) (i k v : Nat) : (s.wrAt f i k v).dram = s.dram := rfl
@[simp] theorem State.wrAt_free (s : State) (f : Field) (i k v : Nat) : (s.wrAt f i k v).free = s.free := rfl
@[simp] theorem State.wrAt_out (s : State) (f : Field) (i k v : Nat) : (s.wrAt f i k v).out = s.out := rfl
@[simp] theorem State.wrAt_portQueue (s : State) (f : Field) (i k v : Nat) : (s.wrAt f i k v).portQueue = s.portQueue := rfl
@[simp] theorem State.wrAt_pending (s : State) (f : Field) (i k v : Nat) : (s.wrAt f i k v).pending = s.pending := rfl

@[simp] theorem State.wr_dev (s : State) (f : Field) (v : Nat) : (s.wr f v).dev = s.dev := rfl
@[simp] theorem State.wr_cfg (s : State) (f : Field) (v : Nat) : (s.wr f v).cfg = s.cfg := rfl
@[simp] theorem State.wr_ports (s : State) (f : Field) (v : Nat) : (s.wr f v).ports = s.ports := rfl
@[simp] theorem State.wr_sessions (s : State) (f : Field) (v : Nat) : (s.wr f v).sessions = s.sessions := rfl
@[simp] theorem State.wr_authTimes (s : State) (f : Field) (v : Nat) : (s.wr f v).authTimes = s.authTimes := rfl
@[simp] theorem State.wr_cmd (s : State) (f : Field) (v : Nat) : (s.wr f v).cmd = s.cmd := rfl
@[simp] theorem State.wr_kv (s : State) (f : Field) (v : Nat) : (s.wr f v).kv = s.kv := rfl
@[simp] theorem State.wr_cam (s : State) (f : Field) (v : Nat) : (s.wr f v).cam = s.cam := rfl
@[simp] theorem State.wr_pat (s : State) (f : Field) (v : Nat) : (s.wr f v).pat = s.pat := rfl
@[simp] theorem State.wr_flash (s : State) (f : Field) (v : Nat) : (s.wr f v).flash = s.flash := rfl
@[simp] theorem State.wr_srv (s : State) (f : Field) (v : Nat) : (s.wr f v).srv = s.srv := rfl
@[simp] theorem State.wr_rdc (s : State) (f : Field) (v : Nat) : (s.wr f v).rdc = s.rdc := rfl
@[simp] theorem State.wr_cry (s : State) (f : Field) (v : Nat) : (s.wr f v).cry = s.cry := rfl
@[simp] theorem State.wr_key (s : State) (f : Field) (v : Nat) : (s.wr f v).key = s.key := rfl
@[simp] theorem State.wr_sea (s : State) (f : Field) (v : Nat) : (s.wr f v).sea = s.sea := rfl
@[simp] theorem State.wr_fab (s : State) (f : Field) (v : Nat) : (s.wr f v).fab = s.fab := rfl
@[simp] theorem State.wr_fw (s : State) (f : Field) (v : Nat) : (s.wr f v).fw = s.fw := rfl
@[simp] theorem State.wr_log (s : State) (f : Field) (v : Nat) : (s.wr f v).log = s.log := rfl
@[simp] theorem State.wr_dbg (s : State) (f : Field) (v : Nat) : (s.wr f v).dbg = s.dbg := rfl
@[simp] theorem State.wr_mctp (s : State) (f : Field) (v : Nat) : (s.wr f v).mctp = s.mctp := rfl
@[simp] theorem State.wr_latches (s : State) (f : Field) (v : Nat) : (s.wr f v).latches = s.latches := rfl
@[simp] theorem State.wr_sram (s : State) (f : Field) (v : Nat) : (s.wr f v).sram = s.sram := rfl
@[simp] theorem State.wr_dram (s : State) (f : Field) (v : Nat) : (s.wr f v).dram = s.dram := rfl
@[simp] theorem State.wr_free (s : State) (f : Field) (v : Nat) : (s.wr f v).free = s.free := rfl
@[simp] theorem State.wr_out (s : State) (f : Field) (v : Nat) : (s.wr f v).out = s.out := rfl
@[simp] theorem State.wr_portQueue (s : State) (f : Field) (v : Nat) : (s.wr f v).portQueue = s.portQueue := rfl
@[simp] theorem State.wr_pending (s : State) (f : Field) (v : Nat) : (s.wr f v).pending = s.pending := rfl

@[simp] theorem State.count_dev (s : State) (f : Field) (n : Nat) : (s.count f n).dev = s.dev := rfl
@[simp] theorem State.count_cfg (s : State) (f : Field) (n : Nat) : (s.count f n).cfg = s.cfg := rfl
@[simp] theorem State.count_ports (s : State) (f : Field) (n : Nat) : (s.count f n).ports = s.ports := rfl
@[simp] theorem State.count_sessions (s : State) (f : Field) (n : Nat) : (s.count f n).sessions = s.sessions := rfl
@[simp] theorem State.count_authTimes (s : State) (f : Field) (n : Nat) : (s.count f n).authTimes = s.authTimes := rfl
@[simp] theorem State.count_cmd (s : State) (f : Field) (n : Nat) : (s.count f n).cmd = s.cmd := rfl
@[simp] theorem State.count_kv (s : State) (f : Field) (n : Nat) : (s.count f n).kv = s.kv := rfl
@[simp] theorem State.count_cam (s : State) (f : Field) (n : Nat) : (s.count f n).cam = s.cam := rfl
@[simp] theorem State.count_pat (s : State) (f : Field) (n : Nat) : (s.count f n).pat = s.pat := rfl
@[simp] theorem State.count_flash (s : State) (f : Field) (n : Nat) : (s.count f n).flash = s.flash := rfl
@[simp] theorem State.count_srv (s : State) (f : Field) (n : Nat) : (s.count f n).srv = s.srv := rfl
@[simp] theorem State.count_rdc (s : State) (f : Field) (n : Nat) : (s.count f n).rdc = s.rdc := rfl
@[simp] theorem State.count_cry (s : State) (f : Field) (n : Nat) : (s.count f n).cry = s.cry := rfl
@[simp] theorem State.count_key (s : State) (f : Field) (n : Nat) : (s.count f n).key = s.key := rfl
@[simp] theorem State.count_sea (s : State) (f : Field) (n : Nat) : (s.count f n).sea = s.sea := rfl
@[simp] theorem State.count_fab (s : State) (f : Field) (n : Nat) : (s.count f n).fab = s.fab := rfl
@[simp] theorem State.count_fw (s : State) (f : Field) (n : Nat) : (s.count f n).fw = s.fw := rfl
@[simp] theorem State.count_log (s : State) (f : Field) (n : Nat) : (s.count f n).log = s.log := rfl
@[simp] theorem State.count_dbg (s : State) (f : Field) (n : Nat) : (s.count f n).dbg = s.dbg := rfl
@[simp] theorem State.count_mctp (s : State) (f : Field) (n : Nat) : (s.count f n).mctp = s.mctp := rfl
@[simp] theorem State.count_latches (s : State) (f : Field) (n : Nat) : (s.count f n).latches = s.latches := rfl
@[simp] theorem State.count_sram (s : State) (f : Field) (n : Nat) : (s.count f n).sram = s.sram := rfl
@[simp] theorem State.count_dram (s : State) (f : Field) (n : Nat) : (s.count f n).dram = s.dram := rfl
@[simp] theorem State.count_free (s : State) (f : Field) (n : Nat) : (s.count f n).free = s.free := rfl
@[simp] theorem State.count_out (s : State) (f : Field) (n : Nat) : (s.count f n).out = s.out := rfl
@[simp] theorem State.count_portQueue (s : State) (f : Field) (n : Nat) : (s.count f n).portQueue = s.portQueue := rfl
@[simp] theorem State.count_pending (s : State) (f : Field) (n : Nat) : (s.count f n).pending = s.pending := rfl

@[simp] theorem State.countAt_dev (s : State) (f : Field) (i n : Nat) : (s.countAt f i n).dev = s.dev := rfl
@[simp] theorem State.countAt_cfg (s : State) (f : Field) (i n : Nat) : (s.countAt f i n).cfg = s.cfg := rfl
@[simp] theorem State.countAt_ports (s : State) (f : Field) (i n : Nat) : (s.countAt f i n).ports = s.ports := rfl
@[simp] theorem State.countAt_sessions (s : State) (f : Field) (i n : Nat) : (s.countAt f i n).sessions = s.sessions := rfl
@[simp] theorem State.countAt_authTimes (s : State) (f : Field) (i n : Nat) : (s.countAt f i n).authTimes = s.authTimes := rfl
@[simp] theorem State.countAt_cmd (s : State) (f : Field) (i n : Nat) : (s.countAt f i n).cmd = s.cmd := rfl
@[simp] theorem State.countAt_kv (s : State) (f : Field) (i n : Nat) : (s.countAt f i n).kv = s.kv := rfl
@[simp] theorem State.countAt_cam (s : State) (f : Field) (i n : Nat) : (s.countAt f i n).cam = s.cam := rfl
@[simp] theorem State.countAt_pat (s : State) (f : Field) (i n : Nat) : (s.countAt f i n).pat = s.pat := rfl
@[simp] theorem State.countAt_flash (s : State) (f : Field) (i n : Nat) : (s.countAt f i n).flash = s.flash := rfl
@[simp] theorem State.countAt_srv (s : State) (f : Field) (i n : Nat) : (s.countAt f i n).srv = s.srv := rfl
@[simp] theorem State.countAt_rdc (s : State) (f : Field) (i n : Nat) : (s.countAt f i n).rdc = s.rdc := rfl
@[simp] theorem State.countAt_cry (s : State) (f : Field) (i n : Nat) : (s.countAt f i n).cry = s.cry := rfl
@[simp] theorem State.countAt_key (s : State) (f : Field) (i n : Nat) : (s.countAt f i n).key = s.key := rfl
@[simp] theorem State.countAt_sea (s : State) (f : Field) (i n : Nat) : (s.countAt f i n).sea = s.sea := rfl
@[simp] theorem State.countAt_fab (s : State) (f : Field) (i n : Nat) : (s.countAt f i n).fab = s.fab := rfl
@[simp] theorem State.countAt_fw (s : State) (f : Field) (i n : Nat) : (s.countAt f i n).fw = s.fw := rfl
@[simp] theorem State.countAt_log (s : State) (f : Field) (i n : Nat) : (s.countAt f i n).log = s.log := rfl
@[simp] theorem State.countAt_dbg (s : State) (f : Field) (i n : Nat) : (s.countAt f i n).dbg = s.dbg := rfl
@[simp] theorem State.countAt_mctp (s : State) (f : Field) (i n : Nat) : (s.countAt f i n).mctp = s.mctp := rfl
@[simp] theorem State.countAt_latches (s : State) (f : Field) (i n : Nat) : (s.countAt f i n).latches = s.latches := rfl
@[simp] theorem State.countAt_sram (s : State) (f : Field) (i n : Nat) : (s.countAt f i n).sram = s.sram := rfl
@[simp] theorem State.countAt_dram (s : State) (f : Field) (i n : Nat) : (s.countAt f i n).dram = s.dram := rfl
@[simp] theorem State.countAt_free (s : State) (f : Field) (i n : Nat) : (s.countAt f i n).free = s.free := rfl
@[simp] theorem State.countAt_out (s : State) (f : Field) (i n : Nat) : (s.countAt f i n).out = s.out := rfl
@[simp] theorem State.countAt_portQueue (s : State) (f : Field) (i n : Nat) : (s.countAt f i n).portQueue = s.portQueue := rfl
@[simp] theorem State.countAt_pending (s : State) (f : Field) (i n : Nat) : (s.countAt f i n).pending = s.pending := rfl

@[simp] theorem State.setSlot_regs (s : State) (i : Nat) (k : Slot) : (s.setSlot i k).regs = s.regs := rfl
@[simp] theorem State.setSlot_dev (s : State) (i : Nat) (k : Slot) : (s.setSlot i k).dev = s.dev := rfl
@[simp] theorem State.setSlot_cfg (s : State) (i : Nat) (k : Slot) : (s.setSlot i k).cfg = s.cfg := rfl
@[simp] theorem State.setSlot_ports (s : State) (i : Nat) (k : Slot) : (s.setSlot i k).ports = s.ports := rfl
@[simp] theorem State.setSlot_sessions (s : State) (i : Nat) (k : Slot) : (s.setSlot i k).sessions = s.sessions := rfl
@[simp] theorem State.setSlot_authTimes (s : State) (i : Nat) (k : Slot) : (s.setSlot i k).authTimes = s.authTimes := rfl
@[simp] theorem State.setSlot_cmd (s : State) (i : Nat) (k : Slot) : (s.setSlot i k).cmd = s.cmd := rfl
@[simp] theorem State.setSlot_kv (s : State) (i : Nat) (k : Slot) : (s.setSlot i k).kv = s.kv := rfl
@[simp] theorem State.setSlot_cam (s : State) (i : Nat) (k : Slot) : (s.setSlot i k).cam = s.cam := rfl
@[simp] theorem State.setSlot_pat (s : State) (i : Nat) (k : Slot) : (s.setSlot i k).pat = s.pat := rfl
@[simp] theorem State.setSlot_flash (s : State) (i : Nat) (k : Slot) : (s.setSlot i k).flash = s.flash := rfl
@[simp] theorem State.setSlot_srv (s : State) (i : Nat) (k : Slot) : (s.setSlot i k).srv = s.srv := rfl
@[simp] theorem State.setSlot_rdc (s : State) (i : Nat) (k : Slot) : (s.setSlot i k).rdc = s.rdc := rfl
@[simp] theorem State.setSlot_cry (s : State) (i : Nat) (k : Slot) : (s.setSlot i k).cry = s.cry := rfl
@[simp] theorem State.setSlot_sea (s : State) (i : Nat) (k : Slot) : (s.setSlot i k).sea = s.sea := rfl
@[simp] theorem State.setSlot_fab (s : State) (i : Nat) (k : Slot) : (s.setSlot i k).fab = s.fab := rfl
@[simp] theorem State.setSlot_fw (s : State) (i : Nat) (k : Slot) : (s.setSlot i k).fw = s.fw := rfl
@[simp] theorem State.setSlot_log (s : State) (i : Nat) (k : Slot) : (s.setSlot i k).log = s.log := rfl
@[simp] theorem State.setSlot_dbg (s : State) (i : Nat) (k : Slot) : (s.setSlot i k).dbg = s.dbg := rfl
@[simp] theorem State.setSlot_mctp (s : State) (i : Nat) (k : Slot) : (s.setSlot i k).mctp = s.mctp := rfl
@[simp] theorem State.setSlot_latches (s : State) (i : Nat) (k : Slot) : (s.setSlot i k).latches = s.latches := rfl
@[simp] theorem State.setSlot_sram (s : State) (i : Nat) (k : Slot) : (s.setSlot i k).sram = s.sram := rfl
@[simp] theorem State.setSlot_dram (s : State) (i : Nat) (k : Slot) : (s.setSlot i k).dram = s.dram := rfl
@[simp] theorem State.setSlot_free (s : State) (i : Nat) (k : Slot) : (s.setSlot i k).free = s.free := rfl
@[simp] theorem State.setSlot_out (s : State) (i : Nat) (k : Slot) : (s.setSlot i k).out = s.out := rfl
@[simp] theorem State.setSlot_portQueue (s : State) (i : Nat) (k : Slot) : (s.setSlot i k).portQueue = s.portQueue := rfl
@[simp] theorem State.setSlot_pending (s : State) (i : Nat) (k : Slot) : (s.setSlot i k).pending = s.pending := rfl

@[simp] theorem State.setPort_regs (s : State) (p : Nat) (x : Port) : (s.setPort p x).regs = s.regs := rfl
@[simp] theorem State.setPort_dev (s : State) (p : Nat) (x : Port) : (s.setPort p x).dev = s.dev := rfl
@[simp] theorem State.setPort_cfg (s : State) (p : Nat) (x : Port) : (s.setPort p x).cfg = s.cfg := rfl
@[simp] theorem State.setPort_sessions (s : State) (p : Nat) (x : Port) : (s.setPort p x).sessions = s.sessions := rfl
@[simp] theorem State.setPort_authTimes (s : State) (p : Nat) (x : Port) : (s.setPort p x).authTimes = s.authTimes := rfl
@[simp] theorem State.setPort_cmd (s : State) (p : Nat) (x : Port) : (s.setPort p x).cmd = s.cmd := rfl
@[simp] theorem State.setPort_kv (s : State) (p : Nat) (x : Port) : (s.setPort p x).kv = s.kv := rfl
@[simp] theorem State.setPort_cam (s : State) (p : Nat) (x : Port) : (s.setPort p x).cam = s.cam := rfl
@[simp] theorem State.setPort_pat (s : State) (p : Nat) (x : Port) : (s.setPort p x).pat = s.pat := rfl
@[simp] theorem State.setPort_flash (s : State) (p : Nat) (x : Port) : (s.setPort p x).flash = s.flash := rfl
@[simp] theorem State.setPort_srv (s : State) (p : Nat) (x : Port) : (s.setPort p x).srv = s.srv := rfl
@[simp] theorem State.setPort_rdc (s : State) (p : Nat) (x : Port) : (s.setPort p x).rdc = s.rdc := rfl
@[simp] theorem State.setPort_cry (s : State) (p : Nat) (x : Port) : (s.setPort p x).cry = s.cry := rfl
@[simp] theorem State.setPort_key (s : State) (p : Nat) (x : Port) : (s.setPort p x).key = s.key := rfl
@[simp] theorem State.setPort_sea (s : State) (p : Nat) (x : Port) : (s.setPort p x).sea = s.sea := rfl
@[simp] theorem State.setPort_fab (s : State) (p : Nat) (x : Port) : (s.setPort p x).fab = s.fab := rfl
@[simp] theorem State.setPort_fw (s : State) (p : Nat) (x : Port) : (s.setPort p x).fw = s.fw := rfl
@[simp] theorem State.setPort_log (s : State) (p : Nat) (x : Port) : (s.setPort p x).log = s.log := rfl
@[simp] theorem State.setPort_dbg (s : State) (p : Nat) (x : Port) : (s.setPort p x).dbg = s.dbg := rfl
@[simp] theorem State.setPort_mctp (s : State) (p : Nat) (x : Port) : (s.setPort p x).mctp = s.mctp := rfl
@[simp] theorem State.setPort_latches (s : State) (p : Nat) (x : Port) : (s.setPort p x).latches = s.latches := rfl
@[simp] theorem State.setPort_sram (s : State) (p : Nat) (x : Port) : (s.setPort p x).sram = s.sram := rfl
@[simp] theorem State.setPort_dram (s : State) (p : Nat) (x : Port) : (s.setPort p x).dram = s.dram := rfl
@[simp] theorem State.setPort_free (s : State) (p : Nat) (x : Port) : (s.setPort p x).free = s.free := rfl
@[simp] theorem State.setPort_out (s : State) (p : Nat) (x : Port) : (s.setPort p x).out = s.out := rfl
@[simp] theorem State.setPort_portQueue (s : State) (p : Nat) (x : Port) : (s.setPort p x).portQueue = s.portQueue := rfl
@[simp] theorem State.setPort_pending (s : State) (p : Nat) (x : Port) : (s.setPort p x).pending = s.pending := rfl

@[simp] theorem State.setNs_regs (s : State) (n : Ns) : (s.setNs n).regs = s.regs := rfl
@[simp] theorem State.setNs_dev (s : State) (n : Ns) : (s.setNs n).dev = s.dev := rfl
@[simp] theorem State.setNs_cfg (s : State) (n : Ns) : (s.setNs n).cfg = s.cfg := rfl
@[simp] theorem State.setNs_ports (s : State) (n : Ns) : (s.setNs n).ports = s.ports := rfl
@[simp] theorem State.setNs_sessions (s : State) (n : Ns) : (s.setNs n).sessions = s.sessions := rfl
@[simp] theorem State.setNs_authTimes (s : State) (n : Ns) : (s.setNs n).authTimes = s.authTimes := rfl
@[simp] theorem State.setNs_cmd (s : State) (n : Ns) : (s.setNs n).cmd = s.cmd := rfl
@[simp] theorem State.setNs_cam (s : State) (n : Ns) : (s.setNs n).cam = s.cam := rfl
@[simp] theorem State.setNs_pat (s : State) (n : Ns) : (s.setNs n).pat = s.pat := rfl
@[simp] theorem State.setNs_flash (s : State) (n : Ns) : (s.setNs n).flash = s.flash := rfl
@[simp] theorem State.setNs_srv (s : State) (n : Ns) : (s.setNs n).srv = s.srv := rfl
@[simp] theorem State.setNs_rdc (s : State) (n : Ns) : (s.setNs n).rdc = s.rdc := rfl
@[simp] theorem State.setNs_cry (s : State) (n : Ns) : (s.setNs n).cry = s.cry := rfl
@[simp] theorem State.setNs_key (s : State) (n : Ns) : (s.setNs n).key = s.key := rfl
@[simp] theorem State.setNs_sea (s : State) (n : Ns) : (s.setNs n).sea = s.sea := rfl
@[simp] theorem State.setNs_fab (s : State) (n : Ns) : (s.setNs n).fab = s.fab := rfl
@[simp] theorem State.setNs_fw (s : State) (n : Ns) : (s.setNs n).fw = s.fw := rfl
@[simp] theorem State.setNs_log (s : State) (n : Ns) : (s.setNs n).log = s.log := rfl
@[simp] theorem State.setNs_dbg (s : State) (n : Ns) : (s.setNs n).dbg = s.dbg := rfl
@[simp] theorem State.setNs_mctp (s : State) (n : Ns) : (s.setNs n).mctp = s.mctp := rfl
@[simp] theorem State.setNs_latches (s : State) (n : Ns) : (s.setNs n).latches = s.latches := rfl
@[simp] theorem State.setNs_sram (s : State) (n : Ns) : (s.setNs n).sram = s.sram := rfl
@[simp] theorem State.setNs_dram (s : State) (n : Ns) : (s.setNs n).dram = s.dram := rfl
@[simp] theorem State.setNs_free (s : State) (n : Ns) : (s.setNs n).free = s.free := rfl
@[simp] theorem State.setNs_out (s : State) (n : Ns) : (s.setNs n).out = s.out := rfl
@[simp] theorem State.setNs_portQueue (s : State) (n : Ns) : (s.setNs n).portQueue = s.portQueue := rfl
@[simp] theorem State.setNs_pending (s : State) (n : Ns) : (s.setNs n).pending = s.pending := rfl

@[simp] theorem State.setExt_regs (s : State) (e : Extent) : (s.setExt e).regs = s.regs := rfl
@[simp] theorem State.setExt_dev (s : State) (e : Extent) : (s.setExt e).dev = s.dev := rfl
@[simp] theorem State.setExt_cfg (s : State) (e : Extent) : (s.setExt e).cfg = s.cfg := rfl
@[simp] theorem State.setExt_ports (s : State) (e : Extent) : (s.setExt e).ports = s.ports := rfl
@[simp] theorem State.setExt_sessions (s : State) (e : Extent) : (s.setExt e).sessions = s.sessions := rfl
@[simp] theorem State.setExt_authTimes (s : State) (e : Extent) : (s.setExt e).authTimes = s.authTimes := rfl
@[simp] theorem State.setExt_cmd (s : State) (e : Extent) : (s.setExt e).cmd = s.cmd := rfl
@[simp] theorem State.setExt_cam (s : State) (e : Extent) : (s.setExt e).cam = s.cam := rfl
@[simp] theorem State.setExt_pat (s : State) (e : Extent) : (s.setExt e).pat = s.pat := rfl
@[simp] theorem State.setExt_flash (s : State) (e : Extent) : (s.setExt e).flash = s.flash := rfl
@[simp] theorem State.setExt_srv (s : State) (e : Extent) : (s.setExt e).srv = s.srv := rfl
@[simp] theorem State.setExt_rdc (s : State) (e : Extent) : (s.setExt e).rdc = s.rdc := rfl
@[simp] theorem State.setExt_cry (s : State) (e : Extent) : (s.setExt e).cry = s.cry := rfl
@[simp] theorem State.setExt_key (s : State) (e : Extent) : (s.setExt e).key = s.key := rfl
@[simp] theorem State.setExt_sea (s : State) (e : Extent) : (s.setExt e).sea = s.sea := rfl
@[simp] theorem State.setExt_fab (s : State) (e : Extent) : (s.setExt e).fab = s.fab := rfl
@[simp] theorem State.setExt_fw (s : State) (e : Extent) : (s.setExt e).fw = s.fw := rfl
@[simp] theorem State.setExt_log (s : State) (e : Extent) : (s.setExt e).log = s.log := rfl
@[simp] theorem State.setExt_dbg (s : State) (e : Extent) : (s.setExt e).dbg = s.dbg := rfl
@[simp] theorem State.setExt_mctp (s : State) (e : Extent) : (s.setExt e).mctp = s.mctp := rfl
@[simp] theorem State.setExt_latches (s : State) (e : Extent) : (s.setExt e).latches = s.latches := rfl
@[simp] theorem State.setExt_sram (s : State) (e : Extent) : (s.setExt e).sram = s.sram := rfl
@[simp] theorem State.setExt_dram (s : State) (e : Extent) : (s.setExt e).dram = s.dram := rfl
@[simp] theorem State.setExt_free (s : State) (e : Extent) : (s.setExt e).free = s.free := rfl
@[simp] theorem State.setExt_out (s : State) (e : Extent) : (s.setExt e).out = s.out := rfl
@[simp] theorem State.setExt_portQueue (s : State) (e : Extent) : (s.setExt e).portQueue = s.portQueue := rfl
@[simp] theorem State.setExt_pending (s : State) (e : Extent) : (s.setExt e).pending = s.pending := rfl

@[simp] theorem State.setLeaf_regs (s : State) (l : Leaf) : (s.setLeaf l).regs = s.regs := rfl
@[simp] theorem State.setLeaf_dev (s : State) (l : Leaf) : (s.setLeaf l).dev = s.dev := rfl
@[simp] theorem State.setLeaf_cfg (s : State) (l : Leaf) : (s.setLeaf l).cfg = s.cfg := rfl
@[simp] theorem State.setLeaf_ports (s : State) (l : Leaf) : (s.setLeaf l).ports = s.ports := rfl
@[simp] theorem State.setLeaf_sessions (s : State) (l : Leaf) : (s.setLeaf l).sessions = s.sessions := rfl
@[simp] theorem State.setLeaf_authTimes (s : State) (l : Leaf) : (s.setLeaf l).authTimes = s.authTimes := rfl
@[simp] theorem State.setLeaf_cmd (s : State) (l : Leaf) : (s.setLeaf l).cmd = s.cmd := rfl
@[simp] theorem State.setLeaf_cam (s : State) (l : Leaf) : (s.setLeaf l).cam = s.cam := rfl
@[simp] theorem State.setLeaf_pat (s : State) (l : Leaf) : (s.setLeaf l).pat = s.pat := rfl
@[simp] theorem State.setLeaf_flash (s : State) (l : Leaf) : (s.setLeaf l).flash = s.flash := rfl
@[simp] theorem State.setLeaf_srv (s : State) (l : Leaf) : (s.setLeaf l).srv = s.srv := rfl
@[simp] theorem State.setLeaf_rdc (s : State) (l : Leaf) : (s.setLeaf l).rdc = s.rdc := rfl
@[simp] theorem State.setLeaf_cry (s : State) (l : Leaf) : (s.setLeaf l).cry = s.cry := rfl
@[simp] theorem State.setLeaf_key (s : State) (l : Leaf) : (s.setLeaf l).key = s.key := rfl
@[simp] theorem State.setLeaf_sea (s : State) (l : Leaf) : (s.setLeaf l).sea = s.sea := rfl
@[simp] theorem State.setLeaf_fab (s : State) (l : Leaf) : (s.setLeaf l).fab = s.fab := rfl
@[simp] theorem State.setLeaf_fw (s : State) (l : Leaf) : (s.setLeaf l).fw = s.fw := rfl
@[simp] theorem State.setLeaf_log (s : State) (l : Leaf) : (s.setLeaf l).log = s.log := rfl
@[simp] theorem State.setLeaf_dbg (s : State) (l : Leaf) : (s.setLeaf l).dbg = s.dbg := rfl
@[simp] theorem State.setLeaf_mctp (s : State) (l : Leaf) : (s.setLeaf l).mctp = s.mctp := rfl
@[simp] theorem State.setLeaf_latches (s : State) (l : Leaf) : (s.setLeaf l).latches = s.latches := rfl
@[simp] theorem State.setLeaf_sram (s : State) (l : Leaf) : (s.setLeaf l).sram = s.sram := rfl
@[simp] theorem State.setLeaf_dram (s : State) (l : Leaf) : (s.setLeaf l).dram = s.dram := rfl
@[simp] theorem State.setLeaf_free (s : State) (l : Leaf) : (s.setLeaf l).free = s.free := rfl
@[simp] theorem State.setLeaf_out (s : State) (l : Leaf) : (s.setLeaf l).out = s.out := rfl
@[simp] theorem State.setLeaf_portQueue (s : State) (l : Leaf) : (s.setLeaf l).portQueue = s.portQueue := rfl
@[simp] theorem State.setLeaf_pending (s : State) (l : Leaf) : (s.setLeaf l).pending = s.pending := rfl

@[simp] theorem State.setTable_regs (s : State) (t : Nat) (m : SMap (Option CamEntry)) : (s.setTable t m).regs = s.regs := rfl
@[simp] theorem State.setTable_dev (s : State) (t : Nat) (m : SMap (Option CamEntry)) : (s.setTable t m).dev = s.dev := rfl
@[simp] theorem State.setTable_cfg (s : State) (t : Nat) (m : SMap (Option CamEntry)) : (s.setTable t m).cfg = s.cfg := rfl
@[simp] theorem State.setTable_ports (s : State) (t : Nat) (m : SMap (Option CamEntry)) : (s.setTable t m).ports = s.ports := rfl
@[simp] theorem State.setTable_sessions (s : State) (t : Nat) (m : SMap (Option CamEntry)) : (s.setTable t m).sessions = s.sessions := rfl
@[simp] theorem State.setTable_authTimes (s : State) (t : Nat) (m : SMap (Option CamEntry)) : (s.setTable t m).authTimes = s.authTimes := rfl
@[simp] theorem State.setTable_cmd (s : State) (t : Nat) (m : SMap (Option CamEntry)) : (s.setTable t m).cmd = s.cmd := rfl
@[simp] theorem State.setTable_kv (s : State) (t : Nat) (m : SMap (Option CamEntry)) : (s.setTable t m).kv = s.kv := rfl
@[simp] theorem State.setTable_pat (s : State) (t : Nat) (m : SMap (Option CamEntry)) : (s.setTable t m).pat = s.pat := rfl
@[simp] theorem State.setTable_flash (s : State) (t : Nat) (m : SMap (Option CamEntry)) : (s.setTable t m).flash = s.flash := rfl
@[simp] theorem State.setTable_srv (s : State) (t : Nat) (m : SMap (Option CamEntry)) : (s.setTable t m).srv = s.srv := rfl
@[simp] theorem State.setTable_rdc (s : State) (t : Nat) (m : SMap (Option CamEntry)) : (s.setTable t m).rdc = s.rdc := rfl
@[simp] theorem State.setTable_cry (s : State) (t : Nat) (m : SMap (Option CamEntry)) : (s.setTable t m).cry = s.cry := rfl
@[simp] theorem State.setTable_key (s : State) (t : Nat) (m : SMap (Option CamEntry)) : (s.setTable t m).key = s.key := rfl
@[simp] theorem State.setTable_sea (s : State) (t : Nat) (m : SMap (Option CamEntry)) : (s.setTable t m).sea = s.sea := rfl
@[simp] theorem State.setTable_fab (s : State) (t : Nat) (m : SMap (Option CamEntry)) : (s.setTable t m).fab = s.fab := rfl
@[simp] theorem State.setTable_fw (s : State) (t : Nat) (m : SMap (Option CamEntry)) : (s.setTable t m).fw = s.fw := rfl
@[simp] theorem State.setTable_log (s : State) (t : Nat) (m : SMap (Option CamEntry)) : (s.setTable t m).log = s.log := rfl
@[simp] theorem State.setTable_dbg (s : State) (t : Nat) (m : SMap (Option CamEntry)) : (s.setTable t m).dbg = s.dbg := rfl
@[simp] theorem State.setTable_mctp (s : State) (t : Nat) (m : SMap (Option CamEntry)) : (s.setTable t m).mctp = s.mctp := rfl
@[simp] theorem State.setTable_latches (s : State) (t : Nat) (m : SMap (Option CamEntry)) : (s.setTable t m).latches = s.latches := rfl
@[simp] theorem State.setTable_sram (s : State) (t : Nat) (m : SMap (Option CamEntry)) : (s.setTable t m).sram = s.sram := rfl
@[simp] theorem State.setTable_dram (s : State) (t : Nat) (m : SMap (Option CamEntry)) : (s.setTable t m).dram = s.dram := rfl
@[simp] theorem State.setTable_free (s : State) (t : Nat) (m : SMap (Option CamEntry)) : (s.setTable t m).free = s.free := rfl
@[simp] theorem State.setTable_out (s : State) (t : Nat) (m : SMap (Option CamEntry)) : (s.setTable t m).out = s.out := rfl
@[simp] theorem State.setTable_portQueue (s : State) (t : Nat) (m : SMap (Option CamEntry)) : (s.setTable t m).portQueue = s.portQueue := rfl
@[simp] theorem State.setTable_pending (s : State) (t : Nat) (m : SMap (Option CamEntry)) : (s.setTable t m).pending = s.pending := rfl

@[simp] theorem State.setEntry_regs (s : State) (e : TagEntry) : (s.setEntry e).regs = s.regs := rfl
@[simp] theorem State.setEntry_dev (s : State) (e : TagEntry) : (s.setEntry e).dev = s.dev := rfl
@[simp] theorem State.setEntry_cfg (s : State) (e : TagEntry) : (s.setEntry e).cfg = s.cfg := rfl
@[simp] theorem State.setEntry_ports (s : State) (e : TagEntry) : (s.setEntry e).ports = s.ports := rfl
@[simp] theorem State.setEntry_sessions (s : State) (e : TagEntry) : (s.setEntry e).sessions = s.sessions := rfl
@[simp] theorem State.setEntry_authTimes (s : State) (e : TagEntry) : (s.setEntry e).authTimes = s.authTimes := rfl
@[simp] theorem State.setEntry_kv (s : State) (e : TagEntry) : (s.setEntry e).kv = s.kv := rfl
@[simp] theorem State.setEntry_cam (s : State) (e : TagEntry) : (s.setEntry e).cam = s.cam := rfl
@[simp] theorem State.setEntry_pat (s : State) (e : TagEntry) : (s.setEntry e).pat = s.pat := rfl
@[simp] theorem State.setEntry_flash (s : State) (e : TagEntry) : (s.setEntry e).flash = s.flash := rfl
@[simp] theorem State.setEntry_srv (s : State) (e : TagEntry) : (s.setEntry e).srv = s.srv := rfl
@[simp] theorem State.setEntry_rdc (s : State) (e : TagEntry) : (s.setEntry e).rdc = s.rdc := rfl
@[simp] theorem State.setEntry_cry (s : State) (e : TagEntry) : (s.setEntry e).cry = s.cry := rfl
@[simp] theorem State.setEntry_key (s : State) (e : TagEntry) : (s.setEntry e).key = s.key := rfl
@[simp] theorem State.setEntry_sea (s : State) (e : TagEntry) : (s.setEntry e).sea = s.sea := rfl
@[simp] theorem State.setEntry_fab (s : State) (e : TagEntry) : (s.setEntry e).fab = s.fab := rfl
@[simp] theorem State.setEntry_fw (s : State) (e : TagEntry) : (s.setEntry e).fw = s.fw := rfl
@[simp] theorem State.setEntry_log (s : State) (e : TagEntry) : (s.setEntry e).log = s.log := rfl
@[simp] theorem State.setEntry_dbg (s : State) (e : TagEntry) : (s.setEntry e).dbg = s.dbg := rfl
@[simp] theorem State.setEntry_mctp (s : State) (e : TagEntry) : (s.setEntry e).mctp = s.mctp := rfl
@[simp] theorem State.setEntry_latches (s : State) (e : TagEntry) : (s.setEntry e).latches = s.latches := rfl
@[simp] theorem State.setEntry_sram (s : State) (e : TagEntry) : (s.setEntry e).sram = s.sram := rfl
@[simp] theorem State.setEntry_dram (s : State) (e : TagEntry) : (s.setEntry e).dram = s.dram := rfl
@[simp] theorem State.setEntry_free (s : State) (e : TagEntry) : (s.setEntry e).free = s.free := rfl
@[simp] theorem State.setEntry_out (s : State) (e : TagEntry) : (s.setEntry e).out = s.out := rfl
@[simp] theorem State.setEntry_portQueue (s : State) (e : TagEntry) : (s.setEntry e).portQueue = s.portQueue := rfl
@[simp] theorem State.setEntry_pending (s : State) (e : TagEntry) : (s.setEntry e).pending = s.pending := rfl

@[simp] theorem State.setUpload_regs (s : State) (u : Upload) : (s.setUpload u).regs = s.regs := rfl
@[simp] theorem State.setUpload_dev (s : State) (u : Upload) : (s.setUpload u).dev = s.dev := rfl
@[simp] theorem State.setUpload_cfg (s : State) (u : Upload) : (s.setUpload u).cfg = s.cfg := rfl
@[simp] theorem State.setUpload_ports (s : State) (u : Upload) : (s.setUpload u).ports = s.ports := rfl
@[simp] theorem State.setUpload_sessions (s : State) (u : Upload) : (s.setUpload u).sessions = s.sessions := rfl
@[simp] theorem State.setUpload_authTimes (s : State) (u : Upload) : (s.setUpload u).authTimes = s.authTimes := rfl
@[simp] theorem State.setUpload_kv (s : State) (u : Upload) : (s.setUpload u).kv = s.kv := rfl
@[simp] theorem State.setUpload_cam (s : State) (u : Upload) : (s.setUpload u).cam = s.cam := rfl
@[simp] theorem State.setUpload_pat (s : State) (u : Upload) : (s.setUpload u).pat = s.pat := rfl
@[simp] theorem State.setUpload_flash (s : State) (u : Upload) : (s.setUpload u).flash = s.flash := rfl
@[simp] theorem State.setUpload_srv (s : State) (u : Upload) : (s.setUpload u).srv = s.srv := rfl
@[simp] theorem State.setUpload_rdc (s : State) (u : Upload) : (s.setUpload u).rdc = s.rdc := rfl
@[simp] theorem State.setUpload_cry (s : State) (u : Upload) : (s.setUpload u).cry = s.cry := rfl
@[simp] theorem State.setUpload_key (s : State) (u : Upload) : (s.setUpload u).key = s.key := rfl
@[simp] theorem State.setUpload_sea (s : State) (u : Upload) : (s.setUpload u).sea = s.sea := rfl
@[simp] theorem State.setUpload_fab (s : State) (u : Upload) : (s.setUpload u).fab = s.fab := rfl
@[simp] theorem State.setUpload_fw (s : State) (u : Upload) : (s.setUpload u).fw = s.fw := rfl
@[simp] theorem State.setUpload_log (s : State) (u : Upload) : (s.setUpload u).log = s.log := rfl
@[simp] theorem State.setUpload_dbg (s : State) (u : Upload) : (s.setUpload u).dbg = s.dbg := rfl
@[simp] theorem State.setUpload_mctp (s : State) (u : Upload) : (s.setUpload u).mctp = s.mctp := rfl
@[simp] theorem State.setUpload_latches (s : State) (u : Upload) : (s.setUpload u).latches = s.latches := rfl
@[simp] theorem State.setUpload_sram (s : State) (u : Upload) : (s.setUpload u).sram = s.sram := rfl
@[simp] theorem State.setUpload_dram (s : State) (u : Upload) : (s.setUpload u).dram = s.dram := rfl
@[simp] theorem State.setUpload_free (s : State) (u : Upload) : (s.setUpload u).free = s.free := rfl
@[simp] theorem State.setUpload_out (s : State) (u : Upload) : (s.setUpload u).out = s.out := rfl
@[simp] theorem State.setUpload_portQueue (s : State) (u : Upload) : (s.setUpload u).portQueue = s.portQueue := rfl
@[simp] theorem State.setUpload_pending (s : State) (u : Upload) : (s.setUpload u).pending = s.pending := rfl

@[simp] theorem State.setMember_regs (s : State) (m : MirrorMember) : (s.setMember m).regs = s.regs := rfl
@[simp] theorem State.setMember_dev (s : State) (m : MirrorMember) : (s.setMember m).dev = s.dev := rfl
@[simp] theorem State.setMember_cfg (s : State) (m : MirrorMember) : (s.setMember m).cfg = s.cfg := rfl
@[simp] theorem State.setMember_ports (s : State) (m : MirrorMember) : (s.setMember m).ports = s.ports := rfl
@[simp] theorem State.setMember_sessions (s : State) (m : MirrorMember) : (s.setMember m).sessions = s.sessions := rfl
@[simp] theorem State.setMember_authTimes (s : State) (m : MirrorMember) : (s.setMember m).authTimes = s.authTimes := rfl
@[simp] theorem State.setMember_cmd (s : State) (m : MirrorMember) : (s.setMember m).cmd = s.cmd := rfl
@[simp] theorem State.setMember_kv (s : State) (m : MirrorMember) : (s.setMember m).kv = s.kv := rfl
@[simp] theorem State.setMember_cam (s : State) (m : MirrorMember) : (s.setMember m).cam = s.cam := rfl
@[simp] theorem State.setMember_pat (s : State) (m : MirrorMember) : (s.setMember m).pat = s.pat := rfl
@[simp] theorem State.setMember_flash (s : State) (m : MirrorMember) : (s.setMember m).flash = s.flash := rfl
@[simp] theorem State.setMember_srv (s : State) (m : MirrorMember) : (s.setMember m).srv = s.srv := rfl
@[simp] theorem State.setMember_rdc (s : State) (m : MirrorMember) : (s.setMember m).rdc = s.rdc := rfl
@[simp] theorem State.setMember_cry (s : State) (m : MirrorMember) : (s.setMember m).cry = s.cry := rfl
@[simp] theorem State.setMember_key (s : State) (m : MirrorMember) : (s.setMember m).key = s.key := rfl
@[simp] theorem State.setMember_sea (s : State) (m : MirrorMember) : (s.setMember m).sea = s.sea := rfl
@[simp] theorem State.setMember_fw (s : State) (m : MirrorMember) : (s.setMember m).fw = s.fw := rfl
@[simp] theorem State.setMember_log (s : State) (m : MirrorMember) : (s.setMember m).log = s.log := rfl
@[simp] theorem State.setMember_dbg (s : State) (m : MirrorMember) : (s.setMember m).dbg = s.dbg := rfl
@[simp] theorem State.setMember_mctp (s : State) (m : MirrorMember) : (s.setMember m).mctp = s.mctp := rfl
@[simp] theorem State.setMember_latches (s : State) (m : MirrorMember) : (s.setMember m).latches = s.latches := rfl
@[simp] theorem State.setMember_sram (s : State) (m : MirrorMember) : (s.setMember m).sram = s.sram := rfl
@[simp] theorem State.setMember_dram (s : State) (m : MirrorMember) : (s.setMember m).dram = s.dram := rfl
@[simp] theorem State.setMember_free (s : State) (m : MirrorMember) : (s.setMember m).free = s.free := rfl
@[simp] theorem State.setMember_out (s : State) (m : MirrorMember) : (s.setMember m).out = s.out := rfl
@[simp] theorem State.setMember_portQueue (s : State) (m : MirrorMember) : (s.setMember m).portQueue = s.portQueue := rfl
@[simp] theorem State.setMember_pending (s : State) (m : MirrorMember) : (s.setMember m).pending = s.pending := rfl

@[simp] theorem State.setLink_regs (s : State) (l : Link) : (s.setLink l).regs = s.regs := rfl
@[simp] theorem State.setLink_dev (s : State) (l : Link) : (s.setLink l).dev = s.dev := rfl
@[simp] theorem State.setLink_cfg (s : State) (l : Link) : (s.setLink l).cfg = s.cfg := rfl
@[simp] theorem State.setLink_ports (s : State) (l : Link) : (s.setLink l).ports = s.ports := rfl
@[simp] theorem State.setLink_sessions (s : State) (l : Link) : (s.setLink l).sessions = s.sessions := rfl
@[simp] theorem State.setLink_authTimes (s : State) (l : Link) : (s.setLink l).authTimes = s.authTimes := rfl
@[simp] theorem State.setLink_cmd (s : State) (l : Link) : (s.setLink l).cmd = s.cmd := rfl
@[simp] theorem State.setLink_kv (s : State) (l : Link) : (s.setLink l).kv = s.kv := rfl
@[simp] theorem State.setLink_cam (s : State) (l : Link) : (s.setLink l).cam = s.cam := rfl
@[simp] theorem State.setLink_pat (s : State) (l : Link) : (s.setLink l).pat = s.pat := rfl
@[simp] theorem State.setLink_flash (s : State) (l : Link) : (s.setLink l).flash = s.flash := rfl
@[simp] theorem State.setLink_srv (s : State) (l : Link) : (s.setLink l).srv = s.srv := rfl
@[simp] theorem State.setLink_rdc (s : State) (l : Link) : (s.setLink l).rdc = s.rdc := rfl
@[simp] theorem State.setLink_cry (s : State) (l : Link) : (s.setLink l).cry = s.cry := rfl
@[simp] theorem State.setLink_key (s : State) (l : Link) : (s.setLink l).key = s.key := rfl
@[simp] theorem State.setLink_sea (s : State) (l : Link) : (s.setLink l).sea = s.sea := rfl
@[simp] theorem State.setLink_fw (s : State) (l : Link) : (s.setLink l).fw = s.fw := rfl
@[simp] theorem State.setLink_log (s : State) (l : Link) : (s.setLink l).log = s.log := rfl
@[simp] theorem State.setLink_dbg (s : State) (l : Link) : (s.setLink l).dbg = s.dbg := rfl
@[simp] theorem State.setLink_mctp (s : State) (l : Link) : (s.setLink l).mctp = s.mctp := rfl
@[simp] theorem State.setLink_latches (s : State) (l : Link) : (s.setLink l).latches = s.latches := rfl
@[simp] theorem State.setLink_sram (s : State) (l : Link) : (s.setLink l).sram = s.sram := rfl
@[simp] theorem State.setLink_dram (s : State) (l : Link) : (s.setLink l).dram = s.dram := rfl
@[simp] theorem State.setLink_free (s : State) (l : Link) : (s.setLink l).free = s.free := rfl
@[simp] theorem State.setLink_out (s : State) (l : Link) : (s.setLink l).out = s.out := rfl
@[simp] theorem State.setLink_portQueue (s : State) (l : Link) : (s.setLink l).portQueue = s.portQueue := rfl
@[simp] theorem State.setLink_pending (s : State) (l : Link) : (s.setLink l).pending = s.pending := rfl

@[simp] theorem State.setSled_regs (s : State) (e : SledEntry) : (s.setSled e).regs = s.regs := rfl
@[simp] theorem State.setSled_dev (s : State) (e : SledEntry) : (s.setSled e).dev = s.dev := rfl
@[simp] theorem State.setSled_cfg (s : State) (e : SledEntry) : (s.setSled e).cfg = s.cfg := rfl
@[simp] theorem State.setSled_ports (s : State) (e : SledEntry) : (s.setSled e).ports = s.ports := rfl
@[simp] theorem State.setSled_sessions (s : State) (e : SledEntry) : (s.setSled e).sessions = s.sessions := rfl
@[simp] theorem State.setSled_authTimes (s : State) (e : SledEntry) : (s.setSled e).authTimes = s.authTimes := rfl
@[simp] theorem State.setSled_cmd (s : State) (e : SledEntry) : (s.setSled e).cmd = s.cmd := rfl
@[simp] theorem State.setSled_kv (s : State) (e : SledEntry) : (s.setSled e).kv = s.kv := rfl
@[simp] theorem State.setSled_cam (s : State) (e : SledEntry) : (s.setSled e).cam = s.cam := rfl
@[simp] theorem State.setSled_pat (s : State) (e : SledEntry) : (s.setSled e).pat = s.pat := rfl
@[simp] theorem State.setSled_flash (s : State) (e : SledEntry) : (s.setSled e).flash = s.flash := rfl
@[simp] theorem State.setSled_srv (s : State) (e : SledEntry) : (s.setSled e).srv = s.srv := rfl
@[simp] theorem State.setSled_rdc (s : State) (e : SledEntry) : (s.setSled e).rdc = s.rdc := rfl
@[simp] theorem State.setSled_cry (s : State) (e : SledEntry) : (s.setSled e).cry = s.cry := rfl
@[simp] theorem State.setSled_key (s : State) (e : SledEntry) : (s.setSled e).key = s.key := rfl
@[simp] theorem State.setSled_sea (s : State) (e : SledEntry) : (s.setSled e).sea = s.sea := rfl
@[simp] theorem State.setSled_fw (s : State) (e : SledEntry) : (s.setSled e).fw = s.fw := rfl
@[simp] theorem State.setSled_log (s : State) (e : SledEntry) : (s.setSled e).log = s.log := rfl
@[simp] theorem State.setSled_dbg (s : State) (e : SledEntry) : (s.setSled e).dbg = s.dbg := rfl
@[simp] theorem State.setSled_mctp (s : State) (e : SledEntry) : (s.setSled e).mctp = s.mctp := rfl
@[simp] theorem State.setSled_latches (s : State) (e : SledEntry) : (s.setSled e).latches = s.latches := rfl
@[simp] theorem State.setSled_sram (s : State) (e : SledEntry) : (s.setSled e).sram = s.sram := rfl
@[simp] theorem State.setSled_dram (s : State) (e : SledEntry) : (s.setSled e).dram = s.dram := rfl
@[simp] theorem State.setSled_free (s : State) (e : SledEntry) : (s.setSled e).free = s.free := rfl
@[simp] theorem State.setSled_out (s : State) (e : SledEntry) : (s.setSled e).out = s.out := rfl
@[simp] theorem State.setSled_portQueue (s : State) (e : SledEntry) : (s.setSled e).portQueue = s.portQueue := rfl
@[simp] theorem State.setSled_pending (s : State) (e : SledEntry) : (s.setSled e).pending = s.pending := rfl

@[simp] theorem State.setHead_regs (s : State) (h : Head) : (s.setHead h).regs = s.regs := rfl
@[simp] theorem State.setHead_dev (s : State) (h : Head) : (s.setHead h).dev = s.dev := rfl
@[simp] theorem State.setHead_cfg (s : State) (h : Head) : (s.setHead h).cfg = s.cfg := rfl
@[simp] theorem State.setHead_ports (s : State) (h : Head) : (s.setHead h).ports = s.ports := rfl
@[simp] theorem State.setHead_sessions (s : State) (h : Head) : (s.setHead h).sessions = s.sessions := rfl
@[simp] theorem State.setHead_authTimes (s : State) (h : Head) : (s.setHead h).authTimes = s.authTimes := rfl
@[simp] theorem State.setHead_cmd (s : State) (h : Head) : (s.setHead h).cmd = s.cmd := rfl
@[simp] theorem State.setHead_kv (s : State) (h : Head) : (s.setHead h).kv = s.kv := rfl
@[simp] theorem State.setHead_cam (s : State) (h : Head) : (s.setHead h).cam = s.cam := rfl
@[simp] theorem State.setHead_pat (s : State) (h : Head) : (s.setHead h).pat = s.pat := rfl
@[simp] theorem State.setHead_flash (s : State) (h : Head) : (s.setHead h).flash = s.flash := rfl
@[simp] theorem State.setHead_rdc (s : State) (h : Head) : (s.setHead h).rdc = s.rdc := rfl
@[simp] theorem State.setHead_cry (s : State) (h : Head) : (s.setHead h).cry = s.cry := rfl
@[simp] theorem State.setHead_key (s : State) (h : Head) : (s.setHead h).key = s.key := rfl
@[simp] theorem State.setHead_sea (s : State) (h : Head) : (s.setHead h).sea = s.sea := rfl
@[simp] theorem State.setHead_fab (s : State) (h : Head) : (s.setHead h).fab = s.fab := rfl
@[simp] theorem State.setHead_fw (s : State) (h : Head) : (s.setHead h).fw = s.fw := rfl
@[simp] theorem State.setHead_log (s : State) (h : Head) : (s.setHead h).log = s.log := rfl
@[simp] theorem State.setHead_dbg (s : State) (h : Head) : (s.setHead h).dbg = s.dbg := rfl
@[simp] theorem State.setHead_mctp (s : State) (h : Head) : (s.setHead h).mctp = s.mctp := rfl
@[simp] theorem State.setHead_latches (s : State) (h : Head) : (s.setHead h).latches = s.latches := rfl
@[simp] theorem State.setHead_sram (s : State) (h : Head) : (s.setHead h).sram = s.sram := rfl
@[simp] theorem State.setHead_dram (s : State) (h : Head) : (s.setHead h).dram = s.dram := rfl
@[simp] theorem State.setHead_free (s : State) (h : Head) : (s.setHead h).free = s.free := rfl
@[simp] theorem State.setHead_out (s : State) (h : Head) : (s.setHead h).out = s.out := rfl
@[simp] theorem State.setHead_portQueue (s : State) (h : Head) : (s.setHead h).portQueue = s.portQueue := rfl
@[simp] theorem State.setHead_pending (s : State) (h : Head) : (s.setHead h).pending = s.pending := rfl

@[simp] theorem State.setActuator_regs (s : State) (a : Actuator) : (s.setActuator a).regs = s.regs := rfl
@[simp] theorem State.setActuator_dev (s : State) (a : Actuator) : (s.setActuator a).dev = s.dev := rfl
@[simp] theorem State.setActuator_cfg (s : State) (a : Actuator) : (s.setActuator a).cfg = s.cfg := rfl
@[simp] theorem State.setActuator_ports (s : State) (a : Actuator) : (s.setActuator a).ports = s.ports := rfl
@[simp] theorem State.setActuator_sessions (s : State) (a : Actuator) : (s.setActuator a).sessions = s.sessions := rfl
@[simp] theorem State.setActuator_authTimes (s : State) (a : Actuator) : (s.setActuator a).authTimes = s.authTimes := rfl
@[simp] theorem State.setActuator_cmd (s : State) (a : Actuator) : (s.setActuator a).cmd = s.cmd := rfl
@[simp] theorem State.setActuator_kv (s : State) (a : Actuator) : (s.setActuator a).kv = s.kv := rfl
@[simp] theorem State.setActuator_cam (s : State) (a : Actuator) : (s.setActuator a).cam = s.cam := rfl
@[simp] theorem State.setActuator_pat (s : State) (a : Actuator) : (s.setActuator a).pat = s.pat := rfl
@[simp] theorem State.setActuator_flash (s : State) (a : Actuator) : (s.setActuator a).flash = s.flash := rfl
@[simp] theorem State.setActuator_rdc (s : State) (a : Actuator) : (s.setActuator a).rdc = s.rdc := rfl
@[simp] theorem State.setActuator_cry (s : State) (a : Actuator) : (s.setActuator a).cry = s.cry := rfl
@[simp] theorem State.setActuator_key (s : State) (a : Actuator) : (s.setActuator a).key = s.key := rfl
@[simp] theorem State.setActuator_sea (s : State) (a : Actuator) : (s.setActuator a).sea = s.sea := rfl
@[simp] theorem State.setActuator_fab (s : State) (a : Actuator) : (s.setActuator a).fab = s.fab := rfl
@[simp] theorem State.setActuator_fw (s : State) (a : Actuator) : (s.setActuator a).fw = s.fw := rfl
@[simp] theorem State.setActuator_log (s : State) (a : Actuator) : (s.setActuator a).log = s.log := rfl
@[simp] theorem State.setActuator_dbg (s : State) (a : Actuator) : (s.setActuator a).dbg = s.dbg := rfl
@[simp] theorem State.setActuator_mctp (s : State) (a : Actuator) : (s.setActuator a).mctp = s.mctp := rfl
@[simp] theorem State.setActuator_latches (s : State) (a : Actuator) : (s.setActuator a).latches = s.latches := rfl
@[simp] theorem State.setActuator_sram (s : State) (a : Actuator) : (s.setActuator a).sram = s.sram := rfl
@[simp] theorem State.setActuator_dram (s : State) (a : Actuator) : (s.setActuator a).dram = s.dram := rfl
@[simp] theorem State.setActuator_free (s : State) (a : Actuator) : (s.setActuator a).free = s.free := rfl
@[simp] theorem State.setActuator_out (s : State) (a : Actuator) : (s.setActuator a).out = s.out := rfl
@[simp] theorem State.setActuator_portQueue (s : State) (a : Actuator) : (s.setActuator a).portQueue = s.portQueue := rfl
@[simp] theorem State.setActuator_pending (s : State) (a : Actuator) : (s.setActuator a).pending = s.pending := rfl

@[simp] theorem State.setStaging_regs (s : State) (g : Option Staging) : (s.setStaging g).regs = s.regs := rfl
@[simp] theorem State.setStaging_dev (s : State) (g : Option Staging) : (s.setStaging g).dev = s.dev := rfl
@[simp] theorem State.setStaging_cfg (s : State) (g : Option Staging) : (s.setStaging g).cfg = s.cfg := rfl
@[simp] theorem State.setStaging_ports (s : State) (g : Option Staging) : (s.setStaging g).ports = s.ports := rfl
@[simp] theorem State.setStaging_sessions (s : State) (g : Option Staging) : (s.setStaging g).sessions = s.sessions := rfl
@[simp] theorem State.setStaging_authTimes (s : State) (g : Option Staging) : (s.setStaging g).authTimes = s.authTimes := rfl
@[simp] theorem State.setStaging_cmd (s : State) (g : Option Staging) : (s.setStaging g).cmd = s.cmd := rfl
@[simp] theorem State.setStaging_kv (s : State) (g : Option Staging) : (s.setStaging g).kv = s.kv := rfl
@[simp] theorem State.setStaging_cam (s : State) (g : Option Staging) : (s.setStaging g).cam = s.cam := rfl
@[simp] theorem State.setStaging_pat (s : State) (g : Option Staging) : (s.setStaging g).pat = s.pat := rfl
@[simp] theorem State.setStaging_flash (s : State) (g : Option Staging) : (s.setStaging g).flash = s.flash := rfl
@[simp] theorem State.setStaging_srv (s : State) (g : Option Staging) : (s.setStaging g).srv = s.srv := rfl
@[simp] theorem State.setStaging_rdc (s : State) (g : Option Staging) : (s.setStaging g).rdc = s.rdc := rfl
@[simp] theorem State.setStaging_cry (s : State) (g : Option Staging) : (s.setStaging g).cry = s.cry := rfl
@[simp] theorem State.setStaging_key (s : State) (g : Option Staging) : (s.setStaging g).key = s.key := rfl
@[simp] theorem State.setStaging_sea (s : State) (g : Option Staging) : (s.setStaging g).sea = s.sea := rfl
@[simp] theorem State.setStaging_fab (s : State) (g : Option Staging) : (s.setStaging g).fab = s.fab := rfl
@[simp] theorem State.setStaging_log (s : State) (g : Option Staging) : (s.setStaging g).log = s.log := rfl
@[simp] theorem State.setStaging_dbg (s : State) (g : Option Staging) : (s.setStaging g).dbg = s.dbg := rfl
@[simp] theorem State.setStaging_mctp (s : State) (g : Option Staging) : (s.setStaging g).mctp = s.mctp := rfl
@[simp] theorem State.setStaging_latches (s : State) (g : Option Staging) : (s.setStaging g).latches = s.latches := rfl
@[simp] theorem State.setStaging_sram (s : State) (g : Option Staging) : (s.setStaging g).sram = s.sram := rfl
@[simp] theorem State.setStaging_dram (s : State) (g : Option Staging) : (s.setStaging g).dram = s.dram := rfl
@[simp] theorem State.setStaging_free (s : State) (g : Option Staging) : (s.setStaging g).free = s.free := rfl
@[simp] theorem State.setStaging_out (s : State) (g : Option Staging) : (s.setStaging g).out = s.out := rfl
@[simp] theorem State.setStaging_portQueue (s : State) (g : Option Staging) : (s.setStaging g).portQueue = s.portQueue := rfl
@[simp] theorem State.setStaging_pending (s : State) (g : Option Staging) : (s.setStaging g).pending = s.pending := rfl

@[simp] theorem State.setRunnable_regs (s : State) (a b : Bool) : (s.setRunnable a b).regs = s.regs := rfl
@[simp] theorem State.setRunnable_dev (s : State) (a b : Bool) : (s.setRunnable a b).dev = s.dev := rfl
@[simp] theorem State.setRunnable_cfg (s : State) (a b : Bool) : (s.setRunnable a b).cfg = s.cfg := rfl
@[simp] theorem State.setRunnable_ports (s : State) (a b : Bool) : (s.setRunnable a b).ports = s.ports := rfl
@[simp] theorem State.setRunnable_sessions (s : State) (a b : Bool) : (s.setRunnable a b).sessions = s.sessions := rfl
@[simp] theorem State.setRunnable_authTimes (s : State) (a b : Bool) : (s.setRunnable a b).authTimes = s.authTimes := rfl
@[simp] theorem State.setRunnable_cmd (s : State) (a b : Bool) : (s.setRunnable a b).cmd = s.cmd := rfl
@[simp] theorem State.setRunnable_kv (s : State) (a b : Bool) : (s.setRunnable a b).kv = s.kv := rfl
@[simp] theorem State.setRunnable_cam (s : State) (a b : Bool) : (s.setRunnable a b).cam = s.cam := rfl
@[simp] theorem State.setRunnable_pat (s : State) (a b : Bool) : (s.setRunnable a b).pat = s.pat := rfl
@[simp] theorem State.setRunnable_flash (s : State) (a b : Bool) : (s.setRunnable a b).flash = s.flash := rfl
@[simp] theorem State.setRunnable_srv (s : State) (a b : Bool) : (s.setRunnable a b).srv = s.srv := rfl
@[simp] theorem State.setRunnable_rdc (s : State) (a b : Bool) : (s.setRunnable a b).rdc = s.rdc := rfl
@[simp] theorem State.setRunnable_cry (s : State) (a b : Bool) : (s.setRunnable a b).cry = s.cry := rfl
@[simp] theorem State.setRunnable_key (s : State) (a b : Bool) : (s.setRunnable a b).key = s.key := rfl
@[simp] theorem State.setRunnable_sea (s : State) (a b : Bool) : (s.setRunnable a b).sea = s.sea := rfl
@[simp] theorem State.setRunnable_fab (s : State) (a b : Bool) : (s.setRunnable a b).fab = s.fab := rfl
@[simp] theorem State.setRunnable_log (s : State) (a b : Bool) : (s.setRunnable a b).log = s.log := rfl
@[simp] theorem State.setRunnable_dbg (s : State) (a b : Bool) : (s.setRunnable a b).dbg = s.dbg := rfl
@[simp] theorem State.setRunnable_mctp (s : State) (a b : Bool) : (s.setRunnable a b).mctp = s.mctp := rfl
@[simp] theorem State.setRunnable_latches (s : State) (a b : Bool) : (s.setRunnable a b).latches = s.latches := rfl
@[simp] theorem State.setRunnable_sram (s : State) (a b : Bool) : (s.setRunnable a b).sram = s.sram := rfl
@[simp] theorem State.setRunnable_dram (s : State) (a b : Bool) : (s.setRunnable a b).dram = s.dram := rfl
@[simp] theorem State.setRunnable_free (s : State) (a b : Bool) : (s.setRunnable a b).free = s.free := rfl
@[simp] theorem State.setRunnable_out (s : State) (a b : Bool) : (s.setRunnable a b).out = s.out := rfl
@[simp] theorem State.setRunnable_portQueue (s : State) (a b : Bool) : (s.setRunnable a b).portQueue = s.portQueue := rfl
@[simp] theorem State.setRunnable_pending (s : State) (a b : Bool) : (s.setRunnable a b).pending = s.pending := rfl

@[simp] theorem State.emit_out (s : State) (o : Output) : (s.emit o).out = s.out ++ [o] := rfl
@[simp] theorem State.tookFree_free (s : State) : s.tookFree.free = s.free + 1 := rfl
@[simp] theorem State.setWord_regs (s : State) (a : Nat) (v : Word) : (s.setWord a v).regs = SMap.set regReset a v s.regs := rfl
@[simp] theorem State.setStaging_staging (s : State) (g : Option Staging) : (s.setStaging g).fw.staging = g := rfl

end Sys2Proof.Machine
end

