-- ==== Sys2Proof/Laws/Ops.lean ====
section
/-! SUPPORT. What the shared operations can do, said once each: outcomes, register words and their fields, events and the
log, wakes. -/

namespace Sys2Proof.Machine

open Sys2Proof

/-! ## Outcomes -/

/-- A command's outcome is its effect with the queue, the port's memories and the fuses as they were. -/
theorem State.done_eq (s t : State) : s.done t =
    .next { t with pending := s.pending, sram := s.sram, dram := s.dram, key := { t.key with fuses := s.key.fuses } } := rfl

/-- An effect that leaves those alone is the next state itself. -/
theorem State.done_of (s t : State) (hp : t.pending = s.pending) (hs : t.sram = s.sram) (hd : t.dram = s.dram)
    (hf : t.key.fuses = s.key.fuses) : s.done t = .next t := by
  rw [State.done_eq, ← hp, ← hs, ← hd, ← hf]

@[simp] theorem State.done_self (s : State) : s.done s = .next s := rfl

/-! ## Register words -/

/-- A register read after a register write. -/
theorem State.word_setWord (s : State) (a b : Nat) (v : Word) (h : SMap.wf regReset s.regs = true) :
    (s.setWord a v).word b = if b = a then v else s.word b := SMap.get_set regReset s.regs a b v h

theorem State.setWord_wf (s : State) (a : Nat) (v : Word) (h : SMap.wf regReset s.regs = true) :
    SMap.wf regReset (s.setWord a v).regs = true := SMap.set_wf regReset a v s.regs h

theorem testBit_fieldMask (lo w i : Nat) :
    (fieldMask lo w).getLsbD i = (decide (i < 32) && decide (lo ≤ i) && decide (i < lo + w)) := by
  unfold fieldMask
  rw [BitVec.getLsbD_ofNat, Nat.testBit_mul_two_pow, Nat.testBit_two_pow_sub_one]
  by_cases h1 : i < 32 <;> by_cases h2 : lo ≤ i <;> by_cases h3 : i < lo + w <;>
    simp [h1, h2, h3] <;> omega

/-- Bit `i` of a word with a field replaced. -/
theorem getLsbD_wordPut (x : Word) (lo w v i : Nat) (hi : i < 32) :
    (wordPut x lo w v).getLsbD i = if lo ≤ i ∧ i < lo + w then v.testBit (i - lo) else x.getLsbD i := by
  unfold wordPut
  rw [BitVec.getLsbD_or, BitVec.getLsbD_and, BitVec.getLsbD_not, testBit_fieldMask, BitVec.getLsbD_ofNat,
    Nat.testBit_mul_two_pow, Nat.testBit_mod_two_pow]
  by_cases h1 : lo ≤ i <;> by_cases h2 : i < lo + w
  · have h3 : i - lo < w := by omega
    simp [h1, h2, h3, hi]
  · have h3 : ¬ i - lo < w := by omega
    simp [h1, h2, h3, hi]
  · simp [h1, h2, hi]
  · simp [h1, h2, hi]

theorem wordGet_testBit (x : Word) (lo w i : Nat) (_h : lo + w ≤ 32) :
    (wordGet x lo w).testBit i = (decide (i < w) && x.getLsbD (lo + i)) := by
  unfold wordGet bitsOf
  rw [Nat.testBit_mod_two_pow, Nat.testBit_shiftRight]
  rfl

/-- A field reads back as what was written to it. -/
theorem wordGet_wordPut_same (x : Word) (lo w v : Nat) (h : lo + w ≤ 32) : wordGet (wordPut x lo w v) lo w = v % 2 ^ w := by
  apply Nat.eq_of_testBit_eq
  intro i
  rw [wordGet_testBit _ _ _ _ h, Nat.testBit_mod_two_pow]
  by_cases hi : i < w
  · rw [getLsbD_wordPut _ _ _ _ _ (by omega), if_pos ⟨by omega, by omega⟩]
    simp [hi]
  · simp [hi]

/-- A field apart from the one written keeps its value. -/
theorem wordGet_wordPut_other (x : Word) (lo w v lo' w' : Nat) (h' : lo' + w' ≤ 32) (hd : lo' + w' ≤ lo ∨ lo + w ≤ lo') :
    wordGet (wordPut x lo w v) lo' w' = wordGet x lo' w' := by
  apply Nat.eq_of_testBit_eq
  intro i
  rw [wordGet_testBit _ _ _ _ h', wordGet_testBit _ _ _ _ h']
  by_cases hi : i < w'
  · rw [getLsbD_wordPut _ _ _ _ _ (by omega), if_neg (by omega)]
  · simp [hi]

/-- A field of the block page reads back as what was written to it. -/
theorem State.rd_wr_same (s : State) (f : Field) (v : Nat) (h : SMap.wf regReset s.regs = true) (hf : f.lo + f.width ≤ 32) :
    (s.wr f v).rd f = v % 2 ^ f.width := by
  show wordGet ((s.setWord (f.addr 0 0) _).word (f.addr 0 0)) f.lo f.width = _
  rw [State.word_setWord s _ _ _ h, if_pos rfl, wordGet_wordPut_same _ _ _ _ hf]

/-- A field at another address keeps its value. -/
theorem State.rd_wr_addr (s : State) (f g : Field) (v : Nat) (h : SMap.wf regReset s.regs = true)
    (hg : g.addr 0 0 ≠ f.addr 0 0) : (s.wr f v).rd g = s.rd g := by
  show wordGet ((s.setWord (f.addr 0 0) _).word (g.addr 0 0)) g.lo g.width = _
  rw [State.word_setWord s _ _ _ h, if_neg hg]
  rfl

/-- A field of the same register apart from the one written keeps its value. -/
theorem State.rd_wr_other (s : State) (f g : Field) (v : Nat) (h : SMap.wf regReset s.regs = true)
    (ha : g.addr 0 0 = f.addr 0 0) (hg : g.lo + g.width ≤ 32) (hd : g.lo + g.width ≤ f.lo ∨ f.lo + f.width ≤ g.lo) :
    (s.wr f v).rd g = s.rd g := by
  show wordGet ((s.setWord (f.addr 0 0) _).word (g.addr 0 0)) g.lo g.width = _
  rw [State.word_setWord s _ _ _ h, if_pos ha, wordGet_wordPut_other _ _ _ _ _ _ hg hd]
  show wordGet (s.word (f.addr 0 0)) g.lo g.width = wordGet (s.word (g.addr 0 0)) g.lo g.width
  rw [ha]

/-! ## Events and the log -/

/-- A log record changes only the log and, where records are lost or volatile, EVT_STAT of the HLT page. -/
theorem State.logRecord_eq (s : State) (block inst bit : Nat) (enabled forced : Bool) (status detail : Nat) :
    ∃ r l, s.logRecord block inst bit enabled forced status detail = { s with regs := r, log := l } := by
  unfold State.logRecord
  dsimp only
  split <;> split <;> (try split) <;> (try split) <;> exact ⟨_, _, rfl⟩

theorem State.note_eq (s : State) (block code status detail : Nat) :
    ∃ r l, s.note block code status detail = { s with regs := r, log := l } := State.logRecord_eq ..

/-- An event changes only registers and the log. -/
theorem State.raiseWith_eq (s : State) (e : Event) (inst : Nat) (forced : Bool) (status detail : Nat) :
    ∃ r l, s.raiseWith e inst forced status detail = { s with regs := r, log := l } := by
  unfold State.raiseWith
  dsimp only
  split
  · split
    · split
      · exact ⟨_, _, rfl⟩
      · obtain ⟨r, l, h⟩ := State.logRecord_eq (s.setWord (pageAddr e.block (e.page inst) + hEvtStat)
          (s.word (pageAddr e.block (e.page inst) + hEvtStat) ||| BitVec.ofNat 32 (2 ^ e.bit))) e.block (e.instNo inst)
          e.bit (((s.setWord (pageAddr e.block (e.page inst) + hEvtStat)
          (s.word (pageAddr e.block (e.page inst) + hEvtStat) ||| BitVec.ofNat 32 (2 ^ e.bit))).word
            (pageAddr e.block (e.page inst) + hEvtEn)).getLsbD e.bit) forced status detail
        exact ⟨r, l, h⟩
    · obtain ⟨r, l, h⟩ := State.logRecord_eq (s.setWord (pageAddr e.block (e.page inst) + hEvtStat)
          (s.word (pageAddr e.block (e.page inst) + hEvtStat) ||| BitVec.ofNat 32 (2 ^ e.bit))) e.block (e.instNo inst)
          e.bit (((s.setWord (pageAddr e.block (e.page inst) + hEvtStat)
          (s.word (pageAddr e.block (e.page inst) + hEvtStat) ||| BitVec.ofNat 32 (2 ^ e.bit))).word
            (pageAddr e.block (e.page inst) + hEvtEn)).getLsbD e.bit) forced status detail
      exact ⟨r, l, h⟩
  · exact ⟨s.regs, s.log, rfl⟩

theorem State.raise_eq (s : State) (e : Event) : ∃ r l, s.raise e = { s with regs := r, log := l } :=
  State.raiseWith_eq ..

theorem State.raiseI_eq (s : State) (e : Event) (inst : Nat) : ∃ r l, s.raiseI e inst = { s with regs := r, log := l } :=
  State.raiseWith_eq ..

/-- A warning changes only registers and the log. -/
theorem State.warn_eq (s : State) (f : Field) (e : Event) (detail : Nat) :
    ∃ r l, s.warn f e detail = { s with regs := r, log := l } := by
  unfold State.warn
  split
  · exact ⟨s.regs, s.log, rfl⟩
  · obtain ⟨r, l, h⟩ := State.raiseWith_eq (s.wr f 1) e 0 false 0 detail
    exact ⟨r, l, h⟩

/-- A capture changes only registers. -/
theorem State.capture_eq (s : State) (block page status offset : Nat) :
    ∃ r, s.capture block page status offset = { s with regs := r } := by
  unfold State.capture
  dsimp only
  split <;> exact ⟨_, rfl⟩

/-! ## Wakes -/

/-- A wake leaves the device in ACTIVE from IDLE, STANDBY and SLEEP, and changes nothing in any other state (R72). -/
theorem State.wake_power (s : State) (src : Field) (h : s.dev.phase = .service)
    (hp : s.dev.power = .idle ∨ s.dev.power = .standby ∨ s.dev.power = .sleep) : (s.wake src).dev.power = .active := by
  unfold State.wake
  rw [if_pos ⟨h, hp⟩]
  rfl

theorem State.wake_else (s : State) (src : Field)
    (h : ¬ (s.dev.phase = .service ∧ (s.dev.power = .idle ∨ s.dev.power = .standby ∨ s.dev.power = .sleep))) :
    s.wake src = s := by
  unfold State.wake
  rw [if_neg h]

end Sys2Proof.Machine
end

