-- ==== Sys2Proof/Laws/Engine.lean ====
section
/-! SUPPORT. What answering and committing a command do to its entry, and what the operations around them leave alone. -/

namespace Sys2Proof.Machine

open Sys2Proof

theorem find_putWhere {α : Type} (p : α → Bool) (x : α) (hx : p x = true) (l : List α) :
    (putWhere p x l).find? p = some x := by
  unfold putWhere
  split
  · rename_i h
    induction l with
    | nil => simp at h
    | cons y ys ih =>
      by_cases hy : p y = true
      · simp [hy, hx]
      · simp only [List.any_cons, hy, Bool.false_or] at h
        simp [hy, ih h]
  · rename_i h
    have hn : l.find? p = none := by
      rw [List.find?_eq_none]
      intro y hy hp
      exact h (List.any_eq_true.mpr ⟨y, hy, hp⟩)
    rw [List.find?_append, hn]
    simp [hx]

theorem entry_setEntry (s : State) (e : TagEntry) : (s.setEntry e).entry? e.id = some e := by
  unfold State.entry? State.setEntry
  exact find_putWhere (fun x => x.id == e.id) e (by simp) s.cmd.tags

theorem entry_congr {s t : State} (h : s.cmd = t.cmd) (i : TagId) : s.entry? i = t.entry? i := by
  unfold State.entry?; rw [h]

/-! ## The tag table is left alone -/

@[simp] theorem logRecord_cmd (s : State) (b i k : Nat) (en fo : Bool) (st d : Nat) :
    (s.logRecord b i k en fo st d).cmd = s.cmd := by
  obtain ⟨r, l, h⟩ := State.logRecord_eq s b i k en fo st d
  rw [h]

@[simp] theorem note_cmd (s : State) (b c st d : Nat) : (s.note b c st d).cmd = s.cmd := logRecord_cmd ..

@[simp] theorem raiseWith_cmd (s : State) (e : Event) (i : Nat) (f : Bool) (st d : Nat) :
    (s.raiseWith e i f st d).cmd = s.cmd := by
  obtain ⟨r, l, h⟩ := State.raiseWith_eq s e i f st d
  rw [h]

@[simp] theorem raise_cmd (s : State) (e : Event) : (s.raise e).cmd = s.cmd := raiseWith_cmd ..

@[simp] theorem raiseI_cmd (s : State) (e : Event) (i : Nat) : (s.raiseI e i).cmd = s.cmd := raiseWith_cmd ..

@[simp] theorem count64_cmd (s : State) (lo hi : Field) (i n : Nat) : (s.count64 lo hi i n).cmd = s.cmd := rfl

@[simp] theorem cipher_cmd (s : State) (c n : Nat) : (s.cipher c n).cmd = s.cmd := by
  unfold State.cipher; split <;> rfl

@[simp] theorem capture_cmd (s : State) (b p st o : Nat) : (s.capture b p st o).cmd = s.cmd := by
  obtain ⟨r, h⟩ := State.capture_eq s b p st o
  rw [h]

@[simp] theorem report_cmd (s : State) (e : Event) (st : Nat) : (s.report e st).cmd = s.cmd := by
  unfold State.report; simp

@[simp] theorem countStatus_cmd (s : State) (st : Nat) : (s.countStatus st).cmd = s.cmd := by
  unfold State.countStatus; repeat' split
  all_goals simp

@[simp] theorem noteInternal_cmd (s : State) (e : TagEntry) (c : Completion) : (s.noteInternal e c).cmd = s.cmd := by
  unfold State.noteInternal
  dsimp only
  split <;> (try dsimp only) <;> split <;> simp

@[simp] theorem dropEarly_cmd (s : State) (p : TagId → Bool) : (s.dropEarly p).cmd = s.cmd := rfl

@[simp] theorem setSession_cmd (s : State) (x : Session) : (s.setSession x).cmd = s.cmd := rfl

@[simp] theorem sendOn_cmd (s : State) (port : Nat) (o : Output) : (s.sendOn port o).cmd = s.cmd := by
  unfold State.sendOn; split <;> (try split) <;> rfl

@[simp] theorem sendFrames_cmd (s : State) (x : Session) (fs : List (Nat × Bytes)) : (s.sendFrames x fs).cmd = s.cmd := by
  unfold State.sendFrames
  induction fs generalizing s with
  | nil => rfl
  | cons f fs ih => rw [List.foldl_cons, ih]; simp

@[simp] theorem freeExtents_cmd (s : State) (is : List Nat) : (s.freeExtents is).cmd = s.cmd := rfl

@[simp] theorem freeLoc_cmd (s : State) (l : Loc) : (s.freeLoc l).cmd = s.cmd := rfl

theorem foldl_cmd {α : Type} (f : State → α → State) (hf : ∀ s a, (f s a).cmd = s.cmd) (l : List α) (s : State) :
    (l.foldl f s).cmd = s.cmd := by
  induction l generalizing s with
  | nil => rfl
  | cons a l ih => rw [List.foldl_cons, ih, hf]

@[simp] theorem forgetSys_cmd (s : State) (p : SysObj → Bool) : (s.forgetSys p).cmd = s.cmd := by
  unfold State.forgetSys
  dsimp only
  split <;> rfl

@[simp] theorem freeImages_cmd (s : State) : s.freeImages.cmd = s.cmd := by
  unfold State.freeImages
  exact forgetSys_cmd ..

/-! ## Fabric messages leave the tag table alone -/

@[simp] theorem disableEnc_cmd (s : State) (i : Nat) : (s.disableEnc i).cmd = s.cmd := report_cmd ..

@[simp] theorem nonce_cmd (s : State) (i : Nat) : (s.nonce i).2.cmd = s.cmd := by
  unfold State.nonce
  dsimp only
  repeat' split
  all_goals first | rfl | (rw [disableEnc_cmd]) | skip
  all_goals rfl

@[simp] theorem sealFrame_cmd (s : State) (key : Bytes) (f : FabFrame) : (s.sealFrame key f).2.cmd = s.cmd := by
  unfold State.sealFrame
  have := nonce_cmd s 2
  split
  · rename_i h; rw [h] at this; exact this
  · rename_i h; rw [h] at this; simpa using this

@[simp] theorem sealFrames_cmd (key : Bytes) (fs : List FabFrame) : ∀ s : State, (sealFrames key fs s).2.cmd = s.cmd := by
  induction fs with
  | nil => exact fun _ => rfl
  | cons f fs ih =>
    intro s
    unfold sealFrames
    have := sealFrame_cmd s key f
    split
    · rename_i h; rw [h] at this; exact this
    · rename_i t h
      rw [h] at this
      have h2 := ih t
      dsimp only at this ⊢
      rw [← this, ← h2]

@[simp] theorem makeFrames_cmd (s : State) (dest : FrameTo) (body : Bytes) : (s.makeFrames dest body).2.cmd = s.cmd := by
  unfold State.makeFrames
  dsimp only
  repeat' split
  all_goals first | rfl | (rw [sealFrames_cmd])

@[simp] theorem fabReply_cmd (s : State) (d f m : Nat) (b : FabPayload) : (s.fabReply d f m b).cmd = s.cmd :=
  makeFrames_cmd ..

/-! ## What an answer may change: registers, the event log, the tag table, sessions, the output and the port queue -/

theorem Answering.refl (s : State) : s.Answering s := ⟨s.regs, s.log, s.cmd, s.sessions, s.out, s.portQueue, rfl⟩

theorem Answering.trans {s t u : State} (h : s.Answering t) (k : t.Answering u) : s.Answering u := by
  obtain ⟨r, l, cm, ss, o, q, rfl⟩ := h
  obtain ⟨r', l', cm', ss', o', q', rfl⟩ := k
  exact ⟨r', l', cm', ss', o', q', rfl⟩

theorem Answering.regs (s : State) (r : Regs) : s.Answering { s with regs := r } :=
  ⟨r, s.log, s.cmd, s.sessions, s.out, s.portQueue, rfl⟩

theorem Answering.wrAt (s : State) (f : Field) (i k v : Nat) : s.Answering (s.wrAt f i k v) := Answering.regs s _

theorem Answering.count (s : State) (f : Field) (n : Nat) : s.Answering (s.count f n) := Answering.regs s _

theorem Answering.emit (s : State) (o : Output) : s.Answering (s.emit o) :=
  ⟨s.regs, s.log, s.cmd, s.sessions, s.out ++ [o], s.portQueue, rfl⟩

theorem Answering.raiseWith (s : State) (e : Event) (i : Nat) (f : Bool) (st d : Nat) :
    s.Answering (s.raiseWith e i f st d) := by
  obtain ⟨r, l, h⟩ := State.raiseWith_eq s e i f st d
  rw [h]
  exact ⟨r, l, s.cmd, s.sessions, s.out, s.portQueue, rfl⟩

theorem Answering.note (s : State) (b c st d : Nat) : s.Answering (s.note b c st d) := by
  obtain ⟨r, l, h⟩ := State.note_eq s b c st d
  rw [h]
  exact ⟨r, l, s.cmd, s.sessions, s.out, s.portQueue, rfl⟩

theorem Answering.report (s : State) (e : Event) (st : Nat) : s.Answering (s.report e st) := by
  unfold State.report
  obtain ⟨r, h⟩ := State.capture_eq (s.raiseWith e 0 false st 0) e.block 0 st 0
  rw [h]
  exact Answering.trans (Answering.raiseWith ..) (Answering.regs ..)

theorem Answering.cipher (s : State) (c n : Nat) : s.Answering (s.cipher c n) := by
  unfold State.cipher State.count64
  split
  · exact Answering.trans (Answering.wrAt ..) (Answering.wrAt ..)
  · exact Answering.refl s

theorem Answering.setSession (s : State) (x : Session) : s.Answering (s.setSession x) :=
  ⟨s.regs, s.log, s.cmd, _, s.out, s.portQueue, rfl⟩

theorem Answering.setEntry (s : State) (e : TagEntry) : s.Answering (s.setEntry e) :=
  ⟨s.regs, s.log, _, s.sessions, s.out, s.portQueue, rfl⟩

theorem Answering.dropEntry (s : State) (e : TagEntry) : s.Answering (s.dropEntry e) :=
  ⟨s.regs, s.log, _, s.sessions, s.out, s.portQueue, rfl⟩

theorem Answering.sendOn (s : State) (port : Nat) (o : Output) : s.Answering (s.sendOn port o) := by
  unfold State.sendOn
  split
  · split
    · exact ⟨s.regs, s.log, s.cmd, s.sessions, s.out, _, rfl⟩
    · exact Answering.refl s
  · exact Answering.emit ..

theorem Answering.foldl {α : Type} (f : State → α → State) (hf : ∀ (s : State) a, s.Answering (f s a)) (l : List α) :
    ∀ s : State, s.Answering (l.foldl f s) := by
  induction l with
  | nil => exact Answering.refl
  | cons a l ih => exact fun s => Answering.trans (hf s a) (ih _)

theorem Answering.sendFrames (s : State) (x : Session) (fs : List (Nat × Bytes)) : s.Answering (s.sendFrames x fs) :=
  Answering.foldl _ (fun _ _ => Answering.trans (Answering.sendOn ..) (Answering.cipher ..)) fs s

theorem Answering.countStatus (s : State) (st : Nat) : s.Answering (s.countStatus st) := by
  unfold State.countStatus
  repeat' split
  all_goals first
    | exact Answering.refl s
    | exact Answering.count ..
    | exact Answering.trans (Answering.count ..) (Answering.report ..)

theorem Answering.noteInternal (s : State) (e : TagEntry) (c : Completion) : s.Answering (s.noteInternal e c) := by
  unfold State.noteInternal
  dsimp only
  split <;> (try dsimp only) <;> split
  all_goals first
    | exact Answering.refl s
    | exact Answering.trans (Answering.report ..) (Answering.note ..)

/-- Units programmed early are dropped before or after alike. -/
theorem Answering.dropEarly {s t : State} (p : TagId → Bool) (h : s.Answering t) : (s.dropEarly p).Answering (t.dropEarly p) := by
  obtain ⟨r, l, cm, ss, o, q, rfl⟩ := h
  exact ⟨r, l, cm, ss, o, q, rfl⟩

/-! ## Sessions, and what their end does -/

theorem pumpGo_id (g : Nat) (fs : List OutFrag) : ∀ (room : Nat) (x : Session), (pumpGo g fs room x).1.id = x.id := by
  induction fs with
  | nil => exact fun _ _ => rfl
  | cons f fs ih =>
    intro room x
    unfold pumpGo
    split
    · exact ih ..
    · rfl

@[simp] theorem cipher_sessions (s : State) (c n : Nat) : (s.cipher c n).sessions = s.sessions := by
  unfold State.cipher; split <;> rfl

@[simp] theorem raiseWith_sessions (s : State) (e : Event) (i : Nat) (f : Bool) (st d : Nat) :
    (s.raiseWith e i f st d).sessions = s.sessions := by
  obtain ⟨r, l, h⟩ := State.raiseWith_eq s e i f st d
  rw [h]

@[simp] theorem report_sessions (s : State) (e : Event) (st : Nat) : (s.report e st).sessions = s.sessions := by
  unfold State.report
  obtain ⟨r, h⟩ := State.capture_eq (s.raiseWith e 0 false st 0) e.block 0 st 0
  rw [h]
  exact raiseWith_sessions ..

@[simp] theorem countStatus_sessions (s : State) (st : Nat) : (s.countStatus st).sessions = s.sessions := by
  unfold State.countStatus; repeat' split
  all_goals simp

@[simp] theorem sendOn_sessions (s : State) (port : Nat) (o : Output) : (s.sendOn port o).sessions = s.sessions := by
  unfold State.sendOn; split <;> (try split) <;> rfl

@[simp] theorem sendFrames_sessions (s : State) (x : Session) (fs : List (Nat × Bytes)) :
    (s.sendFrames x fs).sessions = s.sessions := by
  unfold State.sendFrames
  induction fs generalizing s with
  | nil => rfl
  | cons f fs ih => rw [List.foldl_cons, ih]; simp

theorem session_setSession (s : State) (x : Session) : (s.setSession x).session? x.id = some x := by
  unfold State.session? State.setSession
  exact find_putWhere (fun y => y.id == x.id) x (by simp) s.sessions

/-- All that sending what waits on a session does: frames leave, and the session may end. -/
theorem pump_cases (s : State) (id : Nat) : ∃ m, s.Answering m ∧ m.cmd = s.cmd ∧
    (s.pump id = m ∨ ∃ x, m.session? id = some x ∧ (x.closeAcked = true ∨ x.spent = true) ∧ s.pump id = m.endSession id) := by
  unfold State.pump
  split
  · exact ⟨s, Answering.refl s, rfl, .inl rfl⟩
  · rename_i x hx
    have hid : x.id = id := by simpa using List.find?_some hx
    split
    · exact ⟨s, Answering.refl s, rfl, .inl rfl⟩
    · dsimp only
      refine ⟨_, Answering.trans (Answering.setSession s (pumpGo s.grant x.outbox (16777216 - s.staged) x).1)
        (Answering.sendFrames _ (pumpGo s.grant x.outbox (16777216 - s.staged) x).1
          (pumpGo s.grant x.outbox (16777216 - s.staged) x).2), by simp, ?_⟩
      split
      · rename_i h
        refine .inr ⟨(pumpGo s.grant x.outbox (16777216 - s.staged) x).1, ?_, ?_, rfl⟩
        · have := session_setSession s (pumpGo s.grant x.outbox (16777216 - s.staged) x).1
          rw [pumpGo_id, hid] at this
          unfold State.session? at *
          rw [sendFrames_sessions]; exact this
        · simp only [Bool.and_eq_true, Bool.or_eq_true] at h
          exact h.2
      · exact .inl rfl

/-- Releasing a session's pages changes only registers and the log. -/
theorem State.releasePages_eq (s : State) (id : Nat) : ∃ r l, s.releasePages id = { s with regs := r, log := l } := by
  have h : ∀ (ps : List (Nat × Word)) (f : Word → Word) (t : State), ∃ r,
      ps.foldl (fun (s : State) p => s.setWord p.1 (f p.2)) t = { t with regs := r } := by
    intro ps f
    induction ps with
    | nil => exact fun t => ⟨t.regs, rfl⟩
    | cons p ps ih =>
      intro t
      obtain ⟨r, h⟩ := ih (t.setWord p.1 (f p.2))
      exact ⟨r, by rw [List.foldl_cons, h]; rfl⟩
  unfold State.releasePages
  dsimp only
  obtain ⟨r, hr⟩ := h (s.regs.filter fun p => addrOff p.1 == hOwner && wordGet p.2 12 3 == 1 && wordGet p.2 0 12 == id)
    (fun w => if w.getLsbD 17 then w &&& 0x30000 else 0) s
  rw [hr]
  split
  · exact ⟨r, s.log, rfl⟩
  · obtain ⟨r', l, h'⟩ := State.raise_eq { s with regs := r } Ev.GLB.OWNER_RELEASED
    exact ⟨r', l, h'⟩

@[simp] theorem releasePages_cmd (s : State) (id : Nat) : (s.releasePages id).cmd = s.cmd := by
  obtain ⟨r, l, h⟩ := State.releasePages_eq s id
  rw [h]

/-- A session that has ended is gone. -/
theorem session_endSession (s : State) (id : Nat) : (s.endSession id).session? id = none := by
  unfold State.endSession
  split
  · assumption
  · dsimp only
    generalize hg : State.releasePages _ id = u
    obtain ⟨r, l, h⟩ := State.releasePages_eq _ id
    rw [hg] at h
    rw [h]
    unfold State.session? dropWhere
    rw [List.find?_eq_none]
    intro y hy
    simp only [List.mem_filter] at hy
    simpa using hy.2

/-- No entry keeps the name of a session that has ended (R152). -/
theorem entry_endSession (s : State) (id : Nat) (x : Session) (hx : s.session? id = some x) (t : TagId)
    (ht : t.ctx = .session id) : (s.endSession id).entry? t = none := by
  have hid : x.id = id := by simpa using List.find?_some hx
  unfold State.endSession
  rw [hx]
  dsimp only
  rw [entry_congr (releasePages_cmd ..)]
  unfold State.entry? orphaned
  rw [List.find?_eq_none]
  intro y hy hp
  simp only [List.mem_map, List.mem_filter] at hy
  obtain ⟨e, -, rfl⟩ := hy
  have hp := eq_of_beq hp
  split at hp
  · have := congrArg TagId.ctx hp
    rw [ht] at this
    cases this
  · rename_i hn
    exact hn (by rw [hp, ht, hid])

/-- All that the response to a session does. -/
theorem respond_session (s : State) (t : TagId) (c : Completion) (live : Bool) (id : Nat) (h : t.ctx = .session id) :
    ∃ m, s.Answering m ∧ m.cmd = s.cmd ∧ (s.respond t c live = m ∨
      ∃ x, m.session? id = some x ∧ (x.closeAcked = true ∨ x.spent = true) ∧ s.respond t c live = m.endSession id) := by
  unfold State.respond
  rw [h]
  dsimp only
  split
  · exact ⟨_, Answering.countStatus .., by simp, .inl rfl⟩
  · obtain ⟨m, h1, h2, h3⟩ := pump_cases _ id
    exact ⟨m, Answering.trans (Answering.trans (Answering.countStatus ..)
      (Answering.trans (Answering.emit ..) (Answering.setSession ..))) h1, by rw [h2]; simp, h3⟩

/-- An answer leaves everything but this alone. -/
theorem AnswerFrame.post (s : State) (e : TagEntry) (c : Completion) : s.AnswerFrame e (s.post e c) := by
  unfold State.AnswerFrame State.post
  dsimp only
  have h0 := Answering.dropEarly (fun t => t == e.id) (Answering.noteInternal s e c)
  cases h : e.id.ctx with
  | session id =>
    dsimp only
    split
    · obtain ⟨m, h1, -, h3⟩ := respond_session (((s.noteInternal e c).dropEarly fun t => t == e.id).setEntry
        { e with state := .posted, result := some c }) e.id c true id h
      exact ⟨m, Answering.trans h0 (Answering.trans (Answering.setEntry ..) h1), h3⟩
    · obtain ⟨m, h1, -, h3⟩ := respond_session (((s.noteInternal e c).dropEarly fun t => t == e.id).dropEntry e) e.id c true id h
      exact ⟨m, Answering.trans h0 (Answering.trans (Answering.dropEntry ..) h1), h3⟩
  | forward src =>
    dsimp only
    unfold State.respond
    rw [h]
    dsimp only
    exact ⟨_, Answering.trans h0 (Answering.trans (Answering.dropEntry ..) (Answering.countStatus _ c.status)), _, rfl⟩
  | orphan k =>
    dsimp only
    unfold State.respond
    rw [h]
    dsimp only
    exact ⟨_, Answering.trans h0 (Answering.trans (Answering.dropEntry ..) (Answering.countStatus _ c.status)), rfl⟩

theorem AnswerFrame.finish (s : State) (e : TagEntry) (st : Nat) (p : Bytes) : s.AnswerFrame e (s.finish e st p) :=
  AnswerFrame.post ..

/-! ## Answers -/

theorem entry_dropEntry (s : State) (e : TagEntry) : (s.dropEntry e).entry? e.id = none := by
  unfold State.entry? State.dropEntry dropWhere
  rw [List.find?_eq_none]
  intro x hx
  simp only [List.mem_filter] at hx
  have := hx.2
  simp_all

theorem post_answers (s : State) (e : TagEntry) (c : Completion) : (s.post e c).Answers e c := by
  unfold State.post State.Answers
  dsimp only
  cases h : e.id.ctx with
  | session id =>
    dsimp only
    split
    · obtain ⟨m, -, h2, h3⟩ := respond_session (((s.noteInternal e c).dropEarly fun t => t == e.id).setEntry
        { e with state := .posted, result := some c }) e.id c true id h
      obtain h3 | ⟨x, hx, -, h3⟩ := h3
      · rw [h3, entry_congr h2]
        exact .inl (entry_setEntry _ { e with state := .posted, result := some c })
      · rw [h3]
        exact .inr ⟨session_endSession .., entry_endSession _ _ _ hx _ h⟩
    · rename_i hn
      have hs : (((s.noteInternal e c).dropEarly fun t => t == e.id).dropEntry e).session? id = none :=
        Option.not_isSome_iff_eq_none.mp hn
      refine .inr ?_
      have : (((s.noteInternal e c).dropEarly fun t => t == e.id).dropEntry e).respond e.id c true =
          (((s.noteInternal e c).dropEarly fun t => t == e.id).dropEntry e).countStatus c.status := by
        unfold State.respond
        rw [h]
        dsimp only
        have h1 : ((((s.noteInternal e c).dropEarly fun t => t == e.id).dropEntry e).countStatus c.status).session? id =
            none := by
          unfold State.session? at hs ⊢
          rw [countStatus_sessions]; exact hs
        rw [h1]
      rw [this]
      constructor
      · unfold State.session? at hs ⊢
        rw [countStatus_sessions]; exact hs
      · rw [entry_congr (countStatus_cmd ..)]
        exact entry_dropEntry ..
  | forward src =>
    dsimp only
    unfold State.respond
    rw [h]
    dsimp only
    rw [entry_congr ((fabReply_cmd ..).trans (countStatus_cmd ..))]
    exact entry_dropEntry ..
  | orphan k =>
    dsimp only
    unfold State.respond
    rw [h]
    dsimp only
    rw [entry_congr (countStatus_cmd ..)]
    exact entry_dropEntry ..

theorem finish_answers (s : State) (e : TagEntry) (st : Nat) (p : Bytes) :
    (s.finish e st p).Answers e (doneWith st e.asn p) := post_answers ..

theorem answers_congr {u v : State} {e : TagEntry} {c : Completion} (h : u.cmd = v.cmd) (k : u.sessions = v.sessions)
    (hv : v.Answers e c) : u.Answers e c := by
  unfold State.Answers at *
  rw [entry_congr h]
  unfold State.session? at *
  rw [k]; exact hv

/-- A command of an entry that may run runs its body on the executing entry. -/
theorem runCmd_starts {s : State} {t : TagId} {op : Nat} {e : TagEntry} (h : s.Starts t op e)
    (body : TagEntry → State → State) :
    s.runCmd t op body = body { e with state := .executing } (s.begun e) := by
  obtain ⟨h1, h2, h3⟩ := h
  unfold State.runCmd State.begun
  rw [h1]
  simp [h2, h3]

/-- The same in a namespace. -/
theorem runNs_starts {s : State} {t : TagId} {op : Nat} {e : TagEntry} {n : Ns} (h : s.StartsIn t op e n)
    (body : TagEntry → Ns → State → State) :
    s.runNs t op body = body { e with state := .executing } n (s.begun e) := by
  obtain ⟨h, h0, hn, ht⟩ := h
  have he : s.entryNs t = e.msg.nsid := by unfold State.entryNs; rw [h.1]
  unfold State.runNs
  rw [if_neg (by rw [he]; exact h0), runCmd_starts h]
  have h1 : (s.begun e).ns? e.msg.nsid = some n := hn
  have h2 : (s.begun e).noTier = false := ht
  simp [h1, h2]

end Sys2Proof.Machine
end

