-- ==== Sys2Proof/WellFormed.lean ====
section
/-! DEFINITION. Which commands can be sent at all: the operands lie within the fields that carry them (Tables 02-13, 06-2,
17-2, 17-5, 18-9, 20-2, 20-6). A meaning is defined on every command; on an ill-formed one it says nothing of the hardware. -/

namespace Sys2Proof

/-- Why a command is ill-formed. -/
inductive Malformed where
  /-- a tag-table entry whose session, source or tag lies outside its range -/
  | tag
  /-- an address or page outside the register space or the service pages -/
  | address
  /-- a session ID of 4,096 or above -/
  | path
  /-- an SKP frame whose header fields do not fit Table 06-2 -/
  | frame
  /-- a host port above 7 -/
  | port
  /-- a session ID of 4,096 or above -/
  | session
  /-- a fabric source or message outside its field -/
  | message
  /-- a rail step other than 3 to 5 -/
  | step
  /-- a control core above 7 -/
  | core
  /-- a sensor reading outside its code -/
  | sample
  /-- a flash channel above 31, or one found with more than 16 dies (Table 11-1) -/
  | channel
  /-- a head above 21 -/
  | head
  /-- an actuator above 1 -/
  | actuator
  /-- a fabric link above 3 -/
  | link
  /-- a flit field outside Table 17-2 -/
  | flit
  /-- a sled slot above 15 -/
  | slot
  /-- a namespace ID above 65,535 -/
  | nsid
  /-- a package digest that is not of 48 bytes -/
  | digest
  /-- an associative tile above 31 -/
  | tile
  /-- a boundary register of a length other than 868 -/
  | cells
  /-- an unlock level above 3 -/
  | level
  /-- a breakpoint or watchpoint unit above 7, or a kind above 3 -/
  | unit
  deriving DecidableEq, Repr

/-- A session ID has 12 bits, a tag 10 bits, a fabric address 16 bits (R145, R163, R401). -/
def TagId.ok (t : TagId) : Bool :=
  match t.ctx with
  | .session id => decide (id < 4096) && decide (t.tag < 1024)
  | .forward src => decide (src < 65536)
  | .orphan _ => true

def Path.ok (p : Path) : Bool :=
  match p with
  | .skp id => decide (id < 4096)
  | .mctp => true
  | .firmware => true
  | .debug => true

/-- Header fields of Table 06-2. -/
def SkpFrame.ok (f : SkpFrame) : Bool :=
  decide (f.version < 256) && decide (f.session < 65536) && decide (f.seq < 2 ^ 64) && decide (f.ackSeq < 2 ^ 64) &&
    decide (f.credit < 65536) && decide (f.bodyLen < 65536)

def FabMsg.ok (m : FabMsg) : Bool := decide (m.src < 65536) && decide (m.msgId < 2 ^ 64)

/-- Header fields of Table 17-5. -/
def FabFrame.ok (f : FabFrame) : Bool :=
  decide (f.dst < 65536) && decide (f.src < 65536) && decide (f.ftype < 256) && decide (f.hops < 256) && decide (f.gwSlot < 16)

/-- Fields of Table 17-2. -/
def Flit.ok (f : Flit) : Bool := decide (f.vc < 2) && decide (f.fseq < 256) && decide (f.ack < 256)

def Ingress.ok (i : Ingress) : Bool :=
  match i with
  | .link l => decide (l < 4)
  | .gateway => true
  | .own => true

def RailResult.ok (r : RailResult) : Bool :=
  match r with
  | .allGood => true
  | .missed step => decide (3 ≤ step) && decide (step ≤ 5)

/-- One check, then the rest. -/
def need (e : Malformed) (ok : Bool) (rest : Option Malformed) : Option Malformed := if ok then rest else some e

/-- The first check that a command fails. -/
def Instr.check (i : Instr) : Option Malformed :=
  match i with
  | .get t _ => need .tag (t.ok) none
  | .put t _ => need .tag (t.ok) none
  | .delete t _ => need .tag (t.ok) none
  | .cas t _ _ => need .tag (t.ok) none
  | .getRange t _ => need .tag (t.ok) none
  | .list t _ => need .tag (t.ok) none
  | .scan t _ => need .tag (t.ok) none
  | .append t _ => need .tag (t.ok) none
  | .batch t _ _ => need .tag (t.ok) none
  | .flush t => need .tag (t.ok) none
  | .abort t => need .tag (t.ok) none
  | .partBegin t _ => need .tag (t.ok) none
  | .partPut t _ => need .tag (t.ok) none
  | .partCommit t _ => need .tag (t.ok) none
  | .watchArm t => need .tag (t.ok) none
  | .watchDisarm t => need .tag (t.ok) none
  | .purgeExpired t _ => need .tag (t.ok) none
  | .nsCreate t => need .tag (t.ok) none
  | .nsDelete t => need .tag (t.ok) none
  | .nsQuery t => need .tag (t.ok) none
  | .powerState t _ => need .tag (t.ok) none
  | .resetController t => need .tag (t.ok) none
  | .regRead t => need .tag (t.ok) none
  | .regWrite t => need .tag (t.ok) none
  | .configWrite t => need .tag (t.ok) none
  | .configFactory t => need .tag (t.ok) none
  | .keyProvision t _ => need .tag (t.ok) none
  | .keyErase t => need .tag (t.ok) none
  | .timeAdvance t => need .tag (t.ok) none
  | .patternLoad t => need .tag (t.ok) none
  | .camWrite r => need .tag (r.tag.ok) none
  | .fwOpen t => need .tag (t.ok) none
  | .fwChunk t => need .tag (t.ok) none
  | .fwStatus t => need .tag (t.ok) none
  | .fwVerify t _ _ => need .tag (t.ok) none
  | .fwActivate t => need .tag (t.ok) none
  | .fwConfirm t _ => need .tag (t.ok) none
  | .fwDiscard t _ => need .tag (t.ok) none
  | .fabQuery t => need .tag (t.ok) none
  | .fabMirrorSet t _ _ => need .tag (t.ok) none
  | .fabForward t => need .tag (t.ok) none
  | .hostCryptoServicePut t _ => need .tag (t.ok) none
  | .hostCryptoServiceGet t => need .tag (t.ok) none
  | .hostCryptoServiceDelete t => need .tag (t.ok) none
  | .commandPosted t => need .tag (t.ok) none
  | .mctpRegRead _ addr _ => need .address (decide (addr < 4294967296)) none
  | .mctpRegWrite _ addr _ _ => need .address (decide (addr < 4294967296)) none
  | .configWriteFragment _ _ _ _ => none
  | .mctpConfigFactory _ => none
  | .mctpResetController _ => none
  | .mctpFwStatus _ => none
  | .configFragmentSetExpiry => none
  | .setEndpointId _ _ _ => none
  | .getEndpointId _ => none
  | .getMctpVersionSupport _ _ => none
  | .getMessageTypeSupport _ => none
  | .getVendorDefinedMessageSupport _ _ => none
  | .smbusClockTimeout => none
  | .claim w page _ _ => need .path (w.ok) (need .address (decide (page < 1048576)) none)
  | .release w page => need .path (w.ok) (need .address (decide (page < 1048576)) none)
  | .lock w page _ => need .path (w.ok) (need .address (decide (page < 1048576)) none)
  | .sticky w page => need .path (w.ok) (need .address (decide (page < 1048576)) none)
  | .evtStatClear w page _ => need .path (w.ok) (need .address (decide (page < 1048576)) none)
  | .evtForce w page _ => need .path (w.ok) (need .address (decide (page < 1048576)) none)
  | .errClr w page => need .path (w.ok) (need .address (decide (page < 1048576)) none)
  | .reqOn w page => need .path (w.ok) (need .address (decide (page < 1048576)) none)
  | .reqOff w page => need .path (w.ok) (need .address (decide (page < 1048576)) none)
  | .rstCtrlController w _ => need .path (w.ok) none
  | .pinnedWrite w _ => need .path (w.ok) none
  | .logSelWrite w _ => need .path (w.ok) none
  | .registerWrite w addr _ _ => need .path (w.ok) (need .address (decide (addr < 4294967296)) none)
  | .configCommit _ => none
  | .rcRead w addr => need .path (w.ok) (need .address (decide (addr < 4294967296)) none)
  | .counterLowRead w addr => need .path (w.ok) (need .address (decide (addr < 4294967296)) none)
  | .domainAccessPowerOff page => need .address (decide (page < 1048576)) none
  | .hello d f => need .port (decide (d.port < 8)) (need .frame (f.ok) none)
  | .data d f => need .port (decide (d.port < 8)) (need .frame (f.ok) none)
  | .ack d f => need .port (decide (d.port < 8)) (need .frame (f.ok) none)
  | .close d f => need .port (decide (d.port < 8)) (need .frame (f.ok) none)
  | .ackDelayExpiry session => need .session (decide (session < 4096)) none
  | .retransmissionTimer session _ => need .session (decide (session < 4096)) none
  | .halfOpenExpiry session => need .session (decide (session < 4096)) none
  | .sessionIdle session => need .session (decide (session < 4096)) none
  | .retxEnd session => need .session (decide (session < 4096)) none
  | .closeTimeout session => need .session (decide (session < 4096)) none
  | .arpRequest d => need .port (decide (d.port < 8)) none
  | .neighbourSolicitation d => need .port (decide (d.port < 8)) none
  | .echoRequest d _ => need .port (decide (d.port < 8)) none
  | .fabricFrameOnHostPort port _ _ _ f => need .port (decide (port < 8)) (need .message (f.ok) none)
  | .pause port _ => need .port (decide (port < 8)) none
  | .linkUp l => need .port (decide (l.port < 8)) none
  | .linkDown port => need .port (decide (port < 8)) none
  | .anFail port => need .port (decide (port < 8)) none
  | .por r => need .step (r.ok) none
  | .pin _ _ => none
  | .watchdog core _ => need .core (decide (core < 8)) none
  | .coldStart f => need .channel (f.channels.all fun c => decide (c.dies ≤ 16)) none
  | .warmStart f => need .channel (f.channels.all fun c => decide (c.dies ≤ 16)) none
  | .railFault x_step => need .step (decide (3 ≤ x_step) && decide (x_step ≤ 5)) none
  | .railRetry r => need .step (r.ok) none
  | .switchedRailLoss _ => none
  | .pwrfail _ => none
  | .drainComplete => none
  | .pwrfailResume => none
  | .voltageAlarm _ _ => none
  | .clockAlarm _ => none
  | .temperatureAlarm _ => none
  | .shieldAlarm _ => none
  | .envCountDecrement => none
  | .wakeN _ => none
  | .wakeTimer => none
  | .idle => none
  | .standbyAfter _ => none
  | .sleepAfter _ => none
  | .routerIslandQuiet => none
  | .thermalLimitFall => none
  | .thermalLimitRise => none
  | .powerEstimate _ _ _ => none
  | .thermN _ => none
  | .tempWarn _ sensor => need .sample (decide (sensor < 256)) none
  | .refclkSdLost => none
  | .refclkSdRestored => none
  | .crystalFail => none
  | .crystalReturn => none
  | .ballastTest _ v1 v2 => need .sample (decide (v1 < 16384)) (need .sample (decide (v2 < 16384)) none)
  | .ballastSample code => need .sample (decide (code < 1024)) none
  | .ballastRetest _ v1 v2 => need .sample (decide (v1 < 16384)) (need .sample (decide (v2 < 16384)) none)
  | .directorySave => none
  | .reqWindow => none
  | .reseed => none
  | .directoryRebuild => none
  | .retiredIndexSweep => none
  | .dailyPass => none
  | .demotion _ _ => none
  | .uploadExpired _ => none
  | .checkpoint => none
  | .garbageCollection => none
  | .promotion => none
  | .staticLevelling => none
  | .readDisturbRefresh _ _ => none
  | .patrol _ => none
  | .staleBlockErase _ _ => none
  | .forcedDemote => none
  | .retrained ch _ _ => need .channel (decide (ch < 32)) none
  | .programStatusFail _ => none
  | .eraseStatusFail _ => none
  | .dieLost _ => none
  | .chOffline ch => need .channel (decide (ch < 32)) none
  | .servoWedge head _ => need .head (decide (head < 22)) none
  | .voiceCoilUpdate actuator => need .actuator (decide (actuator < 2)) none
  | .spinUp _ => none
  | .spinupRetry _ => none
  | .fullCalibration _ _ => none
  | .spinDown => none
  | .seekTimeout t => need .tag ((t.all TagId.ok)) none
  | .preampFault actuator _ => need .actuator (decide (actuator < 2)) none
  | .motStatus _ => none
  | .bandCleaning => none
  | .tether link _ => need .link (decide (link < 4)) none
  | .tetherPeriod link => need .link (decide (link < 4)) none
  | .tetherTimeout link => need .link (decide (link < 4)) none
  | .laneLockLost link _ => need .link (decide (link < 4)) none
  | .linkTrainingRetry link _ => need .link (decide (link < 4)) none
  | .dataFlit link f => need .link (decide (link < 4)) (need .flit (f.ok) none)
  | .retry link fseq _ => need .link (decide (link < 4)) (need .flit (decide (fseq < 256)) none)
  | .wake link _ => need .link (decide (link < 4)) none
  | .quiet link _ => need .link (decide (link < 4)) none
  | .transit ing vc f => need .link (ing.ok) (need .flit (decide (vc < 2)) (need .message (f.ok) none))
  | .state link f m slot _ _ =>
    need .link (decide (link < 4)) (need .message f.ok (need .message (m.ok) (need .slot (decide (slot < 16)) none)))
  | .statePeriod => none
  | .sledMapEntryTimeout slot => need .slot (decide (slot < 16)) none
  | .routeChanged => none
  | .mirrorWrite m _ _ => need .message (m.ok) none
  | .mirrorAck m nsid _ _ => need .message (m.ok) (need .nsid (decide (nsid < 65536)) none)
  | .forwardReq m _ => need .message (m.ok) none
  | .forwardResp m _ _ => need .message (m.ok) none
  | .queryReq m => need .message (m.ok) none
  | .queryResp m _ _ => need .message (m.ok) none
  | .resync m nsid _ _ _ _ _ _ => need .message (m.ok) (need .nsid (decide (nsid < 65536)) none)
  | .abortRelay m _ => need .message (m.ok) none
  | .keeper link m _ => need .link (decide (link < 4)) (need .message (m.ok) none)
  | .gwHello m _ _ => need .message (m.ok) none
  | .gwHelloPeriod => none
  | .gwIndexTimeout _ _ => none
  | .inheritOffer link _ => need .link (decide (link < 4)) none
  | .inheritAccept link => need .link (decide (link < 4)) none
  | .messageRetransmit _ => none
  | .messageUnreachable _ => none
  | .sourceEntryExpiry _ => none
  | .flowletGap _ => none
  | .seedPeriod => none
  | .mirrorProbe nsid _ => need .nsid (decide (nsid < 65536)) none
  | .mirrorRelease nsid _ => need .nsid (decide (nsid < 65536)) none
  | .offer m digest _ _ _ => need .message (m.ok) (need .digest (decide (digest.length = 48)) none)
  | .offerPeriod => none
  | .chunkReq m digest _ => need .message (m.ok) (need .digest (decide (digest.length = 48)) none)
  | .chunk m digest _ _ _ => need .message (m.ok) (need .digest (decide (digest.length = 48)) none)
  | .updateRefuse m digest _ => need .message (m.ok) (need .digest (decide (digest.length = 48)) none)
  | .esHealthFail => none
  | .drbgReseed => none
  | .operationResume _ => none
  | .serviceResultExpiry page => need .address (decide (page < 64)) none
  | .camScrub _ => none
  | .tileRetention tile => need .tile (decide (tile < 32)) none
  | .deviceTimeSave => none
  | .mirrorPurgeApply nsid => need .nsid (decide (nsid < 65536)) none
  | .trialSeconds => none
  | .trialExpiry _ => none
  | .activationPause _ => none
  | .logFlush => none
  | .trstN _ => none
  | .idcode => none
  | .bypass => none
  | .samplePreload cells => need .cells (decide (cells.length = 868)) none
  | .dbgStatus => none
  | .extest cells => need .cells (decide (cells.length = 868)) none
  | .clamp => none
  | .highz => none
  | .extestPulse cells => need .cells (decide (cells.length = 868)) none
  | .extestTrain cells => need .cells (decide (cells.length = 868)) none
  | .dbgChallenge level _ => need .level (decide (level < 4)) none
  | .dbgRelock => none
  | .challengeExpiry => none
  | .dbgResponse _ => none
  | .unlockCheck => none
  | .lockoutExpiry => none
  | .dbgAccessRead _ => none
  | .dbgAccessWrite _ _ => none
  | .halt _ => none
  | .resume _ => none
  | .step _ => none
  | .setBreakpoint _ unit _ => need .unit (decide (unit < 8)) none
  | .clearBreakpoint _ unit => need .unit (decide (unit < 8)) none
  | .setWatchpoint _ unit _ kind => need .unit (decide (unit < 8)) (need .unit (decide (kind < 4)) none)
  | .clearWatchpoint _ unit => need .unit (decide (unit < 8)) none
  | .setHaltAll => none
  | .clearHaltAll => none
  | .breakpointHit core unit => need .core (decide (core < 8)) (need .unit (decide (unit < 8)) none)
  | .watchpointHit core unit => need .core (decide (core < 8)) (need .unit (decide (unit < 8)) none)
  | .dbgReset _ _ => none
  | .pwrfailNRise => none
  | .alwaysOnPowerLoss => none
  | .idleFlit link _ _ _ _ => need .link (decide (link < 4)) none
  | .poweredHour => none
  | .receiveQueueAdmission => none
  | .commitPointPassed t => need .tag (t.ok) none
  | .mirrorCopyCreate m nsid _ => need .message (m.ok) (need .nsid (decide (nsid < 65536)) none)
  | .mirrorCopyRelease m nsid => need .message (m.ok) (need .nsid (decide (nsid < 65536)) none)
  | .releaseAcknowledged nsid _ => need .nsid (decide (nsid < 65536)) none
  | .unsupportedControlCommand _ _ => none

/-- The command can be sent. -/
def Instr.wf (i : Instr) : Bool := i.check.isNone

end Sys2Proof
end

