-- ==== Sys2Proof/Tests/Slice0.lean ====
section
/-! SUPPORT. Tests: for every statement with premises, states and operands that meet them (with what the command then
does), ill-formed commands that the check refuses, and worked examples of the spec. Everything is on small states and
one step. -/

namespace Sys2Proof.Tests

open Sys2Proof Sys2Proof.Machine

set_option Elab.async false

/-! ## Small states -/

/-- The outcome is a next state with a property. -/
def ok (o : Host.Outcome State Fault Refusal) (q : State → Bool) : Bool :=
  match o with
  | .next u => q u
  | _ => false

/-- The next state, or the state itself. -/
def go (c : Instr) (s : State) : State :=
  match exec c s with
  | .next u => u
  | _ => s

def prof : NandProfile := ⟨3, 2, 576, 8, 3000, 1, 3600, 16384, 2048, 1, 1, true, [], 50, 600, 5000⟩
def chan : ChannelFound := ⟨true, 0x11223344, 1, [3600]⟩
def key16 : Bytes := List.replicate 16 0x11
def key32 : Bytes := List.replicate 32 0x22

/-- A formatted flash tier of four channels, mounted. -/
def flash4 : Flash :=
  { Flash.reset with mounted := true, formatted := true, tierId := 7, profile := some prof, channels := 0xF,
                     dieCh := [0, 1, 2, 3], blocksPerDie := 16, raw := 10000, n := 500, spareInit := 4, spareNow := 4,
                     found := List.replicate 4 chan }

/-- Key slots: the directory seed, the storage root, and two host keys (Table 15-3, Table 15-4). -/
def keys4 : SMap Slot := [(1, ⟨1, 0x1420, key16⟩), (3, ⟨1, 0x1640, key32⟩), (16, ⟨1, 0x1608, key32⟩), (17, ⟨1, 0x1604, key32⟩),
  (18, ⟨1, 0x1601, key32⟩)]

/-- A device in service. -/
def svc : State :=
  { State.reset with
    dev := { State.reset.dev with phase := .service, straps := ⟨1, 3, false⟩ }
    flash := flash4
    key := { State.reset.key with slots := keys4, vault := keys4, vaultOk := true, rootOk := true
                                  fuses := { State.reset.key.fuses with root := key32 } }
    cry := { State.reset.cry with phase := 1, drbg := 1, esOk := true } }

def tag7 : TagId := ⟨.session 1, 7⟩
def msgOf (op nsid : Nat) (param key value : Bytes) (flags : BitVec 16 := 0) (stamp : Nat := 0) : CmdMsg :=
  ⟨op, 0, flags, nsid, stamp, param, key, value⟩

/-- An admitted entry of a command. -/
def entryOf (m : CmdMsg) : TagEntry :=
  ⟨tag7, .admin, .admitted, m, 5, 9, 0, none, none, 0, [], [], false, false, none⟩

/-- The session of the commands, open without credit: what is answered waits to be sent. -/
def waiting1 : Session :=
  ⟨1, .admin, 18, false, false, 0, none, key32, key32, [1, 2, 3, 4], [5, 6, 7, 8], 0, [], 0, 0, 0, 0, false, 1, 1, 0, 0, [], [], [],
   false, 0, 0, 0, 0⟩

/-- A state with one command admitted, in its session. -/
def withE (e : TagEntry) (s : State) : State :=
  { s with cmd := { s.cmd with tags := [e], nextOrder := 10 }
           sessions := if s.sessions.isEmpty then [waiting1] else s.sessions }
def withCmd (m : CmdMsg) (s : State) : State := withE (entryOf m) s

/-- The command may run. -/
def starts (s : State) (op : Nat) (e : TagEntry) : Bool :=
  decide (s.entry? e.id = some e) && e.msg.opcode == op && s.canStart e
def startsIn (s : State) (op : Nat) (e : TagEntry) (n : Ns) : Bool :=
  starts s op e && e.msg.nsid != 0 && decide (s.ns? e.msg.nsid = some n) && s.noTier == false

/-- The command has been answered with a completion, or is committed with it. -/
def answered (u : State) (e : TagEntry) (c : Completion) : Bool :=
  decide (u.entry? e.id = some { e with state := .posted, result := some c })
def committed (u : State) (e : TagEntry) (c : Completion) : Bool :=
  match u.entry? e.id with
  | some f => f.state == .committed && f.result == some c && f.msg == e.msg
  | none => false

theorem starts_iff (s : State) (op : Nat) (e : TagEntry) : starts s op e = true ↔ s.Starts e.id op e := by
  simp [starts, State.Starts, and_assoc]

theorem startsIn_iff (s : State) (op : Nat) (e : TagEntry) (n : Ns) :
    startsIn s op e n = true ↔ s.StartsIn e.id op e n := by
  simp [startsIn, State.StartsIn, starts_iff, and_assoc]

def keyA : Bytes := [0x61]
def keyB : Bytes := [0x62]
def rd0 : MediaReads := ⟨[], [], []⟩

/-- A mutable ARRIVAL namespace, empty. -/
def ns2 : Ns := ⟨2, .mutable_, false, false, 2, 0, 0, 0, 1, [], [], [], 0, 0, none, none, []⟩
def withNs (n : Ns) (s : State) : State := { s with kv := { s.kv with namespaces := s.kv.namespaces ++ [n] } }
def svc2 : State := withNs ns2 svc

/-- Only what an answer may change differs (`State.AnswerFrame`). -/
def framed (s : State) (e : TagEntry) (u : State) : Bool :=
  decide (u = { s.dropEarly (fun t => t == e.id) with
    regs := u.regs, log := u.log, cmd := u.cmd, sessions := u.sessions, out := u.out, portQueue := u.portQueue })

theorem framed_iff {s u : State} {m : CmdMsg} (h : framed s (entryOf m) u = true) : s.AnswerFrame (entryOf m) u :=
  ⟨u, ⟨_, _, _, _, _, _, of_decide_eq_true h⟩, .inl rfl⟩

/-- A command that may run is answered with a completion. -/
def answers (m : CmdMsg) (s : State) (c : Instr) (r : Completion) : Bool :=
  starts (withCmd m s) m.opcode (entryOf m) && ok (exec c (withCmd m s)) fun u => answered u (entryOf m) r

/-- The same, and nothing but what an answer may change differs. -/
def answersOnly (m : CmdMsg) (s : State) (c : Instr) (r : Completion) : Bool :=
  starts (withCmd m s) m.opcode (entryOf m) && ok (exec c (withCmd m s)) fun u =>
    answered u (entryOf m) r && framed (withCmd m s) (entryOf m) u

/-- A command that may run passes its commit point with a result. -/
def commits (m : CmdMsg) (s : State) (c : Instr) (r : Completion) : Bool :=
  starts (withCmd m s) m.opcode (entryOf m) && ok (exec c (withCmd m s)) fun u => committed u (entryOf m) r

/-- The state in which a command's own effect begins. -/
def begun (m : CmdMsg) (s : State) : State := (withCmd m s).begun (entryOf m)

/-- The leaf pages sealed without their zero fill, which keeps the evaluation small. -/
def shortPages (s : State) : State :=
  let page := fun (l : Leaf) => match s.ns? l.nsid with
    | some n =>
      let text := ((s.leafRecs n l).map fun x => s.recHead n.stamped x.2.1 x.1 x.2.2 ++ x.2.2.held).flatten
      let p := gcmEnc ((s.nsKey n).getD []) (List.replicate 12 1) [] text
      { l with page := ⟨List.replicate 12 1, [], p.1, p.2⟩ }
    | none => l
  { s with kv := { s.kv with leaves := s.kv.leaves.map page } }

/-- The entry as it executes. -/
def running (m : CmdMsg) : TagEntry := { entryOf m with state := .executing }

/-- The entry and the state of a write after its searches of the classifier, which no mirror set bars (`State.Classifies`). -/
def sought (m : CmdMsg) (s : State) (search : State → List Classified × State) : TagEntry × State :=
  let c := search (begun m s)
  let f := { running m with classed := c.1 }
  (f, c.2.setEntry f)
def open? (n : Ns) (m : CmdMsg) (s : State) (search : State → List Classified × State) : Bool :=
  (search (begun m s)).2.writeBlocked n (search (begun m s)).1 == false
def noSearch (s : State) : List Classified × State := ([], s)
/-- A write that is refused after its searches, and nothing but what an answer changes differs from what they left. -/
def answersSought (m : CmdMsg) (s : State) (search : State → List Classified × State) (c : Instr) (r : Completion) : Bool :=
  let x := sought m s search
  starts (withCmd m s) m.opcode (entryOf m) && ok (exec c (withCmd m s)) fun u => answered u x.1 r && framed x.2 x.1 u

/-- A state after a command was answered and its entry freed. -/
def after (m : CmdMsg) (c : Instr) (s : State) : State :=
  let u := go (.commandPosted tag7) (go c (withCmd m s))
  shortPages { u with cmd := { u.cmd with tags := [] }, sessions := s.sessions, out := [] }

/-- A tried change succeeds. -/
def fine (r : Except Nat Unit × State) : Bool :=
  match r.1 with
  | .ok _ => true
  | .error _ => false

/-- LOG_SEL, a class A register without a domain. -/
def logSel : Nat := 0x50006C

/-- A FLUSH as a message. -/
def flushMsg : Bytes := 0x0A :: List.replicate 31 0


/-! ## The block as a whole -/

def one (c : Instr) : State := { State.reset with pending := [c, .idle] }

theorem test_front : (one .idcode).pending = .idcode :: [.idle] ∧ step (one .idcode) = exec .idcode { one .idcode with pending := [.idle] } := ⟨rfl, rfl⟩

/-- An idle step, also at the whole second. -/
def atMs (n : Nat) (carry : Nat) : State := { svc with dev := { svc.dev with clockMs := n, slowCarry := carry, crystalFail := carry != 0 }, dbg := { svc.dbg with lockout := 3 } }
def idles (s : State) (q : State → Bool) : Bool :=
  match step s with
  | .next u => q u
  | _ => false

theorem test_idle_steps : (svc.pending == [] &&
    idles (atMs 5 0) (fun u => u.dev.clockMs == 6 && u.sea == svc.sea && u.dbg.lockout == 3) &&
    idles (atMs 999 0) (fun u => u.sea.time == svc.sea.time + 1 && u.dbg.lockout == 2) &&
    idles (atMs 1999 49) (fun u => u.sea.time == svc.sea.time && u.dev.clockMs == 2000) &&
    idles { svc with dev := { svc.dev with phase := .unpowered } } (fun u => u.dev.clockMs == 0)) = true := by decide +kernel

/-- A device whose KILL is blown, at the step that a debug write takes. -/
def killed : State :=
  { svc with key := { svc.key with fuses := { svc.key.fuses with kill := true, rootGone := true } }, dbg := { svc.dbg with level := 2 }
             cfg := { svc.cfg with hw := { svc.cfg.hw with dramGib := 16 } }, pending := [.dbgAccessWrite ⟨8, 2, false, 0⟩ 5] }

theorem test_kept : killed.Kept := ⟨rfl, rfl, fun _ => rfl⟩
theorem test_kept_step : idles killed (fun u => u.dram == [(8, 5)] && u.dram.wf && u.key.fuses.kill && u.key.fuses.rootGone && u.pending == []) = true := by
  decide +kernel

def mem2 : Memory := [(3, 7), (9, 1)]
theorem test_cells : (mem2.wf && mem2.write 3 0 == [(9, 1)] && mem2.writeBytes 8 [2, 0] == [(3, 7), (8, 2)]) = true := by decide +kernel
theorem test_fields : (SMap.wf regReset svc.regs && Reg.PWR_TIMERS.SLEEP_AFTER.lo + Reg.PWR_TIMERS.SLEEP_AFTER.width ≤ 32 &&
    Reg.PWR_TIMERS.STANDBY_AFTER.lo + Reg.PWR_TIMERS.STANDBY_AFTER.width ≤ 32 &&
    (svc.wr Reg.PWR_TIMERS.SLEEP_AFTER 0x1FFFF).rd Reg.PWR_TIMERS.SLEEP_AFTER == 0x1FFFF % 2 ^ Reg.PWR_TIMERS.SLEEP_AFTER.width &&
    (svc.wr Reg.PWR_TIMERS.SLEEP_AFTER 0x1FFFF).rd Reg.PWR_TIMERS.STANDBY_AFTER == svc.rd Reg.PWR_TIMERS.STANDBY_AFTER) = true := by decide +kernel

/-! ## Ill-formed commands -/

def badFrame : SkpFrame := ⟨1, 65536, 0, 0, 0, 0, [], []⟩
def badFab : FabFrame := ⟨65536, 0x24, 1, false, true, 0, 0, false, 3, 1, 0, [], [1], []⟩
def dg : Datagram := ⟨0, 5, 0, none, false, 7, 9, 4000, 0, false, false, false, .good, 1500⟩
def fl (vc : Nat) : Flit := ⟨true, false, vc, 0, 0, 0, 0, false, [], true⟩
def fm (src : Nat) : FabMsg := ⟨src, 1, true⟩

theorem test_ill_formed : ([Instr.flush ⟨.session 4096, 0⟩, .flush ⟨.session 0, 1024⟩, .mctpRegRead ⟨true, 0x40, 0xF6A2, 1, 0⟩ 4294967296 1,
      .release (.skp 4096) 0, .data dg badFrame, .pause 8 0, .sessionIdle 4096, .queryReq (fm 65536), .por (.missed 6), .watchdog 8 true,
      .tempWarn 0 256, .chOffline 32, .voiceCoilUpdate 2, .tetherPeriod 4, .retry 0 256 true, .sledMapEntryTimeout 16,
      .mirrorProbe 65536 0, .chunkReq (fm 1) [] 0, .tileRetention 32, .extest [true], .dbgChallenge 4 false, .clearBreakpoint 1 8].map
      Instr.check) =
    [some .tag, some .tag, some .address, some .path, some .frame, some .port, some .session, some .message, some .step, some .core,
      some .sample, some .channel, some .actuator, some .link, some .flit, some .slot, some .nsid, some .digest, some .tile, some .cells,
      some .level, some .unit] := by decide +kernel

theorem test_ill_formed_more : ([Instr.servoWedge 22 ⟨⟨0, 0, 0, 0, 0⟩, ⟨0, 0, 0, 0, 0⟩⟩,
      .transit .own 2 { badFab with dst := 0 }, .transit .own 0 badFab, .dataFlit 0 (fl 2), .railFault 2].map Instr.check) =
    [some .head, some .flit, some .message, some .flit, some .step] := by decide +kernel

theorem test_well_formed : ([Instr.flush ⟨.session 4095, 1023⟩, .pause 7 65535, .por (.missed 5), .chOffline 31, .tetherPeriod 3,
      .sledMapEntryTimeout 15, .clearBreakpoint 1 7].all Instr.wf) = true := by decide +kernel
/-! ## Data commands -/

def putA : CmdMsg := msgOf 0x02 2 [] keyA [1, 2, 3]
def getA : CmdMsg := msgOf 0x01 2 [] keyA []
/-- Key `a` holds three bytes. -/
def held : State := after putA (.put tag7 false) svc2
def ns2held : Ns := (held.ns? 2).getD ns2
def range (off len : Nat) (k : Bytes) : CmdMsg := msgOf 0x05 2 (beBytes 8 off ++ beBytes 4 len) k []
def empty4 : Bytes := [0, 0, 0, 0]

theorem test_put_commits : (startsIn (withCmd putA svc2) 0x02 (entryOf putA) ns2 && (badDigest ns2 keyA [1, 2, 3] == false) &&
    ns2.seenBy keyA 0 1 == none && (sought putA svc2 (classifyKey 2 keyA)).1.classed == [⟨0, 0, 0, 0⟩] && open? ns2 putA svc2 (classifyKey 2 keyA) &&
    fine ((sought putA svc2 (classifyKey 2 keyA)).2.tryPut ns2 (sought putA svc2 (classifyKey 2 keyA)).1 [1, 2, 3] 0) &&
    commits putA svc2 (.put tag7 false) (doneWith stOK 5 []) &&
    ok (exec (.put tag7 true) (withCmd putA svc2)) (fun u => u == (sought putA svc2 (classifyKey 2 keyA)).2)) = true := by
  decide +kernel

theorem test_put_record : ok (exec (.put tag7 false) (withCmd putA svc2)) (fun u =>
    match u.ns? 2 with
    | some n => n.recs keyA == [⟨0, tagSess tag7, false, .inline [1, 2, 3]⟩] && n.recs keyB == []
    | none => false) = true := by decide +kernel

theorem test_put_create_only :
    answersSought (msgOf 0x02 2 [] keyA [4] 4) held (classifyKey 2 keyA) (.put tag7 false) (doneWith stKeyExists 5 []) = true := by
  decide +kernel

/-- The record that a GET of key `a` finds, and the state after the search. -/
def foundA (s : State) : Option Rec × State :=
  match (begun getA s).findRec ns2held keyA 0 rd0 true with
  | (.ok r, u) => (r, u)
  | (.error _, u) => (none, u)

theorem test_get : (startsIn (withCmd getA held) 0x01 (entryOf getA) ns2held && (begun getA held).readsDisk ns2held getA == false &&
    (foundA held).1.isSome && (foundA held).2.readLoc rd0 (.inline [1, 2, 3]) 0 3 == (⟨[1, 2, 3], none⟩, (foundA held).2) &&
    answers getA held (.get tag7 rd0) (doneData stOK 5 (beBytes 8 3) [1, 2, 3]) &&
    answers (msgOf 0x01 2 [] keyB []) held (.get tag7 rd0) (doneWith stNoSuchKey 5 []) &&
    answers (range 1 2 keyA) held (.getRange tag7 rd0) (doneData stOK 5 (beBytes 8 3) [2, 3]) &&
    answers (range 3 0 keyA) held (.getRange tag7 rd0) (doneData stOK 5 (beBytes 8 3) [])) = true := by decide +kernel

/-- Key `a` holds a value above 64 MiB, of which only its length is read. -/
def longHeld : State :=
  held.setNs { ns2held with keys := [⟨keyA, [⟨0, 1, false, .object 0 67108865 128⟩]⟩] }

theorem test_get_above_64_mib : answers getA longHeld (.get tag7 rd0) (doneWith stBadValueLen 5 (beBytes 8 67108865)) = true := by
  decide +kernel

theorem test_delete : (fine ((begun (msgOf 0x03 2 [] keyA []) held).tryDelete ns2held (running (msgOf 0x03 2 [] keyA []))) &&
    open? ns2held (msgOf 0x03 2 [] keyA []) held noSearch &&
    commits (msgOf 0x03 2 [] keyA []) held (.delete tag7 false) (doneWith stOK 5 []) &&
    ok (exec (.delete tag7 false) (withCmd (msgOf 0x03 2 [] keyA []) held)) (fun u => ((u.ns? 2).map fun n => n.recs keyA) == some []) &&
    answersSought (msgOf 0x03 2 [] keyB []) held noSearch (.delete tag7 false) (doneWith stAbsent 5 [])) = true := by decide +kernel

def cas (expect new_ : Bytes) (absent : Nat) : CmdMsg :=
  msgOf 0x04 2 (beBytes 4 expect.length ++ beBytes 1 absent) keyA (expect ++ new_)

theorem test_cas : (commits (cas [1, 2, 3] [9] 0) held (.cas tag7 rd0 false) (doneWith stOK 5 [1]) &&
    commits (cas [] [9] 1) svc2 (.cas tag7 rd0 false) (doneWith stOK 5 [0]) &&
    answersSought (cas [1, 2] [9] 0) held (classifyKey 2 keyA) (.cas tag7 rd0 false) (doneWith stCasMismatch 5 [1])) = true := by decide +kernel

/-- A BATCH of a PUT of key `b` and a DELETE of key `a`. -/
def batchAB : CmdMsg := msgOf 0x09 2 (beBytes 2 2) [] ([2, 0] ++ leBytes 2 1 ++ leBytes 4 1 ++ leBytes 4 0 ++ keyB ++ [5] ++
  ([3, 0] ++ leBytes 2 1 ++ leBytes 4 0 ++ leBytes 4 0 ++ keyA))

theorem test_batch : (decide (batchAB.batch.length = 2) && decide ((batchAB.batch.filter (ns2held.changes (running batchAB))).length = 2) &&
    commits batchAB held (.batch tag7 rd0 false) (doneWith stOK 5 []) &&
    ok (exec (.batch tag7 rd0 false) (withCmd batchAB held)) (fun u =>
      ((u.ns? 2).map fun n => (n.recs keyA, (n.recs keyB).length)) == some ([], 1))) = true := by decide +kernel

/-- A command whose leaf reads succeed answers, and nothing but what an answer changes differs from what they left. -/
def answersRead (m : CmdMsg) (s : State) (c : Instr) (r : Completion) : Bool :=
  match readLeaves rd0 ((begun m s).leavesIn 2 m.range) (begun m s) with
  | (.ok _, s1) => starts (withCmd m s) m.opcode (entryOf m) && ok (exec c (withCmd m s)) fun u =>
      answered u (entryOf m) r && framed s1 (entryOf m) u
  | _ => false

theorem test_list : (answersRead (msgOf 0x06 2 (beBytes 4 0) [] empty4) held (.list tag7 rd0) (doneData stOK 5 (beBytes 4 1) []) &&
    answersRead (msgOf 0x06 2 (beBytes 4 1) [] empty4) held (.list tag7 rd0) (doneData stOK 5 (beBytes 4 1) [1, 0, 0x61])) = true := by
  decide +kernel

theorem test_scan_counts : (ns2held.stamped == false &&
    answersRead (msgOf 0x07 2 (beBytes 4 0 ++ beBytes 2 0 ++ [1, 0, 0, 0, 0, 0]) [] empty4) held (.scan tag7 rd0)
    (doneData stOK 5 (beBytes 4 1) [])) = true := by decide +kernel

/-- A sealed namespace under slot 16. -/
def ns3 : Ns := ⟨3, .sealed, false, false, 2, 0, 16, 1, 1, [], [], [], 0, 0, none, none, []⟩
def svc3 : State := withNs ns3 svc
def appendA : CmdMsg := msgOf 0x08 3 [] keyA [1, 2]
def numbered : TagEntry := { entryOf appendA with seqNo := some 1 }

theorem test_append_takes_its_number : (svc3.slotKey 16 == some key32 && startsIn (withCmd appendA svc3) 0x08 (entryOf appendA) ns3 &&
    ok (exec (.append tag7 true) (withCmd appendA svc3)) fun u =>
      u.entry? tag7 == some { running appendA with stepTime := 0, seqNo := some 1, classed := [⟨0, 0, 0, 0⟩] }) = true := by decide +kernel

theorem test_append_commits : (startsIn (withE numbered svc3) 0x08 numbered ns3 &&
    (let h := (ns3.streamOr keyA).nextHdr key32 5 0 1 false [1, 2]
     let r := doneData stOK 5 (beBytes 8 1) (leBytes 8 1 ++ h.chain ++ h.cmac)
     ok (exec (.append tag7 false) (withE numbered svc3)) (fun u => committed u numbered r) &&
     ok (exec (.commitPointPassed tag7) (withE { numbered with state := .executing } svc3)) (fun u => committed u numbered r))) = true := by
  decide +kernel

/-- A stream with one record that expires at 10 s. -/
def streamA : Stream := ⟨keyA, 2, key32, key32, 0, [⟨⟨1, 4, 0, 10, 1, false, 1, key32, key16⟩, .inline [9]⟩]⟩
def ns3a : Ns := { ns3 with streams := [streamA] }
def purgeA : CmdMsg := msgOf 0x12 3 (beBytes 4 0) [] []

theorem test_purge : (answersOnly purgeA (withNs ns3a svc) (.purgeExpired tag7 false) (doneWith stOK 5 (purgeParam 0 0)) &&
    commits purgeA { withNs ns3a svc with sea := { svc.sea with time := 11 } } (.purgeExpired tag7 false)
      (doneWith stOK 5 (purgeParam 1 1)) &&
    answersOnly (msgOf 0x01 3 [] keyA []) (withNs ns3a svc) (.get tag7 rd0) (doneData stOK 5 (beBytes 8 104) streamA.head)) = true := by
  decide +kernel

/-- An upload of three bytes in one part of 1 MiB. -/
def up1 : Upload := ⟨1, 2, keyA, 3, 1, 0, [], 0, 0⟩
def open1 (stored : List Nat) : State := { svc2 with cmd := { svc2.cmd with uploads := [{ up1 with stored := stored }], nextUpload := 2 } }
def part (v : Bytes) : CmdMsg := msgOf 0x0D 2 (beBytes 8 1 ++ beBytes 4 0) [] v
def join1 : CmdMsg := msgOf 0x0E 2 (beBytes 8 1) [] []

theorem test_part_begin : commits (msgOf 0x0C 2 (beBytes 8 3 ++ [1]) keyA []) svc2 (.partBegin tag7 false)
    (doneWith stOK 5 (beBytes 8 1)) = true := by decide +kernel

theorem test_part_put : (commits (part [1, 2, 3]) (open1 []) (.partPut tag7 false) (doneWith stOK 5 []) &&
    answersOnly (part [1, 2]) (open1 []) (.partPut tag7 false) (doneWith stBadValueLen 5 [])) = true := by decide +kernel

theorem test_part_commit : (answersSought join1 (open1 []) (classifyKey 2 keyA) (.partCommit tag7 false) (doneWith stBadField 5 (beBytes 4 0)) &&
    commits join1 (open1 [0]) (.partCommit tag7 false) (doneWith stOK 5 [])) = true := by decide +kernel

/-- A command past its commit point, with its result fixed. -/
def past (media : Bool) : TagEntry :=
  { entryOf putA with state := .committed, result := some (doneWith stOK 5 []), media := media }
/-- Buffering is allowed (R87). -/
def buffered : State := ((svc2.wr Reg.BAL_CFG0.RLOAD 10).wr Reg.BAL_CFG0.DIV 30).wr Reg.BAL_STAT.BAL_OK 1

theorem test_posting : (
    ok (exec (.commandPosted tag7) (withE (past false) svc2)) (fun u => answered u (past false) (doneWith stOK 5 [])) &&
    buffered.bufferedOk && svc2.bufferedOk == false && svc2.drain.drained &&
    ok (exec (.commandPosted tag7) (withE (past false) buffered)) (fun u =>
      answered u (past false) (doneWith stOK 5 []) && framed (withE (past false) buffered) (past false) u) &&
    ok (exec (.commandPosted tag7) (withE (past true) buffered)) (fun u => answered u (past true) (doneWith stOK 5 [])) &&
    answers (msgOf 0x0A 0 [] [] []) svc2 (.flush tag7) (doneWith stOK 5 [])) = true := by decide +kernel

/-- An entry of another tag of the same session. -/
def other : TagEntry := { entryOf putA with id := ⟨.session 1, 8⟩, order := 8, asn := 4 }
def abort8 : CmdMsg := msgOf 0x0B 0 (beBytes 2 1 ++ beBytes 2 8) [] []
def withBoth (m : CmdMsg) (f : TagEntry) (cls : SessionClass) : State :=
  { svc2 with cmd := { svc2.cmd with tags := [{ entryOf m with cls := cls }, f], nextOrder := 10 }, sessions := [waiting1] }

theorem test_abort : (
    ok (exec (.abort tag7) (withBoth abort8 other .data)) (fun u => answered u other (doneWith stAborted 4 [0])) &&
    ok (exec (.abort tag7) (withBoth abort8 { other with state := .posted } .data))
      (fun u => answered u { entryOf abort8 with cls := .data } (doneWith stTooLate 5 [])) &&
    answersOnly abort8 svc2 (.abort tag7) (doneWith stTooLate 5 []) &&
    ok (exec (.abort tag7) (withBoth (msgOf 0x0B 0 (beBytes 2 2 ++ beBytes 2 8) [] []) other .data))
      (fun u => answered u { entryOf (msgOf 0x0B 0 (beBytes 2 2 ++ beBytes 2 8) [] []) with cls := .data } (doneWith stNotPermitted 5 [])) &&
    ok (exec (.abort tag7) (withBoth abort8 { other with msg := abort8 } .admin))
      (fun u => answered u (entryOf abort8) (doneWith stBadField 5 []))) = true := by decide +kernel

/-- An image version, and a watch bound to it. -/
def img4 : Image := ⟨4, 1, [], true⟩
def watching (ws : List Watch) : State := { withNs ns3 svc2 with pat := { svc2.pat with images := [img4], nextVersion := 2, watches := ws } }
def watch9 : Watch := ⟨3, 9, 4, 1, 2, 0, [], 1⟩
def arm (id : Nat) : CmdMsg := msgOf 0x10 3 (beBytes 2 id ++ beBytes 2 4 ++ beBytes 2 2 ++ beBytes 2 0 ++ [0]) [] []
def armE (id : Nat) : TagEntry := { entryOf (arm id) with version := 1 }
def disarm (id : Nat) : CmdMsg := msgOf 0x11 3 (beBytes 2 id) [] []

theorem test_watch_arm : ((watching []).eventNsOk 2 && (watching []).imageVer? 4 1 == some img4 &&
    starts (withE (armE 9) (watching [])) 0x10 (armE 9) &&
    ok (exec (.watchArm tag7) (withE (armE 9) (watching []))) (fun u =>
      answered u (armE 9) (doneWith stOK 5 []) && framed (withE (armE 9) (watching [⟨3, 9, 4, 1, 2, 0, [], 5⟩])) (armE 9) u) &&
    ok (exec (.watchArm tag7) (withE (armE 0) (watching []))) (fun u => answered u (armE 0) (doneWith stBadField 5 []))) = true := by
  decide +kernel

theorem test_watch_disarm : (answersOnly (disarm 8) (watching [watch9]) (.watchDisarm tag7) (doneWith stBadField 5 []) &&
    answers (disarm 9) (watching [watch9]) (.watchDisarm tag7) (doneWith stOK 5 []) &&
    ok (exec (.watchDisarm tag7) (withCmd (disarm 9) (watching [watch9]))) (fun u => u.pat.watches == [])) = true := by decide +kernel

/-! ## Admin commands -/

/-- The descriptor of a mutable ARRIVAL namespace, and of a sealed one under slot 16. -/
def mutableDesc : Bytes := [1, 1, 1, 2] ++ List.replicate 60 0
def sealedDesc : Bytes := [2, 1, 1, 2] ++ List.replicate 12 0 ++ [16, 0, 1] ++ List.replicate 45 0
def create (d : Bytes) (id : Nat) : CmdMsg := msgOf 0x40 id [] [] d

theorem test_ns_create : ((begun (create mutableDesc 2) svc).createFails mutableDesc == none &&
    answers (create mutableDesc 2) svc (.nsCreate tag7) (doneWith stOK 5 []) &&
    ok (exec (.nsCreate tag7) (withCmd (create mutableDesc 2) svc)) (fun u => u.ns? 2 == some (nsOf 2 5 mutableDesc none)) &&
    answers (create sealedDesc 4095) svc2 (.nsCreate tag7) (doneWith stOK 5 []) &&
    answersOnly (create mutableDesc 2) svc2 (.nsCreate tag7) (doneWith stKeyExists 5 [])) = true := by decide +kernel

theorem test_ns_delete : (ns2.mirrorSet == none && ns2.copyOf == none && svc2.flash.readOnly == false &&
    answers (msgOf 0x41 2 [] [] []) held (.nsDelete tag7) (doneWith stOK 5 []) &&
    ok (exec (.nsDelete tag7) (withCmd (msgOf 0x41 2 [] [] []) held)) (fun u => u.ns? 2 == none) &&
    (withNs ns3a svc).unexpired ns3a &&
    answersOnly (msgOf 0x41 3 [] [] []) (withNs ns3a svc) (.nsDelete tag7) (doneWith stRetention 5 [])) = true := by decide +kernel

theorem test_ns_query : answersOnly (msgOf 0x42 2 [] [] []) held (.nsQuery tag7) (doneData stOK 5 [] (ns2held.descriptor ++
    leBytes 8 1 ++ leBytes 8 (held.usage ns2held) ++ leBytes 8 1 ++ leBytes 8 0)) = true := by decide +kernel

def power (k : Nat) : CmdMsg := msgOf 0x44 0 (beBytes 1 k) [] []
def stale : State := { svc with dev := { svc.dev with phase := .stalemate } }
def idle : State := { svc with dev := { svc.dev with power := .idle } }

theorem test_power_state : (answersOnly (power 1) stale (.powerState tag7 false) (doneWith stStalemate 5 []) &&
    answersOnly (power 5) svc (.powerState tag7 false) (doneWith stBadField 5 []) &&
    answersOnly (power 1) svc (.powerState tag7 true) (doneWith stOK 5 []) &&
    answers (power 0) idle (.powerState tag7 false) (doneWith stOK 5 []) &&
    ok (exec (.powerState tag7 false) (withCmd (power 0) idle)) (fun u => u.dev.power == .active) &&
    (modeOf 4 == some .hibernate && svc.dev.entering == none && svc.dev.enterTags == [] &&
      ok (exec (.powerState tag7 true) (withCmd (power 4) svc)) (fun u => u.dev.entering == some .hibernate && u.dev.enterTags == [tag7])) &&
    answers (power 2) svc (.powerState tag7 false) (doneWith stOK 5 []) &&
    ok (exec (.powerState tag7 false) (withCmd (power 2) svc)) (fun u => u.dev.power == .standby && u.srv.disk == 0)) = true := by
  decide +kernel

def regRead (a n : Nat) : CmdMsg := msgOf 0x48 0 (beBytes 4 a ++ beBytes 2 n) [] []
def regWrite (a v m : Nat) : CmdMsg := msgOf 0x49 0 (beBytes 4 a ++ beBytes 4 v ++ beBytes 4 m) [] []

theorem test_reg_read : (answers (regRead logSel 1) svc (.regRead tag7) (doneData stOK 5 [] [0, 0, 0, 0]) &&
    answers (regRead 2 1) svc (.regRead tag7) (doneWith stBadField 5 [])) = true := by decide +kernel

def formed (s : State) (c : Instr) (m : CmdMsg) (q : CfgChange) : Bool :=
  starts (withCmd m s) m.opcode (entryOf m) && ok (exec c (withCmd m s)) fun u =>
    u.cfg.under == [⟨q, .tag tag7⟩] && u.cfg.waiting == [] && u.regs == s.regs && u.entry? tag7 == some (running m)

theorem test_reg_write : ((begun (regWrite logSel 5 0xFFFFFFFF) svc).writeCheck (.skp 1) logSel 5 0xFFFFFFFF == none &&
    answers (regWrite logSel 5 0xFFFFFFFF) svc (.regWrite tag7) (doneWith stOK 5 []) &&
    (begun (regWrite compatAddr 0 0xFFFF) svc).writeCheck (.skp 1) compatAddr 0 0xFFFF == none &&
    formed svc (.regWrite tag7) (regWrite compatAddr 0 0xFFFF) (.reg compatAddr 0 0xFFFF) &&
    answersOnly (regWrite 2 5 0xFF) svc (.regWrite tag7) (doneWith stBadField 5 [])) = true := by decide +kernel

/-- The body of `n` zeros behind version 1 and the Edge profile; the least one (Table 04-9) has 16,125. -/
def bodyOf (n : Nat) : Bytes := 1 :: 0 :: 1 :: List.replicate n 0
def body0 : Bytes := bodyOf 16125
def cfgBody0 : CfgBody := ⟨1, 0, 0, 0, 0, 0, 0, 0, 0, []⟩

theorem bodyOf_slice (k a n : Nat) (h : a + n ≤ k) : sliceB (bodyOf k) (3 + a) n = List.replicate n 0 := by
  obtain ⟨m, rfl⟩ := Nat.exists_eq_add_of_le h
  have : (bodyOf (a + n + m)).drop (3 + a) = List.replicate (n + m) 0 := by
    rw [Nat.add_comm 3 a]
    show (List.replicate (a + n + m) 0).drop a = _
    rw [List.drop_replicate, Nat.add_assoc, Nat.add_sub_cancel_left]
  rw [sliceB, this, List.take_replicate, Nat.min_eq_left (Nat.le_add_right n m)]

theorem leNat_zeros (n : Nat) : leNat (List.replicate n 0) = 0 := by
  induction n with
  | zero => rfl
  | succ n ih => rw [List.replicate_succ, leNat, ih]; rfl

theorem parse_bodyOf (k : Nat) (h : k = 16125) : parseBody (bodyOf k) = some cfgBody0 := by
  have le : ∀ a n, a + n ≤ k → leAt (bodyOf k) (3 + a) n = 0 := fun a n w => by rw [leAt, bodyOf_slice k a n w, leNat_zeros]
  have z : ∀ a n, a + n ≤ k → allZero (sliceB (bodyOf k) (3 + a) n) = true := fun a n w => by
    rw [bodyOf_slice k a n w, allZero, List.all_replicate]; simp
  have l : (bodyOf k).length = 16128 := by rw [bodyOf, List.length_cons, List.length_cons, List.length_cons, List.length_replicate, h]
  have v : leAt (bodyOf k) 0 2 = 1 := rfl
  have p : leAt (bodyOf k) 2 1 = 1 := rfl
  have n : leAt (bodyOf k) 0x20 2 = 0 := le 29 2 (by omega)
  have w : allZero (sliceB (bodyOf k) (0x40 + 8 * 0) (16064 - (0x40 + 8 * 0))) = true := z 61 16000 (by omega)
  unfold parseBody
  rw [n]
  dsimp only
  rw [w, v, p, l, z 0 1 (by omega), z 17 4 (by omega), z 31 30 (by omega), z 16061 64 (by omega),
    le 1 4 (by omega), le 5 4 (by omega), le 9 2 (by omega), le 11 1 (by omega), le 12 1 (by omega), le 13 2 (by omega),
    le 15 2 (by omega), le 21 8 (by omega)]
  rfl
theorem test_parse_body : parseBody body0 = some cfgBody0 := parse_bodyOf _ rfl

def configWrite (b : Bytes) : CmdMsg := msgOf 0x4A 0 [] [] b

theorem test_config_write : (parseBody [0] == none && svc.cfg.under == [] && svc.cfg.waiting == [] && svc.fabric == false &&
    (withCmd (configWrite body0) svc).canStart (entryOf (configWrite body0)) &&
    answersOnly (configWrite [0]) svc (.configWrite tag7) (doneWith stBadField 5 [])) = true := by decide +kernel

theorem test_config_factory : (formed svc (.configFactory tag7) (msgOf 0x4B 0 [] [] []) .factory &&
    answersOnly (msgOf 0x4B 0 [] [] []) { svc with dev := { svc.dev with straps := ⟨3, 0, false⟩ } } (.configFactory tag7)
      (doneWith stBadField 5 [])) = true := by decide +kernel

def pendingCommit (c : Option CfgCommit) : State :=
  { svc with cfg := { svc.cfg with copy0 := c, under := [⟨.body cfgBody0, .path .mctp⟩] } }

theorem test_config_commit : (
    ok (exec (.configCommit .second) (pendingCommit none)) (fun u => u.cfg.under == [] &&
      (u.cfg.current.map fun c => (c.2.generation, c.2.body)) == some (1, cfgBody0)) &&
    ok (exec (.configCommit .first) (pendingCommit (some ⟨7, cfgBody0⟩))) (fun u =>
      u.cfg.current == some (1, ⟨8, cfgBody0⟩) && u.cfg.copy0 == some ⟨7, cfgBody0⟩) &&
    ok (exec (.configCommit .failed) (pendingCommit (some ⟨7, cfgBody0⟩))) (fun u => u.cfg.under == [] &&
      u.cfg.current == some (0, ⟨7, cfgBody0⟩)) &&
    ok (exec (.configCommit .first) svc) (fun u => u == svc)) = true := by decide +kernel

/-- A generated key for slot 19, and one for a slot that the host may not write. -/
def provisionMsg (slot : Nat) : CmdMsg := msgOf 0x50 0 (beBytes 2 slot ++ [2, 0, 2, 4] ++ beBytes 2 0) [] []
def erase (slot : Nat) : CmdMsg := msgOf 0x51 0 (beBytes 2 slot ++ beBytes 2 0 ++ [0]) [] []

theorem test_key_provision : ((begun (provisionMsg 19) svc).slotCheck 19 false 0 false == none &&
    (match (begun (provisionMsg 19) svc).newKey (provision (provisionMsg 19).param) [] with
      | (.ok x, _) => x.gen == 1 && x.attr == 0x1604
      | _ => false) &&
    answers (provisionMsg 19) svc (.keyProvision tag7 true) (doneWith stOK 5 (beBytes 2 1)) &&
    answersOnly (provisionMsg 1) svc (.keyProvision tag7 true) (doneWith stNotPermitted 5 [])) = true := by decide +kernel

theorem test_key_erase : ((svc.slot 17).present && answers (erase 17) svc (.keyErase tag7) (doneWith stOK 5 (beBytes 2 2)) &&
    ok (exec (.keyErase tag7) (withCmd (erase 17) svc)) (fun u => u.slot 17 == ⟨2, 0, []⟩) &&
    answersOnly (erase 19) svc (.keyErase tag7) (doneWith stAbsent 5 (beBytes 2 0))) = true := by decide +kernel

/-- An HSS public key of one level of the smallest types. -/
def hssKey : Bytes := beBytes 4 1 ++ beBytes 4 5 ++ beBytes 4 1 ++ List.replicate 48 3
def enrol : CmdMsg := msgOf 0x50 0 (beBytes 2 0xFFFF ++ [3, 2] ++ List.replicate 4 0) [] hssKey
def enrolled (b : Bool) : State := { svc with key := { svc.key with fuses := { svc.key.fuses with enrolled := b } } }

theorem test_enrolment : (bitOf (provision enrol.param).pflags 1 && hssTypesOk hssKey &&
    answers enrol (enrolled false) (.keyProvision tag7 true) (doneWith stOK 5 []) &&
    ok (exec (.keyProvision tag7 true) (withCmd enrol (enrolled false))) (fun u =>
      u.key.fuses.enrolled && u.key.fuses.operPk == sha256 hssKey) &&
    answersOnly enrol (enrolled true) (.keyProvision tag7 true) (doneWith stNotPermitted 5 [])) = true := by decide +kernel

def advance (t : Nat) : CmdMsg := msgOf 0x52 0 (beBytes 8 t) [] []
/-- Device time 100, with an advance made some powered hours ago. -/
def clock (hours : Nat) (ro : Bool) : State :=
  { svc with sea := { svc.sea with time := 100, advMade := true, advHours := hours }, flash := { svc.flash with readOnly := ro } }

theorem test_time_advance : (answers (advance 2592100) (clock 24 false) (.timeAdvance tag7) (doneWith stOK 5 (beBytes 8 2592100)) &&
    ok (exec (.timeAdvance tag7) (withCmd (advance 101) (clock 24 false))) (fun u => u.sea.time == 101 && u.sea.advTotal == 1 && u.sea.advHours == 0) &&
    answersOnly (advance 2592101) (clock 24 false) (.timeAdvance tag7) (doneWith stBadField 5 (beBytes 8 100)) &&
    answersOnly (advance 99) (clock 24 false) (.timeAdvance tag7) (doneWith stBadField 5 (beBytes 8 100)) &&
    answersOnly (advance 100) (clock 0 true) (.timeAdvance tag7) (doneWith stOK 5 (beBytes 8 100)) &&
    answersOnly (advance 101) (clock 23 false) (.timeAdvance tag7) (doneWith stNotPermitted 5 (beBytes 8 100)) &&
    answersOnly (advance 101) (clock 24 true) (.timeAdvance tag7) (doneWith stWorn 5 (beBytes 8 100))) = true := by decide +kernel

/-- The least image of R239: one state, one class, no report. -/
def image1 : Bytes :=
  let tail := List.replicate 260 (0 : Byte)
  leBytes 4 0x564C4F47 ++ [1, 0, 1, 0] ++ leBytes 4 1 ++ leBytes 4 0 ++ [0, 0, 0, 0] ++ leBytes 4 324 ++ leBytes 4 0 ++ leBytes 4 0 ++
    sha256 tail ++ tail
def load (id op : Nat) (b : Bytes) : CmdMsg := msgOf 0x58 0 (beBytes 2 id ++ [BitVec.ofNat 8 op]) [] b

theorem test_pattern_load : (imgInvalid image1 false == false && imgInvalid [0] false &&
    answers (load 4 1 image1) svc (.patternLoad tag7) (doneWith stOK 5 []) &&
    ok (exec (.patternLoad tag7) (withCmd (load 4 1 image1) svc)) (fun u => u.image? 4 == some ⟨4, 1, image1, true⟩) &&
    answersOnly (load 4 1 [0]) svc (.patternLoad tag7) (doneWith stPatternInvalid 5 []) &&
    answers (load 4 2 []) (watching []) (.patternLoad tag7) (doneWith stOK 5 []) &&
    ok (exec (.patternLoad tag7) (withCmd (load 4 2 []) (watching []))) (fun u => u.image? 4 == none)) = true := by decide +kernel

def cam (op table count index end_ : Nat) (v : Bytes) : CmdMsg :=
  msgOf 0x59 0 (beBytes 1 op ++ beBytes 1 table ++ beBytes 2 count ++ beBytes 4 index ++ beBytes 4 end_) [] v
/-- One record of table 1 that matches every key. -/
def camRec : Bytes := List.replicate 20 0 ++ List.replicate 20 0 ++ leBytes 8 1

theorem test_cam_write : (answers (cam 1 1 1 3 0 camRec) svc (.camWrite ⟨tag7, false⟩) (doneWith stOK 5 []) &&
    ok (exec (.camWrite ⟨tag7, false⟩) (withCmd (cam 1 1 1 3 0 camRec) svc)) (fun u => u.table 1 == [(3, some ⟨0, 0, 1⟩)]) &&
    answers (cam 2 1 1 3 0 []) (svc.setTable 1 [(3, some ⟨0, 0, 1⟩)]) (.camWrite ⟨tag7, false⟩) (doneWith stOK 5 []) &&
    ok (exec (.camWrite ⟨tag7, false⟩) (withCmd (cam 4 1 1 3 4 []) (svc.setTable 1 [(3, some ⟨0, 0, 1⟩), (4, some ⟨0, 0, 2⟩)])))
      (fun u => u.table 1 == [(3, some ⟨0, 0, 2⟩)]) &&
    (let t := svc.setTable 1 [(3, some ⟨0, 0, 1⟩)]
     ok (exec (.camWrite ⟨tag7, false⟩) (withCmd (cam 5 1 1 3 0 []) t)) fun u => framed (withCmd (cam 5 1 1 3 0 []) t).tookFree (entryOf (cam 5 1 1 3 0 [])) u) &&
    answers (cam 5 1 1 3 0 []) (svc.setTable 1 [(3, some ⟨0, 0, 1⟩)]) (.camWrite ⟨tag7, false⟩)
      (doneData stOK 5 (beBytes 4 1) (camReadData (svc.tableCfg 1) [(3, some ⟨0, 0, 1⟩)] svc.free 3 1)) &&
    answersOnly (cam 6 1 0 0 0 (List.replicate 20 9)) (svc.setTable 1 [(3, some ⟨0, 0, 1⟩)]) (.camWrite ⟨tag7, false⟩)
      (let d := camSearchData (camFind (svc.tableCfg 1) [(3, some ⟨0, 0, 1⟩)] (leNat (List.replicate 20 9))) false
       doneData stOK 5 d.1 d.2)) = true := by decide +kernel

/-- A condition of R234 that is tested at the change's turn: the table has no tiles. -/
theorem test_cam_write_fails : ((begun (cam 1 8 1 0 0 camRec) svc).camCheck camRec (camCmd (cam 1 8 1 0 0 camRec).param) true == some stBadField &&
    answersOnly (cam 1 8 1 0 0 camRec) svc (.camWrite ⟨tag7, false⟩) (doneWith stBadField 5 [])) = true := by decide +kernel

def svcDesc (mode slot : Nat) (text : Bytes) : Bytes :=
  leBytes 1 mode ++ [1] ++ leBytes 2 slot ++ List.replicate 8 0 ++ leBytes 4 text.length ++ List.replicate 48 0 ++ text
def service (op : Nat) (v : Bytes) : CmdMsg := msgOf op 0 [] [0, 0] v
def pageHeld (r : Option Bytes) : State := svc.setSvcPage ⟨0, tag7.ctx, r, false, []⟩
/-- SHA-256 of three bytes, and a key wrap under slot 17. -/
def hashReq : Bytes := svcDesc 0xC 0xFFFF [0x61, 0x62, 0x63]
def wrapReq : Bytes := svcDesc 9 17 (List.replicate 16 5)

theorem test_service_put : (svcBad hashReq == false && (begun (service 2 hashReq) svc).svcCheck (svcReq hashReq) == none &&
    answers (service 2 hashReq) svc (.hostCryptoServicePut tag7 false) (doneWith stOK 5 []) &&
    ok (exec (.hostCryptoServicePut tag7 false) (withCmd (service 2 hashReq) svc)) (fun u =>
      ((u.svcPage? 0).bind fun p => p.result.map fun r => r.drop 48) == some (sha256 [0x61, 0x62, 0x63])) &&
    svcBad wrapReq == false && (begun (service 2 wrapReq) svc).svcCheck (svcReq wrapReq) == none &&
    answers (service 2 wrapReq) svc (.hostCryptoServicePut tag7 false) (doneWith stOK 5 []) &&
    svcBad [0] && answers (service 2 [0]) svc (.hostCryptoServicePut tag7 false) (doneWith stBadField 5 [])) = true := by decide +kernel

theorem test_service_pages : (answersOnly (service 1 []) (pageHeld (some [7])) (.hostCryptoServiceGet tag7) (doneData stOK 5 (beBytes 8 1) [7]) &&
    answersOnly (service 1 []) (pageHeld none) (.hostCryptoServiceGet tag7) (doneWith stNoSuchKey 5 []) &&
    answers (service 3 []) (pageHeld (some [7])) (.hostCryptoServiceDelete tag7) (doneWith stOK 5 []) &&
    ok (exec (.hostCryptoServiceDelete tag7) (withCmd (service 3 []) (pageHeld (some [7])))) (fun u => u.svcPage? 0 == none) &&
    ok (exec (.serviceResultExpiry 0) (pageHeld (some [7]))) (fun u => u == pageHeld none)) = true := by decide +kernel

/-- An operation that waits for its core. -/
def op3 : Suspended := ⟨3, 0, 0, 17, 1, 9, 0, [8], false, 16, []⟩
def waiting : State := { pageHeld none with cry := { (pageHeld none).cry with suspended := [op3] } }

theorem test_operation_resume : ((waiting.slot op3.slot).gen == op3.gen &&
    ok (exec (.operationResume 3) waiting) (fun u => u.svcPage? 0 == some ⟨0, tag7.ctx, some [8], false, []⟩ && u.cry.suspended == [])) = true := by
  decide +kernel

def entropy (fails : List Nat) (es : Bool) (drbg : Nat) : State := { svc with cry := { svc.cry with esFails := fails, esOk := es, drbg := drbg } }

theorem test_entropy : (
    ok (exec .esHealthFail (entropy [0, 0] true 1)) (fun u => u.cry == { svc.cry with esFails := [0, 0, 0], esOk := false, drbg := 2 }) &&
    ok (exec .esHealthFail (entropy [0] true 1)) (fun u => u.cry.esOk && u.rd Reg.CRY_DRBG.ES_RESTARTS == 1) &&
    ok (exec .esHealthFail (entropy [] false 1)) (fun u => u == entropy [] false 1) &&
    ok (exec .drbgReseed (entropy [] true 2)) (fun u => u == entropy [] true 1) &&
    ok (exec .drbgReseed (entropy [] false 1)) (fun u => u.cry.drbg == 3) &&
    ok (exec .drbgReseed (entropy [] true 3)) (fun u => u == entropy [] true 3)) = true := by decide +kernel

/-! ## Registers -/

/-- An open session of class admin. -/
def session1 : Session :=
  waiting1
def open_ : State := { svc with sessions := [session1] }
def me : Path := .skp 1
/-- A page of block CMD (6), owned by the session; and one that another session owns. -/
def page6 : Nat := 6 * 64
def base6 : Nat := pageBase page6
def ownedBy (id : Nat) (bits : Word) : State :=
  { open_ with regs := [(base6 + hOwner, BitVec.ofNat 32 (0x1000 + id) ||| bits)] }

/-- The premises of a register access by a path of its own. -/
def reaches (s : State) (p : Path) : Bool :=
  s.answersRegs && (s.pathArrives p).pathCheck p == none && s.dev.resetBusy == false && (s.pathArrives p).cfg.under == [] &&
    (s.pathArrives p).cfg.waiting == []
def writesPage (s : State) (p : Path) (page : Nat) : Bool :=
  reaches s p && pagePresent (page / 64) (page % 64) && (s.pathArrives p).mayWrite p (page / 64) false

/-- A register access sets one word and is answered OK. -/
def sets (c : Instr) (s : State) (p : Path) (a : Nat) (w : Word) : Bool :=
  ok (exec c s) fun u => u.regs == SMap.set regReset a w (s.pathArrives p).regs && u.out == s.out ++ [.regResult p stOK []]

theorem test_claim : (writesPage open_ me page6 && writesPage (ownedBy 1 0x10000) me page6 && (ownedBy 1 0).owns me base6 &&
    sets (.claim me page6 true false) open_ me (base6 + hOwner) 0x11001 &&
    sets (.claim me page6 false true) (ownedBy 1 0x10000) me (base6 + hOwner) 0x31001) = true := by decide +kernel

theorem test_release : (sets (.release me page6) (ownedBy 1 0x10000) me (base6 + hOwner) 0 &&
    sets (.release me page6) (ownedBy 1 0x30000) me (base6 + hOwner) 0x30000) = true := by decide +kernel

theorem test_lock : (sets (.lock me page6 true) (ownedBy 1 0) me (base6 + hOwner) 0x11001 &&
    sets (.lock me page6 false) (ownedBy 1 0x10000) me (base6 + hOwner) 0x1001 &&
    sets (.sticky me page6) (ownedBy 1 0x10000) me (base6 + hOwner) 0x31001 &&
    ok (exec (.lock me page6 false) (ownedBy 1 0x30000)) (fun u => u.out == [.regResult me stNotPermitted []])) = true := by
  decide +kernel

/-- LOG_SEL's page is of block 20; page 0 of DIR (7) has domains. -/
def ownedLog (id : Nat) : State := { open_ with regs := [(pageBase (20 * 64) + hOwner, BitVec.ofNat 32 (0x1000 + id))] }

theorem test_owned_page_refuses : (reaches (ownedLog 2) me && (ownedLog 2).mayWrite me 20 false &&
    (ownedLog 2).owns me (pageBase (20 * 64)) == false &&
    ok (exec (.registerWrite me logSel 5 0xFFFFFFFF) (ownedLog 2)) (fun u => u.out == [.regResult me stNotPermitted []]) &&
    (open_.pathArrives me).writeCheck me logSel 5 0xFFFFFFFF == none && (open_.pathArrives me).inRange8 logSel 5 0xFFFFFFFF &&
    ((covered logSel 0xFFFFFFFF).all fun f => f.access == .ro || f.access == .rc) == false &&
    ((covered logSel 0xFFFFFFFF).any fun f => f.access == .rwl) == false) = true := by decide +kernel

def evSet : State := { open_ with regs := [(base6 + hEvtStat, 7)] }
def page7 : Nat := 7 * 64

theorem test_events : (reaches evSet me && evSet.mayWrite me 6 true &&
    sets (.evtStatClear me page6 3) evSet me (base6 + hEvtStat) 4 &&
    writesPage open_ me page6 && ok (exec (.evtForce me page6 1) open_) (fun u => u.word (base6 + hEvtStat) == 1 && u.log.nextSeq == 2) &&
    sets (.errClr me page6) open_ me (base6 + hErrCapt) 0 &&
    pageDomains 7 0 != [] && pageDomains 6 0 == [] && sets (.reqOn me page7) open_ me (pageBase page7 + hPwrReq) 1 &&
    sets (.reqOff me page7) open_ me (pageBase page7 + hPwrReq) 2 &&
    ok (exec (.reqOn me page6) open_) (fun u => u.out == [.regResult me stNotPermitted []]) &&
    ok (exec (.domainAccessPowerOff page7) { svc with dev := { svc.dev with domAccess := BitVec.ofNat 196 (2 ^ 140 + 1) } })
      (fun u => u.dev.domAccess == 1)) = true := by decide +kernel

theorem test_named_writes : (sets (.logSelWrite me 9) open_ me logSel 9 &&
    ok (exec (.pinnedWrite me 2) open_) (fun u => u.out == [.regResult me stBadField []]) &&
    ok (exec (.pinnedWrite me 1) open_) (fun u => u.cfg.under == [⟨.reg compatAddr 1 0xFFFF, .path me⟩] && u.out == []) &&
    writesPage open_ me (3 * 64) && ok (exec (.rstCtrlController me 0x5AFD) open_) (fun u => u.out == [.regResult me stBadField []]) &&
    ok (exec (.rstCtrlController me 0x5AFE) open_) (fun u => u.dev.resetBusy) &&
    (open_.pathArrives me).writeCheck me 2 5 1 == some stBadField &&
    ok (exec (.registerWrite me 2 5 1) open_) (fun u => u.out == [.regResult me stBadField []]) &&
    ok (exec (.registerWrite me logSel 5 0xFFFFFFFF) open_) (fun u => u.word logSel == 5)) = true := by decide +kernel

/-- AUTH_FAIL of block SKP counts and clears when read; ADMITTED_LO is the low word of a counter. -/
def authFail : Nat := 0x140048
def admittedLo : Nat := Reg.CMD_ADMIT_LO.ADMITTED_LO.addr 0 0
def counted : State := { open_ with regs := [(authFail, 3), (admittedLo, 9), (admittedLo + 4, 1)] }

theorem test_reads : (counted.answersRegs && counted.powerPage authFail == counted && counted.powerPage admittedLo == counted &&
    isPairLow authFail == false && isPairLow admittedLo && counted.mayRead me 5 &&
    ok (exec (.rcRead me authFail) counted) (fun u => u.out == [.regResult me stOK [3]] && u.word authFail == 0) &&
    ok (exec (.counterLowRead me admittedLo) counted) (fun u => u.out == [.regResult me stOK [9]] && u.latches == [⟨me, admittedLo + 4, 1⟩]) &&
    ok (exec (.rcRead me (admittedLo + 4)) { counted with latches := [⟨me, admittedLo + 4, 6⟩] })
      (fun u => u.out == [.regResult me stOK [6]] && u.latches == []) &&
    ok (exec (.rcRead me 2) counted) (fun u => u.out == [.regResult me stBadField []])) = true := by decide +kernel

/-- An event and the newest record of it. -/
def ev : Event := Ev.PWR.CRYSTAL_FAIL
def logged (ms : Nat) : State :=
  let t := svc.raise ev
  { t with dev := { t.dev with clockMs := ms } }

theorem test_repeats : (bitOf (evtMask ev.block ev.inst) ev.bit && ((logged 10).log.newest.map fun r => (r.block, r.inst, r.bit, r.madeMs)) ==
      some (ev.block, ev.instNo 0, ev.bit, 0) &&
    ((logged 10).raise ev).log.nextSeq == (logged 10).log.nextSeq && (((logged 10).raise ev).log.held.map fun r => r.repeats) == [1] &&
    (logged 10).log.nextSeq < ((logged 11).raise ev).log.nextSeq) = true := by decide +kernel

/-! ## MCTP -/

def mctp1 : MctpHdr := ⟨true, 0x40, 0xF6A2, 1, 0⟩
def takesMctp (s : State) (h : MctpHdr) : Bool :=
  h.addr == s.smbusAddr && h.pecOk && h.enterprise == 0xF6A2 && h.reserved == 0 && s.answersRegs && (s.arrive Reg.WAKE_SRC.SMBUS).mctp.busy == false
def mctpBusy : State := { svc with mctp := ⟨0, false, true⟩ }
def emitsOne (c : Instr) (s : State) (o : Output) : Bool := ok (exec c s) fun u => u.out == s.out ++ [o]

theorem test_mctp_requests : (takesMctp svc mctp1 &&
    emitsOne (.mctpRegRead mctp1 logSel 1) svc (.mctpResponse 1 1 0 stOK [0, 0, 0, 0]) &&
    emitsOne (.mctpRegRead mctp1 logSel 0) svc (.mctpResponse 1 1 0 stBadField []) &&
    emitsOne (.mctpRegRead mctp1 logSel 65) svc (.mctpResponse 1 1 0 stBadField []) &&
    emitsOne (.mctpRegWrite mctp1 logSel 5 0xFFFFFFFF) svc (.mctpResponse 2 1 0 stOK []) &&
    emitsOne (.mctpRegWrite mctp1 (base6 + 0x40) 5 0xFFFFFFFF) svc (.mctpResponse 2 1 0 stNotPermitted []) &&
    emitsOne (.mctpFwStatus mctp1) svc (.mctpResponse 6 1 0 stOK svc.fwStatus) &&
    emitsOne (.mctpFwStatus mctp1) mctpBusy (.mctpResponse 6 1 0 stBusy []) &&
    emitsOne .smbusClockTimeout svc .smbusReleased &&
    emitsOne (.mctpFwStatus ⟨true, 0x40, 0xF6A2, 1, 3⟩) svc (.mctpResponse 6 1 3 stBadField []) &&
    ok (exec (.mctpFwStatus ⟨true, 0x41, 0xF6A2, 1, 0⟩) svc) (fun u => u == svc) && (svc.wr Reg.PROFILE.SLOT 3).smbusAddr == 0x40 &&
    ((svc.wr Reg.PROFILE.IN_FORCE 2).wr Reg.PROFILE.SLOT 3).smbusAddr == 0x43 &&
    emitsOne (.mctpResetController mctp1) { svc with dev := { svc.dev with resetBusy := true } } (.mctpResponse 5 1 0 stResetAborted []) &&
    ok (exec (.mctpResetController mctp1) svc) (fun u => u.dev.resetBusy && u.dev.resetWaiter == some (.mctp 1 5))) = true := by decide +kernel

def fragment : Bytes := List.replicate 1008 0

theorem test_mctp_config : (
    ok (exec (.configWriteFragment mctp1 3 0 fragment) svc) (fun u => u.cfg.frags.map (fun f => f.1) == [3] &&
      u.out == [.mctpResponse 3 1 0 stOK []]) &&
    ok (exec (.mctpConfigFactory mctp1) svc) (fun u => u.cfg.under == [⟨.factory, .mctp 1 4⟩] && u.mctp.busy) &&
    emitsOne (.configWriteFragment mctp1 16 0 fragment) svc (.mctpResponse 3 1 0 stBadField []) &&
    ok (exec (.configWriteFragment mctp1 3 0 (List.replicate 1013 0)) svc) (fun u => u == svc) &&
    ok (exec .configFragmentSetExpiry { svc with cfg := { svc.cfg with frags := [(3, [0])] } }) (fun u => u == svc)) = true := by
  decide +kernel

/-- Fifteen fragments held, and the sixteenth: together the least body. -/
def fifteen (f g : Bytes) : List (Nat × Bytes) := (0, f) :: (List.range' 1 14).map fun k => (k, g)
def joined (f g : Bytes) : Bytes :=
  ((List.range 16).map fun i =>
    (((putWhere (fun (f : Nat × Bytes) => f.1 == 15) (15, g) (fifteen f g)).find? fun f => f.1 == i).map fun f => f.2).getD []).flatten

theorem joined_eq (f g : Bytes) : joined f g = f ++ (List.replicate 15 g).flatten := rfl

theorem joined_zeros (a b : Nat) :
    joined (1 :: 0 :: 1 :: List.replicate a 0) (List.replicate b 0) = bodyOf (a + 15 * b) := by
  rw [joined_eq, List.flatten_replicate_replicate]
  simp only [List.cons_append, List.replicate_append_replicate, bodyOf]

theorem test_fragments_join : parseBody (joined (1 :: 0 :: 1 :: List.replicate 1005 0) fragment) = some cfgBody0 := by
  rw [fragment, joined_zeros, parse_bodyOf _ rfl]

def ctl : MctpCtl := ⟨true, 0x40, 0x80⟩

theorem test_mctp_control : (ctl.addr == svc.smbusAddr && bitOf ctl.inst 7 && svc.answersRegs &&
    emitsOne (.setEndpointId ctl 0 254) svc (.mctpControl 1 0 [0, 254, 0]) && emitsOne (.setEndpointId ctl 1 1) svc (.mctpControl 1 0 [0, 1, 0]) &&
    emitsOne (.getEndpointId ctl) svc (.mctpControl 2 0 [0, 0, 0]) && emitsOne (.getMctpVersionSupport ctl 0) svc (.mctpControl 4 0 [1, 0xF1, 0xF3, 0xF0, 0]) &&
    emitsOne (.getMessageTypeSupport ctl) svc (.mctpControl 5 0 [1, 0x7F]) &&
    ok (exec (.getVendorDefinedMessageSupport ctl 0) svc) (fun u => u.out.length == 1) &&
    emitsOne (.unsupportedControlCommand ctl 0x0B) svc (.mctpControl 0x0B 5 [])) = true := by decide +kernel

/-! ## Ports and SKP -/

/-- A device with an IPv4 and an IPv6 address whose ports are up. -/
def net : State :=
  { (open_.wr Reg.NET_IPV4.IPV4 9).wrAt Reg.NET_IPV6.IPV6 0 3 9 with ports := List.replicate 8 ⟨true, true, 0, 0, 0, false⟩ }
def dgram : Datagram := ⟨0, 5, BitVec.ofNat 48 (net.portMac 0), none, false, 7, 9, 4000, net.rd Reg.NET_UDP.SKP_PORT, false, false, false, .good, 1500⟩
def dgram6 : Datagram := { dgram with v6 := true }
/-- A PAUSE holds port 0. -/
def holding : State := net.setPort 0 ⟨true, true, 9, 0, 0, false⟩
def echoes (n : Nat) : State := net.setPort 0 ⟨true, true, 0, 0, n, false⟩

theorem test_ports_answer : (net.portAwake && net.framed dgram && net.addressed dgram && net.takesUdp dgram && net.takesIp dgram && net.addressed dgram6 &&
    net.paused 0 == false && (holding.paused 0) && ok (exec (.arpRequest dgram) holding) (fun u => u.out == [] && u.portQueue.length == 1) &&
    emitsOne (.arpRequest dgram) net (.arpReply (net.ethTo 0 5) 9) &&
    emitsOne (.neighbourSolicitation dgram6) net (.neighbourAdvert (net.ethTo 0 5) 9) &&
    emitsOne (.echoRequest dgram [1, 2]) (echoes 99) (.echoReply (net.ipTo 0 5 false 7) [1, 2]) &&
    ok (exec (.echoRequest dgram [1, 2]) (echoes 100)) (fun u => u == echoes 100)) = true := by decide +kernel

def paused : State := net.wr Reg.NET_PORTMODE.PAUSE_EN 1
def downPorts : State := { net with ports := List.replicate 8 Port.down }
/-- A gateway's view: the Fabric profile with GATEWAY_EN, or without. -/
def fabricNet (gw : Nat) : State := { (net.wr Reg.PROFILE.IN_FORCE 2).wr Reg.NET_FAB.GATEWAY_EN gw with fab := { net.fab with addr := 0x23, addrValid := true } }

def frame0 : FabFrame := ⟨0x24, 0x25, 2, false, true, 0, 0, false, 0, 1, 0, [], [], []⟩

theorem test_links : (paused.rdB Reg.NET_PORTMODE.PAUSE_EN && paused.portsServe 0 &&
    ok (exec (.pause 0 65535) paused) (fun u => (u.port 0).pauseQuanta == 65535) &&
    ok (exec (.pause 0 0) (holding.wr Reg.NET_PORTMODE.PAUSE_EN 1)) (fun u => u.paused 0 == false) &&
    ok (exec (.pause 0 9) (net.wr Reg.NET_PORTMODE.PAUSE_EN 0)) (fun u => u == net.wr Reg.NET_PORTMODE.PAUSE_EN 0) &&
    downPorts.portLinks 0 && ok (exec (.linkUp ⟨0, true⟩) downPorts) (fun u => (u.port 0).up && (u.port 0).eee == downPorts.rdB Reg.NET_PORTMODE.EEE_EN) && downPorts.rdB Reg.NET_PORTMODE.AN_EN &&
    ok (exec (.anFail 0) downPorts) (fun u => u.log.nextSeq == 5 && u.ports == downPorts.ports) &&
    ok (exec (.linkDown 0) net) (fun u => (u.port 0).up == false) &&
    (fabricNet 1).ownMac (net.portMac 0) && (fabricNet 1).ingressOk .gateway frame0 &&
    ok (exec (.fabricFrameOnHostPort 0 none (BitVec.ofNat 48 (net.portMac 0)) 34997 frame0) (fabricNet 1)) (fun u =>
      u == ({ fabricNet 1 with dev := { (fabricNet 1).dev with routerQuiet := false } } : State).route .gateway 0 frame0) &&
    ok (exec (.fabricFrameOnHostPort 0 none 5 34997 frame0) (fabricNet 0)) (fun u => u == (fabricNet 0).raise Ev.NET.FAB_DISCARD)) = true := by
  decide +kernel

/-- The session with credit for 4 frames, and its host's frames. -/
def session4 : Session := { session1 with creditSent := 4 }
def net4 : State := { net with sessions := [session4] }
def frameOf (type seq : Nat) (plain : Bytes) : SkpFrame :=
  let p := gcmEnc key32 ([1, 2, 3, 4] ++ beBytes 8 seq) (skpHeader type 1 seq 0 0 plain.length) plain
  ⟨1, 1, seq, 0, 0, plain.length, p.1, p.2⟩


/-- A FLUSH, whole in one fragment of tag 9. -/
def flushFrag : Bytes := [1, 0] ++ beBytes 2 9 ++ beBytes 4 32 ++ beBytes 4 0 ++ beBytes 2 32 ++ [0, 0] ++ flushMsg
def dataFrame : SkpFrame := frameOf 0x03 1 flushFrag

theorem test_data_frame : (net4.takesUdp dgram && frameOk dataFrame && decide (session4.check 0x03 dataFrame = .body flushFrag) &&
    fragBad session4.frag none (fragOf flushFrag) == false &&
    ok (exec (.data dgram dataFrame) net4) (fun u => u.cmd.queue == [⟨.session 1, .admin, 9, Machine.msgOf flushMsg⟩])) = true := by
  decide +kernel

def seen1 : Session := { session4 with high := 1, seen := [1] }
def early : SkpFrame := ⟨1, 1, 5, 0, 0, 0, [], key16⟩

theorem test_dropped_frames : (seen1.check 0x03 dataFrame == .replay && session4.check 0x03 early == .beyondCredit &&
    session4.check 0x03 { early with seq := 1 } == .badTag && frameOk early &&
    ok (exec (.data dgram dataFrame) { net4 with sessions := [seen1] }) (fun u => u.cmd == net4.cmd && u.sessions == [{ seen1 with ackDue := true }]) &&
    ok (exec (.data dgram early) net4) (fun u => u.cmd == net4.cmd && u.sessions == [session4]) &&
    ok (exec (.data dgram { early with seq := 1 }) net4) (fun u => u.cmd == net4.cmd && u.sessions == [session4])) = true := by decide +kernel

/-- What breaks the fragment rules, what is shorter than a fragment's header, and a reserved bit of SESSION (R20, R158). -/
def badFrag : Bytes := flushFrag.set 1 9
def badAnswer : Output := .completion ⟨.session 1, 9⟩ (doneWith stBadField 0 [])
def highSession : SkpFrame :=
  let p := gcmEnc key32 ([1, 2, 3, 4] ++ beBytes 8 1) (skpHeader 0x03 0x1001 1 0 0 flushFrag.length) flushFrag
  ⟨1, 0x1001, 1, 0, 0, flushFrag.length, p.1, p.2⟩

theorem test_bad_fragments : (fragBad session4.frag none (fragOf badFrag) &&
    ok (exec (.data dgram (frameOf 0x03 1 badFrag)) net4) (fun u => u.cmd.queue == [] && u.out.contains badAnswer) &&
    decide (session4.check 0x03 highSession = .body flushFrag) && frameOk highSession && sidOf highSession == 1 &&
    ok (exec (.data dgram highSession) net4) (fun u => u.cmd.queue == [] && u.out.contains badAnswer) &&
    ok (exec (.data dgram (frameOf 0x03 1 [1, 0])) net4) (fun u => u.cmd == net4.cmd && u.out == [])) = true := by decide +kernel

theorem test_goes_on : session4.goesOn ∧ session4.nextSeq + session4.outbox.length + 1 < 2 ^ 63 := by
  simp [Session.goesOn]; decide +kernel

/-- Near the end of the sequence numbers the session has credit for the last one. -/
def lastSeq : Session := { session4 with high := 2 ^ 63 - 2, inOrder := 2 ^ 63 - 2, creditSent := 2 ^ 63 }

theorem test_close_frame : (session4.check 0x05 (frameOf 0x05 1 []) == .body [] &&
    ok (exec (.close dgram (frameOf 0x05 1 [])) net4) (fun u => u.sessions.any fun x => x.closing == some 1) &&
    lastSeq.check 0x05 (frameOf 0x05 (2 ^ 63 - 1) []) == .body [] &&
    ok (exec (.close dgram (frameOf 0x05 (2 ^ 63 - 1) [])) { net4 with sessions := [lastSeq] }) (fun u => u.sessions == [])) = true := by
  decide +kernel

def ackSeq0 : Nat := 0x8000000000000001
def ackFrame0 : SkpFrame := frameOf 0x04 ackSeq0 (List.replicate 128 0)

theorem test_ack_frame : (decide (session4.ackHigh < ackSeq0) && ackFrame0.bodyLen == 128 &&
    ok (exec (.ack dgram { ackFrame0 with tag := key16 }) net4) (fun u => u.sessions == [session4] && u.out == []) &&
    ok (exec (.ack dgram { ackFrame0 with seq := 0 }) net4) (fun u => u == net4) &&
    ok (exec (.ack dgram ackFrame0) net4) (fun u => u.sessions.any fun x => x.ackHigh == ackSeq0 && x.hostIp == 7 && x.hostPort == 4000)) = true := by
  decide +kernel

/-- A HELLO of class data under the host key of slot 18. -/
def helloHead : Bytes := beBytes 2 18 ++ [1, 0] ++ List.replicate 16 5
def helloFrame (mac : Bytes) (id : Nat) : SkpFrame := ⟨1, 0, 0, 0, 8, 36, beBytes 2 id ++ helloHead.drop 2 ++ mac, []⟩
def helloMac : Bytes := cmac key32 (skpHeader 0x01 0 0 0 8 36 ++ helloHead)

/-- The refusal that goes to the HELLO's own addresses. -/
def refused (st : Nat) : Output := .refuse (net.udpTo 0 5 false 7 4000 (refuseBytes st)) (refuseBytes st)

/-- The same HELLO for another class. -/
def classFrame (cls : Nat) : SkpFrame :=
  let head := beBytes 2 18 ++ [BitVec.ofNat 8 cls, 0] ++ List.replicate 16 5
  ⟨1, 0, 0, 0, 8, 36, head ++ cmac key32 (skpHeader 0x01 0 0 0 8 36 ++ head), []⟩

theorem test_hello : (helloBad (helloFrame helloMac 18) == false && net.slotKey 18 == some key32 && (net.tableBars dgram 1).1 == false &&
    (net.tableBars dgram 1).2.keyBars (helloOf (helloFrame helloMac 18).body) == false && net.evicted == [] && net.drbgOk &&
    net.noCipher == false &&     net.freeSession == some 0 &&
    ok (exec (.hello dgram (helloFrame helloMac 18)) net) (fun u => (u.session? 0).any fun x => x.halfOpen && x.keySlot == 18) &&
    ok (exec (.hello dgram (helloFrame key16 18)) net) (fun u => u.sessions == [session1] && u.out == []) &&
    (net.tableBars dgram 3).1 == false && (net.tableBars dgram 3).2.keyBars (helloOf (classFrame 3).body) &&
    emitsOne (.hello dgram (classFrame 3)) net (refused stNotPermitted) &&
    emitsOne (.hello dgram (helloFrame helloMac 18)) { net with cry := { net.cry with drbg := 0 } } (refused stEntropy) &&
    helloBad (helloFrame [] 18) && emitsOne (.hello dgram (helloFrame [] 18)) net (refused stBadField) &&
    emitsOne (.hello dgram (helloFrame key16 19)) net (refused stSlotEmpty)) = true := by decide +kernel

def with1 (x : Session) : State := { net with sessions := [x] }
def held1 (n : Nat) : HeldFrame := ⟨1, some 9, [7], n, false⟩

theorem test_session_timers : (
    (let due := { session1 with ackDue := true }
     emitsOne (.ackDelayExpiry 1) (with1 due) (.ackFrame (net.toHost due (due.frame net.grant 0x04 1 due.bitmap)) 1 1 (due.frame net.grant 0x04 1 due.bitmap)) &&
     ok (exec (.ackDelayExpiry 1) (with1 { due with closing := some 0 })) (fun u => u.sessions == [])) &&
    emitsOne (.retransmissionTimer 1 1) (with1 { session1 with held := [held1 15] }) (.frame (net.toHost session1 [7]) 1 1 [7]) &&
    ok (exec (.retransmissionTimer 1 1) (with1 { session1 with held := [held1 16] })) (fun u => u.sessions == []) &&
    ok (exec (.halfOpenExpiry 1) (with1 { session1 with halfOpen := true })) (fun u => u.sessions == []) &&
    ok (exec (.halfOpenExpiry 1) net) (fun u => u == net) &&
    ok (exec (.sessionIdle 1) net) (fun u => u.sessions == []) &&
    ok (exec (.sessionIdle 1) (net.wr Reg.SKP_CFG.SESSION_IDLE 0)) (fun u => u.sessions == [session1]) &&
    ok (exec (.retxEnd 1) (with1 { session1 with held := [held1 3] })) (fun u => u.sessions == []) &&
    ok (exec (.retxEnd 1) net) (fun u => u == net) &&
    ok (exec (.closeTimeout 1) (with1 { session1 with closing := some 0 })) (fun u => u.sessions == []) &&
    ok (exec (.closeTimeout 1) net) (fun u => u == net)) = true := by decide +kernel

/-! ## Admission -/

def queued (op : Nat) : QueuedCmd := ⟨.session 1, .admin, 9, Tests.msgOf op 0 (List.replicate 12 0) [] []⟩
def arrived (op : Nat) : State := { open_ with cmd := { open_.cmd with queue := [queued op] } }

/-- The activation pause admits nothing. -/
def idlePaused : State := { arrived 0x0A with cmd := { (arrived 0x0A).cmd with paused := true } }

theorem test_admission : ((arrived 0x0A).admits && ({ arrived 0x0A with cmd := { open_.cmd with queue := [] } } : State).refusal (queued 0x0A) == none &&
    ok (exec .receiveQueueAdmission (arrived 0x0A)) (fun u => u.cmd.tags.length == 1 && u.cmd.queue == [] && u.cmd.nextOrder == 1 &&
      (u.cmd.tags.map fun e => (e.id, e.asn, e.order, e.state)) == [(⟨.session 1, 9⟩, 1, 0, .admitted)]) &&
    ok (exec .receiveQueueAdmission { arrived 0x0A with dev := { svc.dev with resetBusy := true } }) (fun u =>
      (u.cmd.tags.map fun e => e.result.map fun c => c.status) == [some stResetAborted]) &&
    (({ arrived 0xEE with cmd := { open_.cmd with queue := [] } } : State).refusal (queued 0xEE)).isSome &&
    ok (exec .receiveQueueAdmission (arrived 0xEE)) (fun u => u.cmd.tags == [] && u.out.length == 1) &&
    idlePaused.admits == false && ok (exec .receiveQueueAdmission idlePaused) (fun u => u == idlePaused)) = true := by decide +kernel

/-! ## Firmware -/

def dig (b : Byte) : Bytes := List.replicate 48 b
/-- A record: A active with FUNC_VERSION 5, B another package. -/
def rec5 (trial : Bool) : SlotRecord := ⟨3, 0, trial, false, false, 1, 0, dig 1, dig 2, 5, 4, 1, 1⟩
def staged (stage : Nat) (chunks : List (Nat × Bytes)) : Staging := ⟨dig 9, 3, 6, 1, stage, chunks, true, false, [], 0⟩
def fwState (trial : Bool) (g : Option Staging) : State :=
  { svc with fw := { svc.fw with rec0 := some (rec5 trial), staging := g } }
def openMsg (d : Byte) (func : Nat) (flags : BitVec 16) : CmdMsg :=
  msgOf 0x60 0 [0, 0, 0] [] (dig d ++ leBytes 4 3 ++ leBytes 4 func ++ leBytes 1 1 ++ [0, 0, 0]) flags

theorem test_fw_open : (
    (begun (openMsg 9 6 0) (fwState false none)).openFails (openMsg 9 6 0) == none &&
    answers (openMsg 9 6 0) (fwState false none) (.fwOpen tag7) (doneWith stOK 5 [0, 0, 0, 0]) &&
    ok (exec (.fwOpen tag7) (withCmd (openMsg 9 6 0) (fwState false none))) (fun u => u.fw.staging == some (staged 1 [])) &&
    answersOnly (openMsg 9 4 0) (fwState false none) (.fwOpen tag7) (doneWith stVersionLow 5 [0, 0, 0xFF, 0xFF]) &&
    answers (openMsg 9 6 0) (fwState false (some (staged 1 []))) (.fwOpen tag7) (doneWith stOK 5 [0, 0, 0, 0]) &&
    answers (openMsg 8 6 8) (fwState false (some (staged 1 []))) (.fwOpen tag7) (doneWith stOK 5 [0, 0, 0, 0]) &&
    answersOnly (openMsg 8 6 0) (fwState false (some (staged 1 []))) (.fwOpen tag7) (doneWith stStagingBusy 5 [0, 0, 0, 0])) = true := by
  decide +kernel

def chunkMsg (k : Nat) (b : Bytes) (d : Byte) : CmdMsg :=
  msgOf 0x61 0 (beBytes 4 k ++ beBytes 4 (crc32c b) ++ List.replicate 4 d) [] b

theorem test_fw_chunk : (
    answers (chunkMsg 0 [1, 2, 3] 9) (fwState false (some (staged 1 []))) (.fwChunk tag7) (doneWith stOK 5 (beBytes 2 1 ++ beBytes 2 1)) &&
    ok (exec (.fwChunk tag7) (withCmd (chunkMsg 0 [1, 2, 3] 9) (fwState false (some (staged 1 []))))) (fun u =>
      u.fw.staging == some (staged 2 [(0, [1, 2, 3])])) &&
    answersOnly (chunkMsg 1 [1, 2, 3] 9) (fwState false (some (staged 1 []))) (.fwChunk tag7) (doneWith stBadField 5 [0, 0, 0, 0]) &&
    answersOnly (chunkMsg 0 [1, 2, 3] 8) (fwState false (some (staged 1 []))) (.fwChunk tag7) (doneWith stPackage 5 [0, 0, 0, 0])) = true := by
  decide +kernel

theorem test_fw_status_discard : (
    answersOnly (msgOf 0x62 0 [] [] []) (fwState false none) (.fwStatus tag7) (doneData stOK 5 [] (fwState false none).fwStatus) &&
    answersOnly (msgOf 0x66 0 [1] [] []) (fwState false none) (.fwDiscard tag7 true) (doneWith stAbsent 5 []) &&
    answers (msgOf 0x66 0 [1] [] []) (fwState false (some (staged 1 []))) (.fwDiscard tag7 true) (doneWith stOK 5 [])) = true := by decide +kernel

def dtag9 : Bytes := List.replicate 4 9
def complete : State := fwState false (some (staged 2 [(0, [1, 2, 3])]))
def verified : State := fwState false (some (staged 4 [(0, [1, 2, 3])]))
def activating : State := { verified with fw := { verified.fw with activating := some tag7 } }

/-- A package that is not signed fails its check. -/
theorem test_fw_verify : (complete.fw.record.trial == false && decide (chunkCount 3 ≤ 1) &&
    complete.packageFails (staged 2 [(0, [1, 2, 3])]) [1, 2, 3] == some stPackage &&
    answers (msgOf 0x63 0 dtag9 [] []) complete (.fwVerify tag7 [] ⟨none, none⟩) (doneWith stPackage 5 [0, 1])) = true := by decide +kernel

/-- A verification that stands after step 6 goes on: the inactive slot is written and named. -/
def vstood : State := fwState false (some { staged 3 [(0, [1, 2, 3])] with vstep := 6 })
theorem test_fw_verify_goes_on : (
    answers (msgOf 0x63 0 dtag9 [] []) vstood (.fwVerify tag7 [] ⟨none, none⟩) (doneWith stOK 5 [0, 1]) &&
    ok (exec (.fwVerify tag7 [] ⟨none, none⟩) (withCmd (msgOf 0x63 0 dtag9 [] []) vstood)) (fun u =>
      u.fw.image 1 == [1, 2, 3] && u.fw.record.digest 1 == dig 9 && u.fw.record.active == 0 && u.fw.record.generation == 5 &&
      (u.fw.staging.map fun g => (g.stage, g.vstep)) == some (4, 0))) = true := by decide +kernel

theorem test_fw_activate : (starts (withCmd (msgOf 0x64 0 dtag9 [] []) verified) 0x64 (entryOf (msgOf 0x64 0 dtag9 [] [])) &&
    ok (exec (.fwActivate tag7) (withCmd (msgOf 0x64 0 dtag9 [] []) verified)) (fun u => u.fw.activating == some tag7) &&
    (({ activating with cmd := { activating.cmd with paused := true } }).drain.flushLog).drained &&
    ok (exec (.activationPause false) (withE (running (msgOf 0x64 0 dtag9 [] [])) activating)) (fun u =>
      answered u (running (msgOf 0x64 0 dtag9 [] [])) (doneWith stPackage 5 []) && u.fw.record.active == 0) &&
    ok (exec (.activationPause true) (withE (running (msgOf 0x64 0 dtag9 [] [])) activating)) (fun u =>
      answered u (running (msgOf 0x64 0 dtag9 [] [])) (doneWith stOK 5 []) && u.fw.staging == none && u.fw.record.active == 1 &&
      u.fw.record.trial && u.fw.record.generation == 4 && u.cmd.paused == false)) = true := by decide +kernel

theorem test_fw_trial : (
    answers (msgOf 0x65 0 [] [] []) (fwState true none) (.fwConfirm tag7 ⟨true, false⟩) (doneWith stOK 5 [1]) &&
    ok (exec (.fwConfirm tag7 ⟨true, false⟩) (withCmd (msgOf 0x65 0 [] [] []) (fwState true none))) (fun u =>
      u.key.fuses.rollback == 1 && u.fw.record.trial == false) &&
    ok (exec (.fwConfirm tag7 ⟨true, true⟩) (withCmd (msgOf 0x65 0 [] [] []) (fwState true none))) (fun u =>
      u.key.fuses.rollback == 1 && u.fw.record.trial && u.entry? tag7 == some (running (msgOf 0x65 0 [] [] []))) &&
    answersOnly (msgOf 0x65 0 [] [] []) (fwState false none) (.fwConfirm tag7 ⟨true, false⟩) (doneWith stNotPermitted 5 []) &&
    (fwState true none).slotAllowed (rec5 true) 1 &&
    answers (msgOf 0x66 0 [2] [] []) (fwState true none) (.fwDiscard tag7 true) (doneWith stOK 5 []) &&
    ok (exec (.trialExpiry true) (fwState true none)) (fun u => u.fw.record.active == 1 && u.fw.record.reverted) &&
    (fwState true none).powered && ok (exec .trialSeconds (fwState true none)) (fun u => u.fw.record.trialSeconds == 3600)) = true := by
  decide +kernel

/-! ## The fabric, asked by commands -/

/-- A device at 0x23 of a Fabric sled whose slot 4 is beside it on link 0. -/
def fab1 : Fab :=
  { svc.fab with addr := 0x23, addrValid := true
                 links := [{ Link.down 0 with trained := true, state := 2, credit0 := 100, credit1 := 100 }, Link.down 1, Link.down 2, Link.down 3]
                 sled := [⟨3, true, false, 15, 1⟩, ⟨4, true, false, 15, 1⟩] }
def fsvc : State := ({ (svc.wr Reg.PROFILE.IN_FORCE 2).wr Reg.PROFILE.SLOT 3 with fab := fab1 }).setSlot 2 ⟨1, 0x0610, key32⟩
def query (other : Nat) (a : Nat) : CmdMsg := msgOf 0x70 0 (beBytes 1 other ++ beBytes 2 a) [] []
def forward (a : Nat) : CmdMsg := msgOf 0x72 0 (beBytes 2 a) [] flushMsg

def asks (m : CmdMsg) (c : Instr) (dst ftype : Nat) (b : FabPayload) : Bool :=
  starts (withCmd m fsvc) m.opcode (entryOf m) && (begun m fsvc).noRoute dst == false && ok (exec c (withCmd m fsvc)) fun u =>
    u.entry? tag7 == some (running m) && u.out == [] && u.fab.inject.length == 1 &&
    u.fab.nextMsg == 1 && u.fab.outMsgs.map (fun o => (o.msgId, o.dst, o.ftype, o.body, o.tag)) == [(0, dst, ftype, b, some tag7)]

theorem test_fab_query : (answersOnly (query 0 0) fsvc (.fabQuery tag7) (doneData stOK 5 [] fsvc.fabState) &&
    asks (query 1 0x24) (.fabQuery tag7) 0x24 0x05 .query && asks (forward 0x24) (.fabForward tag7) 0x24 0x03 (.bytes flushMsg) &&
    answersOnly (query 1 0x39) fsvc (.fabQuery tag7) (doneWith stUnreachable 5 []) &&
    answersOnly (forward 0x39) fsvc (.fabForward tag7) (doneWith stUnreachable 5 [])) = true := by decide +kernel

def setMsg (op id n : Nat) (ns : Nat) (v : Bytes) : CmdMsg := msgOf 0x71 ns ([BitVec.ofNat 8 op, 0] ++ beBytes 2 id ++ [BitVec.ofNat 8 n]) [] v
def withSet (ns : Ns) : State := { withNs ns fsvc with fab := { fab1 with sets := [(5, false, [0x24])] } }

theorem test_fab_mirror_set : (
    answers (setMsg 1 5 1 0 (beBytes 2 0x24)) fsvc (.fabMirrorSet tag7 false false) (doneWith stOK 5 []) &&
    ok (exec (.fabMirrorSet tag7 false false) (withCmd (setMsg 1 65534 3 0 (beBytes 2 0x24 ++ beBytes 2 0x25 ++ beBytes 2 0x26)) fsvc))
      (fun u => u.fab.sets.map (fun x => x.1) == [65534]) &&
    answers (setMsg 2 5 0 0 []) (withSet ns2) (.fabMirrorSet tag7 false false) (doneWith stOK 5 []) &&
    answersOnly (setMsg 2 5 0 0 []) (withSet { ns2 with mirrorSet := some 5 }) (.fabMirrorSet tag7 false false) (doneWith stNotPermitted 5 []) &&
    (withSet ns2).noRoute 0x24 == false && answers (setMsg 3 5 0 2 []) (withSet ns2) (.fabMirrorSet tag7 false false) (doneWith stOK 5 []) &&
    answers (setMsg 3 5 0 2 []) (withSet ns2) (.fabMirrorSet tag7 true false) (doneWith stMirrorFailed 5 []) &&
    answers (setMsg 3 5 0 2 []) (withSet ns2) (.fabMirrorSet tag7 false true) (doneWith stUnreachable 5 []) &&
    answers (setMsg 3 0xFFFF 0 2 []) (withSet { ns2 with mirrorSet := some 5 }) (.fabMirrorSet tag7 false false) (doneWith stOK 5 []) &&
    ok (exec (.fabMirrorSet tag7 false false) (withCmd (setMsg 3 5 0 2 []) (withSet ns2))) (fun u =>
      u.ns? 2 == some { ns2 with mirrorSet := some 5 })) = true := by decide +kernel

theorem test_reset_controller : (
    answersOnly (msgOf 0x45 0 [] [] []) { svc with dev := { svc.dev with resetBusy := true } } (.resetController tag7) (doneWith stResetAborted 5 []) &&
    ok (exec (.resetController tag7) (withCmd (msgOf 0x45 0 [] [] []) svc)) (fun u =>
      u.dev.resetBusy && (match u.dev.resetWaiter with | some (.tag x) => x.tag == 7 | _ => false))) = true := by decide +kernel

/-! ## Resets, starts and power -/

def phase (p : Phase) (s : State) : State := { s with dev := { s.dev with phase := p } }
/-- A start of a kind is about to run on a device that a reset has emptied. -/
def restarted (u : State) (k : StartKind) : Bool :=
  u.dev.phase == .starting false && u.dev.kind == k && u.sessions == [] && u.cmd.tags == [] && u.cmd.queue == [] && u.key.slots == []
def busy : State := withCmd putA' { open_ with cmd := { open_.cmd with queue := [queued 0x0A] } }
  where putA' : CmdMsg := Tests.msgOf 0x02 2 [] [0x61] [1]

/-- The enables in the order of Table 02-10. -/
def raised : List Output := [.rails true false false, .rails true true false, .rails true true true]

theorem test_por : (ok (exec (.por .allGood) busy) (fun u => u.dev.phase == .starting true && u.dev.kind == .por && u.out == raised) &&
    ok (exec (.por (.missed 4)) busy) (fun u => u.dev.phase == .railFault 1 && u.dev.kind == .railFailed)) = true := by decide +kernel

theorem test_pin : (ok (exec (.pin 100000 true) busy) (fun u => restarted u .pin) &&
    ok (exec (.pin 100000 true) (phase .hibernate busy)) (fun u => restarted u .pin) &&
    ok (exec (.pin 100000 true) (phase (.railFault 3) svc)) (fun u => u.dev.phase == .starting true && u.dev.railsFailed == 0 &&
      u.out == raised) &&
    ok (exec (.pin 49999 true) busy) (fun u => u == busy)) = true := by decide +kernel

theorem test_watchdog : (let s := busy.wr Reg.WDT_CFG.WDT_EN 1
    s.watchdogOn && ok (exec (.watchdog 7 true) s) (fun u => restarted u .watchdog)) = true := by decide +kernel

theorem test_rails : (
    ok (exec (.railFault 3) (phase (.starting true) svc)) (fun u => u.dev.phase == .railFault 1 && u.kv == svc.kv) &&
    ok (exec (.railRetry .allGood) (phase (.railFault 2) svc)) (fun u => u.dev.phase == .starting true && u.dev.kind == .railFailed) &&
    ok (exec (.railRetry (.missed 3)) { phase (.railFault 2) svc with dev := { svc.dev with phase := .railFault 2, railsFailed := 2 } })
      (fun u => u.dev.phase == .railFault 3) &&
    ok (exec (.railRetry .allGood) (phase (.railFault 3) svc)) (fun u => u == phase (.railFault 3) svc)) = true := by decide +kernel

/-- What a start finds: an image in slot A, no flash, no disk. -/
def image5 : SlotFound := ⟨true, dig 1, 5, 0⟩
def finds (test : Bool) : StartFindings :=
  ⟨⟨1, 3, test⟩, true, true, image5, ⟨false, [], 0, 0⟩, [], none, true, [], [], 16, [], none, 0, false, false, false, [], 1500, 30⟩
/-- A record that agrees with that hardware. -/
def cfgGood : CfgBody := ⟨1, 0, 0, 0, 0, 16, 0, 0, 0, []⟩
def new_ : State := { State.reset with key := { svc.key with slots := [] } }
def cold : State := { new_ with cfg := { State.reset.cfg with copy0 := some ⟨1, cfgGood⟩ } }
def kills (s : State) : State := { s with key := { s.key with killPending := true } }

theorem test_cold_start : (
    ok (exec (.coldStart (finds false)) cold) (fun u => u.dev.phase == .service) &&
    ok (exec (.coldStart (finds false)) new_) (fun u => u.dev.phase == .stalemate && u.rd Reg.STALE_STAT.REASON == 1) &&
    ok (exec (.coldStart (finds false)) (kills cold)) (fun u => u.dev.phase == .stalemate && u.key.fuses.kill && u.key.fuses.rootGone) &&
    ok (exec (.coldStart (finds true)) cold) (fun u => u.dev.phase == .testMode) &&
    ok (exec (.coldStart { finds false with sfdpOk := false }) cold) (fun u => u.dev.phase == .bootWait) &&
    ok (exec (.coldStart { finds false with slotA := ⟨false, [], 0, 0⟩ }) cold) (fun u => u.dev.phase == .bootWait) &&
    ok (exec (.warmStart (finds false)) cold) (fun u => u == cold)) = true := by decide +kernel

theorem test_warm_start : (
    ok (exec (.warmStart (finds false)) (phase (.starting false) cold)) (fun u => u.dev.phase == .service) &&
    ok (exec (.warmStart (finds false)) { phase .service cold with dev := { cold.dev with phase := .service, resetBusy := true } })
      (fun u => u.dev.phase == .service && u.dev.kind == .controller) &&
    ok (exec (.warmStart (finds false)) { phase .service cold with dev := { cold.dev with phase := .service, resetBusy := true, resetWaiter := some (.mctp 3 5) } })
      (fun u => u.out.contains (.mctpResponse 5 3 0 stOK [])) &&
    ok (exec (.warmStart (finds false)) { phase (.starting false) cold with dev := { cold.dev with phase := .starting false, pwrfailLow := true } })
      (fun u => u.dev.phase == .drained false) &&
    ok (exec (.coldStart (finds false)) svc) (fun u => u == svc) && ok (exec (.warmStart (finds false)) svc) (fun u => u == svc)) = true := by
  decide +kernel

/-- A head that writes. -/
def head0 : Head := { Head.fresh 0 true with inhibit := false, writing := true }
def spun : State := { svc with srv := { svc.srv with disk := 4, heads := [head0], actuators := [Actuator.fresh 0] }, dev := { svc.dev with spinning := true } }
def low (p : Phase) (l : Bool) : State := { svc with dev := { svc.dev with phase := p, pwrfailLow := l } }
def rising (p : Phase) : State := { svc with dev := { svc.dev with phase := p, riseCounting := true } }

theorem test_pwrfail : (
    ok (exec (.pwrfail 2000) spun) (fun u => u.dev.phase == .drained false && u.dev.pwrfailLow && u.dev.spinning == false &&
      u.srv.heads.all fun h => h.inhibit && !h.writing) &&
    ok (exec (.pwrfail 2000) stale) (fun u => u.dev.phase == .drained false) &&
    ok (exec (.pwrfail 499) spun) (fun u => u == spun) &&
    svc.drain.drained && ok (exec .drainComplete (low (.drained false) true)) (fun u => u.dev.phase == .drained true && u.flash.drainMark &&
      u.kv.sramSeal == some u.sealDir) &&
    ok (exec .drainComplete svc) (fun u => u == svc) &&
    ok (exec .pwrfailNRise (low (.drained true) true)) (fun u => u.dev.riseCounting && u.dev.pwrfailLow == false) &&
    ok (exec .pwrfailResume (low (.drained true) true)) (fun u => u == low (.drained true) true) &&
    ok (exec .pwrfailResume (rising (.drained true))) (fun u => u.dev.phase == .service && u.dev.power == .active) &&
    ok (exec .pwrfailResume (rising .railsLost)) (fun u => u.dev.phase == .starting true && u.out == raised)) = true := by decide +kernel

theorem test_power_lost : (
    ok (exec (.switchedRailLoss true) { low (.drained true) true with sessions := [session1] }) (fun u =>
      u.dev.phase == .railsLost && u.dev.kind == .railLoss && u.sessions == [] && u.out == [.rails true true false, .rails true false false, .rails false false false]) &&
    svc.powered && ok (exec (.switchedRailLoss true) svc) (fun u => u.dev.phase == .starting true && u.dev.kind == .alarm && u.key.envCount == 1) &&
    ok (exec .alwaysOnPowerLoss busy) (fun u => u.dev.phase == .unpowered && u.sessions == [] && u.key.vault == busy.key.vault) &&
    ok (exec .alwaysOnPowerLoss (phase .unpowered svc)) (fun u => u == phase .unpowered svc)) = true := by decide +kernel

def env (n : Nat) : State := { open_ with key := { open_.key with envCount := n } }
def alarmed (u : State) (src : Nat) (kill : Bool) : Bool :=
  u.dev.phase == .starting true && u.dev.kind == .alarm && u.dev.alarmSrc == src && u.key.slots == [] && u.cry.drbg == 0 &&
    u.key.killPending == kill && u.sessions == []

theorem test_alarms : (
    ok (exec (.clockAlarm true) (env 14)) (fun u => alarmed u 2 false && u.key.envCount == 15) &&
    ok (exec (.clockAlarm true) (env 15)) (fun u => alarmed u 5 true && u.key.envCount == 16) &&
    ok (exec (.temperatureAlarm true) (env 16)) (fun u => alarmed u 3 false && u.key.envCount == 16) &&
    ok (exec (.voltageAlarm false true) (env 0)) (fun u => alarmed u 1 false) &&
    ok (exec (.shieldAlarm true) (env 3)) (fun u => alarmed u 4 true && u.key.envCount == 3) &&
    (phase .railsLost svc).powered == false && ok (exec (.shieldAlarm true) (phase .railsLost svc)) (fun u => u == kills (phase .railsLost svc)) &&
    ok (exec .envCountDecrement (env 3)) (fun u => u.key.envCount == 2)) = true := by decide +kernel

theorem test_beyond_maximum : exec (.voltageAlarm true true) svc = .fault .beyondAbsoluteMaximum := by rfl

def at_ (t : Int) (pin : Bool) : State := { svc with dev := { svc.dev with hottest := t, thermN := pin } }

theorem test_temperatures : (
    ok (exec (.thermN 110) (at_ 110 false)) (fun u => u.dev.thermN) && ok (exec (.thermN 100) (at_ 100 true)) (fun u => u.dev.thermN == false) &&
    ok (exec (.tempWarn 109 3) (at_ 0 true)) (fun u => u.dev.thermN && u.dev.hottest == 109) &&
    ok (exec (.tempWarn 101 3) (at_ 0 false)) (fun u => u.dev.thermN == false) &&
    ok (exec .thermalLimitFall (at_ 105 false)) (fun u => u.dev.thermalLimit == 330) &&
    ok (exec .thermalLimitRise (at_ 100 false)) (fun u => u.dev.thermalLimit == 340) &&
    ok (exec (.powerEstimate 341 5 6) svc) (fun u => u.rd Reg.PWR_CAP.THROTTLE == 1 && u.rd Reg.PWR_EST.EST100 == 6) &&
    ok (exec (.powerEstimate 340 5 6) svc) (fun u => u.rd Reg.PWR_CAP.THROTTLE == 0)) = true := by decide +kernel

theorem test_references : (
    ok (exec .refclkSdLost net) (fun u => u.dev.refSdLost && (List.range 8).all fun p => !(u.port p).up) &&
    ok (exec .refclkSdRestored { svc with dev := { svc.dev with refSdLost := true } }) (fun u => u == svc) &&
    ok (exec .crystalFail svc) (fun u => u.dev.crystalFail && u.log.nextSeq == 2) &&
    ok (exec .crystalReturn { svc with dev := { svc.dev with crystalFail := true } }) (fun u => u == svc) &&
    ok (exec .poweredHour svc) (fun u => u.key.envHours == 1 && u.sea.advHours == 25) &&
    ok (exec .deviceTimeSave { svc with sea := { svc.sea with time := 9 } }) (fun u => u.sea.saved == 9 && u.sea.savedAdv == 24)) = true := by
  decide +kernel

theorem test_log_flush : (let s := { svc with log := { svc.log with buffer := (logged 0).log.held } }
    s.log.buffer.length == 1 && ok (exec .logFlush s) (fun u => u.log.flash == s.log.buffer && u.log.buffer == [])) = true := by decide +kernel

def powerAt (m : PowerMode) (e : Option PowerMode) : State := { svc with dev := { svc.dev with power := m, entering := e } }

theorem test_wakes : (
    ok (exec (.wakeN 100000) (powerAt .sleep none)) (fun u => u.dev.power == .active) &&
    ok (exec .wakeTimer (powerAt .active (some .sleep))) (fun u => u.dev.entering == none) &&
    ok (exec .wakeTimer (phase .hibernate svc)) (fun u => u.dev.phase == .starting false && u.dev.kind == .hibernateExit) &&
    ok (exec (.wakeN 49999) (powerAt .sleep none)) (fun u => u == powerAt .sleep none) &&
    svc.restful && ok (exec .idle svc) (fun u => u == powerAt .idle none)) = true := by decide +kernel

def timers (standby sleep : Nat) : State := (svc.wr Reg.PWR_TIMERS.STANDBY_AFTER standby).wr Reg.PWR_TIMERS.SLEEP_AFTER sleep

theorem test_timers : (
    ok (exec (.standbyAfter false) (timers 5 0)) (fun u => u.dev.power == .standby && u.dev.entering == none) &&
    ok (exec (.sleepAfter true) (timers 5 9)) (fun u => u.dev.entering == some .sleep && u.dev.power == .active) &&
    (timers 5 9).drained && ok (exec (.sleepAfter false) (timers 5 9)) (fun u => u.dev.power == .sleep && u.dev.entering == none) &&
    ok (exec .routerIslandQuiet { fsvc with dev := { fsvc.dev with power := .sleep } }) (fun u => u.dev.routerQuiet && u.out == [.lineFlit 0 (ctlFlit .quiet 255 0 0 [])])) = true := by
  decide +kernel

/-- The worked example of chapter 03: VMIN, RLOAD, DIV and EREQ, with the codes 853.3 and 791.1 as sums of sixteen. -/
def ballast : State :=
  (((svc.wr Reg.BAL_CFG0.RLOAD 4000).wr Reg.BAL_CFG0.DIV 3072).wr Reg.BAL_CFG1.VMIN 7000).wr Reg.BAL_CFG1.EREQ 100

theorem test_ballast : (ballast.ballastFitted && ballast.rdB Reg.BAL_STAT.TESTED == false &&
    ok (exec (.ballastTest true 13653 12658) ballast) (fun u => u.dev.ballastPassed && u.out == [.ballastLoad true, .ballastLoad false] && u.rdB Reg.BAL_STAT.BAL_OK &&
      u.rd Reg.BAL_MEAS.E_AVAIL == 157 && u.rd Reg.BAL_MEAS.V_OK == 10465 && !u.sampleHolds 744 && u.sampleHolds 745) &&
    (let s := ballast.wr Reg.BAL_STAT.TESTED 1
     s.bufferedOk == false && s.drained && ok (exec (.ballastRetest true 13653 12658) s) (fun u => u.dev.ballastPassed)) &&
    (let s := { svc with dev := { svc.dev with ballastCodes := [1, 2, 3] } }
     ok (exec (.ballastSample 5000) s) (fun u => u.dev.ballastCodes == [1023, 1, 2]))) = true := by decide +kernel

/-! ## Flash, tiers and tables -/

/-- Four units in three blocks, and a stale block. -/
def blk (id : Nat) (st : BlockState) (slc cold : Bool) (erase reads : Nat) : Block := ⟨id, st, slc, cold, erase, reads, 9, false⟩
def tier4 : Flash :=
  { flash4 with
    map := [⟨0, 0, 0, 1, false, false⟩, ⟨1, 0, 1, 2, false, false⟩, ⟨2, 17, 0, 3, false, true⟩, ⟨3, 33, 0, 4, false, false⟩]
    blocks := [blk 0 .closed true false 1 5, blk 17 .closed false true 2 0, blk 33 .closed false false 900 7, blk 40 .stale false false 3 0]
    refresh := [0], wseq := 4, journalSeq := 50, trimmed := 10 }
def works : State := { svc with flash := tier4, dev := { svc.dev with trainTemp := List.replicate 32 20 } }
/-- No block is free. -/
def full4 : State := { works with flash := { tier4 with blocksPerDie := 1, blocks := (List.range 4).map fun i => blk i .closed false false 1 0,
                                                        map := [⟨0, 0, 0, 1, false, false⟩] ++ (List.range 6).map fun k => ⟨k + 1, k / 2 + 1, k % 2, k + 2, false, false⟩ } }
def sameUnits (s u : State) : Bool :=
  let a := s.flash.map.map fun e => e.lmu
  let b := u.flash.map.map fun e => e.lmu
  (a.all fun l => b.contains l) && b.all fun l => a.contains l
def keeps (c : Instr) (s : State) (q : State → Bool) : Bool := ok (exec c s) fun u => sameUnits s u && q u

/-- Work of every kind is done there, mandatory or not. -/
theorem test_works (w : Work) (m : Bool) : works.Works w m ∧ full4.Works w m := by
  cases w <;> exact ⟨⟨rfl, rfl, nofun, by decide +kernel, .inr (.inr (by decide +kernel))⟩,
    rfl, rfl, nofun, by decide +kernel, .inr (.inr (by decide +kernel))⟩

theorem test_collection : (
    works.flash.nBlocks * works.rd Reg.FLT_CFG1.GC_START_PM < works.flash.freeCount * 1000 && keeps .garbageCollection works (fun u => u == works.stir) &&
    full4.flash.freeCount == 0 && full4.flash.victim == some (blk 0 .closed false false 1 0) &&
    keeps .garbageCollection full4 (fun u => u.flash == (full4.stir.relocate (full4.flash.unitsOf 0)).flash)) = true := by decide +kernel

theorem test_promotion : keeps .promotion works (fun u => u == works.stir.promote && u.flash.slcHeld == 0 && u.kv == works.kv) = true := by
  decide +kernel

theorem test_levelling : (
    works.rd Reg.FLT_CFG0.SPREAD_LIMIT < works.flash.eraseMax - works.flash.eraseMin && works.flash.leastWornCold == some (blk 17 .closed false true 2 0) &&
    keeps .staticLevelling works (fun u => u.flash.valid 17 == 0) &&
    full4.flash.eraseMax - full4.flash.eraseMin ≤ full4.rd Reg.FLT_CFG0.SPREAD_LIMIT && keeps .staticLevelling full4 (fun u => u == full4.stir)) = true := by
  decide +kernel

theorem test_refresh : (
    keeps (.readDisturbRefresh 0 []) works (fun u => u.flash.refresh == [] && u.flash.valid 0 == 0) &&
    keeps (.readDisturbRefresh 0 [1]) works (fun u => u.flash.refresh == [] && (u.flash.block 0).state == .retired) &&
    keeps (.patrol [(2, .decoded 2 [])]) { works with sea := { works.sea with time := 2 * 86400 + 5 } } (fun u =>
      u.flash.map == tier4.map && u.flash.patrolDay == 2 && u.flash.refresh == [0, 17])) = true := by decide +kernel

theorem test_erase : ((works.flash.block 40).state == .stale && works.kv.back == none &&
    keeps (.staleBlockErase 40 true) works (fun u => (u.flash.block 40).erase == 4 &&
      (u.flash.journal.any fun r => r.changes.contains ⟨.erased, 40, 4⟩)) &&
    keeps (.staleBlockErase 40 false) works (fun u => (u.flash.block 40).state == .retired) &&
    keeps (.eraseStatusFail 63) works (fun u => (u.flash.block 63).state == .retired && u.flash.spareNow == 3) &&
    keeps (.programStatusFail 33) works (fun u => (u.flash.block 33).state == .retired && u.flash.valid 33 == 0)) = true := by decide +kernel

theorem test_training : (
    works.flash.trains chan && works.flash.trains { chan with passes := [] } == false &&
    keeps (.retrained 2 40 [3600]) works (fun u => u.dev.trainTemp.getD 2 0 == 40 && u.flash.channels == 0xF) &&
    keeps (.retrained 2 40 []) works (fun u => u.flash.channels == 0xB) && keeps (.chOffline 3) works (fun u => u.flash.channels == 0x7) &&
    keeps (.dieLost 3) works (fun u => u.flash.diesLost == [3])) = true := by decide +kernel

/-- An extent of one segment in unit 0. -/
def ext0 (disk : Bool) (heat : Nat) : Extent :=
  ⟨0, true, disk, heat, 0, 1, 2, keyA, 5, 1, 1, 1, [⟨[], List.replicate 80 0, []⟩], if disk then [] else [0], 0, 0, false, 0⟩
/-- A head that takes part and may write. -/
def headW (id : Nat) : Head := { Head.fresh id true with part := true, inhibit := false, settledWr := true, inU := true }
/-- A disk of one head at speed, its band format made. -/
def disk4 (s : State) : State :=
  { s with srv := { s.srv with disk := 4, writeReady := true, fullCal := true, tracks := 100000, heads := [headW 0], actuators := [Actuator.fresh 0] }
           rdc := { s.rdc with formatted := true, headsAtFormat := 1, slots := 20 }
           cfg := { s.cfg with hw := { s.cfg.hw with heads := 1 } } }
def tierOf (p : Nat) (x : Extent) : State :=
  let s := disk4 (withNs { ns2 with tier := p } { works with regs := buffered.regs })
  { s with kv := { s.kv with extents := [x] } }

theorem test_demotion : (
    let s := tierOf 3 (ext0 false 0)
    let r := tierOf 2 (ext0 true 15)
    let w := (s.stir.passPolicy (ext0 false 0)).2.backUp.diskWrite false (ext0 false 0).media (ext0 false 0).sectors
    (s.stir.passPolicy (ext0 false 0)).1 == 3 && w.isSome &&
    ok (exec (.demotion 0 true) s) (fun u => match u.ext? 0, w with
      | some e, some (b, d, _) => e == { ext0 false 0 with disk := true, band := b, sector := d, lmus := [] }
      | _, _ => false) &&
    r.policy (ext0 true 15) == 2 && r.rdB Reg.DIR_TIER.RECALL_EN && r.srv.disk == 4 &&
    r.lmusUsed.length + unitsFor (ext0 true 15).stored ≤ r.flash.n &&
    (drainUnits .value (r.coldNs 2) (r.freshLmus (unitsFor (ext0 true 15).stored)) r.flash).2 &&
    ok (exec (.demotion 0 false) r) (fun u => match u.ext? 0 with
      | some e => e.disk == false && e.lmus == r.freshLmus 1
      | none => false)) = true := by decide +kernel

/-- A tier that the device cannot serve (R258). -/
def unserved : State := { svc2 with flash := { flash4 with mounted := false, unsupported := true } }
theorem test_no_tier : (unserved.noTier && answersOnly getA unserved (.get tag7 rd0) (doneWith stMedia 5 []) &&
    answersOnly putA unserved (.put tag7 false) (doneWith stMedia 5 [])) = true := by decide +kernel

theorem test_forced_demotion : (
    let s := { tierOf 3 (ext0 false 0) with flash := { tier4 with demoting := true } }
    s.flash.fill < (s.rd Reg.FLT_CFG1.DEMOTE_FORCE_PCT - 5) * 100 &&
    ok (exec .forcedDemote s) (fun u => u == { s.stir with flash := tier4 })) = true := by decide +kernel

def dirWorks (d : SMap (BitVec 48)) (retired : Nat) : State :=
  { works with kv := { works.kv with dir := d, dirCommits := 4, retired := List.range retired } }

theorem test_directory : (
    let s := dirWorks [(3, 9)] 0
    s.rd Reg.DIR_CFG.SAVE_MIN != 0 && ok (exec .directorySave s) (fun u => u.kv.dirCommits == 0 && u.kv.dir == [(3, 9)] &&
      match u.kv.saved with
      | some x => x.dirSeal.tierId == 7 && x.dirSeal.journalSeq == 50 && x.dir == [(3, 9)]
      | none => false) &&
    (let h := { s with kv := { s.kv with hotCount := 1048576 } }
     h.reseedDue && ok (exec .reseed h) (fun u => u.kv.dir == [] && u.kv.rebuilding && (u.slot 1).gen == 2 && u.kv.lastReseedMs == some 0)) &&
    s.reseedDue == false && ok (exec .reseed s) (fun u => u == s.stir) &&
    ok (exec .directoryRebuild { s with kv := { s.kv with rebuilding := true } }) (fun u => u.kv.rebuilding == false)) = true := by decide +kernel

/-- A retired list of 65,536 indices. -/
theorem test_retired_sweep : (dirWorks [(3, 9)] 65536).kv.retired.length = 65536 ∧ (dirWorks [(3, 9)] 65536).Works .upkeep false :=
  ⟨by simp [dirWorks], rfl, rfl, nofun, by decide +kernel, .inl rfl⟩

theorem test_days : (
    let s := { withNs ns2 works with sea := { works.sea with time := 86400 }, cmd := { works.cmd with uploads := [up1] } }
    ok (exec .dailyPass s) (fun u => u.sea.daysDone == 1 && (u.cmd.uploads.map fun x => x.idleDays) == [1]) &&
    ok (exec .dailyPass works) (fun u => u == works) &&
    (let s := { s with cmd := { s.cmd with uploads := [{ up1 with idleDays := 99 }] } }
     s.rd Reg.CMD_CFG.UPLOAD_IDLE ≤ 99 && ok (exec (.uploadExpired 1) s) (fun u => u.cmd.uploads == [])) &&
    ok (exec .reqWindow { s with kv := { s.kv with reqCount := 1048576, hotCount := 3 } }) (fun u => u.kv.reqCount == 0 && u.kv.hotCount == 0) &&
    ok (exec .reqWindow s) (fun u => u == s)) = true := by decide +kernel

/-- A table of two entries whose first word has a copy in the system area. -/
def tables : State :=
  let m : SMap (Option CamEntry) := [(4, some ⟨1, 1, 9⟩), (70, some ⟨2, 3, 8⟩)]
  { svc with cam := { svc.cam with tables := [(1, m)], saved := [(1, [(4, some ⟨1, 1, 7⟩)])] } }

theorem test_scrub : (
    ok (exec (.camScrub [(1, 4, false)]) tables) (fun u => SMap.get camNone (u.table 1) 4 == some ⟨1, 1, 7⟩ && u.cam.saved == tables.cam.saved) &&
    ok (exec (.camScrub [(1, 4, true)]) tables) (fun u => u.table 1 == [(70, some ⟨2, 3, 8⟩)]) &&
    ((List.range 32).any fun k => tables.tileValid k != 0 && ok (exec (.tileRetention k) tables) fun u => u.cam.retained == [k])) = true := by
  decide +kernel

theorem test_purge_apply : (
    let n := { ns3 with streams := [streamA], purges := [(keyA, 2)], copyOf := some 5 }
    let s := { withNs n works with sea := { works.sea with time := 20 } }
    ok (exec (.mirrorPurgeApply 3) s) (fun u => match u.ns? 3 with
      | some n => n.purges == [] && (n.streams.map fun x => x.recs) == [[]]
      | none => false)) = true := by decide +kernel

/-! ## The disk -/

def calOf : HeadCal := ⟨[], [], [], [], [], List.replicate 32 8000, [], [], []⟩
def headC (id : Nat) : Head := { headW id with cal := calOf, target := 68, x := 68, wedge := some 4 }
def spin (d : Nat) : State :=
  let s := disk4 svc
  { s with srv := { s.srv with disk := d, heads := [headC 0, headC 1], actuators := [Actuator.fresh 0] } }

/-- The servo bits of a wedge as Table 12-1 writes them, eight places into the sample: SAM, WEDGE with INDEX and PARITY 0, the
Gray-coded track, and the RRO field. -/
def dibits (n v : Nat) : List Bool := ((List.range n).map fun i => [v.testBit (n - 1 - i), !v.testBit (n - 1 - i)]).flatten
def atBit (o : Nat) (l : List Bool) : Nat := maskOf ((l.zipIdx.filter fun x => x.1).map fun x => x.2 + o)
def servo (sam wedge gray rro : Nat) : Nat :=
  atBit 120 ((List.range 16).map fun i => sam.testBit (15 - i)) + atBit 136 (dibits 12 wedge) + atBit 160 (dibits 24 gray) +
    atBit 400 (dibits 20 rro)
/-- Bursts of N = 20, Q = 50 and sum 300 at track 0: 68 units of 1/1,024 track by R290 and R291. -/
def rdr (bits : Nat) : ReaderWedge := ⟨bits, 85, 65, 100, 50⟩
/-- Wedge 5 of track 0 at reader A, with one SAM bit in error, and no signal at reader B. -/
def wedge5 (found : Bool) : WedgeSample := ⟨rdr (if found then servo 0x0F34 10 0 0 else 0), ⟨0, 0, 0, 0, 0⟩⟩
/-- Wedge 6 with Gray code 2, track 3, which the bursts do not fit, and a correction of 3 units. -/
def wedge6 (crc : Nat) : WedgeSample := ⟨⟨0, 0, 0, 0, 0⟩, rdr (servo 0x0F35 12 2 (3 * 16 + crc))⟩

theorem test_wedge_position : (
    wedgePos 100000 (some 5) calOf (wedge5 true) == some 68 && wedgePos 100000 (some 5) calOf (wedge5 false) == none &&
    wedgePos 100000 (some 6) calOf (wedge5 true) == none && wedgePos 100000 (some 5) { calOf with sumA := [601] } (wedge5 true) == none &&
    grayTrack 2 == 3 && wedgeSeen 100000 calOf (wedge6 5) == none && wedgePos 100000 (some 6) calOf ⟨rdr 0, rdr (servo 0x0F35 12 3 53)⟩ == some (2048 + 68 + 3) &&
    wedgePos 100000 (some 6) calOf ⟨rdr 0, rdr (servo 0x0F35 12 3 54)⟩ == some (2048 + 68) &&
    wedgePos 100000 (some 6) calOf ⟨rdr 0, rdr (servo 0x0F36 12 3 53)⟩ == none) = true := by decide +kernel

def headOf (u : State) (q : Head → Bool) : Bool := match u.head? 0 with
  | some h => q h
  | none => false
def actOf (u : State) (q : Actuator → Bool) : Bool := match u.actuator? 0 with
  | some a => q a
  | none => false
def missed (n rev : Nat) : State :=
  let s := spin 4
  { s with srv := { s.srv with heads := [{ headC 0 with missRun := n, revMissed := rev }] } }

theorem test_wedges : (
    ok (exec (.servoWedge 0 (wedge5 true)) (spin 4)) (fun u => u.out.contains (.maOut 0 0) && headOf u fun h =>
      h.x == 68 && h.wedge == some 5 && h.missRun == 0 && h.missed == false && h.settledWr) &&
    ok (exec (.servoWedge 0 (wedge5 false)) (spin 4)) (fun u => headOf u fun h => h.missRun == 1 && h.inhibit && h.part) &&
    ok (exec (.servoWedge 0 (wedge5 false)) (missed 7 0)) (fun u => headOf u fun h => h.missRun == 8 && h.part == false && h.inService) &&
    ok (exec (.servoWedge 0 (wedge5 false)) (missed 0 320)) (fun u => headOf u fun h => h.inService == false) &&
    (let lost := { spin 4 with srv := { (spin 4).srv with heads := [{ headC 0 with wedge := none, acqRun := 1, acqAt := (4, 2) }] } }
     ok (exec (.servoWedge 0 (wedge5 true)) lost) (fun u => headOf u fun h => h.wedge == none && h.acqRun == 2 && h.acqAt == (5, 0)) &&
     let near := { spin 4 with srv := { (spin 4).srv with heads := [{ headC 0 with wedge := none, acqRun := 2, acqAt := (4, 2) }] } }
     ok (exec (.servoWedge 0 (wedge5 true)) near) (fun u => headOf u fun h => h.wedge == some 5 && h.x == 68))) = true := by decide +kernel

theorem test_voice_coil : (
    let s := { spin 4 with srv := { (spin 4).srv with heads := [headC 0, { headC 1 with stroke := 100 }] } }
    ok (exec (.voiceCoilUpdate 0) s) (fun u => (match u.out with | [.motFrame b] => b.take 1 == [0x10] && b.length == 6 | _ => false) &&
      actOf u fun a => a.reference == 50)) = true := by decide +kernel

def act (a : Actuator) : State := { spin 4 with srv := { (spin 4).srv with actuators := [a] } }

/-- Answers of a FAULT poll and of STATUS with their CRC-8. -/
def paResp (f : Nat) : Option (BitVec 24) := some (BitVec.ofNat 24 (f * 256 + linkCrc (beBytes 1 0x84 ++ beBytes 2 f)))
def motResp (w : Nat) : Option (BitVec 40) := some (BitVec.ofNat 40 (w * 256 + linkCrc (beBytes 1 0x40 ++ beBytes 4 w)))

theorem test_preamp : ((paResp 4).bind (paAnswer 0x04) == some 4 && (some 0x000400#24).bind (paAnswer 0x04) == none &&
    ok (exec (.preampFault 0 (paResp 4)) (spin 4)) (fun u => u.out.contains (.paFrame 0 (paRead 0x04)) && actOf u fun a => a.faultHeld && a.armed == false) &&
    ok (exec (.preampFault 0 none) (spin 4)) (fun u => actOf u fun a => a == { Actuator.fresh 0 with badFrames := 1 }) &&
    ok (exec (.preampFault 0 (some 0)) (act { Actuator.fresh 0 with badFrames := 2 })) (fun u => actOf u fun a => a.faultHeld && a.badFrames == 3) &&
    ok (exec (.preampFault 0 (paResp 0)) (act { Actuator.fresh 0 with faultHeld := true, badFrames := 1 })) (fun u => actOf u fun a =>
      a.clearPolls == 1 && a.badFrames == 0 && a.faultHeld) &&
    ok (exec (.preampFault 0 (paResp 0)) (act { Actuator.fresh 0 with faultHeld := true, clearPolls := 1 })) (fun u =>
      u.out == [.paFrame 0 (paRead 0x04), .paFrame 0 (preampArm 3)] && actOf u fun a => a.armed && a.faultHeld == false)) = true := by
  decide +kernel

theorem test_seek : (
    ok (exec (.seekTimeout none) (spin 4)) (fun u => u.srv.seekRepeats == 1) &&
    (let e := entryOf (Tests.msgOf 0x01 2 [] keyA [])
     let s := withE e { spin 4 with srv := { (spin 4).srv with seekRepeats := 3 } }
     e.before && s.entry? tag7 == some e && ok (exec (.seekTimeout (some tag7)) s) fun u => u.srv.seekRepeats == 0 &&
      answered u e (doneWith stMedia e.asn []))) = true := by decide +kernel

def noCal : CalResult := ⟨[], []⟩
def spun_ (k : Option Nat) : SpinResult := ⟨k, 90000, [], noCal⟩
def tried (n d : Nat) : State := { spin d with srv := { (spin d).srv with attempts := n } }

theorem test_spin_up : (
    ok (exec (.spinUp (spun_ none)) (tried 2 1)) (fun u => u.srv.disk == 4 && u.srv.attempts == 0 && u.srv.tracks == 90000) &&
    ok (exec (.spinUp (spun_ (some 2))) (tried 1 1)) (fun u => u.srv.disk == 0 && u.srv.attempts == 2) &&
    ok (exec (.spinUp (spun_ (some 2))) (tried 2 1)) (fun u => u.srv.disk == 6) &&
    ok (exec (.spinupRetry (spun_ none)) (tried 2 0)) (fun u => u.srv.disk == 4) &&
    ok (exec (.spinupRetry (spun_ (some 3))) (tried 2 0)) (fun u => u.srv.disk == 6)) = true := by decide +kernel

theorem test_full_calibration : (let s := { spin 4 with srv := { (spin 4).srv with fullCal := false } }
    s.dev.entering == none && ok (exec (.fullCalibration [1] noCal) s) (fun u => u.srv.fullCal && u.srv.disk == 4 && u.srv.writeReady &&
      (u.head? 1).map (fun h => h.inService) == some false && (u.srv.savedCal.map fun x => x.1) == some 7)) = true := by
  decide +kernel

theorem test_spin_down : (
    ok (exec .spinDown (spin 5)) (fun u => u == spin 0) &&
    ok (exec .spinDown { spin 4 with dev := { svc.dev with spinning := true } }) (fun u => u.srv.disk == 5 && u.dev.spinning == false &&
      u.srv.heads.all fun h => h.inhibit && !h.part)) = true := by decide +kernel

theorem test_motor : ((motResp 9000).bind motAnswer == some 9000 &&
    ok (exec (.motStatus none) (spin 4)) (fun u => u == { spin 4 with srv := { (spin 4).srv with statusFails := 1 }, out := [.motFrame motStatus] }) &&
    ok (exec (.motStatus (some 0)) { spin 4 with srv := { (spin 4).srv with statusFails := 2 } }) (fun u => u.srv.disk == 6) &&
    ok (exec (.motStatus (motResp 9000)) (spin 4)) (fun u => u.srv.periodOff == 8) &&
    ok (exec (.motStatus (motResp 8333)) { spin 4 with srv := { (spin 4).srv with periodOff := 5 } }) (fun u => u.srv.periodOff == 4)) = true := by
  decide +kernel

theorem test_cleaning : (
    let s := tierOf 3 (ext0 true 0)
    ok (exec .bandCleaning s) (fun u => (u.kv.extents.map fun e => e.index) == [0] && u.kv.namespaces == s.kv.namespaces) &&
    ok (exec .bandCleaning works) (fun u => u == works.stir)) = true := by decide +kernel

/-! ## The read channel -/

/-- Table 13-1, and the retained parts of Table 13-2. -/
theorem test_zones : ([0, 8, 15, 24, 31].map (fun z => (zoneRate z, zoneBits z, zoneSpt z)) ==
    [(3600, 42394, 710), (3408, 40125, 672), (3240, 38139, 638), (3024, 35586, 596), (2856, 33600, 562)] &&
    syncMark ^^^ resumeMark == 0xFFFFFFFF && 128 + 32 + 33 * 1152 + 32 == 38208) = true := by decide +kernel

/-- The band of the worked example of chapter 13, the remap copy at slot 12,005. -/
def band1902 : Band :=
  { slot := 1902, state := .closed, bseq := 1, used := 41469, phys := 41470, tail := 13398, w0 := 100, skew := 16
    segments := [⟨0, 0, 638, 0x3FFFFF⟩, ⟨1, 0, 638, 0x3FFFFF⟩, ⟨2, 0, 638, 0x3FFDFF⟩], voids := [], remap := [], copies := [12005]
    short := false, shortAllHeads := false, rung7 := false, cut := false, sectors := [], parity := [] }

theorem test_locate : (logicalSlot 40037 == 40662 && band1902.physical 40662 == 40663 &&
    (band1902.place 40663).map (fun x => (x.1, x.2.2.1, x.2.2.2)) == some (2, 13, 599) && band1902.slotAt 2 13 599 == some 40663 &&
    sectorPieces 15 599 == [(600, 3192, 34947), (601, 0, 3261)] && band1902.startWedge 2 == 132 &&
    (writePieces 132 (sectorPieces 15 599) []).map (fun x => x.1) == [92, 93]) = true := by decide +kernel

/-- A sync mark 41 bits late with two bits in error (the worked example), in soft values. -/
def late41 : List Int := (List.range 400).map fun i =>
  if i < 96 + 128 + 41 then 1 else if i ∈ [270, 280] then (if syncMark.testBit (31 - (i - 265)) then 1 else -1)
  else if syncMark.testBit (31 - (i - 265)) then -1 else 1

theorem test_framing : (findMark late41 syncMark (traceLead + 128) 16 == none && findMark late41 syncMark (traceLead + 128) 64 == some 41 &&
    runLimit 1 (List.replicate 32 true) == List.replicate 32 true ++ [false] &&
    circShift 3 7 == 59 && minSumMsg [3, -2, 5] == [-2, 3, -2] &&
    erasureRuns ⟨some ⟨[], List.replicate 40 10 ++ List.replicate 16 3 ++ [10]⟩, none⟩ == [(40, 16)] &&
    regionSoft 64 64 ⟨some ⟨[1, -2], []⟩, none⟩ == [1, -2]) = true := by decide +kernel

/-! ## The fabric's own events -/

def teth : Tether := ⟨true, 0x20, true, false, false, false, false, false, neighbourSlot 3 0, oppositeLink 0, 0, 77, 1, 9⟩
def joined1 : State := fsvc.wr Reg.FAB_CFG.JOINED 1
def lnk (l : Link) : State := { joined1 with fab := { fab1 with links := [l, Link.down 1, Link.down 2, Link.down 3] } }
def up0 : Link := { Link.down 0 with trained := true, state := 2, credit0 := 100, credit1 := 100 }
def linkOf (u : State) (q : Link → Bool) : Bool := q (u.link 0)
def flit1 (seq : Nat) : Flit := ⟨true, false, 0, seq, 255, 1, 0, false, [1, 2], true⟩
def sent2 : Link := { up0 with replay := [flit1 7, flit1 8, flit1 9] }
def fsleep : State := { fsvc with dev := { svc.dev with power := .sleep, routerQuiet := true } }

theorem test_tethers : (joined1.islandOn && linkOf joined1 (fun l => l.trained && l.isUp) &&
    ok (exec (.tether 0 { teth with crcOk := false }) joined1) (fun u => u == joined1.countAt Reg.LINK_ERR.CRC_ERRS 0 1) &&
    ok (exec (.tether 0 { teth with departing := true }) joined1) (fun u => linkOf u fun l => l.state == 0 && !l.trained) &&
    ok (exec (.tether 0 teth) joined1) (fun u => linkOf u fun l => l.neigh == some teth && l.state == 3) &&
    ok (exec (.tether 0 { teth with link := 0 }) joined1) (fun u => linkOf u fun l => l.state == 5) &&
    ok (exec (.tether 0 teth) (lnk { up0 with state := 1, good := 2 })) (fun u => linkOf u fun l => l.state == 3 && l.credit0 == 128) &&
    ok (exec (.tether 0 teth) (lnk { up0 with state := 1, good := 1 })) (fun u => linkOf u fun l => l.state == 1 && l.good == 2) &&
    ok (exec (.tetherPeriod 0) (lnk { up0 with tseq := 0xFFFFFFFF })) (fun u => linkOf u fun l => l.tseq == 0) &&
    ok (exec (.tetherTimeout 0) joined1) (fun u => linkOf u fun l => l.state == 0 && !l.trained) &&
    ok (exec (.laneLockLost 0 10000) joined1) (fun u => linkOf u fun l => l.state == 0) &&
    ok (exec (.laneLockLost 0 9999) joined1) (fun u => u == joined1) &&
    ok (exec (.linkTrainingRetry 1 true) joined1) (fun u => (u.link 1).trained && (u.link 1).state == 1) &&
    ok (exec (.linkTrainingRetry 1 false) joined1) (fun u => (u.link 1).trained == false && (u.link 1).state == 0)) = true := by decide +kernel

theorem test_flits : (fsvc.takesFlits 0 &&
    ok (exec (.dataFlit 0 (flit1 0)) fsvc) (fun u => linkOf u fun l => l.input0 == [flit1 0] && l.expect == 1) &&
    ok (exec (.dataFlit 0 (flit1 3)) fsvc) (fun u => u.out == [.lineFlit 0 (ctlFlit .retry 255 0 0 [0])] && linkOf u fun l => l.awaiting && l.retries == 1) &&
    ok (exec (.retry 0 8 true) (lnk sent2)) (fun u =>
      u.out == [.lineFlit 0 (flitOnLine { flit1 8 with ack := 255 }), .lineFlit 0 (flitOnLine { flit1 9 with ack := 255 })]) &&
    ok (exec (.idleFlit 0 7 15 3 true) (lnk sent2)) (fun u => linkOf u fun l => l.credit0 == 115 && l.credit1 == 103 && l.replay == [flit1 8, flit1 9]) &&
    fsleep.takesFlits 0 && ok (exec (.wake 0 true) fsleep) (fun u => u.dev.routerQuiet == false && u.dev.power == .sleep) &&
    ok (exec (.quiet 0 true) fsvc) (fun u => linkOf u fun l => l.quietPeer) &&
    ok (exec (.wake 0 false) fsleep) (fun u => u == fsleep.countAt Reg.LINK_ERR.CRC_ERRS 0 1)) = true := by decide +kernel

/-- A STATE of slot 5 from the neighbour, as it came. -/
def stateFrame : FabFrame := ⟨0, 0x24, 0x10, true, true, 2, 0, false, 0, 1, 0, [], [], []⟩
def from4 (id : Nat) : FabMsg := ⟨0x24, id, true⟩
/-- A second trusted link. -/
def two : State := { fsvc with fab := { fab1 with links := [up0, { up0 with id := 1 }, Link.down 2, Link.down 3] } }
def whole : State := { fsvc with fab := { fab1 with sled := (List.range 16).map fun t => ⟨t, true, false, 15, 1⟩ } }

theorem test_sled : (
    fsvc.link 0 == up0 && (fsvc.link 0).trusted && ok (exec (.state 0 stateFrame (from4 1) 5 7 ⟨true, 3⟩) two) (fun u =>
      u.sledEntry? 5 == some ⟨5, true, true, 3, 7⟩ && u.fab.inject == [(some 1, { stateFrame with hops := 3 })]) &&
    ok (exec (.state 0 stateFrame { from4 1 with tagOk := false } 5 7 ⟨true, 3⟩) fsvc) (fun u => u == fsvc.count Reg.FAB.AUTH_FAIL 1) &&
    ok (exec (.state 0 stateFrame (from4 1) 4 2 ⟨false, 1⟩) fsvc) (fun u => u.sledEntry? 4 == some ⟨4, true, false, 1, 2⟩) &&
    ok (exec (.sledMapEntryTimeout 4) fsvc) (fun u => u.slotPresent 4 == false && u.slotPresent 3) &&
    (let s := fsvc.wr Reg.FAB_CFG.JOINED 1
     s.fabric && s.unjoined == false && ok (exec .statePeriod s) (fun u => u.fab.ownSeq == 1 && u.sledEntry? 3 == some ⟨3, true, false, 1, 1⟩)) &&
    whole.mapWhole && ok (exec .routeChanged whole) (fun u => u.table 0 == [])) = true := by decide +kernel

/-- What a fabric message needs. -/
def takes (s : State) (m : FabMsg) : Bool := s.islandOn && s.dev.phase == .service && m.tagOk
def woken (s : State) : State := s.arrive Reg.WAKE_SRC.FAB_FRAME
def fresh (s : State) (m : FabMsg) : Bool :=
  s.cmd.paused == false && takes s m && match (woken s).source? m.src with
  | none => decide ((woken s).fab.sources.length < 4096)
  | some e => !e.seen.contains m.msgId && decide (e.highest ≤ m.msgId + 1024)

theorem takes_iff {s : State} {m : FabMsg} (h : takes s m = true) : s.TakesMsg m (woken s) := by
  simp only [takes, Bool.and_eq_true, beq_iff_eq] at h
  exact ⟨h.1.1, h.1.2, h.2, rfl⟩

theorem fresh_iff {s : State} {m : FabMsg} (h : fresh s m = true) : s.FreshRequest m ((woken s).noteSource m.src m.msgId) := by
  simp only [fresh, Bool.and_eq_true, beq_iff_eq] at h
  refine ⟨h.1.1, woken s, takes_iff h.1.2, ?_, rfl⟩
  unfold State.NewFrom
  split <;> simp_all

/-- A message, in one frame under the fabric key, that waits last for the router. -/
def sends (u : State) (dst ftype : Nat) (body : Bytes) : Bool := match u.fab.inject.getLast? with
  | some (none, f) => f.dst == dst && f.ftype == ftype && f.lastFrag && f.payload == (gcmEnc key32 f.iv [] body).1
  | _ => false
/-- A request that is answered with one message. -/
def replies (c : Instr) (s : State) (m : FabMsg) (ftype : Nat) (p : FabPayload) : Bool :=
  fresh s m && ok (exec c s) fun u => sends u m.src ftype (replyBytes ftype m.msgId p)

def ack0 (nsid asn : Nat) (y : Bool) : FabPayload := .mirrorAck nsid asn y
def known : State := { fsvc with fab := { fab1 with sources := [⟨0x24, 9, [9], [(9, [frame0])]⟩] } }
def inner : TagEntry := { entryOf putA with id := ⟨.forward 0x24, 3⟩ }
def copy2 : Ns := { ns2 with copyOf := some 0x24 }
def fwith (n : Ns) : State := withNs n fsvc
def meta_ (asn prev : Nat) : MirrorMeta := ⟨2, asn, 5, 1, false, prev⟩
def body1 : MirrorBody := .keys [⟨keyA, some [7]⟩]

theorem test_fabric_requests : (
    ok (exec (.queryReq { from4 1 with tagOk := false }) fsvc) (fun u => u == fsvc.count Reg.FAB.AUTH_FAIL 1) &&
    ok (exec (.queryReq (from4 9)) known) (fun u => u == (woken known).inject none [frame0]) &&
    replies (.queryReq (from4 10)) known (from4 10) 0x06 (.bytes ((woken known).noteSource 0x24 10).fabState) &&
    ok (exec (.forwardReq (from4 3) flushMsg) fsvc) (fun u => u.cmd.queue == [⟨.forward 0x24, .admin, 3, Sys2Proof.Machine.msgOf flushMsg⟩]) &&
    replies (.abortRelay (from4 4) 3) fsvc (from4 4) 0x04 (.bytes (doneWith stTooLate 0 []).header) &&
    replies (.abortRelay (from4 4) 3) (withE inner fsvc) (from4 4) 0x04 (.bytes (doneWith stOK 0 []).header) &&
    fresh known (from4 1000) && fresh known (from4 9) == false) = true := by decide +kernel

theorem test_mirrors : (
    replies (.mirrorWrite (from4 1) (meta_ 1 0) body1) fsvc (from4 1) 0x02 (ack0 2 1 false) &&
    replies (.mirrorWrite (from4 1) (meta_ 1 0) body1) (fwith ns2) (from4 1) 0x02 (ack0 2 1 false) &&
    fresh (fwith copy2) (from4 1) && ok (exec (.mirrorWrite (from4 1) (meta_ 2 1) body1) (fwith copy2)) (fun u =>
      u.fab.heldWrites == [⟨0x24, 1, meta_ 2 1, body1⟩] && u.fab.inject == []) &&
    ok (exec (.mirrorWrite (from4 1) (meta_ 1 0) body1) (fwith copy2)) (fun u => u.appliedAsn 2 == 1 && match u.ns? 2 with
      | some n => (n.keys.map fun k => k.key) == [keyA]
      | none => false) &&
    descriptorOk mutableDesc && fsvc.createFails mutableDesc == none &&
    replies (.mirrorCopyCreate (from4 1) 4095 mutableDesc) fsvc (from4 1) 0x02 (ack0 4095 0 true) &&
    ok (exec (.mirrorCopyCreate (from4 1) 4095 mutableDesc) fsvc) (fun u => u.ns? 4095 == some (nsOf 4095 1 mutableDesc (some 0x24))) &&
    replies (.mirrorCopyRelease (from4 1) 2) (fwith copy2) (from4 1) 0x02 (ack0 2 0 true) &&
    ok (exec (.mirrorCopyRelease (from4 1) 2) (fwith copy2)) (fun u => u.ns? 2 == some ns2) &&
    replies (.resync (from4 1) 2 3 true true [] [] []) fsvc (from4 1) 0x02 (ack0 2 3 false) &&
    replies (.resync (from4 1) 2 3 true false [] [⟨keyB, 1, 1, some [4]⟩] []) (fwith copy2) (from4 1) 0x02 (ack0 2 3 true)) = true := by
  decide +kernel

def kr : KeeperRec := ⟨77, 2, 2, 0, [], [], [], [], key32⟩
def serves (b : Nat) : State := ((complete.wr Reg.PROFILE.IN_FORCE 2).wr Reg.UPD_CFG.PEER_SERVE b).setSlot 2 ⟨1, 0x0610, key32⟩

theorem test_chunks_and_keepers : (
    replies (.chunkReq (from4 1) (dig 9) 0) (serves 0) (from4 1) 0x09 (.updRefuse (dig 9) stNotPermitted) &&
    replies (.chunkReq (from4 1) (dig 9) 4) (serves 1) (from4 1) 0x09 (.updRefuse (dig 9) stPackage) &&
    replies (.chunkReq (from4 1) (dig 9) 0) (serves 1) (from4 1) 0x09 (.chunk (dig 9) 0 (crc32c [1, 2, 3]) [1, 2, 3]) &&
    fsvc.flash.readOnly == false && ok (exec (.keeper 0 (from4 1) kr) fsvc) (fun u => u.fab.keepers == [(0, kr)] &&
      sends u 0x24 0x02 (replyBytes 0x02 1 (ack0 0 0 true)))) = true := by decide +kernel

/-- A request that waits for its response. -/
def ask (ftype : Nat) (b : FabPayload) (tag : Option TagId) : OutMsg := ⟨6, 0x24, ftype, b, [frame0], none, 0, tag, 2, 5⟩
def asked (o : OutMsg) : State := { withE (running (query 1 0x24)) fsvc with fab := { fab1 with outMsgs := [o] } }
def settled (c : Instr) (o : OutMsg) (r : Completion) : Bool :=
  ok (exec c (asked o)) fun u => answered u (running (query 1 0x24)) r && u.fab.outMsgs == []
def mirrored : TagEntry := { running (Tests.putA) with state := .committed, mirrors := [0x24, 0x25] }

theorem test_responses : (takes fsvc (from4 1) &&
    settled (.queryResp (from4 1) 6 [1, 2]) (ask 0x05 .query (some tag7)) (doneData stOK 5 [] [1, 2]) &&
    settled (.forwardResp (from4 1) 6 [0, 0, 3]) (ask 0x03 (.bytes []) (some tag7)) (doneData stOK 5 [] [0, 0, 3]) &&
    beAt [0, 0, 3] 0 2 != stAborted &&
    (let s := { withE mirrored fsvc with fab := { fab1 with outMsgs := [ask 0x01 (.copyRelease 2) none] } }
     ok (exec (.mirrorAck (from4 1) 2 5 true) s) (fun u => (u.cmd.tags.map fun y => y.mirrors) == [[0x25]]))) = true := by decide +kernel

def peers (y : Nat) : State := (fsvc.wr Reg.UPD_CFG.PEER_ACCEPT y).wr Reg.UPD_CFG.PEER_PUSH 1
def chunkAsk : OutMsg := ⟨6, 0x24, 0x09, .chunkReq (dig 9) 0, [], none, 0, none, 0, 0⟩
def fetching : State :=
  { peers 1 with fw := { fsvc.fw with staging := some { staged 1 [] with fromHost := false, fromPeer := true, peers := [0x24, 0x25] } }
                 fab := { fab1 with outMsgs := [chunkAsk] } }

theorem test_peers : (
    ok (exec (.offer (from4 1) (dig 9) 25165824 6 1) (peers 1)) (fun u => match u.fw.staging with
      | some y => y.digest == dig 9 && y.len == 25165824 && y.peers == [0x24] && y.fromPeer
      | none => false) &&
    fetching.chunkFails (staged 1 []) 0 (crc32c [1, 2, 3]) [1, 2, 3] == none && chunkAsk.chunkAsked (dig 9) == some 0 &&
    ok (exec (.chunk (from4 1) (dig 9) 0 (crc32c [1, 2, 3]) [1, 2, 3]) fetching) (fun u => match u.fw.staging with
      | some y => y.chunks == [(0, [1, 2, 3])] && y.stage == 2
      | none => false) &&
    ok (exec (.updateRefuse (from4 1) (dig 9) stNotPermitted) fetching) (fun u => match u.fw.staging with
      | some y => y.peers == [0x25]
      | none => false) &&
    ok (exec .offerPeriod { peers 1 with fw := verified.fw }) (fun u => sends u 0x24 0x09 (payloadBytes (.offer (dig 9) 3 6 1)))) = true := by
  decide +kernel

def query6 (n : Nat) : State := asked { ask 0x05 .query (some tag7) with tries := n }

theorem test_messages : (
    ok (exec (.messageRetransmit 6) (query6 6)) (fun u => u.fab.inject == [(none, frame0)]) &&
    ok (exec (.messageRetransmit 6) (query6 7)) (fun u => u == query6 7) &&
    ok (exec (.messageUnreachable 6) (query6 7)) (fun u => answered u (running (query 1 0x24)) (doneWith stUnreachable 5 []) && u.fab.outMsgs == []) &&
    ok (exec (.sourceEntryExpiry 0x24) known) (fun u => u.fab.sources == []) &&
    ok (exec (.flowletGap 5) { fsvc with fab := { fab1 with flows := [(5, 6, 0), (6, 6, 1)], seeds := [(5, [1])] } }) (fun u =>
      u.fab.flows == [(6, 6, 1)] && u.fab.seeds == [])) = true := by
  decide +kernel

def memb (st : MemberState) (rel : Bool) : State := { fwith ns2 with fab := { fab1 with members := [⟨2, 0x24, st, 0, rel⟩] } }
def gateway : State := ({ net with fab := fab1 }).setSlot 2 ⟨1, 0x0610, key32⟩
def asGateway : State := ((gateway.wr Reg.PROFILE.IN_FORCE 2).wr Reg.PROFILE.SLOT 3).wr Reg.NET_FAB.GATEWAY_EN 1
def local0 : State := lnk { up0 with state := 4 }

theorem test_members : (fsvc.drbgOk &&
    ok (exec (.mirrorProbe 2 0x24) (memb .degraded false)) (fun u => sends u 0x24 0x05 []) &&
    ok (exec (.mirrorRelease 2 0x24) (memb .inSync true)) (fun u => sends u 0x24 0x01 (payloadBytes (.copyRelease 2))) &&
    ok (exec (.releaseAcknowledged 2 0x24) (memb .inSync true)) (fun u => u.fab.members == []) &&
    asGateway.islandOn && asGateway.isGateway && ok (exec (.gwHello (from4 1) 4095 3) asGateway) (fun u => u.fab.gwLive == [(4095, 3)]) &&
    ok (exec .gwHelloPeriod asGateway) (fun u => u.out.length == 1) &&
    ok (exec (.gwIndexTimeout 9 1) { fsvc with fab := { fab1 with gwLive := [(9, 1), (9, 2)] } }) (fun u => u.fab.gwLive == [(9, 2)]) &&
    ok (exec (.inheritAccept 0) local0) (fun u => linkOf u fun l => l.offered) &&
    (local0.wr Reg.FAB_CFG.JOINED 0).unjoined && ok (exec (.inheritOffer 0 kr) (local0.wr Reg.FAB_CFG.JOINED 0)) (fun u =>
      u.fab.offers == [(0, kr)])) = true := by decide +kernel

def frame (dst hops : Nat) : FabFrame := ⟨dst, 0x24, 1, false, true, hops, 0, false, 3, 1, 0, [], [1], key16⟩
/-- A frame that waits at local injection. -/
def waits (f : FabFrame) : State := { fsvc with fab := { fab1 with inject := [(none, f)] } }

theorem test_transit : (
    (fsvc.searchFirst 0 (0x23 * 2 ^ 64 + 7 * 2 ^ 61)).1 == none && fsvc.typeAllowed .own (frame 0x23 0) &&
    ok (exec (.transit .own 0 frame0) (waits (frame 0x23 0))) (fun u => u.rd Reg.FAB.TERMINATED == 1 && u.fab.inject == []) &&
    ok (exec (.transit .own 0 frame0) (waits (frame 0x29 32))) (fun u => u.rd Reg.FAB.DROPPED == 1) &&
    ok (exec (.transit .own 0 frame0) (waits (frame 0x20 0))) (fun u => u.rd Reg.FAB.DROPPED == 0 && linkOf u fun l => l.replay.length == 1) &&
    ok (exec (.transit .own 0 frame0) fsvc) (fun u => u == fsvc)) = true := by
  decide +kernel

/-! ## The debug port -/

def dbgAt (lvl : Nat) : State := { svc with dbg := { svc.dbg with level := lvl }, cfg := { svc.cfg with hw := { svc.cfg.hw with dramGib := 16 } } }
def tdos (c : Instr) (s : State) (code : Nat) (b : Bytes) : Bool :=
  ok (exec c s) fun u => u.out.getLast? == some (.tdo b) && u.dbg.instr == code && u.dbg.capture == b
def cells868 : List Bool := List.replicate 868 true

theorem test_tap : (svc.tapOn &&
    ok (exec (.trstN 100) { svc with dbg := { svc.dbg with instr := 0x10 } }) (fun u => u.dbg.instr == 0x02) &&
    tdos .idcode svc 0x02 [0xD3, 0x65, 0x61, 0x16] && tdos .bypass svc 0xFF [0] && tdos .dbgStatus svc 0x10 (leBytes 4 (svc.live 0x4C0040).toNat) &&
    ok (exec (.samplePreload (cells868 ++ [true])) svc) (fun u => u.dbg.cells == cells868 && u.dbg.instr == 0x01) &&
    (phase .unpowered svc).tapOn == false && ok (exec .idcode (phase .unpowered svc)) (fun u => u == phase .unpowered svc)) = true := by decide +kernel

def drivesTo (c : Instr) (s : State) (code : Nat) (p : Output) : Bool :=
  ok (exec c s) fun u => u.dbg.instr == code && u.dbg.pinDriven && u.out.contains p

theorem test_pins : ((dbgAt 2).pinsAllowed && (phase .testMode svc).pinsAllowed && svc.pinsAllowed == false &&
    drivesTo (.extest [true]) (dbgAt 2) 0x00 (.pins [true]) && ok (exec (.extest [true]) (dbgAt 2)) (fun u => u.dev.pinsHeld) &&
    drivesTo .highz (phase .bootWait svc) 0x04 .pinsHighZ && ok (exec .highz (phase .bootWait svc)) (fun u => u.dev.pinsHeld == false) &&
    ok (exec .clamp svc) (fun u => u == svc.bypass)) = true := by decide +kernel

def chal : State := { dbgAt 0 with dbg := { svc.dbg with challenge := some [1], chalLevel := 1 }, key := { svc.key with slots := (0, ⟨1, 0x1401, key16⟩) :: keys4 } }
def word4 (b : Bytes) (k : Nat) : Word := BitVec.ofNat 32 (leNat (sliceB b (4 * k) 4))
/-- LEN and the CMAC of an observe response. -/
def response1 : List Word := 20 :: ((List.range 4).map (word4 (cmac key16 [1])))
def check (lvl : Nat) (ws : List Word) (n : Nat) : State :=
  { chal with dbg := { chal.dbg with chalLevel := lvl, response := ws, pending := true, fails := n } }

theorem test_challenge : (svc.powered && (dbgAt 0).noChallenge == false && { dbgAt 0 with dbg := { svc.dbg with lockout := 5 } }.noChallenge &&
    ok (exec (.dbgChallenge 1 false) (dbgAt 0)) (fun u => u.dbg.chalLevel == 1 && u.dbg.challenge.isSome && u.free == 1) &&
    ok (exec (.dbgChallenge 2 false) { dbgAt 0 with dbg := { svc.dbg with lockout := 5 } }) (fun u => u.dbg.challenge == none) &&
    chal.dbg.pending == false && ok (exec (.dbgResponse 20) chal) (fun u => u.dbg.response == [20] && u.dbg.pending == false) &&
    ok (exec (.dbgResponse 20) (dbgAt 0)) (fun u => u.dbg.response == []) &&
    ok (exec .challengeExpiry chal) (fun u => u.dbg.challenge == none) && ok (exec .unlockCheck chal) (fun u => u == chal) &&
    responseDone response1 && responseDone [19]) = true := by decide +kernel

theorem test_unlock : (
    (check 1 response1 3).observePasses [1] response1 && ok (exec .unlockCheck (check 1 response1 3)) (fun u => u.dbg.level == 1 && u.dbg.fails == 0) &&
    (check 1 [20, 0, 0, 0, 0] 0).observePasses [1] [20, 0, 0, 0, 0] == false &&
    ok (exec .unlockCheck (check 1 [20, 0, 0, 0, 0] 0)) (fun u => u.dbg.level == 0 && u.dbg.fails == 1 && u.dbg.lockout == 1) &&
    ok (exec .unlockCheck (check 1 [20, 0, 0, 0, 0] 31)) (fun u => u.dbg.fails == 31 && u.dbg.lockout == 1024) &&
    (check 2 [19] 4).fullPasses [1] [19] == false && ok (exec .unlockCheck (check 2 [19] 4)) (fun u => u.dbg.fails == 5 && u.dbg.lockout == 16) &&
    ok (exec .challengeExpiry (check 1 response1 0)) (fun u => u == check 1 response1 0) &&
    ok (exec .lockoutExpiry (check 1 response1 0)) (fun u => u.dbg.lockout == 0)) = true := by decide +kernel

theorem test_relock : (
    ok (exec .dbgRelock (dbgAt 1)) (fun u => u.dbg.level == 0 && u.dev.phase == .service) &&
    ok (exec .dbgRelock (dbgAt 2)) (fun u => u.dbg.level == 0 && u.dev.phase == .starting false && u.dev.kind == .debug) &&
    ok (exec (.dbgReset 0x5AFE true) (dbgAt 2)) (fun u => u.dev.kind == .debug) &&
    ok (exec (.dbgReset 0x5AFF true) (dbgAt 2)) (fun u => u == (dbgAt 2).loadIr 0x15) &&
    ok (exec (.dbgReset 0x5AFE true) (dbgAt 1)) (fun u => u == (dbgAt 1).bypass)) = true := by decide +kernel

def dbgMem (space addr : Nat) (inc : Bool) : DbgAccess := ⟨addr, space, inc, 0⟩
def haltedCore (s : State) (k : Nat) : State :=
  { s with dbg := { s.dbg with cores := s.dbg.cores.map fun c =>
      if c.id = k then { c with halted := true, regs := List.replicate 68 7, breaks := [(7, 8)], watches := [(3, 8, 1)] } else c } }
def last4 : Nat := 16 * 2 ^ 30 - 4
def dbgOut (c : Instr) (s : State) (o : Output) (q : State → Bool) : Bool := ok (exec c s) fun u => u.out.getLast? == some o && q u

theorem test_debug_access : (
    (dbgAt 2).accessStatus (dbgMem 2 last4 false) false == none && (dbgAt 2).accessStatus (dbgMem 2 (last4 + 1) false) false == some stBadField &&
    dbgOut (.dbgAccessRead (dbgMem 2 last4 false)) (dbgAt 2) (.regResult .debug stOK [0]) (fun _ => true) &&
    dbgOut (.dbgAccessRead (dbgMem 2 (last4 + 1) false)) (dbgAt 2) (.regResult .debug stBadField []) (fun _ => true) &&
    dbgOut (.dbgAccessWrite (dbgMem 2 8 false) 0x04030201) (dbgAt 2) (.regResult .debug stOK []) (fun u =>
      u.dram == [(8, 1), (9, 2), (10, 3), (11, 4)] && u.sram == []) &&
    (haltedCore (dbgAt 2) 3).accessStatus (dbgMem 3 (3 * 2 ^ 32 + 67) false) true == none &&
    dbgOut (.dbgAccessRead (dbgMem 3 (3 * 2 ^ 32 + 67) false)) (haltedCore (dbgAt 2) 3) (.regResult .debug stOK [7]) (fun _ => true) &&
    ok (exec (.dbgAccessWrite (dbgMem 3 (3 * 2 ^ 32 + 67) false) 9) (haltedCore (dbgAt 2) 3)) (fun u => (u.coreRegs 3).getD 67 0 == 9) &&
    (dbgAt 2).accessStatus (dbgMem 0 0x50006C false) false == none &&
    (dbgAt 2).accessStatus (dbgMem 3 0 false) true == some stNotPermitted) = true := by decide +kernel

/-- Core SRAM, where nothing is withheld at the address. -/
theorem test_debug_sram (h : Config.withheldSram 0xFFFFFC = false) : (dbgAt 2).accessStatus (dbgMem 1 0xFFFFFC false) true = none := by
  have a : (dbgAt 2).accessAddr (dbgMem 1 0xFFFFFC false) = 0xFFFFFC := by decide +kernel
  have b : ¬ ((dbgAt 2).dev.power = .sleep ∨ (!(dbgAt 2).answersRegs) = true) := by decide +kernel
  rw [State.accessStatus, if_neg b, a]
  simp [State.accessFails, h, dbgMem, dbgAt]

theorem test_cores : (
    ok (exec (.halt 0x81) (dbgAt 2)) (fun u => (u.dbg.cores.map fun c => c.halted) == [true, false, false, false, false, false, false, true] &&
      u.dbg.instr == 0x14) &&
    ok (exec (.resume 0xFF) (haltedCore (dbgAt 2) 3)) (fun u => u.dbg.cores.all fun c => !c.halted) &&
    ok (exec (.step 0x08) (haltedCore (dbgAt 2) 3)) (fun u => u.dbg.cores.all fun c => c.id != 3 || (c.halted && c.cause == 1)) &&
    ok (exec (.setBreakpoint 0x01 9 5) (dbgAt 2)) (fun u => (u.dbg.cores.map fun c => c.breaks) == [[(1, 5)], [], [], [], [], [], [], []]) &&
    ok (exec (.clearBreakpoint 0x08 7) (haltedCore (dbgAt 2) 3)) (fun u => u.dbg.cores.all fun c => c.breaks == []) &&
    ok (exec (.setWatchpoint 0x80 3 0xFF 5) (dbgAt 2)) (fun u => (u.dbg.cores.map fun c => c.watches) ==
      [[], [], [], [], [], [], [], [(3, 0xF8, 1)]]) &&
    ok (exec (.clearWatchpoint 0x08 3) (haltedCore (dbgAt 2) 3)) (fun u => u.dbg.cores.all fun c => c.watches == []) &&
    ok (exec .setHaltAll (dbgAt 2)) (fun u => u.dbg.haltAll) && ok (exec .clearHaltAll (dbgAt 2)) (fun u => u.dbg.haltAll == false)) = true := by
  decide +kernel

/-- A core that runs with a breakpoint and a watchpoint set. -/
def armed3 (all : Bool) : State :=
  let s := haltedCore (dbgAt 2) 3
  { s with dbg := { s.dbg with haltAll := all, cores := s.dbg.cores.map fun c => { c with halted := false } } }

theorem test_hits : ((armed3 true).serving &&
    ok (exec (.breakpointHit 3 7) (armed3 true)) (fun u => u.dbg.cores.all fun c => c.halted) &&
    ok (exec (.watchpointHit 3 3) (armed3 false)) (fun u => u.dbg.cores.all fun c => c.halted == (c.id == 3))) = true := by decide +kernel

end Sys2Proof.Tests
end

section
/-! SUPPORT. Register writes by a path of their own (R116 to R131): where a register stands, what powering a page, a refusal
and an answer leave alone, the checks of Table 05-5 one by one, and the fields of event registers. -/

namespace Sys2Proof.Machine

open Sys2Proof

/-! ## The registers of a page -/

theorem addrOff_pageBase (page off : Nat) (h : off < 0x1000) : addrOff (pageBase page + off) = off := by
  unfold addrOff pageBase; omega

theorem addrBlock_pageBase (page off : Nat) (h : off < 0x1000) : addrBlock (pageBase page + off) = page / 64 := by
  unfold addrBlock pageBase; omega

theorem addrPage_pageBase (page off : Nat) (h : off < 0x1000) : addrPage (pageBase page + off) = page % 64 := by
  unfold addrPage pageBase; omega

theorem pageBase_of_addrOff (page off : Nat) (h : off < 0x1000) :
    pageBase page + off - addrOff (pageBase page + off) = pageBase page := by
  rw [addrOff_pageBase page off h]; omega

/-- A header register's fields are those of Table 05-2. -/
theorem fieldsOf_header (page off : Nat) (h : off < 0x40) : fieldsOf (pageBase page + off) =
    headerFields (!(pageDomains (page / 64) (page % 64)).isEmpty) off := by
  unfold fieldsOf
  rw [addrOff_pageBase page off (by omega), addrBlock_pageBase page off (by omega), addrPage_pageBase page off (by omega),
    if_pos h]

/-- RST_CTRL is no header register. -/
theorem header_ne_rstCtrl (page off : Nat) (h : off < 0x40) : pageBase page + off ≠ 0xC0040 := by
  unfold pageBase; omega

/-- Of the header registers only EVT_EN holds class C fields (Table 05-2, R120). -/
theorem classCMask_header (page off : Nat) (h : off < 0x40) (hne : off ≠ hEvtEn) :
    classCMask (pageBase page + off) = 0 := by
  unfold classCMask
  dsimp only
  rw [addrOff_pageBase page off (by omega), if_neg hne, if_pos h]

/-- A header register powers no domain (R119). -/
theorem powerPage_header (s : State) (page off : Nat) (h : off < 0x40) : s.powerPage (pageBase page + off) = s := by
  unfold State.powerPage
  rw [addrOff_pageBase page off (by omega), if_pos h]

/-! ## What powering a page, a refusal and an answer leave alone -/

/-- Powering a page changes only the domains that accesses hold on. -/
theorem State.powerPage_eq (s : State) (a : Nat) : ∃ d, s.powerPage a = { s with dev := { s.dev with domAccess := d } } := by
  unfold State.powerPage
  split
  · exact ⟨_, rfl⟩
  · dsimp only
    split <;> exact ⟨_, rfl⟩

@[simp] theorem State.powerPage_regs (s : State) (a : Nat) : (s.powerPage a).regs = s.regs := by
  obtain ⟨d, h⟩ := s.powerPage_eq a; rw [h]

@[simp] theorem State.powerPage_out (s : State) (a : Nat) : (s.powerPage a).out = s.out := by
  obtain ⟨d, h⟩ := s.powerPage_eq a; rw [h]

/-- A refused write changes at most the page's ERR_CAPT (R118). -/
theorem State.refuseWrite_eq (s : State) (a st : Nat) : ∃ r, s.refuseWrite a st = { s with regs := r } := by
  unfold State.refuseWrite
  split
  · exact State.capture_eq ..
  · exact ⟨s.regs, rfl⟩

@[simp] theorem State.refuseWrite_out (s : State) (a st : Nat) : (s.refuseWrite a st).out = s.out := by
  obtain ⟨r, h⟩ := s.refuseWrite_eq a st; rw [h]

@[simp] theorem State.refuseWrite_dev (s : State) (a st : Nat) : (s.refuseWrite a st).dev = s.dev := by
  obtain ⟨r, h⟩ := s.refuseWrite_eq a st; rw [h]

@[simp] theorem State.refuseWrite_cfg (s : State) (a st : Nat) : (s.refuseWrite a st).cfg = s.cfg := by
  obtain ⟨r, h⟩ := s.refuseWrite_eq a st; rw [h]

@[simp] theorem State.refuseWrite_kv (s : State) (a st : Nat) : (s.refuseWrite a st).kv = s.kv := by
  obtain ⟨r, h⟩ := s.refuseWrite_eq a st; rw [h]

/-- The answer to a path is an output; at the debug port it is captured too. -/
theorem State.answer_path_eq (s : State) (p : Path) (st : Nat) :
    ∃ d, s.answer (.path p) st = { s with dbg := d, out := s.out ++ [.regResult p st []] } := by
  show ∃ d, s.answerPath p st = _
  unfold State.answerPath
  split <;> exact ⟨_, rfl⟩

/-- The access of a path has been answered with a status, in the state `u`, once its effect has taken the state to `t`. -/
structure AccessAnswered (t : State) (p : Path) (st : Nat) (u : State) : Prop where
  out : u.out = t.out ++ [.regResult p st []]
  regs : u.regs = t.regs
  dev : u.dev = t.dev
  cfg : u.cfg = t.cfg
  kv : u.kv = t.kv
  log : u.log = t.log

theorem done_answer_path (s t : State) (p : Path) (st : Nat) :
    ∃ u, s.done (t.answer (.path p) st) = .next u ∧ AccessAnswered t p st u := by
  obtain ⟨d, h⟩ := t.answer_path_eq p st
  rw [h]
  exact ⟨_, State.done_eq .., rfl, rfl, rfl, rfl, rfl, rfl⟩

/-! ## Writes that reach the arbiter -/

/-- With no commit outstanding the values ahead are those in force (R484). -/
theorem State.ahead_of_noCommit {s : State} (h : s.NoCommit) : s.ahead = s := by
  obtain ⟨hu, hw⟩ := h
  unfold State.ahead
  rw [hu, hw]
  rfl

/-- A write whose path passes goes to the arbiter. -/
theorem accessWrite_of_reaches {s b : State} {p : Path} (h : s.Reaches p b) (a : Nat) (v m : Word) :
    s.accessWrite p a v m = b.regWrite p (.path p) a v m := by
  obtain ⟨hs, rfl, hc, hb, -⟩ := h
  unfold State.accessWrite
  rw [if_pos hs]
  dsimp only
  rw [hc, hb]
  cases p <;> rfl

/-- A write that fails a check answers that status, and ERR_CAPT captures it (R118, Table 05-5). -/
theorem access_refused {s b : State} {p : Path} {a st : Nat} {v m : Word} (h : s.Reaches p b)
    (hc : b.writeCheck p a v m = some st) :
    ∃ u, s.done (s.accessWrite p a v m) = .next u ∧ AccessAnswered (b.refuseWrite a st) p st u := by
  rw [accessWrite_of_reaches h]
  unfold State.regWrite
  rw [State.ahead_of_noCommit h.2.2.2.2, hc]
  exact done_answer_path ..

/-- A write that passes and touches no class C field is applied at once, on a powered page (R119, R126). -/
theorem access_applied {s b : State} {p : Path} {a : Nat} {v m : Word} (h : s.Reaches p b) (ha : a ≠ 0xC0040)
    (hc : b.writeCheck p a v m = none) (hm : m &&& classCMask a = 0) :
    ∃ u, s.done (s.accessWrite p a v m) = .next u ∧ AccessAnswered ((b.powerPage a).applyWrite p a v m) p stOK u := by
  rw [accessWrite_of_reaches h]
  unfold State.regWrite
  rw [State.ahead_of_noCommit h.2.2.2.2, hc, if_neg ha, if_neg (fun hn => hn hm)]
  exact done_answer_path ..

/-- Checks 3 to 5 of Table 05-5 passed, on a register other than OWNER: what a write's fields, LOCK and the ranges say. -/
theorem writeCheck_owned {s : State} {p : Path} {a : Nat} {v m : Word} (ha : a % 4 = 0)
    (hp : pagePresent (addrBlock a) (addrPage a) = true) (hm : m ≠ 0)
    (hw : s.mayWrite p (addrBlock a) (addrOff a == hEvtStat) = true)
    (howner : wordGet (s.word (a - addrOff a + hOwner)) 12 3 = 0 ∨ s.owns p (a - addrOff a) = true ∨ p = .debug ∨
      addrOff a = hEvtStat) (hoff : addrOff a ≠ hOwner) :
    s.writeCheck p a v m =
      if (covered a m).all fun f => f.access == .ro || f.access == .rc then some stNotPermitted
      else if !(p == .debug) && ((covered a m).any fun f => f.access == .rwl) &&
        (s.word (a - addrOff a + hOwner)).getLsbD 16 then some stNotPermitted
      else if s.inRange8 a v m then none else some stBadField := by
  have hreach : ¬ (a % 4 ≠ 0 ∨ !pagePresent (addrBlock a) (addrPage a) ∨ m = 0) := by
    simpa [ha, hp] using hm
  unfold State.writeCheck
  dsimp only
  rw [if_neg hreach, if_neg (by simp [hw]), if_neg, if_neg hoff]
  rcases howner with h | h | h | h <;> simp [h]

/-- Check 8 of Table 05-5, part by part. -/
theorem inRange8_iff (s : State) (a : Nat) (v m : Word) : s.inRange8 a v m = true ↔
    (∀ f ∈ covered a m, m &&& fieldMask f.lo f.width = fieldMask f.lo f.width) ∧
    (∀ f ∈ covered a m, f.access ≠ .rw ∧ f.access ≠ .rwl ∨
      fieldAllowed s (s.setWord a (maskWrite (s.word a) v m)) f a (wordGet v f.lo f.width) = true) ∧
    (addrOff a = hPwrReq → wordGet (v &&& m) 0 2 ≠ 3) ∧
    (a = 0xC0040 → (v &&& m).getLsbD 16 = true → wordGet (v &&& m) 0 16 = 0x5AFE) := by
  unfold State.inRange8
  simp only [Bool.and_eq_true, List.all_eq_true, beq_iff_eq, Bool.or_eq_true, bne_iff_ne, Bool.not_eq_true', and_assoc,
    Bool.and_eq_false_iff, beq_eq_false_iff_ne, bne_eq_false_iff_eq]
  refine and_congr_right fun _ => and_congr_right fun _ => and_congr ?_ ?_
  · exact Decidable.imp_iff_not_or.symm
  · rw [← Bool.not_eq_true, or_assoc, Decidable.imp_iff_not_or, Decidable.imp_iff_not_or]

/-! ## Header writes -/

theorem and_fieldMask_bit (m : Word) (k : Nat) (hk : k < 32) :
    m &&& fieldMask k 1 = if m.getLsbD k then fieldMask k 1 else 0 := by
  apply BitVec.eq_of_getLsbD_eq
  intro i hi
  have hbit : (fieldMask k 1).getLsbD i = decide (i = k) := by
    rw [testBit_fieldMask, Bool.eq_iff_iff]
    simp only [Bool.and_eq_true, decide_eq_true_eq]
    omega
  rw [BitVec.getLsbD_and, hbit]
  by_cases h : i = k
  · subst h
    split
    · rename_i hm; rw [hm, hbit]; rfl
    · rename_i hm; rw [Bool.not_eq_true] at hm; rw [hm]; simp
  · split
    · rw [hbit, decide_eq_false h, Bool.and_false]
    · rw [decide_eq_false h, Bool.and_false]; simp

/-- The fields that a mask touches in a register of 32 one-bit fields (R120). -/
theorem mem_covered_evtBits {a off : Nat} {c : Access} {r : Retention} (h : fieldsOf a = evtBits off c r) (m : Word)
    (f : Field) : f ∈ covered a m ↔ ∃ k < 32, m.getLsbD k = true ∧ f = hdrField off k 1 c r := by
  unfold covered
  rw [h, List.mem_filter]
  unfold evtBits
  simp only [List.mem_map, List.mem_range]
  constructor
  · rintro ⟨⟨k, hk, rfl⟩, hm⟩
    refine ⟨k, hk, ?_, rfl⟩
    have hm : m &&& fieldMask k 1 ≠ 0 := by simpa [hdrField] using hm
    rw [and_fieldMask_bit m k hk] at hm
    exact Decidable.byContradiction fun hn => hm (if_neg hn)
  · rintro ⟨k, hk, hm, rfl⟩
    refine ⟨⟨k, hk, rfl⟩, ?_⟩
    have hne : fieldMask k 1 ≠ 0 := fun h0 => by
      have := testBit_fieldMask k 1 k
      rw [h0] at this
      simp [hk] at this
    show (m &&& fieldMask k 1 != 0) = true
    rw [and_fieldMask_bit m k hk, if_pos hm]
    simpa using hne

/-- Some bit of a word that is not 0 is set. -/
theorem exists_getLsbD {m : Word} (h : m ≠ 0) : ∃ k < 32, m.getLsbD k = true :=
  Classical.byContradiction fun hn => h (BitVec.eq_of_getLsbD_eq fun i hi => by
    show m.getLsbD i = (0#32).getLsbD i
    rw [BitVec.getLsbD_zero]
    exact Bool.eq_false_iff.mpr fun hb => hn ⟨i, hi, hb⟩)

/-- A write to an event register that is not EVT_EN passes all that its fields are checked for. -/
theorem evtBits_checks {s : State} {a off : Nat} {c : Access} {r : Retention} (h : fieldsOf a = evtBits off c r)
    (hc : c = .w1c ∨ c = .wo) {v m : Word} (hm : m ≠ 0) (hoff : addrOff a < 0x24) :
    ((covered a m).all fun f => f.access == .ro || f.access == .rc) = false ∧
    ((covered a m).any fun f => f.access == .rwl) = false ∧ s.inRange8 a v m = true := by
  have hmem := mem_covered_evtBits h m
  have hacc : ∀ f ∈ covered a m, f.access = c := fun f hf => by
    obtain ⟨k, -, -, rfl⟩ := (hmem f).mp hf
    rfl
  refine ⟨?_, ?_, ?_⟩
  · obtain ⟨k, hk, hb⟩ := exists_getLsbD hm
    rw [List.all_eq_false]
    refine ⟨_, (hmem _).mpr ⟨k, hk, hb, rfl⟩, ?_⟩
    rcases hc with rfl | rfl <;> simp [hdrField]
  · rw [List.any_eq_false]
    intro f hf
    rw [hacc f hf]
    rcases hc with rfl | rfl <;> simp
  · have hne : addrOff a ≠ hPwrReq := by unfold hPwrReq; omega
    have hrst : a ≠ 0xC0040 := by unfold addrOff at hoff; omega
    refine (inRange8_iff ..).mpr ⟨fun f hf => ?_, fun f hf => .inl ?_, fun h => absurd h hne, fun h => absurd h hrst⟩
    · obtain ⟨k, hk, hb, rfl⟩ := (hmem f).mp hf
      exact (and_fieldMask_bit m k hk).trans (if_pos hb)
    · rw [hacc f hf]
      rcases hc with rfl | rfl <;> decide

/-- W1C fields lose the bits written. -/
theorem getLsbD_writeFields_w1c (v m : Word) (i : Nat) (fs : List Field) (h : ∀ f ∈ fs, f.access = .w1c) (w : Word) :
    (writeFields fs w v m).getLsbD i =
      (w.getLsbD i && !(v.getLsbD i && m.getLsbD i && fs.any fun f => (fieldMask f.lo f.width).getLsbD i)) := by
  induction fs generalizing w with
  | nil => simp [writeFields]
  | cons f fs ih =>
    have hf : f.access = .w1c := h f (List.mem_cons_self ..)
    have hs : writeFields (f :: fs) w v m = writeFields fs (w &&& ~~~(v &&& (fieldMask f.lo f.width &&& m))) v m := by
      unfold writeFields
      rw [List.foldl_cons, hf]
    rw [hs, ih fun g hg => h g (List.mem_cons_of_mem _ hg), List.any_cons]
    by_cases hi : i < 32
    · rw [BitVec.getLsbD_and, BitVec.getLsbD_not, BitVec.getLsbD_and, BitVec.getLsbD_and, decide_eq_true hi, Bool.true_and,
        Bool.and_or_distrib_left, Bool.not_or, Bool.and_comm (BitVec.getLsbD _ i) (m.getLsbD i)]
      simp only [Bool.and_assoc]
    · simp [BitVec.getLsbD_of_ge w i (by omega)]

/-- An event register of W1C fields loses exactly the bits written (R19). -/
theorem writeFields_evtBits_w1c {a off : Nat} {r : Retention} (h : fieldsOf a = evtBits off .w1c r) (w m : Word) :
    writeFields (covered a m) w m m = w &&& ~~~m := by
  have hmem := mem_covered_evtBits h m
  apply BitVec.eq_of_getLsbD_eq
  intro i hi
  rw [getLsbD_writeFields_w1c m m i _ fun f hf => by obtain ⟨k, -, -, rfl⟩ := (hmem f).mp hf; rfl]
  have hany : m.getLsbD i = true → ((covered a m).any fun f => (fieldMask f.lo f.width).getLsbD i) = true := fun hb =>
    List.any_eq_true.mpr ⟨_, (hmem _).mpr ⟨i, hi, hb, rfl⟩, by simp [hdrField, testBit_fieldMask, hi]⟩
  rw [BitVec.getLsbD_and, BitVec.getLsbD_not]
  cases hb : m.getLsbD i
  · simp [hi]
  · rw [hany hb]; simp [hi]

end Sys2Proof.Machine
end

section
/-! SUPPORT. Writes to the registers of a page's header (Table 05-2): their fields, their checks and their effects. -/

namespace Sys2Proof.Machine

open Sys2Proof

/-- The writer that an unowned page, or a page of its own, lets write (R123). -/
def State.mayOwn (b : State) (p : Path) (page : Nat) : Prop :=
  wordGet (b.ownerWord page) 12 3 = 0 ∨ b.owns p (pageBase page) = true

/-- A write to a register of a page other than OWNER, which the page's owner makes or which clears events: what its fields
and the ranges say, where LOCK protects none of them (Table 05-5). -/
theorem writeCheck_page {s : State} {p : Path} {page off : Nat} {v m : Word} (ha : off % 4 = 0) (hx : off < 0x1000)
    (hp : pagePresent (page / 64) (page % 64) = true) (hm : m ≠ 0)
    (hw : s.mayWrite p (page / 64) (off == hEvtStat) = true) (howner : s.mayOwn p page ∨ off = hEvtStat) (hoff : off ≠ hOwner)
    (hlock : ((covered (pageBase page + off) m).any fun f => f.access == .rwl) = false) :
    s.writeCheck p (pageBase page + off) v m =
      if (covered (pageBase page + off) m).all fun f => f.access == .ro || f.access == .rc then some stNotPermitted
      else if s.inRange8 (pageBase page + off) v m then none else some stBadField := by
  rw [writeCheck_owned, hlock, Bool.and_false, Bool.false_and, if_neg Bool.false_ne_true]
  · unfold pageBase; omega
  · rw [addrBlock_pageBase _ _ hx, addrPage_pageBase _ _ hx]; exact hp
  · exact hm
  · rw [addrBlock_pageBase _ _ hx, addrOff_pageBase _ _ hx]; exact hw
  · rw [pageBase_of_addrOff _ _ hx, addrOff_pageBase _ _ hx]
    rcases howner with (h | h) | h
    · exact .inl h
    · exact .inr (.inl h)
    · exact .inr (.inr (.inr h))
  · rw [addrOff_pageBase _ _ hx]; exact hoff

/-- Header fields that are written and read back have no range but their width. -/
theorem fieldAllowed_hdrField (s t : State) (lo w a v : Nat) (r : Retention) (ha : addrOff a < 0x40) :
    fieldAllowed s t (hdrField hPwrReq lo w .rw r) a v = true := by
  have hfind : (fieldRanges.find? fun x => x.1 == hdrField hPwrReq lo w .rw r) = none := by
    rw [List.find?_eq_none]
    intro x hx
    have hoff : x.1.off ≠ hPwrReq := by revert x; decide
    intro h
    exact hoff (congrArg Field.off (eq_of_beq h))
  have hne : ∀ f : Field, f.off ≠ hPwrReq → hdrField hPwrReq lo w .rw r ≠ f := fun f hf h => hf (h ▸ rfl)
  unfold fieldAllowed
  rw [hfind, if_neg (by rintro (h | h) <;> exact hne _ (by decide) h), if_neg (hne _ (by decide)), if_neg (hne _ (by decide)),
    if_neg (hne _ (by decide)), if_neg (hne _ (by decide)), if_neg (hne _ (by decide)), if_neg (by omega)]
  rfl

/-- A write that covers header fields whole, none of them in EVT_EN or OWNER, and asks for no two things at once. -/
theorem inRange8_header {s : State} {page off : Nat} {v m : Word} {fs : List Field} (ho : off < 0x40)
    (hc : covered (pageBase page + off) m = fs) (hwhole : ∀ f ∈ fs, m &&& fieldMask f.lo f.width = fieldMask f.lo f.width)
    (hval : ∀ f ∈ fs, f.access = .wo ∨ ∃ lo w r, f = hdrField hPwrReq lo w .rw r) (htwo : wordGet (v &&& m) 0 2 ≠ 3) :
    s.inRange8 (pageBase page + off) v m = true := by
  refine (inRange8_iff ..).mpr ⟨hc ▸ hwhole, fun f hf => ?_, fun _ => htwo, fun h => absurd h (header_ne_rstCtrl page off ho)⟩
  rcases hval f (hc ▸ hf) with h | ⟨lo, w, r, rfl⟩
  · rw [h]; exact .inl (by decide)
  · exact .inr (fieldAllowed_hdrField _ _ _ _ _ _ _ (by rw [addrOff_pageBase _ _ (by omega)]; exact ho))

/-- The requests of PWR_REQ are RW on a page with a domain, and RO on one without (R118). -/
theorem covered_pwrReq (page : Nat) (k : Nat) (hk : k < 2) :
    covered (pageBase page + hPwrReq) (BitVec.ofNat 32 (2 ^ k)) =
      [hdrField hPwrReq k 1 (if pageDomains (page / 64) (page % 64) = [] then .ro else .rw) .a] := by
  unfold covered
  rw [fieldsOf_header page hPwrReq (by decide)]
  by_cases hd : pageDomains (page / 64) (page % 64) = []
  · rw [if_pos hd, hd]
    obtain rfl | rfl : k = 0 ∨ k = 1 := by omega
    all_goals decide
  · rw [if_neg hd, List.isEmpty_eq_false_iff.mpr hd]
    obtain rfl | rfl : k = 0 ∨ k = 1 := by omega
    all_goals decide

/-! ## What the header writes do -/

theorem applyWrite_ctrl (s : State) (p : Path) (page : Nat) :
    s.applyWrite p (pageBase page + hCtrl) 1 1 = s.setWord (pageBase page + hErrCapt) 0 := by
  unfold State.applyWrite
  dsimp only
  rw [addrOff_pageBase page hCtrl (by decide), if_pos rfl, Nat.add_sub_cancel]
  rfl

theorem applyWrite_evtForce (s : State) (p : Path) (page : Nat) (v m : Word) :
    s.applyWrite p (pageBase page + hEvtForce) v m = s.forceEvents (page / 64) (page % 64) (v &&& m) := by
  unfold State.applyWrite
  dsimp only
  rw [addrOff_pageBase page hEvtForce (by decide), addrBlock_pageBase page hEvtForce (by decide),
    addrPage_pageBase page hEvtForce (by decide)]
  rfl

theorem applyWrite_pwrReq (s : State) (p : Path) (page : Nat) (v m : Word) :
    s.applyWrite p (pageBase page + hPwrReq) v m = s.powerRequest (pageBase page + hPwrReq) v m := by
  unfold State.applyWrite
  dsimp only
  rw [addrOff_pageBase page hPwrReq (by decide)]
  rfl

theorem applyWrite_evtStat (s : State) (p : Path) (page : Nat) (m : Word) :
    s.applyWrite p (pageBase page + hEvtStat) m m =
      s.setWord (pageBase page + hEvtStat) (s.word (pageBase page + hEvtStat) &&& ~~~m) := by
  unfold State.applyWrite
  dsimp only
  rw [← writeFields_evtBits_w1c (fieldsOf_header page hEvtStat (by decide)), addrOff_pageBase page hEvtStat (by decide)]
  rfl

/-- A header write that passes is applied at once and answered OK. -/
theorem header_applied {s b : State} {p : Path} {page off : Nat} {v m : Word} (h : s.Reaches p b) (ho : off < 0x40)
    (hne : off ≠ hEvtEn) (hc : b.writeCheck p (pageBase page + off) v m = none) :
    ∃ u, s.done (s.accessWrite p (pageBase page + off) v m) = .next u ∧
      AccessAnswered (b.applyWrite p (pageBase page + off) v m) p stOK u := by
  have := access_applied h (header_ne_rstCtrl page off ho) hc (by rw [classCMask_header page off ho hne]; exact BitVec.and_zero)
  rwa [powerPage_header b page off ho] at this

/-! ## Power requests -/

theorem getLsbD_maskWrite (o v m : Word) (i : Nat) :
    (maskWrite o v m).getLsbD i = if m.getLsbD i then v.getLsbD i else o.getLsbD i := by
  unfold maskWrite
  by_cases hi : i < 32
  · rw [BitVec.getLsbD_or, BitVec.getLsbD_and, BitVec.getLsbD_and, BitVec.getLsbD_not, decide_eq_true hi]
    cases m.getLsbD i <;> simp
  · simp [BitVec.getLsbD_of_ge _ i (Nat.le_of_not_lt hi)]

/-- One request bit set and the other cleared, the rest kept. -/
def requestWord (w : Word) (k j : Nat) : Word := wordPut (maskWrite w (BitVec.ofNat 32 (2 ^ k)) (BitVec.ofNat 32 (2 ^ k))) j 1 0

theorem getLsbD_requestWord (w : Word) (k j i : Nat) (hk : k < 32) (hj : j < 32) :
    (requestWord w k j).getLsbD i = if i = j then false else if i = k then true else w.getLsbD i := by
  unfold requestWord
  by_cases hi : i < 32
  · rw [getLsbD_wordPut _ _ _ _ _ hi, getLsbD_maskWrite, BitVec.getLsbD_ofNat, Nat.testBit_two_pow, decide_eq_true hi]
    by_cases h1 : i = j
    · simp [h1]
    · rw [if_neg (by omega), if_neg h1]
      by_cases h2 : i = k
      · simp [h2]
      · have : ¬ k = i := fun h => h2 h.symm
        simp [h2, this]
  · rw [if_neg (by omega), if_neg (by omega)]
    simp [BitVec.getLsbD_of_ge _ i (Nat.le_of_not_lt hi)]

theorem powerRequest_on (s : State) (a : Nat) : s.powerRequest a 1 1 = s.setWord a (requestWord (s.word a) 0 1) := rfl

theorem powerRequest_off (s : State) (a : Nat) : s.powerRequest a 2 2 =
    { s.setWord a (requestWord (s.word a) 1 0) with dev := { s.dev with domAccess :=
      s.dev.domAccess &&& ~~~(BitVec.ofNat 196 (maskOf (pageDomains (addrBlock a) (addrPage a)))) } } := rfl

end Sys2Proof.Machine
end

section
/-! PROOF. O31: events cleared and forced, ERR_CLR and the power requests, each as a write to a header register. -/

namespace Sys2Proof.Machine

open Sys2Proof

/-- EVT_STAT is cleared by any path that may, EVT_FORCE written by the owner: no other check bears on their bits. -/
theorem writeCheck_evtBits {s : State} {p : Path} {page off : Nat} {c : Access} {r : Retention} {m : Word}
    (hf : fieldsOf (pageBase page + off) = evtBits off c r) (hc : c = .w1c ∨ c = .wo) (ha : off % 4 = 0) (ho : off < 0x20)
    (hp : pagePresent (page / 64) (page % 64) = true) (hm : m ≠ 0)
    (hw : s.mayWrite p (page / 64) (off == hEvtStat) = true) (howner : s.mayOwn p page ∨ off = hEvtStat) :
    s.writeCheck p (pageBase page + off) m m = none := by
  obtain ⟨hro, hlock, hrange⟩ := evtBits_checks (s := s) hf hc (v := m) hm (by rw [addrOff_pageBase _ _ (by omega)]; omega)
  rw [writeCheck_page ha (by omega) hp hm hw howner (by unfold hOwner; omega) hlock, hro,
    if_neg Bool.false_ne_true, if_pos hrange]

/-- CTRL.ERR_CLR passes every check. -/
theorem writeCheck_errClr {s b : State} {p : Path} {page : Nat} (h : s.WritesPage p page b) (hown : b.mayOwn p page) :
    b.writeCheck p (pageBase page + hCtrl) 1 1 = none := by
  obtain ⟨-, hp, hw⟩ := h
  have hc : covered (pageBase page + hCtrl) 1 = [hdrField hCtrl 0 1 .wo .a] := by
    unfold covered
    rw [fieldsOf_header page hCtrl (by decide)]
    cases (pageDomains (page / 64) (page % 64)).isEmpty <;> decide
  have hrange : b.inRange8 (pageBase page + hCtrl) 1 1 = true :=
    inRange8_header (by decide) hc (by decide) (fun f hf => .inl (by rw [List.mem_singleton.mp hf]; rfl)) (by decide)
  rw [writeCheck_page (by decide) (by decide) hp (by decide) hw (.inl hown) (by decide) (by rw [hc]; decide), hc,
    if_neg (by decide), if_pos hrange]

/-- A write of one request of PWR_REQ touches its bit, covers it whole, and does not ask for on and off at once. -/
theorem request_bits {k : Nat} (hk : k < 2) : BitVec.ofNat 32 (2 ^ k) ≠ 0 ∧
    BitVec.ofNat 32 (2 ^ k) &&& fieldMask k 1 = fieldMask k 1 ∧
    wordGet (BitVec.ofNat 32 (2 ^ k) &&& BitVec.ofNat 32 (2 ^ k)) 0 2 ≠ 3 := by
  obtain rfl | rfl : k = 0 ∨ k = 1 := by omega
  all_goals decide

/-- A request of PWR_REQ passes every check on a page with a domain. -/
theorem writeCheck_pwrReq {s b : State} {p : Path} {page k : Nat} (h : s.WritesPage p page b) (hown : b.mayOwn p page)
    (hk : k < 2) (hd : pageDomains (page / 64) (page % 64) ≠ []) :
    b.writeCheck p (pageBase page + hPwrReq) (BitVec.ofNat 32 (2 ^ k)) (BitVec.ofNat 32 (2 ^ k)) = none := by
  obtain ⟨-, hp, hw⟩ := h
  have hc := covered_pwrReq page k hk
  rw [if_neg hd] at hc
  obtain ⟨hm, hwhole, htwo⟩ := request_bits hk
  have hrange : b.inRange8 (pageBase page + hPwrReq) (BitVec.ofNat 32 (2 ^ k)) (BitVec.ofNat 32 (2 ^ k)) = true :=
    inRange8_header (by decide) hc (fun f hf => by rw [List.mem_singleton.mp hf]; exact hwhole)
      (fun f hf => .inr ⟨_, _, _, List.mem_singleton.mp hf⟩) htwo
  rw [writeCheck_page (by decide) (by decide) hp hm hw (.inl hown) (by decide) (by rw [hc]; rfl), hc,
    hrange]
  rfl

/-- Without a domain the requests of PWR_REQ are RO, and a write of them alone is not permitted (R118). -/
theorem writeCheck_pwrReq_none {s b : State} {p : Path} {page k : Nat} (h : s.WritesPage p page b) (hown : b.mayOwn p page)
    (hk : k < 2) (hd : pageDomains (page / 64) (page % 64) = []) :
    b.writeCheck p (pageBase page + hPwrReq) (BitVec.ofNat 32 (2 ^ k)) (BitVec.ofNat 32 (2 ^ k)) = some stNotPermitted := by
  obtain ⟨-, hp, hw⟩ := h
  have hc := covered_pwrReq page k hk
  rw [if_pos hd] at hc
  rw [writeCheck_page (by decide) (by decide) hp (request_bits hk).1 hw (.inl hown) (by decide) (by rw [hc]; rfl), hc]
  rfl

/-- Settles O31: each row is a write of header fields that passes its checks, and the write does what Table 05-2 says. -/
theorem eventAndPowerRequestsAreRegisterWrites : Obligations.EventAndPowerRequestsAreRegisterWrites := by
  unfold Obligations.EventAndPowerRequestsAreRegisterWrites
  intro s b p page bits
  dsimp only
  refine ⟨rfl, fun h hp hw hb => ?_, fun h hown => ⟨fun hb => ?_, ?_, fun hd => ?_, fun hd => ?_, fun hd => ?_⟩⟩
  · have hc : b.writeCheck p (pageBase page + hEvtStat) bits bits = none :=
      writeCheck_evtBits (fieldsOf_header page hEvtStat (by decide)) (.inl rfl) (by decide) (by decide) hp hb hw (.inr rfl)
    obtain ⟨u, hu, k⟩ := header_applied h (by decide) (by decide) hc
    rw [applyWrite_evtStat] at k
    exact ⟨u, hu, k.out, k.regs⟩
  · have hc : b.writeCheck p (pageBase page + hEvtForce) bits bits = none :=
      writeCheck_evtBits (fieldsOf_header page hEvtForce (by decide)) (.inr rfl) (by decide) (by decide) h.2.1 hb h.2.2
        (.inl hown)
    obtain ⟨u, hu, k⟩ := header_applied h.1 (by decide) (by decide) hc
    rw [applyWrite_evtForce, BitVec.and_self] at k
    exact ⟨u, hu, k.regs, k.log⟩
  · obtain ⟨u, hu, k⟩ := header_applied h.1 (by decide) (by decide) (writeCheck_errClr h hown)
    rw [applyWrite_ctrl] at k
    exact ⟨u, hu, k.out, k.regs⟩
  · obtain ⟨u, hu, k⟩ := header_applied h.1 (by decide) (by decide) (writeCheck_pwrReq h hown (k := 0) (by decide) hd)
    rw [applyWrite_pwrReq, show BitVec.ofNat 32 (2 ^ 0) = 1 from rfl, powerRequest_on] at k
    refine ⟨u, requestWord (b.word (pageBase page + hPwrReq)) 0 1, hu, k.regs, ?_, ?_, fun i hi => ?_⟩
    · rw [getLsbD_requestWord _ _ _ _ (by decide) (by decide)]; rfl
    · rw [getLsbD_requestWord _ _ _ _ (by decide) (by decide)]; rfl
    · rw [getLsbD_requestWord _ _ _ _ (by decide) (by decide), if_neg (by omega), if_neg (by omega)]
  · obtain ⟨u, hu, k⟩ := header_applied h.1 (by decide) (by decide) (writeCheck_pwrReq h hown (k := 1) (by decide) hd)
    rw [applyWrite_pwrReq, show BitVec.ofNat 32 (2 ^ 1) = 2 from rfl, powerRequest_off, addrBlock_pageBase _ _ (by decide),
      addrPage_pageBase _ _ (by decide)] at k
    refine ⟨u, requestWord (b.word (pageBase page + hPwrReq)) 1 0, hu, k.regs, ?_, ?_, fun i hi => ?_, ?_⟩
    · rw [getLsbD_requestWord _ _ _ _ (by decide) (by decide)]; rfl
    · rw [getLsbD_requestWord _ _ _ _ (by decide) (by decide)]; rfl
    · rw [getLsbD_requestWord _ _ _ _ (by decide) (by decide), if_neg (by omega), if_neg (by omega)]
    · rw [k.dev]
  · obtain ⟨u, hu, k⟩ := access_refused h.1 (writeCheck_pwrReq_none h hown (k := 0) (by decide) hd)
    obtain ⟨v, hv, l⟩ := access_refused h.1 (writeCheck_pwrReq_none h hown (k := 1) (by decide) hd)
    refine ⟨u, v, hu, hv, ?_, ?_⟩
    · rw [k.out, State.refuseWrite_out]
    · rw [l.out, State.refuseWrite_out]

end Sys2Proof.Machine
end

section
/-! PROOF. O33: a register read, its RC fields and its latches (R127, R128). -/

namespace Sys2Proof.Machine

open Sys2Proof

/-! ## Reads -/

/-- The RC fields of a register (R18). -/
def rcMask (a : Nat) : Word :=
  ((fieldsOf a).filter fun f => f.access == .rc).foldl (fun w f => w ||| fieldMask f.lo f.width) 0

theorem State.clearRc_regs (s : State) (a : Nat) :
    (s.clearRc a).regs = if rcMask a = 0 then s.regs else SMap.set regReset a (s.word a &&& ~~~(rcMask a)) s.regs := by
  show (if rcMask a = 0 then s else s.setWord a (s.word a &&& ~~~(rcMask a))).regs = _
  split <;> rfl

/-- Clearing RC fields changes only registers. -/
theorem State.clearRc_eq (s : State) (a : Nat) : ∃ r, s.clearRc a = { s with regs := r } := by
  unfold State.clearRc
  dsimp only
  split
  · exact ⟨s.regs, rfl⟩
  · exact ⟨_, rfl⟩

@[simp] theorem State.clearRc_out (s : State) (a : Nat) : (s.clearRc a).out = s.out := by
  obtain ⟨r, h⟩ := s.clearRc_eq a; rw [h]

@[simp] theorem State.clearRc_latches (s : State) (a : Nat) : (s.clearRc a).latches = s.latches := by
  obtain ⟨r, h⟩ := s.clearRc_eq a; rw [h]

/-- A reader without a latch for the address is given the live value (R127). -/
theorem readOne_live {s : State} {p : Path} {a : Nat} (hp : s.powerPage a = s)
    (hl : (s.latches.find? fun l => l.reader == p && l.addr == a) = none) (hpair : isPairLow a = false) :
    s.readOne p a = (s.live a, s) := by
  unfold State.readOne
  simp only [hp, hl, hpair]
  rfl

/-- The low word of a counter latches its high word for the reader (R128). -/
theorem readOne_pairLow {s : State} {p : Path} {a : Nat} (hp : s.powerPage a = s)
    (hl : (s.latches.find? fun l => l.reader == p && l.addr == a) = none) (hpair : isPairLow a = true) :
    s.readOne p a = (s.live a, { s with latches :=
      (s.latches.filter fun x => !(x.reader == p && x.addr == a + 4)) ++ [⟨p, a + 4, s.live (a + 4)⟩] }) := by
  unfold State.readOne
  simp only [hp, hl, hpair]
  rfl

/-- A reader with a latch for the address is given the latched word, once (R128). -/
theorem readOne_latched {s : State} {p : Path} {a : Nat} {l : Latch} (hp : s.powerPage a = s)
    (hl : (s.latches.find? fun l => l.reader == p && l.addr == a) = some l) :
    s.readOne p a = (l.high, { s with latches := s.latches.filter fun x => !(x.reader == p && x.addr == a) }) := by
  unfold State.readOne
  simp only [hp, hl]

/-- A read of one register that passes its checks: what is read, and the register's RC fields cleared. -/
theorem regRead_one {s t : State} {p : Path} {a : Nat} {v : Word} (ha : a % 4 = 0)
    (hp : pagePresent (addrBlock a) (addrPage a) = true) (hr : s.mayRead p (addrBlock a) = true)
    (h : s.readOne p a = (v, t)) : s.regRead p a 1 = (stOK, [v], t.clearRc a) := by
  have hoff : addrOff a + 4 ≤ 0x1000 := by unfold addrOff; omega
  have hreach : ¬ (a % 4 ≠ 0 ∨ !pagePresent (addrBlock a) (addrPage a) ∨ 1 = 0 ∨ 256 < 1 ∨ 0x1000 < addrOff a + 4 * 1) := by
    simp [ha, hp, hoff]
  unfold State.regRead
  rw [if_neg hreach, if_neg (by simp [hr])]
  unfold readRun
  rw [h]
  rfl

theorem regRead_badField {s : State} {p : Path} {a : Nat}
    (h : a % 4 ≠ 0 ∨ pagePresent (addrBlock a) (addrPage a) = false) : s.regRead p a 1 = (stBadField, [], s) := by
  unfold State.regRead
  rw [if_pos]
  rcases h with h | h
  · exact .inl h
  · exact .inr (.inl (by simp [h]))

/-- A read whose path passes is answered with what the arbiter gives. -/
theorem accessRead_of {s t : State} {p : Path} {a st : Nat} {vs : List Word} (hs : s.answersRegs = true)
    (hc : (s.pathArrives p).pathCheck p = none) (h : (s.pathArrives p).regRead p a 1 = (st, vs, t)) :
    ∃ u, s.done (s.accessRead p a 1) = .next u ∧ u.out = t.out ++ [.regResult p st vs] ∧ u.regs = t.regs ∧
      u.latches = t.latches := by
  unfold State.accessRead
  rw [if_pos hs]
  dsimp only
  rw [hc]
  dsimp only
  rw [h]
  exact ⟨_, State.done_eq .., rfl, rfl, rfl⟩

/-- Settles O33, by the three cases of one register's read: live, of a counter's low word, and from a latch. -/
theorem readsClearAndLatch : Obligations.ReadsClearAndLatch := by
  unfold Obligations.ReadsClearAndLatch
  intro s b p a hs hb hc hpow
  subst hb
  dsimp only
  refine ⟨fun ha hp hr => ⟨fun hl hpair => ?_, fun hl hpair => ?_, fun l hl => ?_⟩, fun h => ?_⟩
  · obtain ⟨u, hu, ho, hg, hk⟩ := accessRead_of hs hc (regRead_one ha hp hr (readOne_live hpow hl hpair))
    exact ⟨u, hu, by rw [ho, State.clearRc_out], by rw [hk, State.clearRc_latches], hg.trans (State.clearRc_regs ..)⟩
  · obtain ⟨u, hu, ho, -, hk⟩ := accessRead_of hs hc (regRead_one ha hp hr (readOne_pairLow hpow hl hpair))
    exact ⟨u, hu, by rw [ho, State.clearRc_out], by rw [hk, State.clearRc_latches]⟩
  · obtain ⟨u, hu, ho, -, hk⟩ := accessRead_of hs hc (regRead_one ha hp hr (readOne_latched hpow hl))
    exact ⟨u, hu, by rw [ho, State.clearRc_out], by rw [hk, State.clearRc_latches]⟩
  · obtain ⟨u, hu, ho, hg, -⟩ := accessRead_of hs hc (regRead_badField h)
    exact ⟨u, hu, ho, hg⟩

end Sys2Proof.Machine
end

section
/-! SUPPORT. Operations that leave `State.dev` alone: events, nonces and frames, leaf pages, purges, and the drain of the
write buffer. -/

namespace Sys2Proof.Machine

open Sys2Proof

/-! ## What leaves the device's phase, power and resets alone -/

theorem foldl_dev {α : Type} (f : State → α → State) (hf : ∀ s a, (f s a).dev = s.dev) (l : List α) (s : State) :
    (l.foldl f s).dev = s.dev := by
  induction l generalizing s with
  | nil => rfl
  | cons a l ih => rw [List.foldl_cons, ih, hf]

theorem dev_of_answering {s u : State} (h : s.Answering u) : u.dev = s.dev := by
  obtain ⟨r, l, cm, ss, o, q, rfl⟩ := h
  rfl

@[simp] theorem raiseWith_dev (s : State) (e : Event) (i : Nat) (f : Bool) (st d : Nat) :
    (s.raiseWith e i f st d).dev = s.dev :=
  dev_of_answering (Answering.raiseWith ..)

@[simp] theorem raise_dev (s : State) (e : Event) : (s.raise e).dev = s.dev := raiseWith_dev ..

@[simp] theorem report_dev (s : State) (e : Event) (st : Nat) : (s.report e st).dev = s.dev :=
  dev_of_answering (Answering.report ..)

@[simp] theorem cipher_dev (s : State) (c n : Nat) : (s.cipher c n).dev = s.dev :=
  dev_of_answering (Answering.cipher ..)

@[simp] theorem dropEarly_dev (s : State) (p : TagId → Bool) : (s.dropEarly p).dev = s.dev := rfl

@[simp] theorem journal_dev (s t : State) (host : Bool) : (s.journal t host).dev = t.dev := rfl

@[simp] theorem backUp_dev (s : State) : s.backUp.dev = s.dev := by
  unfold State.backUp; split <;> rfl

@[simp] theorem releasePages_dev (s : State) (id : Nat) : (s.releasePages id).dev = s.dev := by
  obtain ⟨r, l, h⟩ := State.releasePages_eq s id
  rw [h]

theorem dev_of_pair {α : Type} {x : α × State} {a : α} {s t : State} (h : x = (a, t)) (hx : x.2.dev = s.dev) :
    t.dev = s.dev := by
  rw [h] at hx; exact hx

/-! ### Nonces and frames -/

@[simp] theorem disableEnc_dev (s : State) (i : Nat) : (s.disableEnc i).dev = s.dev := report_dev ..

@[simp] theorem nonce_dev (s : State) (i : Nat) : (s.nonce i).2.dev = s.dev := by
  unfold State.nonce
  extract_lets c
  split
  · rfl
  · split
    · rfl
    · rename_i t iv key u v _ _
      have ht : t.dev = s.dev := by unfold t; split <;> rfl
      have hu : u.dev = s.dev := ht
      have hv : v.dev = s.dev := by unfold v; split <;> exact hu
      dsimp only
      split
      · exact (disableEnc_dev ..).trans hv
      · exact hv

@[simp] theorem sealFrame_dev (s : State) (key : Bytes) (f : FabFrame) : (s.sealFrame key f).2.dev = s.dev := by
  unfold State.sealFrame
  split
  · rename_i h; exact dev_of_pair h (nonce_dev ..)
  · rename_i h; exact (cipher_dev ..).trans (dev_of_pair h (nonce_dev ..))

@[simp] theorem sealFrames_dev (key : Bytes) (fs : List FabFrame) (s : State) : (sealFrames key fs s).2.dev = s.dev := by
  induction fs generalizing s with
  | nil => rfl
  | cons f fs ih =>
    unfold sealFrames
    split
    · rename_i h; exact dev_of_pair h (sealFrame_dev ..)
    · rename_i h; exact (ih _).trans (dev_of_pair h (sealFrame_dev ..))

@[simp] theorem makeFrames_dev (s : State) (dest : FrameTo) (body : Bytes) : (s.makeFrames dest body).2.dev = s.dev := by
  unfold State.makeFrames
  dsimp only
  repeat' split
  · rfl
  · rfl
  · rfl
  · rw [sealFrames_dev]

/-! ### Leaf pages and sealed records -/

@[simp] theorem relabel_dev (s : State) (n : Nat) : (s.relabel n).dev = s.dev := rfl

@[simp] theorem forgetLeaf_dev (s : State) (i : Nat) : (s.forgetLeaf i).dev = s.dev := rfl

@[simp] theorem splitLeaf_dev (s : State) (l : Leaf) : (s.splitLeaf l).dev = s.dev := by
  unfold State.splitLeaf
  dsimp only
  split <;> rfl

@[simp] theorem mergeLeaf_dev (s : State) (l : Leaf) : (s.mergeLeaf l).dev = s.dev := by
  unfold State.mergeLeaf
  split
  · rfl
  · split <;> rfl

@[simp] theorem changeLeaf_dev (s : State) (n : Nat) (k : Bytes) : (s.changeLeaf n k).dev = s.dev := by
  unfold State.changeLeaf
  split
  · rfl
  · dsimp only
    repeat' split
    all_goals simp

@[simp] theorem sealLeaf_dev (s : State) (n : Ns) (l : Leaf) : (s.sealLeaf n l).2.dev = s.dev := by
  unfold State.sealLeaf
  split
  · rfl
  · by_cases hc : s.noCipher = true
    · rw [if_pos hc]
    · rw [if_neg hc]
      split
      · rename_i h; exact dev_of_pair h (nonce_dev ..)
      · rename_i h; exact (cipher_dev ..).trans (dev_of_pair h (nonce_dev ..))

@[simp] theorem sealLeaves_dev (n : Ns) (ls : List Leaf) (s : State) : (sealLeaves n ls s).2.dev = s.dev := by
  induction ls generalizing s with
  | nil => rfl
  | cons l ls ih =>
    unfold sealLeaves
    split
    · rename_i h; exact dev_of_pair h (sealLeaf_dev ..)
    · rename_i h; exact (ih _).trans (dev_of_pair h (sealLeaf_dev ..))

@[simp] theorem sealWritten_dev (s : State) (n : Nat) : (s.sealWritten n).2.dev = s.dev := by
  unfold State.sealWritten
  split
  · rfl
  · exact sealLeaves_dev ..

@[simp] theorem followLeaves_dev (s t : State) (n : Nat) (k : Bytes) : (s.followLeaves t n k).dev = t.dev := by
  unfold State.followLeaves
  dsimp only
  split
  · rfl
  · refine foldl_dev _ (fun u e => ?_) _ _
    repeat' split
    all_goals rfl

@[simp] theorem touchLeaf_dev (s : State) (n : Nat) (k : Bytes) : (s.touchLeaf n k).2.dev = s.dev := by
  have hs : ((s.changeLeaf n k).sealWritten n).2.dev = s.dev := (sealWritten_dev ..).trans (changeLeaf_dev ..)
  unfold State.touchLeaf
  split
  · rename_i h; exact dev_of_pair h hs
  · rename_i h; exact (followLeaves_dev ..).trans (dev_of_pair h hs)

@[simp] theorem capacity90_dev (s t : State) : (s.capacity90 t).dev = t.dev := by
  unfold State.capacity90
  dsimp only
  split
  · exact raise_dev ..
  · rfl

@[simp] theorem tierExt_dev (s : State) (i tier : Nat) : (s.tierExt i tier).dev = s.dev := by
  unfold State.tierExt
  split <;> rfl

@[simp] theorem encSegs_dev (key : Bytes) (ts : List Bytes) (s : State) : (encSegs key ts s).2.dev = s.dev := by
  induction ts generalizing s with
  | nil => rfl
  | cons t ts ih =>
    unfold encSegs
    by_cases hl : s.textLimit t.length = true
    · rw [if_pos hl]
    · rw [if_neg hl]
      split
      · rename_i h; exact dev_of_pair h (nonce_dev ..)
      · rename_i u h
        have hi : (encSegs key ts (u.cipher 2 t.length)).2.dev = s.dev :=
          (ih _).trans ((cipher_dev ..).trans (dev_of_pair h (nonce_dev ..)))
        dsimp only
        split
        · rename_i h; exact dev_of_pair h hi
        · rename_i h; exact dev_of_pair h hi

@[simp] theorem makeExtent_dev (s : State) (n : Ns) (i leaf : Nat) (key value : Bytes) (asn stamp sess : Nat) :
    (s.makeExtent n i leaf key value asn stamp sess).2.dev = s.dev := by
  unfold State.makeExtent
  split
  · rfl
  · split
    · rename_i h; exact dev_of_pair h (encSegs_dev ..)
    · rename_i h
      have hs := dev_of_pair h (encSegs_dev ..)
      exact hs

@[simp] theorem storeRecord_dev (s : State) (nsid : Nat) (key : Bytes) (hdr : RecordHdr) (bytes : Bytes) (tier : Nat) :
    (s.storeRecord nsid key hdr bytes tier).2.dev = s.dev := by
  unfold State.storeRecord
  split
  · rfl
  · split
    · rfl
    · rfl
    · dsimp only
      split
      · split
        · rename_i h; exact dev_of_pair h (touchLeaf_dev ..)
        · rename_i h; exact (capacity90_dev ..).trans (dev_of_pair h (touchLeaf_dev ..))
      · split
        · rename_i h; exact dev_of_pair h (makeExtent_dev ..)
        · rename_i hm
          have hs := dev_of_pair hm (makeExtent_dev ..)
          split
          · rename_i h; exact (dev_of_pair h (touchLeaf_dev ..)).trans ((tierExt_dev ..).trans hs)
          · rename_i h
            exact (capacity90_dev ..).trans ((dev_of_pair h (touchLeaf_dev ..)).trans ((tierExt_dev ..).trans hs))

@[simp] theorem voidRecord_dev (s : State) (e : TagEntry) : (s.voidRecord e).dev = s.dev := by
  unfold State.voidRecord
  split
  · split
    · rfl
    · exact (storeRecord_dev ..).trans (backUp_dev s)
  · rfl

/-! ### Purges and mirrors -/

theorem purgeStream_dev {s u : State} {n : Ns} {t : Stream} {gone : List SealedRec}
    (h : s.purgeStream n t gone = some u) : u.dev = s.dev := by
  unfold State.purgeStream at h
  split at h
  · cases h
  · rename_i hl
    cases h
    have hf := foldl_dev (fun (s : State) (r : SealedRec) => s.freeLoc r.loc) (fun _ _ => rfl) gone
    exact (hf _).trans (dev_of_pair hl (touchLeaf_dev ..))

theorem purgeCommit_dev {s u : State} {n : Ns} {t : Stream} {gone : List SealedRec}
    (h : s.purgeCommit n t gone = some u) : u.dev = s.dev := by
  unfold State.purgeCommit at h
  obtain ⟨v, hv, rfl⟩ := Option.map_eq_some_iff.mp h
  exact (purgeStream_dev hv).trans (backUp_dev s)

@[simp] theorem purgeGo_dev (nsid time : Nat) (ts : List Stream) (lim : Option Nat) (s : State) :
    (purgeGo nsid time ts lim s).1.dev = s.dev := by
  induction ts generalizing lim s with
  | nil => rfl
  | cons t ts ih =>
    unfold purgeGo
    dsimp only
    generalize expiredRun time _ t.recs = k
    split
    · exact ih ..
    · split
      · rfl
      · split
        · rfl
        · rename_i h
          exact (ih ..).trans (purgeCommit_dev h)

@[simp] theorem degradeMember_dev (s : State) (n a : Nat) : (s.degradeMember n a).dev = s.dev := by
  unfold State.degradeMember
  split
  · split
    · rfl
    · exact raise_dev ..
  · rfl

@[simp] theorem cutMember_dev (s : State) (n : Ns) (a : Nat) : (s.cutMember n a).dev = s.dev := by
  unfold State.cutMember
  split
  · dsimp only
    split
    · exact degradeMember_dev ..
    · exact raise_dev ..
  · rfl

@[simp] theorem camEnd_dev (s : State) (e : TagEntry) : (s.camEnd e).dev = s.dev := by
  unfold State.camEnd
  split
  · rfl
  · split <;> rfl

/-! ### Draining the write buffer -/

@[simp] theorem drainExtent_dev (s : State) (e : Extent) : (s.drainExtent e).dev = s.dev := by
  unfold State.drainExtent
  split <;> rfl

@[simp] theorem drainLeaf_dev (s : State) (l : Leaf) : (s.drainLeaf l).dev = s.dev := by
  unfold State.drainLeaf
  split <;> rfl

@[simp] theorem drainJournal_dev (s : State) : s.drainJournal.1.dev = s.dev := by
  unfold State.drainJournal
  dsimp only
  split <;> rfl

@[simp] theorem countUnits_dev (s : State) (f : Flash) (n : Nat) : (s.countUnits f n).dev = s.dev := by
  unfold State.countUnits State.noteCollection
  dsimp only
  split
  · exact raise_dev ..
  · rfl

@[simp] theorem settleBack_dev (s : State) : s.settleBack.dev = s.dev := by
  unfold State.settleBack
  split <;> rfl

@[simp] theorem drain_dev (s : State) : s.drain.dev = s.dev := by
  unfold State.drain
  extract_lets f es ls host t₀ t₁ t₂ data
  have h₀ : t₀.dev = s.dev :=
    (foldl_dev State.drainLeaf drainLeaf_dev ls _).trans (foldl_dev State.drainExtent drainExtent_dev es s)
  have h₁ : t₁.dev = s.dev := h₀
  have h₂ : t₂.dev = s.dev := by
    show (if t₁.flash.wseq = f.wseq then t₁ else s.journal t₁ true).dev = s.dev
    rw [apply_ite State.dev, journal_dev, ite_self, h₁]
  have h₃ : t₂.drainJournal.1.dev = s.dev := (drainJournal_dev t₂).trans h₂
  split
  rename_i u ok h
  rw [h] at h₃
  dsimp only
  split
  · rw [settleBack_dev, countUnits_dev, h₃]
  · rw [countUnits_dev, h₃]

@[simp] theorem flushLog_dev (s : State) : s.flushLog.dev = s.dev := by
  unfold State.flushLog
  dsimp only
  split
  · rfl
  · split
    · exact raise_dev ..
    · rfl

@[simp] theorem dropCommit_dev (s : State) : s.dropCommit.dev = s.dev := by
  unfold State.dropCommit
  split <;> rfl

end Sys2Proof.Machine
end

section
/-! SUPPORT. A CONTROLLER reset that is under way stays so through every step of its drain (R96, R97). -/

namespace Sys2Proof.Machine

open Sys2Proof

/-! ## A CONTROLLER reset under way stays so (R97) -/

theorem foldl_resetBusy {α : Type} (f : State → α → State) (hf : ∀ s a, (f s a).dev.resetBusy = s.dev.resetBusy)
    (l : List α) (s : State) : (l.foldl f s).dev.resetBusy = s.dev.resetBusy := by
  induction l generalizing s with
  | nil => rfl
  | cons a l ih => rw [List.foldl_cons, ih, hf]

@[simp] theorem fabReply_resetBusy (s : State) (dst ftype reqId : Nat) (p : FabPayload) :
    (s.fabReply dst ftype reqId p).dev.resetBusy = s.dev.resetBusy := by
  have h := congrArg Dev.resetBusy
    (makeFrames_dev s ⟨dst, ftype, none, Config.fabFlow dst 0⟩ (replyBytes ftype reqId p))
  exact h

@[simp] theorem fabAsk_resetBusy (s : State) (dest : FrameTo) (p : FabPayload) (tag : Option TagId) (nsid asn : Nat) :
    (s.fabAsk dest p tag nsid asn).dev.resetBusy = s.dev.resetBusy := by
  unfold State.fabAsk
  split
  · rfl
  · have h := congrArg Dev.resetBusy (makeFrames_dev s dest (payloadBytes p))
    exact h

@[simp] theorem endSession_resetBusy (s : State) (id : Nat) : (s.endSession id).dev.resetBusy = s.dev.resetBusy := by
  unfold State.endSession
  split
  · rfl
  · dsimp only
    rw [releasePages_dev]
    rfl

@[simp] theorem post_resetBusy (s : State) (e : TagEntry) (c : Completion) :
    (s.post e c).dev.resetBusy = s.dev.resetBusy := by
  obtain ⟨m, hm, h⟩ := AnswerFrame.post s e c
  have hm : m.dev = s.dev := (dev_of_answering hm).trans (dropEarly_dev ..)
  split at h
  · obtain h | ⟨x, -, -, h⟩ := h
    · rw [h, hm]
    · rw [h, endSession_resetBusy, hm]
  · obtain ⟨p, h⟩ := h
    rw [h, fabReply_resetBusy, hm]
  · rw [h, hm]

@[simp] theorem finish_resetBusy (s : State) (e : TagEntry) (st : Nat) (p : Bytes) :
    (s.finish e st p).dev.resetBusy = s.dev.resetBusy := post_resetBusy ..

@[simp] theorem answer_resetBusy (s : State) (w : Waiter) (st : Nat) : (s.answer w st).dev.resetBusy = s.dev.resetBusy := by
  cases w with
  | tag t =>
    unfold State.answer
    dsimp only
    split
    · exact finish_resetBusy ..
    · rfl
  | mctp tag code => rfl
  | path p =>
    obtain ⟨d, h⟩ := s.answer_path_eq p st
    rw [h]

@[simp] theorem detach_resetBusy (s : State) (t : TagId) : (s.detach t).dev.resetBusy = s.dev.resetBusy := by
  unfold State.detach
  dsimp only
  split <;> rfl

@[simp] theorem cancel_resetBusy (keep : Option TagId) (es : List TagEntry) (s : State) :
    (s.cancel keep es).dev.resetBusy = s.dev.resetBusy := by
  induction es generalizing s with
  | nil => rfl
  | cons e es ih =>
    unfold State.cancel
    split
    · dsimp only
      rw [ih, finish_resetBusy, detach_resetBusy]
      split
      · rw [voidRecord_dev]
      · rfl
    · exact ih s

@[simp] theorem mirrorOne_resetBusy (s : State) (n : Ns) (e : TagEntry) (media : Bool) (body : MirrorBody) (a : Nat) :
    (s.mirrorOne n e media body a).dev.resetBusy = s.dev.resetBusy := by
  unfold State.mirrorOne
  extract_lets t
  have ht : t.dev.resetBusy = s.dev.resetBusy := by
    unfold t
    split
    · rfl
    · exact fabAsk_resetBusy ..
  split
  · exact ht
  · split
    · exact ht
    · exact (fabAsk_resetBusy ..).trans ht

@[simp] theorem mirrorOut_resetBusy (s : State) (n : Ns) (e : TagEntry) (media : Bool) (parts : List (Nat × MirrorBody)) :
    (s.mirrorOut n e media parts).1.dev.resetBusy = s.dev.resetBusy := by
  unfold State.mirrorOut
  dsimp only
  rw [foldl_resetBusy _ (fun t p => mirrorOne_resetBusy ..), foldl_dev _ fun t p => cutMember_dev ..]

@[simp] theorem commitWrite_resetBusy (s : State) (n : Ns) (e : TagEntry) (c : Completion) (parts : List (Nat × MirrorBody)) :
    (s.commitWrite n e c parts).dev.resetBusy = s.dev.resetBusy := mirrorOut_resetBusy ..

@[simp] theorem purgeEnd_resetBusy (s : State) (e : TagEntry) : (s.purgeEnd e).dev.resetBusy = s.dev.resetBusy := by
  unfold State.purgeEnd
  split
  · rename_i l m n _ _
    exact (commitWrite_resetBusy ..).trans (congrArg Dev.resetBusy (purgeGo_dev ..))
  · rfl

@[simp] theorem postCommitted_resetBusy (es : List TagEntry) (s : State) :
    (s.postCommitted es).dev.resetBusy = s.dev.resetBusy := by
  induction es generalizing s with
  | nil => rfl
  | cons e es ih =>
    unfold State.postCommitted
    split
    · extract_lets t f u g
      have hu : u.dev = t.dev := foldl_dev _ (fun t a => degradeMember_dev ..) _ _
      rw [ih, post_resetBusy, camEnd_dev, hu, purgeEnd_resetBusy]
    · exact ih s

/-- Steps 1 to 3 of R96 leave the reset under way. -/
theorem runController_resetBusy (s : State) (keep : Option TagId) : (s.runController keep).dev.resetBusy = true := by
  unfold State.runController
  dsimp only
  rw [postCommitted_resetBusy, flushLog_dev, drain_dev, foldl_resetBusy, cancel_resetBusy, dropCommit_dev]
  intro t w
  split
  · rfl
  · exact answer_resetBusy ..

/-- A CONTROLLER reset asked for is under way. -/
theorem askController_resetBusy (s : State) (w : Waiter) : (s.askController w).dev.resetBusy = true := by
  unfold State.askController
  split
  · rename_i h
    rw [answer_resetBusy, h]
  · dsimp only
    rw [runController_resetBusy]

end Sys2Proof.Machine
end

section
/-! PROOF. O32: LOG_SEL, PINNED, RST_CTRL and any other register write. -/

namespace Sys2Proof.Machine

open Sys2Proof

/-! ## LOG_SEL, PINNED and RST_CTRL -/

/-- A write that passes and touches a class C field waits for its commit (R102). -/
theorem access_waits {s b : State} {p : Path} {a : Nat} {v m : Word} (h : s.Reaches p b) (ha : a ≠ 0xC0040)
    (hc : b.writeCheck p a v m = none) (hm : m &&& classCMask a ≠ 0) :
    s.accessWrite p a v m = (b.powerPage a).addChange (.reg a v m) (.path p) := by
  rw [accessWrite_of_reaches h]
  unfold State.regWrite
  rw [State.ahead_of_noCommit h.2.2.2.2, hc, if_neg ha, if_pos hm]

/-- A CONTROLLER request that passes is put to the reset (R96). -/
theorem access_asksController {s b : State} {p : Path} {v m : Word} (h : s.Reaches p b)
    (hc : b.writeCheck p 0xC0040 v m = none) (hv : (v &&& m).getLsbD 16 = true) :
    s.accessWrite p 0xC0040 v m = b.askController (.path p) := by
  rw [accessWrite_of_reaches h]
  unfold State.regWrite
  rw [State.ahead_of_noCommit h.2.2.2.2, hc, if_pos rfl, if_pos hv]

/-- The page's checks on a named register whose fields LOCK does not protect: only the ranges of check 8 remain. -/
theorem writeCheck_named {s b : State} {p : Path} {page off : Nat} {v m : Word} {fs : List Field} (h : s.WritesPage p page b)
    (hown : b.mayOwn p page) (ha : off % 4 = 0) (hx : 0x40 ≤ off ∧ off < 0x1000) (hm : m ≠ 0)
    (hc : covered (pageBase page + off) m = fs) (hro : (fs.all fun f => f.access == .ro || f.access == .rc) = false)
    (hlock : (fs.any fun f => f.access == .rwl) = false) :
    b.writeCheck p (pageBase page + off) v m = if b.inRange8 (pageBase page + off) v m then none else some stBadField := by
  obtain ⟨-, hp, hw⟩ := h
  subst hc
  have hevt : (off == hEvtStat) = false := beq_false_of_ne (by unfold hEvtStat; omega)
  rw [writeCheck_page ha hx.2 hp hm (by rw [hevt]; exact hw) (.inl hown) (by unfold hOwner; omega) hlock, hro,
    if_neg Bool.false_ne_true]

theorem covered_logSel : covered 0x50006C (BitVec.allOnes 32) = [Reg.LOG_SEL.WORD] := by decide

theorem covered_pinned : covered compatAddr 0xFFFF = [Reg.COMPAT.PINNED] := by decide

theorem covered_rstCtrl : covered 0xC0040 0x1FFFF = [Reg.RST_CTRL.KEY, Reg.RST_CTRL.CONTROLLER] := by decide

/-- LOG_SEL takes every value. -/
theorem inRange8_logSel (s : State) (v : Word) : s.inRange8 0x50006C v (BitVec.allOnes 32) = true := by
  refine (inRange8_iff ..).mpr ⟨?_, fun f hf => .inr ?_, fun h => absurd h (by decide), fun h => absurd h (by decide)⟩
  · rw [covered_logSel]; decide
  · rw [covered_logSel, List.mem_singleton] at hf
    subst hf
    rfl

/-- A pin is in range up to the highest level of the firmware (R9). -/
theorem inRange8_pinned (s : State) (level : BitVec 16) :
    s.inRange8 compatAddr (level.setWidth 32) 0xFFFF = true ↔ level.toNat ≤ s.rd Reg.COMPAT.MAX_LEVEL := by
  have hget : wordGet (level.setWidth 32) 0 16 = level.toNat := by
    have := level.isLt
    unfold wordGet bitsOf
    rw [BitVec.toNat_setWidth, Nat.shiftRight_zero]
    omega
  have hallowed : ∀ t, fieldAllowed s t Reg.COMPAT.PINNED compatAddr (wordGet (level.setWidth 32) 0 16) =
      decide (level.toNat ≤ s.rd Reg.COMPAT.MAX_LEVEL) := fun t => by rw [hget]; rfl
  rw [inRange8_iff, covered_pinned]
  constructor
  · rintro ⟨-, h, -⟩
    rcases h _ (List.mem_singleton_self _) with ⟨h, -⟩ | h
    · exact absurd rfl h
    · exact of_decide_eq_true ((hallowed _).symm.trans h)
  · intro h
    refine ⟨by decide, fun f hf => .inr ?_, fun h => absurd h (by decide), fun h => absurd h (by decide)⟩
    rw [List.mem_singleton.mp hf]
    exact (hallowed _).trans (decide_eq_true h)

/-- What a CONTROLLER request writes. -/
def rstWord (key : BitVec 16) : Word := 0x10000 ||| key.setWidth 32

theorem wordGet_rstWord (key : BitVec 16) : wordGet (rstWord key &&& 0x1FFFF) 0 16 = key.toNat := by
  apply Nat.eq_of_testBit_eq
  intro i
  rw [wordGet_testBit _ _ _ _ (by decide)]
  by_cases hi : i < 16
  · have h1 : (0x1FFFF : Word).getLsbD i = true := by revert i; decide
    have h2 : (0x10000 : Word).getLsbD i = false := by revert i; decide
    unfold rstWord
    rw [Nat.zero_add, BitVec.getLsbD_and, BitVec.getLsbD_or, h1, h2, BitVec.getLsbD_setWidth]
    simp [hi, BitVec.testBit_toNat, show i < 32 by omega]
  · rw [BitVec.testBit_toNat, BitVec.getLsbD_of_ge key i (by omega)]
    simp [hi]

theorem rstWord_asks (key : BitVec 16) : (rstWord key &&& 0x1FFFF).getLsbD 16 = true := by
  unfold rstWord
  rw [BitVec.getLsbD_and, BitVec.getLsbD_or]
  simp

/-- RST_CTRL takes a CONTROLLER request under its key alone (Table 04-12). -/
theorem inRange8_rstCtrl (s : State) (key : BitVec 16) :
    s.inRange8 0xC0040 (rstWord key) 0x1FFFF = true ↔ key = 0x5AFE := by
  have hkey : wordGet (rstWord key &&& 0x1FFFF) 0 16 = 0x5AFE ↔ key = 0x5AFE := by
    rw [wordGet_rstWord]
    exact ⟨fun h => BitVec.eq_of_toNat_eq h, fun h => h ▸ rfl⟩
  rw [inRange8_iff, covered_rstCtrl]
  refine ⟨fun ⟨_, _, _, h⟩ => hkey.mp (h rfl (rstWord_asks key)),
    fun h => ⟨by decide, fun f hf => .inl ?_, ?_, fun _ _ => hkey.mpr h⟩⟩
  · revert f; decide
  · exact fun h => absurd h (by decide)

/-- LOG_SEL is replaced whole. -/
theorem applyWrite_logSel (s : State) (p : Path) (v : Word) :
    s.applyWrite p 0x50006C v (BitVec.allOnes 32) = s.setWord 0x50006C v := by
  have h : s.applyWrite p 0x50006C v (BitVec.allOnes 32) = s.setWord 0x50006C
      (writeFields (covered 0x50006C (BitVec.allOnes 32)) (s.word 0x50006C) v (BitVec.allOnes 32)) := rfl
  have hw : maskWrite (s.word 0x50006C) v (BitVec.allOnes 32) = v := by
    unfold maskWrite
    rw [BitVec.and_allOnes, BitVec.not_allOnes, BitVec.and_zero, BitVec.zero_or]
  rw [h, covered_logSel]
  exact congrArg (s.setWord 0x50006C) hw

/-- A register write alone is the next run (R102). -/
theorem nextRun_reg (a : Nat) (v m : Word) (w : Waiter) :
    nextRun [⟨.reg a v m, w⟩] = ([⟨.reg a v m, w⟩], []) := by
  simp [nextRun]

/-- A change that still holds passes the second test of R484. -/
theorem retest_reg {s : State} {a : Nat} {v m : Word} {w : Waiter} (h : s.inRange8 a v m = true) :
    s.retest [⟨.reg a v m, w⟩] = ([⟨.reg a v m, w⟩], []) := by
  simp [State.retest, h]

/-- While a commit is under way no other forms (R102). -/
theorem formGo_under (n : Nat) {s : State} (h : s.cfg.under ≠ []) : formGo n s = s := by
  cases n with
  | zero => rfl
  | succ n =>
    unfold formGo
    rw [if_pos (by simp [h])]

/-- A register write that waits alone and still holds is the commit that forms. -/
theorem formGo_reg (n : Nat) {s : State} {a : Nat} {v m : Word} {w : Waiter} (hu : s.cfg.under = [])
    (hw : s.cfg.waiting = [⟨.reg a v m, w⟩]) (hr : s.inRange8 a v m = true) :
    formGo (n + 1) s = { s with cfg := { s.cfg with under := [⟨.reg a v m, w⟩], waiting := [] } } := by
  unfold formGo
  rw [if_neg (by simp [hu, hw]), hw, nextRun_reg]
  dsimp only
  rw [retest_reg hr]
  exact formGo_under n (List.cons_ne_nil _ _)

/-- A change that still holds, with none before it, forms a commit of exactly itself (R102). -/
theorem addChange_alone {s : State} {a : Nat} {v m : Word} {w : Waiter} (h : s.NoCommit) (hr : s.inRange8 a v m = true) :
    s.addChange (.reg a v m) w = { s with cfg := { s.cfg with under := [⟨.reg a v m, w⟩] } } := by
  obtain ⟨hu, hw⟩ := h
  have hform := formGo_reg (s.cfg.waiting.length + 1)
    (s := { s with cfg := { s.cfg with waiting := s.cfg.waiting ++ [⟨.reg a v m, w⟩] } }) hu (by rw [hw]; rfl) hr
  have hlen : (s.cfg.waiting ++ [(⟨.reg a v m, w⟩ : CfgPending)]).length + 1 = s.cfg.waiting.length + 1 + 1 := by simp
  unfold State.addChange State.formCommit
  dsimp only
  rw [hlen, hform, ← hw]

/-- A class C write with none before it becomes the commit under way, and is not answered yet. -/
theorem access_commits {s b : State} {p : Path} {a : Nat} {v m : Word} (h : s.Reaches p b) (ha : a ≠ 0xC0040)
    (hc : b.writeCheck p a v m = none) (hm : m &&& classCMask a ≠ 0) (hr : b.inRange8 a v m = true) :
    ∃ u, s.done (s.accessWrite p a v m) = .next u ∧ u.out = b.out ∧ u.regs = b.regs ∧
      u.cfg = { b.cfg with under := [⟨.reg a v m, .path p⟩] } := by
  obtain ⟨d, hd⟩ := b.powerPage_eq a
  have hadd : ({ b with dev := { b.dev with domAccess := d } } : State).addChange (.reg a v m) (.path p) = _ :=
    addChange_alone h.2.2.2.2 hr
  refine ⟨_, State.done_eq .., ?_⟩
  rw [access_waits h ha hc hm, hd, hadd]
  exact ⟨rfl, rfl, rfl⟩

theorem writeCheck_logSel {s b : State} {p : Path} (v : Word) (h : s.WritesPage p (20 * 64) b)
    (hown : b.mayOwn p (20 * 64)) : b.writeCheck p 0x50006C v (BitVec.allOnes 32) = none :=
  (writeCheck_named (off := 0x6C) h hown (by decide) (by decide) (by decide) covered_logSel (by decide) (by decide)).trans
    (if_pos (inRange8_logSel b v))

theorem writeCheck_pinned {s b : State} {p : Path} (level : BitVec 16) (h : s.WritesPage p 0 b) (hown : b.mayOwn p 0) :
    b.writeCheck p compatAddr (level.setWidth 32) 0xFFFF =
      if b.inRange8 compatAddr (level.setWidth 32) 0xFFFF then none else some stBadField :=
  writeCheck_named (off := 0x48) h hown (by decide) (by decide) (by decide) covered_pinned (by decide) (by decide)

theorem writeCheck_rstCtrl {s b : State} {p : Path} (key : BitVec 16) (h : s.WritesPage p (3 * 64) b)
    (hown : b.mayOwn p (3 * 64)) : b.writeCheck p 0xC0040 (rstWord key) 0x1FFFF =
      if b.inRange8 0xC0040 (rstWord key) 0x1FFFF then none else some stBadField :=
  writeCheck_named (off := 0x40) h hown (by decide) (by decide) (by decide) covered_rstCtrl (by decide) (by decide)

/-- Settles O32: each row is one write to the arbiter; the CONTROLLER reset's steps 1 to 3 leave it under way. -/
theorem namedRegisterWritesTakeEffect : Obligations.NamedRegisterWritesTakeEffect := by
  unfold Obligations.NamedRegisterWritesTakeEffect
  intro s b p v m level key a
  refine ⟨fun h hown => ?_, fun h hown => ⟨fun hl => ?_, fun hl => ?_⟩, fun h hown => ⟨fun hk => ?_, fun hk => ?_⟩,
    fun h ha => ⟨fun st hc => ?_, fun hc hm => ?_⟩⟩
  · obtain ⟨u, hu, k⟩ := access_applied h.1 (by decide) (writeCheck_logSel v h hown) (by decide)
    rw [applyWrite_logSel] at k
    refine ⟨u, hu, by rw [k.out, State.setWord_out, State.powerPage_out], ?_⟩
    rw [k.regs, State.setWord_regs, State.powerPage_regs]
  · have hc := (writeCheck_pinned level h hown).trans
      (if_neg (fun hr => absurd ((inRange8_pinned b level).mp hr) (by omega)))
    obtain ⟨u, hu, k⟩ := access_refused h.1 hc
    exact ⟨u, hu, by rw [k.out, State.refuseWrite_out], by rw [k.cfg, State.refuseWrite_cfg]⟩
  · have hr := (inRange8_pinned b level).mpr hl
    have hc := (writeCheck_pinned level h hown).trans (if_pos hr)
    obtain ⟨u, hu, ho, hg, hk⟩ := access_commits h.1 (by decide) hc (by decide) hr
    exact ⟨u, hu, ho, congrArg Cfg.under hk, hg⟩
  · have hc := (writeCheck_rstCtrl key h hown).trans (if_neg (fun hr => hk ((inRange8_rstCtrl b key).mp hr)))
    obtain ⟨u, hu, k⟩ := access_refused h.1 hc
    exact ⟨u, hu, by rw [k.out, State.refuseWrite_out], by rw [k.dev, State.refuseWrite_dev]⟩
  · have hc := (writeCheck_rstCtrl key h hown).trans (if_pos ((inRange8_rstCtrl b key).mpr hk))
    refine ⟨_, State.done_eq .., ?_⟩
    rw [show (0x10000 ||| key.setWidth 32 : Word) = rstWord key from rfl, access_asksController h.1 hc (rstWord_asks key)]
    exact askController_resetBusy ..
  · obtain ⟨u, hu, k⟩ := access_refused h hc
    exact ⟨u, hu, by rw [k.out, State.refuseWrite_out], by rw [k.cfg, State.refuseWrite_cfg],
      by rw [k.kv, State.refuseWrite_kv], k.regs⟩
  · obtain ⟨u, hu, k⟩ := access_applied h ha hc hm
    exact ⟨u, hu, k.regs, k.dev, k.out⟩

end Sys2Proof.Machine
end

section
/-! SUPPORT. The receive queues are left alone by answers, acknowledgements and the end of sessions. -/

namespace Sys2Proof.Machine

open Sys2Proof

/-! ## The receive queues -/

/-- A command that waits, whichever name its sender goes by (R152, R161). -/
def QueuedCmd.bare (c : QueuedCmd) : SessionClass × Nat × CmdMsg := (c.cls, c.tag, c.msg)

/-- What waits in the receive queues. -/
def State.queued (s : State) : List (SessionClass × Nat × CmdMsg) := s.cmd.queue.map QueuedCmd.bare

theorem queued_congr {s t : State} (h : s.cmd = t.cmd) : s.queued = t.queued := by
  unfold State.queued; rw [h]

theorem State.queued_length (s : State) : s.queued.length = s.cmd.queue.length := List.length_map ..

theorem queue_length_of_queued {s t : State} (h : s.queued = t.queued) : s.cmd.queue.length = t.cmd.queue.length := by
  rw [← State.queued_length, h, State.queued_length]

/-- One command more waits, at the end. -/
theorem queue_last_of_queued {s u : State} {cls : SessionClass} {tag : Nat} {msg : CmdMsg}
    (h : u.queued = s.queued ++ [(cls, tag, msg)]) : ∃ (q : List QueuedCmd) (c : QueuedCmd),
      u.cmd.queue = q ++ [c] ∧ q.length = s.cmd.queue.length ∧ c.tag = tag ∧ c.cls = cls ∧ c.msg = msg := by
  obtain ⟨q, r, hq, hl, hr⟩ := List.map_eq_append_iff.mp h
  obtain ⟨c, rfl, hc⟩ := List.map_eq_singleton_iff.mp hr
  cases hc
  exact ⟨q, c, hq, by rw [← State.queued_length, ← hl, List.length_map], rfl, rfl, rfl⟩

theorem foldl_queued {α : Type} (f : State → α → State) (hf : ∀ s a, (f s a).queued = s.queued) (l : List α) (s : State) :
    (l.foldl f s).queued = s.queued := by
  induction l generalizing s with
  | nil => rfl
  | cons a l ih => rw [List.foldl_cons, ih, hf]

/-- The end of a session only renames the sender of what waits (R152). -/
@[simp] theorem endSession_queued (s : State) (id : Nat) : (s.endSession id).queued = s.queued := by
  unfold State.endSession
  split
  · rfl
  · dsimp only
    rw [queued_congr (releasePages_cmd ..)]
    unfold State.queued
    dsimp only
    rw [List.map_map]
    refine List.map_congr_left fun c _ => ?_
    rw [Function.comp_apply]
    split <;> rfl

@[simp] theorem pump_queued (s : State) (id : Nat) : (s.pump id).queued = s.queued := by
  obtain ⟨m, -, hm, h | ⟨x, -, -, h⟩⟩ := pump_cases s id
  · rw [h, queued_congr hm]
  · rw [h, endSession_queued, queued_congr hm]

@[simp] theorem pumpAll_queued (s : State) : s.pumpAll.queued = s.queued := foldl_queued _ pump_queued _ _

@[simp] theorem freeTags_queued (s : State) (id : Nat) : (s.freeTags id).queued = s.queued := by
  unfold State.freeTags
  split <;> rfl

@[simp] theorem takeAck_queued (s : State) (id ack credit : Nat) (map : Bytes) :
    (s.takeAck id ack credit map).queued = s.queued := by
  unfold State.takeAck
  split
  · rfl
  · dsimp only
    rw [pumpAll_queued, pump_queued, freeTags_queued]
    exact queued_congr (sendFrames_cmd ..)

@[simp] theorem hostSpent_queued (s : State) (id next limit : Nat) : (s.hostSpent id next limit).queued = s.queued := by
  unfold State.hostSpent
  split
  · exact endSession_queued ..
  · rfl

@[simp] theorem respond_queued (s : State) (t : TagId) (c : Completion) (live : Bool) :
    (s.respond t c live).queued = s.queued := by
  cases h : t.ctx with
  | session id =>
    obtain ⟨m, -, hm, h | ⟨x, -, -, h⟩⟩ := respond_session s t c live id h
    · rw [h, queued_congr hm]
    · rw [h, endSession_queued, queued_congr hm]
  | forward src =>
    unfold State.respond
    rw [h]
    exact queued_congr ((fabReply_cmd ..).trans (countStatus_cmd ..))
  | orphan k =>
    unfold State.respond
    rw [h]
    exact queued_congr (countStatus_cmd ..)

@[simp] theorem post_queued (s : State) (e : TagEntry) (c : Completion) : (s.post e c).queued = s.queued := by
  have h0 : ((s.noteInternal e c).dropEarly fun t => t == e.id).queued = s.queued := queued_congr (noteInternal_cmd ..)
  unfold State.post
  extract_lets t
  split
  · split
    · exact (respond_queued ..).trans h0
    · exact (respond_queued ..).trans h0
  · exact (respond_queued ..).trans h0

@[simp] theorem finishTags_queued (st : Nat) (ts : List TagId) (s : State) : (s.finishTags st ts).queued = s.queued := by
  induction ts generalizing s with
  | nil => rfl
  | cons t ts ih =>
    unfold State.finishTags
    split
    · rw [ih]; exact post_queued ..
    · exact ih s

@[simp] theorem abandonEntry_queued (s : State) : s.abandonEntry.queued = s.queued := by
  unfold State.abandonEntry
  split
  · rfl
  · dsimp only
    rw [finishTags_queued, queued_congr (raise_cmd ..)]
    rfl

/-- A wake changes the power state, WAKE_SRC and the tiles' retention alone (R72). -/
theorem State.wake_eq (s : State) (src : Field) : ∃ r d c, s.wake src = { s with regs := r, dev := d, cam := c } := by
  unfold State.wake
  split
  · exact ⟨_, _, _, rfl⟩
  · exact ⟨s.regs, s.dev, s.cam, rfl⟩

@[simp] theorem wake_cmd (s : State) (src : Field) : (s.wake src).cmd = s.cmd := by
  obtain ⟨r, d, c, h⟩ := s.wake_eq src; rw [h]

@[simp] theorem arrive_queued (s : State) (src : Field) : (s.arrive src).queued = s.queued := by
  unfold State.arrive
  split
  · rw [queued_congr (wake_cmd ..), abandonEntry_queued]
  · rfl

@[simp] theorem reach_queued (s : State) (m : CmdMsg) : (s.reach m).queued = s.queued := by
  unfold State.reach
  split
  · split
    · rfl
    · exact arrive_queued ..
  · exact arrive_queued ..

@[simp] theorem pauseHosts_queued (s : State) (q : Nat) : (s.pauseHosts q).queued = s.queued := by
  unfold State.pauseHosts
  split
  · exact foldl_queued (fun (s : State) (x : Port × Nat) => s.emit (.pauseOut x.2 q)) (fun _ _ => rfl) _ _
  · rfl

/-- A complete command finds room at the end of the receive queues (R161). -/
theorem queueCmd_queued {s : State} (c : QueuedCmd) (h : s.cmd.queue.length < 16384) :
    (s.queueCmd c).queued = s.queued ++ [c.bare] := by
  have hr := reach_queued s c.msg
  have hroom : ¬ 16384 ≤ (s.reach c.msg).cmd.queue.length := by rw [queue_length_of_queued hr]; omega
  unfold State.queueCmd
  extract_lets v q t
  have ht : t.queued = s.queued ++ [c.bare] := by
    rw [← hr]
    exact List.map_append
  rw [if_neg hroom]
  split
  · rw [pauseHosts_queued, ht]
  · exact ht

end Sys2Proof.Machine
end

section
/-! SUPPORT. What sending, acknowledging and freeing leave of a session. -/

namespace Sys2Proof.Machine

open Sys2Proof

/-! ## Which session is which -/

theorem session_id {s : State} {i : Nat} {x : Session} (h : s.session? i = some x) : x.id = i := by
  simpa using List.find?_some h

theorem session_congr {s t : State} (h : s.sessions = t.sessions) (i : Nat) : s.session? i = t.session? i := by
  unfold State.session?; rw [h]

theorem find_putWhere_other {α : Type} (p q : α → Bool) (y : α) (hy : q y = false) (hpq : ∀ z, p z = true → q z = false)
    (l : List α) : (putWhere p y l).find? q = l.find? q := by
  have hmap : (l.map fun z => if p z then y else z).find? q = l.find? q := by
    induction l with
    | nil => rfl
    | cons z l ih =>
      by_cases hz : p z = true
      · simp [hz, hy, hpq z hz, ih]
      · simp [hz, List.find?_cons, ih]
  unfold putWhere
  split
  · exact hmap
  · simp [List.find?_append, hy]

/-- A session's record replaced leaves the others. -/
theorem session_setSession_other (s : State) (y : Session) (i : Nat) (h : y.id ≠ i) :
    (s.setSession y).session? i = s.session? i := by
  refine find_putWhere_other (fun z => z.id == y.id) (fun z => z.id == i) y (beq_false_of_ne h) (fun z hz => ?_) s.sessions
  rw [eq_of_beq hz]
  exact beq_false_of_ne h

theorem releasePages_sessions (s : State) (id : Nat) : (s.releasePages id).sessions = s.sessions := by
  obtain ⟨r, l, h⟩ := State.releasePages_eq s id
  rw [h]

/-- The end of a session leaves the others (R152). -/
theorem session_endSession_other (s : State) (i j : Nat) (h : j ≠ i) : (s.endSession j).session? i = s.session? i := by
  unfold State.endSession
  split
  · rfl
  · dsimp only
    rw [session_congr (releasePages_sessions ..)]
    unfold State.session? dropWhere
    dsimp only
    rw [List.find?_filter]
    refine congrArg (List.find? · s.sessions) (funext fun z => ?_)
    by_cases hz : z.id = i
    · simp [hz, h.symm]
    · simp [hz]

/-! ## What a session keeps while frames go out and acknowledgements come in -/

/-- The session `y` is `x` after sending and acknowledgement: only what is held and what waits, credit and what has been
answered differ, and no sequence number has been used but for a fragment that waited. -/
structure Session.Continues (x y : Session) : Prop where
  id : y.id = x.id
  cls : y.cls = x.cls
  smallMtu : y.smallMtu = x.smallMtu
  halfOpen : y.halfOpen = x.halfOpen
  closing : y.closing = x.closing
  ackHigh : y.ackHigh = x.ackHigh
  nextAckSeq : y.nextAckSeq = x.nextAckSeq
  hostIp : y.hostIp = x.hostIp
  hostPort : y.hostPort = x.hostPort
  port : y.port = x.port
  toSend : y.nextSeq + y.outbox.length = x.nextSeq + x.outbox.length
  assembling : ∀ a ∈ y.assembling, a ∈ x.assembling

theorem Session.Continues.refl (x : Session) : x.Continues x :=
  ⟨rfl, rfl, rfl, rfl, rfl, rfl, rfl, rfl, rfl, rfl, rfl, fun _ h => h⟩

theorem Session.Continues.trans {x y z : Session} (h : x.Continues y) (k : y.Continues z) : x.Continues z :=
  ⟨k.id.trans h.id, k.cls.trans h.cls, k.smallMtu.trans h.smallMtu, k.halfOpen.trans h.halfOpen, k.closing.trans h.closing,
    k.ackHigh.trans h.ackHigh, k.nextAckSeq.trans h.nextAckSeq, k.hostIp.trans h.hostIp, k.hostPort.trans h.hostPort,
    k.port.trans h.port, k.toSend.trans h.toSend, fun a ha => h.assembling a (k.assembling a ha)⟩

theorem Session.Continues.goesOn {x y : Session} (h : x.Continues y) (k : x.goesOn) : y.goesOn := by
  obtain ⟨hc, hn, ha⟩ := k
  exact ⟨h.closing.trans hc, h.toSend ▸ hn, h.nextAckSeq ▸ ha⟩

/-- The fragments sent take a sequence number each. -/
theorem pumpGo_continues (g : Nat) (fs : List OutFrag) (room : Nat) (x : Session) :
    { x with outbox := fs }.Continues (pumpGo g fs room x).1 := by
  induction fs generalizing room x with
  | nil => exact Session.Continues.refl _
  | cons f fs ih =>
    unfold pumpGo
    split
    · refine Session.Continues.trans ?_ (ih ..)
      exact ⟨rfl, rfl, rfl, rfl, rfl, rfl, rfl, rfl, rfl, rfl, by simp; omega, fun _ h => h⟩
    · exact Session.Continues.refl _

/-- The session with ID `i` goes on: it is still there, as a continuation of `x`. -/
def State.Carries (s : State) (i : Nat) (x : Session) : Prop := ∃ y, s.session? i = some y ∧ x.Continues y

theorem setSession_carries {s : State} {i : Nat} {x y : Session} (h : x.Continues y) (hi : y.id = i) :
    (s.setSession y).Carries i x := ⟨y, hi ▸ session_setSession s y, h⟩

theorem carries_congr {s t : State} {i : Nat} {x : Session} (h : t.sessions = s.sessions) (hs : s.Carries i x) :
    t.Carries i x := by
  obtain ⟨y, hy, hxy⟩ := hs
  exact ⟨y, by rw [session_congr h, hy], hxy⟩

/-- Nothing ends a session that goes on. -/
theorem Session.goesOn.stays {x : Session} (h : x.goesOn) : (x.closeAcked || x.spent) = false := by
  obtain ⟨hc, hn, ha⟩ := h
  have hack : x.closeAcked = false := by unfold Session.closeAcked; rw [hc]
  rw [hack, Bool.false_or]
  unfold Session.spent
  rw [decide_eq_false (by omega), decide_eq_false (by omega)]
  rfl

/-- Sending on any session leaves one that goes on in place. -/
theorem pump_carries {s : State} {i : Nat} {x : Session} (h : s.Carries i x) (hx : x.goesOn) (j : Nat) :
    (s.pump j).Carries i x := by
  obtain ⟨y, hy, hxy⟩ := h
  have hyi := session_id hy
  unfold State.pump
  split
  · exact ⟨y, hy, hxy⟩
  · rename_i z hz
    have hzj := session_id hz
    split
    · exact ⟨y, hy, hxy⟩
    · extract_lets p t
      have hp : z.Continues p.1 := pumpGo_continues ..
      have hids : t.sessions = (s.setSession p.1).sessions := sendFrames_sessions ..
      by_cases hij : j = i
      · subst hij
        obtain rfl : y = z := Option.some.inj (hy.symm.trans hz)
        have hgo := hp.goesOn (hxy.goesOn hx)
        have ht : t.session? j = some p.1 := by
          rw [session_congr hids]
          have := session_setSession s p.1
          rwa [hp.id, hyi] at this
        rw [if_neg]
        · exact ⟨p.1, ht, hxy.trans hp⟩
        · rw [hgo.stays, Bool.and_false]; exact Bool.false_ne_true
      · have ht : t.session? i = some y := by
          rw [session_congr hids, session_setSession_other _ _ _ (by rw [hp.id, hzj]; exact hij), hy]
        split
        · exact ⟨y, by rw [session_endSession_other _ _ _ hij, ht], hxy⟩
        · exact ⟨y, ht, hxy⟩

theorem pumpAll_carries {s : State} {i : Nat} {x : Session} (h : s.Carries i x) (hx : x.goesOn) : s.pumpAll.Carries i x := by
  unfold State.pumpAll
  generalize ((s.sessions.filter fun x => !x.outbox.isEmpty).map fun x => x.id) = l
  induction l generalizing s with
  | nil => exact h
  | cons j l ih => exact ih (pump_carries h hx j)

theorem freeTags_carries {s : State} {i : Nat} {x : Session} (h : s.Carries i x) : (s.freeTags i).Carries i x := by
  obtain ⟨y, hy, hxy⟩ := h
  have hid := session_id hy
  unfold State.freeTags
  rw [hy]
  exact setSession_carries
    (hxy.trans ⟨rfl, rfl, rfl, rfl, rfl, rfl, rfl, rfl, rfl, rfl, rfl, fun a ha => (List.mem_filter.mp ha).1⟩) hid

/-- An acknowledgement taken leaves a session that goes on in place (R155, R156). -/
theorem takeAck_carries {s : State} {i : Nat} {x : Session} (h : s.Carries i x) (hx : x.goesOn) (ack credit : Nat)
    (map : Bytes) : (s.takeAck i ack credit map).Carries i x := by
  obtain ⟨y, hy, hxy⟩ := h
  have hid := session_id hy
  unfold State.takeAck
  split
  · exact ⟨y, hy, hxy⟩
  rename_i w hw
  obtain rfl : y = w := Option.some.inj (hy.symm.trans hw)
  extract_lets z held top again resent kept t u
  have hz : y.Continues { z with held := kept } := by
    unfold z
    split <;> exact ⟨rfl, rfl, rfl, rfl, rfl, rfl, rfl, rfl, rfl, rfl, rfl, fun _ h => h⟩
  have ht : t.Carries i x := setSession_carries (hxy.trans hz) (hz.id.trans hid)
  have hu : u.Carries i x := carries_congr (sendFrames_sessions t _ resent) ht
  exact pumpAll_carries (pump_carries (freeTags_carries hu) hx i) hx

end Sys2Proof.Machine
end

section
/-! SUPPORT. What has been put out stays out, and what a DATA-space frame does once its body is taken (R153, R158 to R161). -/

namespace Sys2Proof.Machine

open Sys2Proof

/-! ## What has been put out stays out -/

@[simp] theorem cipher_out (s : State) (c n : Nat) : (s.cipher c n).out = s.out := by
  unfold State.cipher; split <;> rfl

theorem endSession_out (s : State) (id : Nat) : (s.endSession id).out = s.out := by
  unfold State.endSession
  split
  · rfl
  · dsimp only
    generalize hg : State.releasePages _ id = u
    obtain ⟨r, l, h⟩ := State.releasePages_eq _ id
    rw [← hg, h]
    rfl

theorem sendOn_out_subset (s : State) (port : Nat) (o : Output) : s.out ⊆ (s.sendOn port o).out := by
  unfold State.sendOn
  split
  · split <;> exact List.Subset.refl _
  · exact List.subset_append_left _ _

theorem sendFrames_out_subset (x : Session) (fs : List (Nat × Bytes)) (s : State) : s.out ⊆ (s.sendFrames x fs).out := by
  unfold State.sendFrames
  induction fs generalizing s with
  | nil => exact List.Subset.refl _
  | cons f fs ih =>
    refine List.Subset.trans ?_ (ih _)
    rw [cipher_out]
    exact sendOn_out_subset ..

theorem pump_out_subset (s : State) (id : Nat) : s.out ⊆ (s.pump id).out := by
  unfold State.pump
  split
  · exact List.Subset.refl _
  · split
    · exact List.Subset.refl _
    · extract_lets p t
      have ht : s.out ⊆ t.out := sendFrames_out_subset p.1 p.2 (s.setSession p.1)
      split
      · rw [endSession_out]; exact ht
      · exact ht

theorem hostSpent_out (s : State) (id next limit : Nat) : (s.hostSpent id next limit).out = s.out := by
  unfold State.hostSpent
  split
  · exact endSession_out ..
  · rfl

/-- A response to a live session is put out as a completion (R162). -/
theorem respond_puts_completion {s : State} {t : TagId} {id : Nat} {x : Session} (c : Completion) (live : Bool)
    (ht : t.ctx = .session id) (hx : s.session? id = some x) : .completion t c ∈ (s.respond t c live).out := by
  have hs : (s.countStatus c.status).session? id = some x := by
    rw [session_congr (countStatus_sessions ..), hx]
  unfold State.respond
  extract_lets u
  rw [ht]
  dsimp only
  rw [hs]
  dsimp only
  refine pump_out_subset _ _ ?_
  exact List.mem_append_right _ (List.mem_singleton_self _)

/-- A frame that fails its tag is counted, and no more (Table 06-14). -/
theorem authFail_eq (s : State) : ∃ r l a, s.authFail = { s with regs := r, log := l, authTimes := a } := by
  unfold State.authFail
  extract_lets u ts
  split
  · obtain ⟨r, l, h⟩ := State.raise_eq { u with authTimes := [] } Ev.SKP.AUTH_BURST
    exact ⟨r, l, _, h⟩
  · exact ⟨_, _, _, rfl⟩

/-! ## Protected frames -/

/-- A DATA-space frame whose body is taken: its session goes on, the queues are as they were, and then the body acts. -/
theorem takeData_body {b : State} {x : Session} {d : Datagram} {f : SkpFrame} {p : Bytes} {type : Nat}
    (go : State → Bytes → State) (hx : b.session? (sidOf f) = some x) (hc : x.check type f = .body p) :
    ∃ t, b.takeData type d f go = (go t p).hostSpent (sidOf f) (f.seq + 1) (2 ^ 63) ∧ t.queued = b.queued ∧
      (x.goesOn → t.Carries (sidOf f) ((x.accept (type == 0x03) f.seq).moveTo d)) := by
  have hid := session_id hx
  unfold State.takeData
  rw [hx]
  dsimp only
  rw [hc]
  refine ⟨_, rfl, ?_, fun hgo => takeAck_carries (x := (x.accept (type == 0x03) f.seq).moveTo d) ?_ hgo _ _ _⟩
  · rw [takeAck_queued]
    exact queued_congr (cipher_cmd ..)
  · exact carries_congr (cipher_sessions ..) (setSession_carries (Session.Continues.refl _) hid)

theorem deliver_short {s : State} {id : Nat} {r : Bool} {p : Bytes} (h : p.length < 16) : s.deliver id r p = s := by
  unfold State.deliver
  split
  · rfl
  · dsimp only
    rw [if_pos h]

/-- A session whose partial messages change is the session with its ID. -/
theorem session_setAssembling {s : State} {id : Nat} {y : Session} (hy : s.session? id = some y) (l : List Assembly) :
    (s.setSession { y with assembling := l }).session? id = some { y with assembling := l } := by
  obtain rfl := session_id hy
  exact session_setSession s { y with assembling := l }

/-- A first fragment that breaks the rules of R160 is answered BAD_FIELD and queues nothing. -/
theorem deliver_bad {s : State} {id : Nat} {r : Bool} {p : Bytes} {y : Session} (hy : s.session? id = some y)
    (hp : 16 ≤ p.length) (hcur : (y.assembling.find? fun a => a.tag == (fragOf p).tag) = none)
    (hbad : (r || fragBad y.frag none (fragOf p)) = true) : (s.deliver id r p).queued = s.queued ∧
      .completion ⟨.session id, (fragOf p).tag⟩ (doneWith stBadField 0 []) ∈ (s.deliver id r p).out := by
  unfold State.deliver
  rw [hy]
  dsimp only
  rw [if_neg (by omega), hcur]
  dsimp only
  rw [Option.map_none, if_pos hbad]
  exact ⟨respond_queued .., respond_puts_completion _ _ rfl (session_setAssembling hy _)⟩

/-- A well-formed fragment as long as its message begins at 0 and has its bytes (R160). -/
theorem fragBad_whole {n : Nat} {g : Fragment} (h : fragBad n none g = false) (hlen : g.len = g.msgLen) :
    g.off = 0 ∧ g.bytes.length = g.msgLen := by
  unfold fragBad at h
  simp only [Bool.or_eq_false_iff, decide_eq_false_iff_not] at h
  omega

/-- A well-formed fragment that is a whole message puts its command at the end of the receive queues. -/
theorem deliver_whole {s : State} {id : Nat} {p : Bytes} {y : Session} (hy : s.session? id = some y) (hp : 16 ≤ p.length)
    (hcur : (y.assembling.find? fun a => a.tag == (fragOf p).tag) = none) (hok : fragBad y.frag none (fragOf p) = false)
    (hlen : (fragOf p).len = (fragOf p).msgLen) (hroom : s.cmd.queue.length < 16384) :
    (s.deliver id false p).queued =
      s.queued ++ [(y.cls, (fragOf p).tag, msgOf (fragOf p).bytes)] := by
  obtain ⟨hoff, hbytes⟩ := fragBad_whole hok hlen
  have hall : ¬ partBytes [((fragOf p).off, (fragOf p).bytes)] < (fragOf p).msgLen := by
    simp [partBytes, hbytes]
  have hjoin : joinFrags [((fragOf p).off, (fragOf p).bytes)] = (fragOf p).bytes := by
    simp [joinFrags, sortBy, insertBy]
  unfold State.deliver
  rw [hy]
  dsimp only
  rw [if_neg (by omega), hcur]
  dsimp only
  rw [Option.map_none, hok, Bool.or_self, if_neg Bool.false_ne_true, List.any_nil, if_neg Bool.false_ne_true, List.nil_append,
    if_neg hall, pumpAll_queued, hjoin]
  exact queueCmd_queued _ hroom

end Sys2Proof.Machine
end

section
/-! PROOF. O38: protected frames are taken once (R145, R146, R153 to R160). -/

namespace Sys2Proof.Machine

open Sys2Proof

/-! ## The rows of DATA, CLOSE and ACK -/

section
variable {s : State} {d : Datagram} {f : SkpFrame} (ht : s.takesUdp d = true) (hf : frameOk f = true)
include ht hf

theorem exec_data : exec (.data d f) s = s.done ((s.wake Reg.WAKE_SRC.HOST_FRAME).takeData 0x03 d f fun s b =>
    s.deliver (sidOf f) (decide (4096 ≤ f.session)) b) := by
  show s.done (if s.takesUdp d ∧ frameOk f = true then _ else _) = _
  rw [if_pos ⟨ht, hf⟩]

theorem exec_close : exec (.close d f) s = s.done ((s.wake Reg.WAKE_SRC.HOST_FRAME).takeData 0x05 d f fun s _ =>
    s.takeClose (sidOf f) f.seq) := by
  show s.done (if s.takesUdp d ∧ frameOk f = true then _ else _) = _
  rw [if_pos ⟨ht, hf⟩]

theorem exec_ack : exec (.ack d f) s = s.done ((s.wake Reg.WAKE_SRC.HOST_FRAME).takeAckFrame d f) := by
  show s.done (if s.takesUdp d ∧ frameOk f = true then _ else _) = _
  rw [if_pos ⟨ht, hf⟩]

end

/-- A wake leaves the memories of the debug port, the fuses and the queue of commands alone. -/
theorem done_wake (s : State) (src : Field) : s.done (s.wake src) = .next (s.wake src) := by
  obtain ⟨r, d, c, h⟩ := s.wake_eq src
  rw [h]
  rfl

/-- A repeat, or a frame below the window, only makes an acknowledgement due (R153). -/
theorem takeData_replay {b : State} {x : Session} {d : Datagram} {f : SkpFrame} {type : Nat} (go : State → Bytes → State)
    (hx : b.session? (sidOf f) = some x) (hc : x.check type f = .replay) :
    b.takeData type d f go = (b.setSession { x with ackDue := true }).count Reg.SKP.REPLAY_DROP 1 := by
  unfold State.takeData
  rw [hx]
  dsimp only
  rw [hc]

/-- A frame that fails its tag, or is beyond the credit, changes no session and no command, and puts nothing out. -/
theorem takeData_refused {b : State} {x : Session} {d : Datagram} {f : SkpFrame} {type : Nat} (go : State → Bytes → State)
    (hx : b.session? (sidOf f) = some x) (hc : x.check type f = .beyondCredit ∨ x.check type f = .badTag) :
    (b.takeData type d f go).cmd = b.cmd ∧ (b.takeData type d f go).out = b.out ∧
      (b.takeData type d f go).sessions = b.sessions := by
  unfold State.takeData
  rw [hx]
  dsimp only
  rcases hc with hc | hc
  · rw [hc]
    exact ⟨rfl, rfl, rfl⟩
  · rw [hc]
    obtain ⟨r, l, a, h⟩ := authFail_eq (b.cipher 0 f.bodyLen)
    dsimp only
    rw [h]
    exact ⟨cipher_cmd .., cipher_out .., cipher_sessions ..⟩

/-- An ACK frame with a bad tag does the same. -/
theorem takeAckFrame_badTag {b : State} {x : Session} {d : Datagram} {f : SkpFrame} (hx : b.session? (sidOf f) = some x)
    (hs : x.ackHigh < f.seq) (hl : f.bodyLen = 128) (hg : gcmDec x.rxKey (x.rxSalt ++ beBytes 8 f.seq)
      (skpHeader 0x04 f.session f.seq f.ackSeq f.credit f.bodyLen) f.body f.tag = none) :
    (b.takeAckFrame d f).sessions = b.sessions ∧ (b.takeAckFrame d f).cmd = b.cmd ∧ (b.takeAckFrame d f).out = b.out := by
  unfold State.takeAckFrame
  rw [hx]
  dsimp only
  rw [if_neg (by omega), hg]
  obtain ⟨r, l, a, h⟩ := authFail_eq (b.cipher 0 f.bodyLen)
  dsimp only
  rw [h]
  exact ⟨cipher_sessions .., cipher_cmd .., cipher_out ..⟩

/-- An ACK frame below its window, or of another length, changes nothing. -/
theorem takeAckFrame_old {b : State} {x : Session} {d : Datagram} {f : SkpFrame} (hx : b.session? (sidOf f) = some x)
    (h : f.seq ≤ x.ackHigh ∨ f.bodyLen ≠ 128) : b.takeAckFrame d f = b := by
  unfold State.takeAckFrame
  rw [hx]
  exact if_pos h

/-- The session that an ACK frame leaves, before what it acknowledges is taken. -/
def Session.acked (x : Session) (d : Datagram) (seq : Nat) : Session :=
  { x.moveTo d with ackHigh := seq, halfOpen := false }

/-- An ACK frame that passes is taken (R153, R155). -/
theorem takeAckFrame_taken {b : State} {x : Session} {d : Datagram} {f : SkpFrame} {map : Bytes}
    (hx : b.session? (sidOf f) = some x) (hs : x.ackHigh < f.seq) (hl : f.bodyLen = 128)
    (hg : gcmDec x.rxKey (x.rxSalt ++ beBytes 8 f.seq)
      (skpHeader 0x04 f.session f.seq f.ackSeq f.credit f.bodyLen) f.body f.tag = some map) (hgo : x.goesOn)
    (hlast : f.seq + 1 < 2 ^ 64) :
    (b.takeAckFrame d f).queued = b.queued ∧ (b.takeAckFrame d f).Carries (sidOf f) (x.acked d f.seq) := by
  have hid := session_id hx
  unfold State.takeAckFrame
  rw [hx]
  dsimp only
  rw [if_neg (by omega), hg]
  dsimp only
  refine ⟨?_, ?_⟩
  · rw [hostSpent_queued, takeAck_queued]
    exact queued_congr (cipher_cmd ..)
  · unfold State.hostSpent
    rw [if_neg (by omega)]
    refine takeAck_carries (x := x.acked d f.seq) ?_ hgo _ _ _
    exact carries_congr (cipher_sessions ..) (setSession_carries (Session.Continues.refl _) hid)

theorem Session.Continues.frag {x y : Session} (h : x.Continues y) : y.frag = x.frag := by
  unfold Session.frag
  rw [h.smallMtu]

theorem Session.Continues.find_none {x y : Session} (h : x.Continues y) {q : Assembly → Bool}
    (hx : x.assembling.find? q = none) : y.assembling.find? q = none := by
  rw [List.find?_eq_none] at hx ⊢
  exact fun a ha => hx a (h.assembling a ha)

/-- A DATA frame that is taken delivers its body to a session that goes on, with the receive queues as they were. -/
theorem exec_data_body {s : State} {d : Datagram} {f : SkpFrame} {x : Session} {p : Bytes} (ht : s.takesUdp d = true)
    (hf : frameOk f = true) (hx : (s.wake Reg.WAKE_SRC.HOST_FRAME).session? (sidOf f) = some x)
    (hc : x.check 0x03 f = .body p) (hgo : x.goesOn) :
    ∃ (t : State) (y : Session), exec (.data d f) s =
        s.done ((t.deliver (sidOf f) (decide (4096 ≤ f.session)) p).hostSpent (sidOf f) (f.seq + 1) (2 ^ 63)) ∧
      t.queued = (s.wake Reg.WAKE_SRC.HOST_FRAME).queued ∧ t.session? (sidOf f) = some y ∧ y.frag = x.frag ∧ y.cls = x.cls ∧
      ∀ q, x.assembling.find? q = none → y.assembling.find? q = none := by
  obtain ⟨t, heq, hq, hcar⟩ := takeData_body (d := d) (fun s b => s.deliver (sidOf f) (decide (4096 ≤ f.session)) b) hx hc
  obtain ⟨y, hy, hxy⟩ := hcar hgo
  exact ⟨t, y, by rw [exec_data ht hf, heq], hq, hy, hxy.frag, hxy.cls, fun q h => hxy.find_none h⟩

/-- Settles O38: the checks of R153 part the cases; a body that is taken finds its session carried on through the
acknowledgement that came with it, and the receive queues as they were. -/
theorem protectedFramesAreTakenOnce : Obligations.ProtectedFramesAreTakenOnce := by
  unfold Obligations.ProtectedFramesAreTakenOnce
  intro s b d f x ht hf hb hx
  subst hb
  dsimp only
  refine ⟨fun hc => ?_, fun hc => ?_, fun p hc hgo => ?_, fun p hc => ⟨fun hgo hlast => ?_, fun hlast => ?_⟩, fun h => ?_,
    fun hs hl hg => ?_, fun map hs hl hg hgo hlast => ?_⟩
  · rw [exec_data ht hf, takeData_replay _ hx hc]
    exact ⟨_, State.done_eq .., rfl, rfl, rfl⟩
  · rw [exec_data ht hf]
    exact ⟨_, State.done_eq .., takeData_refused _ hx hc⟩
  · obtain ⟨t, y, heq, hq, hy, hfrag, hcls, hnone⟩ := exec_data_body ht hf hx hc hgo
    rw [heq]
    refine ⟨fun hp => ?_, fun hp hcur => ⟨fun hbad => ?_, fun hok hs hlen hroom => ?_⟩⟩
    · rw [deliver_short hp]
      exact ⟨_, State.done_eq .., queue_length_of_queued ((hostSpent_queued ..).trans hq)⟩
    · have hbad' : (decide (4096 ≤ f.session) || fragBad y.frag none (fragOf p)) = true := by
        rw [hfrag]; simpa [or_comm] using hbad
      obtain ⟨hkeep, hput⟩ := deliver_bad hy hp (hnone _ hcur) hbad'
      exact ⟨_, State.done_eq .., queue_length_of_queued ((hostSpent_queued ..).trans (hkeep.trans hq)),
        (hostSpent_out ..).symm ▸ hput⟩
    · have hwhole := deliver_whole hy hp (hnone _ hcur) (hfrag.symm ▸ hok) hlen (queue_length_of_queued hq ▸ hroom)
      rw [hq, hcls] at hwhole
      rw [decide_eq_false (by omega)]
      obtain ⟨q, c, hlast, hkeep, htag, hclass, hmsg⟩ := queue_last_of_queued ((hostSpent_queued ..).trans hwhole)
      exact ⟨_, q, c, State.done_eq .., hlast, hkeep, htag, hclass, hmsg⟩
  · obtain ⟨t, heq, hq, hcar⟩ := takeData_body (d := d) (fun s _ => s.takeClose (sidOf f) f.seq) hx hc
    obtain ⟨y, hy, -⟩ := hcar hgo
    have hid := session_id hy
    have hclose : t.takeClose (sidOf f) f.seq = t.setSession { y with closing := some f.seq } := by
      unfold State.takeClose
      rw [hy]
    have hstay : ∀ u : State, u.hostSpent (sidOf f) (f.seq + 1) (2 ^ 63) = u := fun u => if_neg (by omega)
    rw [exec_close ht hf, heq, hclose, hstay]
    exact ⟨_, { y with closing := some f.seq }, State.done_eq .., hid ▸ session_setSession t { y with closing := some f.seq },
      rfl, queue_length_of_queued hq⟩
  · obtain ⟨t, heq, -⟩ := takeData_body (d := d) (fun s _ => s.takeClose (sidOf f) f.seq) hx hc
    have hend : ∀ u : State, u.hostSpent (sidOf f) (f.seq + 1) (2 ^ 63) = u.endSession (sidOf f) := fun u => if_pos hlast
    rw [exec_close ht hf, heq, hend]
    exact ⟨_, State.done_eq .., session_endSession ..⟩
  · rw [exec_ack ht hf, takeAckFrame_old hx h]
    exact done_wake ..
  · rw [exec_ack ht hf]
    exact ⟨_, State.done_eq .., takeAckFrame_badTag hx hs hl hg⟩
  · obtain ⟨hq, y, hy, hxy⟩ := takeAckFrame_taken (d := d) hx hs hl hg hgo hlast
    rw [exec_ack ht hf]
    exact ⟨_, y, State.done_eq .., hy, hxy.ackHigh, hxy.halfOpen, hxy.hostIp, hxy.hostPort, hxy.port,
      queue_length_of_queued hq⟩

end Sys2Proof.Machine
end

section
/-! SUPPORT. What every answer leaves alone, whichever way it goes: to a session, to a forwarding sled or to nobody (R152,
R412). -/

namespace Sys2Proof.Machine

open Sys2Proof

/-- What no answer changes: the disk tier, the drain's marker, fuses, memories and queue, the device's phase and power
state, and an entry that nobody asked for. The names of the `POWER_STATE`s of an entry may change, as a session ends (R152). -/
structure State.AnswerKeeps (s u : State) : Prop where
  pending : u.pending = s.pending
  sram : u.sram = s.sram
  dram : u.dram = s.dram
  fuses : u.key.fuses = s.key.fuses
  srv : u.srv = s.srv
  drainMark : u.flash.drainMark = s.flash.drainMark
  phase : u.dev.phase = s.dev.phase
  power : u.dev.power = s.dev.power
  entering : u.dev.entering = s.dev.entering
  enterTags : s.dev.enterTags = [] → u.dev.enterTags = []

namespace AnswerKeeps

theorem refl (s : State) : s.AnswerKeeps s := ⟨rfl, rfl, rfl, rfl, rfl, rfl, rfl, rfl, rfl, id⟩

theorem trans {s t u : State} (h : s.AnswerKeeps t) (k : t.AnswerKeeps u) : s.AnswerKeeps u where
  pending := k.pending.trans h.pending
  sram := k.sram.trans h.sram
  dram := k.dram.trans h.dram
  fuses := k.fuses.trans h.fuses
  srv := k.srv.trans h.srv
  drainMark := k.drainMark.trans h.drainMark
  phase := k.phase.trans h.phase
  power := k.power.trans h.power
  entering := k.entering.trans h.entering
  enterTags := fun hs => k.enterTags (h.enterTags hs)

theorem of_answering {s u : State} (h : s.Answering u) : s.AnswerKeeps u := by
  obtain ⟨r, l, cm, ss, o, q, rfl⟩ := h
  exact ⟨rfl, rfl, rfl, rfl, rfl, rfl, rfl, rfl, rfl, id⟩

/-- Such a state is the next state of a command itself. -/
theorem done {s u : State} (h : s.AnswerKeeps u) : s.done u = .next u :=
  State.done_of s u h.pending h.sram h.dram h.fuses

theorem of_pair {α : Type} {x : α × State} {a : α} {s t : State} (h : x = (a, t)) (hx : s.AnswerKeeps x.2) :
    s.AnswerKeeps t := by
  rw [h] at hx; exact hx

/-! ## Frames of a response on the fabric -/

theorem reserve (s : State) (i : Nat) : s.AnswerKeeps (s.reserve i) :=
  ⟨rfl, rfl, rfl, rfl, rfl, rfl, rfl, rfl, rfl, id⟩

theorem commitSlot (s : State) (i : Nat) (k : Slot) : s.AnswerKeeps (s.commitSlot i k) :=
  ⟨rfl, rfl, rfl, rfl, rfl, rfl, rfl, rfl, rfl, id⟩

theorem disableEnc (s : State) (i : Nat) : s.AnswerKeeps (s.disableEnc i) :=
  trans (commitSlot ..) (of_answering (Answering.report ..))

theorem nonce (s : State) (i : Nat) : s.AnswerKeeps (s.nonce i).2 := by
  unfold State.nonce
  extract_lets c
  split
  · exact refl s
  · split
    · exact refl s
    · rename_i t iv key u v _ _
      have ht : s.AnswerKeeps t := by
        unfold t; split
        · exact reserve ..
        · exact refl s
      have hu : s.AnswerKeeps u := trans ht ⟨rfl, rfl, rfl, rfl, rfl, rfl, rfl, rfl, rfl, id⟩
      have hv : s.AnswerKeeps v := by
        unfold v; split
        · exact trans hu (reserve ..)
        · exact hu
      dsimp only
      split
      · exact trans hv (disableEnc ..)
      · exact hv

theorem sealFrame (s : State) (key : Bytes) (f : FabFrame) : s.AnswerKeeps (s.sealFrame key f).2 := by
  unfold State.sealFrame
  split
  · rename_i h; exact of_pair h (nonce ..)
  · rename_i h; exact trans (of_pair h (nonce ..)) (of_answering (Answering.cipher ..))

theorem sealFrames (key : Bytes) (fs : List FabFrame) (s : State) : s.AnswerKeeps (sealFrames key fs s).2 := by
  induction fs generalizing s with
  | nil => exact refl s
  | cons f fs ih =>
    unfold Machine.sealFrames
    split
    · rename_i h; exact of_pair h (sealFrame ..)
    · rename_i h; exact trans (of_pair h (sealFrame ..)) (ih _)

theorem makeFrames (s : State) (dest : FrameTo) (body : Bytes) : s.AnswerKeeps (s.makeFrames dest body).2 := by
  have hn : ∀ n, s.AnswerKeeps { s with fab := { s.fab with nextMsg := n } } :=
    fun _ => ⟨rfl, rfl, rfl, rfl, rfl, rfl, rfl, rfl, rfl, id⟩
  unfold State.makeFrames
  dsimp only
  repeat' split
  · exact hn _
  · exact hn _
  · exact hn _
  · exact trans (hn _) (sealFrames ..)

theorem fabReply (s : State) (dst ftype reqId : Nat) (p : FabPayload) : s.AnswerKeeps (s.fabReply dst ftype reqId p) :=
  trans (makeFrames s ⟨dst, ftype, none, Config.fabFlow dst 0⟩ (replyBytes ftype reqId p))
    ⟨rfl, rfl, rfl, rfl, rfl, rfl, rfl, rfl, rfl, id⟩

/-! ## Answers -/

theorem releasePages (s : State) (i : Nat) : s.AnswerKeeps (s.releasePages i) := by
  obtain ⟨r, l, h⟩ := s.releasePages_eq i
  rw [h]
  exact ⟨rfl, rfl, rfl, rfl, rfl, rfl, rfl, rfl, rfl, id⟩

/-- Units programmed early become garbage (R161). -/
theorem dropEarly (s : State) (p : TagId → Bool) : s.AnswerKeeps (s.dropEarly p) :=
  ⟨rfl, rfl, rfl, rfl, rfl, by unfold State.dropEarly; dsimp only; split <;> rfl, rfl, rfl, rfl, id⟩

theorem renameTags (s : State) (f : TagId → TagId) : s.AnswerKeeps (s.renameTags f) :=
  ⟨rfl, rfl, rfl, rfl, rfl, rfl, rfl, rfl, rfl, congrArg (List.map f)⟩

theorem endSession (s : State) (i : Nat) : s.AnswerKeeps (s.endSession i) := by
  unfold State.endSession
  split
  · exact refl s
  · extract_lets lapse q t cmd kv cry u
    have ht : s.AnswerKeeps t := trans (dropEarly ..) (renameTags ..)
    have hu : t.AnswerKeeps u := ⟨rfl, rfl, rfl, rfl, rfl, rfl, rfl, rfl, rfl, id⟩
    exact trans ht (trans hu (releasePages ..))

theorem post (s : State) (e : TagEntry) (c : Completion) : s.AnswerKeeps (s.post e c) := by
  obtain ⟨m, hm, h⟩ := AnswerFrame.post s e c
  have hm : s.AnswerKeeps m := trans (dropEarly ..) (of_answering hm)
  split at h
  · obtain h | ⟨x, -, -, h⟩ := h
    · rw [h]; exact hm
    · rw [h]; exact trans hm (endSession ..)
  · obtain ⟨p, h⟩ := h
    rw [h]; exact trans hm (fabReply ..)
  · rw [h]; exact hm

theorem finish (s : State) (e : TagEntry) (st : Nat) (p : Bytes) : s.AnswerKeeps (s.finish e st p) := post ..

theorem finishTags (st : Nat) (ts : List TagId) (s : State) : s.AnswerKeeps (s.finishTags st ts) := by
  induction ts generalizing s with
  | nil => exact refl s
  | cons t ts ih =>
    unfold State.finishTags
    split
    · exact trans (finish ..) (ih _)
    · exact ih s

end AnswerKeeps

/-- A command's entry answers alike before and after it has begun. -/
theorem AnswerFrame.of_begun {s u : State} {e : TagEntry} (h : (s.begun e).AnswerFrame e.started u) : s.AnswerFrame e u := by
  obtain ⟨m, hm, h⟩ := h
  exact ⟨m, Answering.trans (Answering.dropEarly (fun t => t == e.id) (Answering.setEntry s e.started)) hm, h⟩

/-- A command that only answers as it begins: its next state is the answer. -/
theorem done_finish_begun (s : State) (e : TagEntry) (st : Nat) :
    ∃ u, s.done ((s.begun e).finish e.started st []) = .next u ∧ u.Answers e (doneWith st e.asn []) ∧ s.AnswerFrame e u :=
  ⟨_, AnswerKeeps.done (AnswerKeeps.trans (AnswerKeeps.of_answering (Answering.setEntry s e.started))
    (AnswerKeeps.finish (s.begun e) e.started st [])),
    finish_answers (s.begun e) e.started st [], AnswerFrame.of_begun (AnswerFrame.finish ..)⟩

end Sys2Proof.Machine
end

section
/-! SUPPORT. Entries of power states: reversing one, reaching one, and the disk's part (Tables 03-5 and 03-6, R72, R79,
R303). -/

namespace Sys2Proof.Machine

open Sys2Proof

/-! ## Waking and reversing (R72, R79) -/

theorem State.abandonEntry_none {s : State} (h : s.dev.entering = none) : s.abandonEntry = s := by
  unfold State.abandonEntry; rw [h]

/-- An entry reversed leaves the device in ACTIVE, in the phase it was in. -/
theorem State.abandonEntry_some {s : State} {m : PowerMode} (h : s.dev.entering = some m) :
    s.abandonEntry.dev.entering = none ∧ s.abandonEntry.dev.power = .active ∧ s.abandonEntry.dev.phase = s.dev.phase := by
  unfold State.abandonEntry
  rw [h]
  dsimp only
  have k := AnswerKeeps.finishTags stAbandoned s.dev.enterTags
    (State.raise { s with dev := { s.dev with entering := none, enterTags := [], power := .active, routerQuiet := false } }
      Ev.PWR.ENTRY_ABANDONED)
  exact ⟨by rw [k.entering, raise_dev], by rw [k.power, raise_dev], by rw [k.phase, raise_dev]⟩

@[simp] theorem State.wake_entering (s : State) (src : Field) : (s.wake src).dev.entering = s.dev.entering := by
  unfold State.wake; split <;> rfl

@[simp] theorem State.wake_enterTags (s : State) (src : Field) : (s.wake src).dev.enterTags = s.dev.enterTags := by
  unfold State.wake; split <;> rfl

@[simp] theorem State.wake_srv (s : State) (src : Field) : (s.wake src).srv = s.srv := by
  unfold State.wake; split <;> rfl

/-- With no entry under way, what arrives only wakes the device. -/
theorem State.arrive_of_settled {s : State} (h : s.dev.entering = none) (hp : s.dev.phase = .service) (src : Field) :
    s.arrive src = s.wake src := by
  unfold State.arrive; rw [if_pos hp, State.abandonEntry_none h]

/-- What arrives in service leaves no entry under way, and the device in ACTIVE but where HIBERNATE was reached (R72, R79). -/
theorem State.arrive_active {s : State} (hp : s.dev.phase = .service) (src : Field) :
    (s.arrive src).dev.entering = none ∧
      (s.dev.entering ≠ none ∨ s.dev.power ≠ .hibernate → (s.arrive src).dev.power = .active) := by
  cases he : s.dev.entering with
  | none =>
    rw [State.arrive_of_settled he hp]
    refine ⟨by rw [State.wake_entering, he], fun h => ?_⟩
    by_cases hw : s.dev.power = .idle ∨ s.dev.power = .standby ∨ s.dev.power = .sleep
    · exact State.wake_power s src hp hw
    · rw [State.wake_else s src (fun k => hw k.2)]
      cases hm : s.dev.power <;> simp_all
  | some m =>
    obtain ⟨hn, ha, -⟩ := State.abandonEntry_some he
    unfold State.arrive
    rw [if_pos hp, State.wake_else _ src (by simp [ha])]
    exact ⟨hn, fun _ => ha⟩

/-! ## The disk stops (R60, R303) -/

/-- Heads parked: writing is inhibited on each of them, and nothing else changes but what is put out (R60). -/
theorem State.parkHeads_eq (s : State) : ∃ o hs, s.parkHeads = { s with out := o, srv := { s.srv with heads := hs } } ∧
    ∀ h ∈ hs, h.inhibit = true ∧ h.writing = false := by
  have hf : ∀ (l : List Nat) (t : State), ∃ o,
      l.foldl (fun (s : State) h => s.emit (.writeParked h)) t = { t with out := o } := by
    intro l
    induction l with
    | nil => exact fun t => ⟨t.out, rfl⟩
    | cons a l ih =>
      intro t
      obtain ⟨o, h⟩ := ih (t.emit (.writeParked a))
      exact ⟨o, by rw [List.foldl_cons, h]; rfl⟩
  unfold State.parkHeads
  dsimp only
  obtain ⟨o, h⟩ := hf ((s.srv.heads.filter fun h => !h.inhibit).map fun h => h.id) s
  rw [h]
  refine ⟨_, _, rfl, fun x hx => ?_⟩
  obtain ⟨y, -, rfl⟩ := List.mem_map.mp hx
  exact ⟨rfl, rfl⟩

/-- Heads on the ramps are parked too. -/
theorem State.unloadHeads_eq (s : State) : ∃ o hs, s.unloadHeads = { s with out := o, srv := { s.srv with heads := hs } } ∧
    ∀ h ∈ hs, h.inhibit = true ∧ h.writing = false := by
  obtain ⟨o, hs, h, hp⟩ := s.parkHeads_eq
  unfold State.unloadHeads
  dsimp only
  rw [h]
  refine ⟨_, _, rfl, fun x hx => ?_⟩
  obtain ⟨y, hy, rfl⟩ := List.mem_map.mp hx
  exact hp y hy

/-- The disk as a spin-down leaves it: stopped, stopping or failed as it was, else stopping (R303). -/
def stopping (disk : Nat) : Nat := if disk = 0 ∨ disk = 5 ∨ disk = 6 then disk else 5

/-- A spin-down changes only START_TIME, the outputs, the disk and whether the spindle turns (R303). -/
theorem State.spinDown_eq (s : State) : ∃ r o v sp, s.spinDown =
    { s with regs := r, out := o, srv := v, dev := { s.dev with spinning := sp } } ∧ v.disk = stopping s.srv.disk := by
  unfold State.spinDown stopping
  split
  · exact ⟨s.regs, s.out, s.srv, s.dev.spinning, rfl, rfl⟩
  · obtain ⟨o, hs, h, -⟩ := s.unloadHeads_eq
    dsimp only
    rw [h]
    exact ⟨_, _, _, _, rfl, rfl⟩

/-! ## A state reached -/

/-- An entry that ends has reached its state, with the disk and the flash tier as they were. -/
theorem State.endEntry_reaches (s : State) (m : PowerMode) : (s.endEntry m).dev.power = m ∧
    (s.endEntry m).dev.entering = none ∧ (s.endEntry m).srv = s.srv := by
  unfold State.endEntry
  dsimp only
  have k := AnswerKeeps.finishTags stOK s.dev.enterTags
    { s with dev := { s.dev with entering := none, enterTags := [], power := m } }
  exact ⟨k.power, k.entering, k.srv⟩

/-- STANDBY is reached with the disk spun down (Table 03-5). -/
theorem State.standby_reached (s : State) : (s.completeEntry .standby).dev.power = .standby ∧
    (s.completeEntry .standby).dev.entering = none ∧ (s.completeEntry .standby).srv.disk = stopping s.srv.disk := by
  obtain ⟨r, o, v, sp, h, hv⟩ := s.spinDown_eq
  obtain ⟨hp, he, hs⟩ := s.spinDown.endEntry_reaches .standby
  exact ⟨hp, he, by rw [State.completeEntry, hs, h]; exact hv⟩

end Sys2Proof.Machine
end

section
/-! PROOF. O20: POWER_STATE. -/

namespace Sys2Proof.Machine

open Sys2Proof

/-- The state in which the entry that one command alone asked for is under way (R81). -/
def State.asked (s : State) (m : PowerMode) (t : TagId) : State :=
  { s with dev := { s.dev with entering := some m, enterTags := [t] } }

theorem State.enterState_first {s : State} (h : s.dev.enterTags = []) (m : PowerMode) (t : TagId) (go : Bool) :
    s.enterState m (some t) go = if go then (s.asked m t).completeEntry m else s.asked m t := by
  unfold State.enterState; rw [h]; rfl

/-- A POWER_STATE that may run, by what it names (R73, R74). -/
theorem exec_powerState {s : State} {t : TagId} {e : TagEntry} (h : s.Starts t 0x44 e) (p : Bool) :
    exec (.powerState t p) s = s.done (powerBody p e.started (s.begun e)) :=
  congrArg s.done (runCmd_starts h (powerBody p))

/-- POWER_STATE only answers in stalemate, naming no state, or naming IDLE. -/
theorem powerBody_stalemate {p : Bool} {e : TagEntry} {s : State} (h : s.dev.phase = .stalemate) :
    powerBody p e s = s.finish e stStalemate [] := by
  unfold powerBody State.inStale; rw [h]; rfl

section
variable {s : State} (hs : s.dev.phase = .service)
include hs

theorem State.inStale_of_service : s.inStale = false := by unfold State.inStale; rw [hs]

theorem powerBody_badField {p : Bool} {e : TagEntry} (h : 4 < beAt e.msg.param 0 1) :
    powerBody p e s = s.finish e stBadField [] := by
  unfold powerBody; simp [State.inStale_of_service hs, h]

theorem powerBody_idle {p : Bool} {e : TagEntry} (h : beAt e.msg.param 0 1 = 1) : powerBody p e s = s.finish e stOK [] := by
  unfold powerBody; simp [State.inStale_of_service hs, h]

theorem powerBody_active {p : Bool} {e : TagEntry} (h : beAt e.msg.param 0 1 = 0) :
    powerBody p e s = (s.arrive Reg.WAKE_SRC.HOST_FRAME).finish e stOK [] := by
  unfold powerBody modeOf; simp [State.inStale_of_service hs, h]

/-- With no entry under way, one that names a lower state wakes the device and begins its entry. -/
theorem powerBody_enters {p : Bool} {e : TagEntry} {m : PowerMode} (h : modeOf (beAt e.msg.param 0 1) = some m)
    (he : s.dev.entering = none) (ht : s.dev.enterTags = []) :
    let a := (s.wake Reg.WAKE_SRC.HOST_FRAME).asked m e.id
    powerBody p e s = if p then a else a.completeEntry m := by
  have hk : ¬ 4 < beAt e.msg.param 0 1 ∧ beAt e.msg.param 0 1 ≠ 1 := by
    unfold modeOf at h
    split at h
    · omega
    · split at h
      · omega
      · split at h
        · omega
        · cases h
  have hw : (s.wake Reg.WAKE_SRC.HOST_FRAME).dev.enterTags = [] := by rw [State.wake_enterTags, ht]
  unfold powerBody
  cases p <;>
    simp [State.inStale_of_service hs, hk.1, hk.2, h, he, State.arrive_of_settled he hs, State.enterState_first hw]

end

theorem finishTags_one {s : State} {t : TagId} {e : TagEntry} (h : s.entry? t = some e) (st : Nat) :
    s.finishTags st [t] = s.finish e st [] := by
  unfold State.finishTags
  rw [h]
  rfl

/-- An entry of a state that ends answers the one command that named it. -/
theorem State.endEntry_answers {s : State} {e : TagEntry} (ht : s.dev.enterTags = [e.id]) (he : s.entry? e.id = some e)
    (m : PowerMode) : (s.endEntry m).Answers e (doneWith stOK e.asn []) := by
  unfold State.endEntry
  dsimp only
  rw [ht, finishTags_one (e := e) (by exact he)]
  exact finish_answers ..

/-- STANDBY reached for the one command that named it answers that command. -/
theorem State.standby_answers {s : State} {e : TagEntry} (ht : s.dev.enterTags = [e.id]) (he : s.entry? e.id = some e) :
    (s.completeEntry .standby).Answers e (doneWith stOK e.asn []) := by
  obtain ⟨r, o, v, sp, h, -⟩ := s.spinDown_eq
  exact State.endEntry_answers (by rw [h]; exact ht) (by rw [h]; exact he) .standby

/-- Settles O20: the state that the command names selects its case; an entry that ends answers the command that asked
for it. -/
theorem powerStateCommandsEnterStates : Obligations.PowerStateCommandsEnterStates := by
  unfold Obligations.PowerStateCommandsEnterStates
  intro s t e h k
  have hid : e.id = t := by simpa using List.find?_some h.1
  have hent : ((s.begun e).wake Reg.WAKE_SRC.HOST_FRAME).entry? e.id = some e.started :=
    (entry_congr (wake_cmd ..) _).trans (entry_setEntry s e.started)
  refine ⟨fun hs p => ?_, fun hs => ?_⟩
  · rw [exec_powerState h, powerBody_stalemate (s := s.begun e) hs]
    exact done_finish_begun ..
  have hb : (s.begun e).dev.phase = .service := hs
  refine ⟨fun hk p => ?_, fun hk p => ?_, fun hk p => ?_, fun m hm he ht => ?_, fun hk he ht => ?_⟩
  · rw [exec_powerState h, powerBody_badField hb (e := e.started) hk]
    exact done_finish_begun ..
  · rw [exec_powerState h, powerBody_idle hb (e := e.started) hk]
    exact done_finish_begun ..
  · rw [exec_powerState h, powerBody_active hb (e := e.started) hk]
    obtain ⟨hn, ha⟩ := State.arrive_active hb Reg.WAKE_SRC.HOST_FRAME
    have hf := AnswerKeeps.finish ((s.begun e).arrive Reg.WAKE_SRC.HOST_FRAME) e.started stOK []
    exact ⟨_, State.done_eq .., answers_congr rfl rfl (finish_answers _ e.started stOK []), hf.entering.trans hn,
      fun hh => hf.power.trans (ha (.inr hh))⟩
  · rw [exec_powerState h, powerBody_enters hb (e := e.started) hm he ht, if_pos rfl]
    exact ⟨_, State.done_eq .., rfl, congrArg (· :: []) hid, State.wake_srv .., hid ▸ hent⟩
  · rw [exec_powerState h, powerBody_enters hb (e := e.started) (m := .standby) (congrArg modeOf hk) he ht,
      if_neg (by simp)]
    obtain ⟨hp, hn, hd⟩ := (((s.begun e).wake Reg.WAKE_SRC.HOST_FRAME).asked .standby e.id).standby_reached
    have hdisk : ((s.begun e).wake Reg.WAKE_SRC.HOST_FRAME).srv = s.srv := State.wake_srv ..
    exact ⟨_, State.done_eq .., answers_congr rfl rfl (State.standby_answers (e := e.started) rfl hent), hp, hn,
      hd.trans (congrArg (fun v : Srv => stopping v.disk) hdisk)⟩

end Sys2Proof.Machine
end

section
/-! SUPPORT. What the drain of the write buffer changes, and that a drained buffer stays drained (R85, R271). -/

namespace Sys2Proof.Machine

open Sys2Proof

/-- Nothing but what a drain of the write buffer may change differs: registers, the event log, keys and values, and flash. -/
def State.Draining (s u : State) : Prop := ∃ r l k f, u = { s with regs := r, log := l, kv := k, flash := f }

namespace Draining

theorem refl (s : State) : s.Draining s := ⟨s.regs, s.log, s.kv, s.flash, rfl⟩

theorem trans {s t u : State} (h : s.Draining t) (k : t.Draining u) : s.Draining u := by
  obtain ⟨r, l, k, f, rfl⟩ := h
  obtain ⟨r', l', k', f', rfl⟩ := k
  exact ⟨r', l', k', f', rfl⟩

theorem out {s u : State} (h : s.Draining u) : u.out = s.out := by
  obtain ⟨r, l, k, f, rfl⟩ := h; rfl

theorem flash (s : State) (f : Flash) : s.Draining { s with flash := f } := ⟨s.regs, s.log, s.kv, f, rfl⟩

theorem foldl {α : Type} (f : State → α → State) (hf : ∀ (s : State) a, s.Draining (f s a)) (l : List α) (s : State) :
    s.Draining (l.foldl f s) := by
  induction l generalizing s with
  | nil => exact refl s
  | cons a l ih => exact trans (hf s a) (ih _)

theorem raise (s : State) (e : Event) : s.Draining (s.raise e) := by
  obtain ⟨r, l, h⟩ := s.raise_eq e
  rw [h]
  exact ⟨r, l, s.kv, s.flash, rfl⟩

theorem drainExtent (s : State) (e : Extent) : s.Draining (s.drainExtent e) := by
  unfold State.drainExtent
  split
  · exact ⟨s.regs, s.log, _, _, rfl⟩
  · exact refl s

theorem drainLeaf (s : State) (l : Leaf) : s.Draining (s.drainLeaf l) := by
  unfold State.drainLeaf
  split
  · exact ⟨s.regs, s.log, _, _, rfl⟩
  · exact refl s

theorem drainJournal (s : State) : s.Draining s.drainJournal.1 := by
  unfold State.drainJournal
  dsimp only
  split
  · exact flash ..
  · exact flash ..

theorem countUnits (s : State) (f : Flash) (n : Nat) : s.Draining (s.countUnits f n) := by
  unfold State.countUnits State.noteCollection
  dsimp only
  have hc : s.Draining ((s.count64 Reg.FLT.NAND_UNITS_LO Reg.FLT.NAND_UNITS_HI 0 (s.flash.wseq - f.wseq)).count64
      Reg.FLT.HOST_UNITS_LO Reg.FLT.HOST_UNITS_HI 0 n) := ⟨_, s.log, s.kv, s.flash, rfl⟩
  split
  · exact trans hc (raise ..)
  · exact hc

theorem settleBack (s : State) : s.Draining s.settleBack := by
  unfold State.settleBack
  split
  · exact ⟨s.regs, s.log, _, s.flash, rfl⟩
  · exact refl s

theorem drain (s : State) : s.Draining s.drain := by
  unfold State.drain
  extract_lets f es ls host t₀ t₁ t₂ data
  have h₀ : s.Draining t₀ := trans (foldl _ drainExtent es s) (foldl _ drainLeaf ls _)
  have h₁ : s.Draining t₁ := trans h₀ (flash ..)
  have h₂ : s.Draining t₂ := by
    unfold t₂
    split
    · exact h₁
    · exact trans h₁ (flash ..)
  have h₃ : s.Draining t₂.drainJournal.1 := trans h₂ (drainJournal t₂)
  split
  rename_i u ok h
  rw [h] at h₃
  have h₄ : s.Draining (u.countUnits f (data + t₂.journalUnits true)) := trans h₃ (countUnits ..)
  dsimp only
  split
  · exact trans h₄ (settleBack ..)
  · exact h₄

end Draining

/-! ## A drained buffer stays drained -/

/-- The extents and leaf pages are as they were. -/
def State.SameBuffer (s u : State) : Prop := u.kv.extents = s.kv.extents ∧ u.kv.leaves = s.kv.leaves

theorem State.SameBuffer.drained {s u : State} (h : s.SameBuffer u) : u.drained = s.drained := by
  obtain ⟨he, hl⟩ := h
  unfold State.drained
  rw [he, hl]

theorem drainJournal_kv (s : State) : s.drainJournal.1.kv = s.kv := by
  unfold State.drainJournal
  dsimp only
  split <;> rfl

theorem countUnits_kv (s : State) (f : Flash) (n : Nat) : (s.countUnits f n).kv = s.kv := by
  unfold State.countUnits State.noteCollection
  dsimp only
  split
  · obtain ⟨r, l, h⟩ := State.raise_eq ((s.count64 Reg.FLT.NAND_UNITS_LO Reg.FLT.NAND_UNITS_HI 0
      (s.flash.wseq - f.wseq)).count64 Reg.FLT.HOST_UNITS_LO Reg.FLT.HOST_UNITS_HI 0 n) Ev.FLT.GC_MANDATORY
    rw [h]
    rfl
  · rfl

theorem settleBack_sameBuffer (s : State) : s.SameBuffer s.settleBack := by
  unfold State.settleBack
  split <;> exact ⟨rfl, rfl⟩

/-- Nothing in an empty buffer is written by a drain. -/
theorem State.drained_nothing {s : State} (h : s.drained = true) :
    (s.kv.extents.filter fun e => e.inUse && e.buffered) = [] ∧ (s.kv.leaves.filter fun l => l.buffered) = [] := by
  unfold State.drained at h
  rw [Bool.and_eq_true, Bool.not_eq_true', Bool.not_eq_true', List.any_eq_false, List.any_eq_false] at h
  exact ⟨List.filter_eq_nil_iff.mpr h.1, List.filter_eq_nil_iff.mpr h.2⟩

theorem State.drain_drained {s : State} (h : s.drained = true) : s.drain.drained = true := by
  obtain ⟨hes, hls⟩ := State.drained_nothing h
  unfold State.drain
  extract_lets f es ls host t₀ t₁ t₂ data
  have h₀ : t₀ = s := by unfold t₀ ls es; rw [hes, hls]; rfl
  have h₁ : t₁.kv = s.kv := by show t₀.kv = s.kv; rw [h₀]
  have h₂ : t₂.kv = s.kv := by
    unfold t₂
    split
    · exact h₁
    · exact h₁
  have h₃ : t₂.drainJournal.1.kv = s.kv := (drainJournal_kv t₂).trans h₂
  split
  rename_i u ok hu
  rw [hu] at h₃
  have h₄ : (u.countUnits f (data + t₂.journalUnits true)).kv = s.kv := (countUnits_kv ..).trans h₃
  have h₅ : (u.countUnits f (data + t₂.journalUnits true)).drained = true :=
    (State.SameBuffer.drained ⟨congrArg Kv.extents h₄, congrArg Kv.leaves h₄⟩).trans h
  dsimp only
  split
  · rw [(settleBack_sameBuffer _).drained, h₅]
  · exact h₅

end Sys2Proof.Machine
end

section
/-! SUPPORT. Pulses on pins (Table 02-13), wakes (R72), the entry of SLEEP (Table 03-6) and the ballast's judgement (R87). -/

namespace Sys2Proof.Machine

open Sys2Proof

/-! ## Pulses -/

theorem State.pulse_recognised {s : State} {ns ignored recognised : Nat} (h : recognised ≤ ns) :
    s.pulse ns ignored recognised = (true, s) := if_pos h

theorem State.pulse_ignored {s : State} {ns ignored recognised : Nat} (h : ns < ignored) (hr : ignored ≤ recognised) :
    s.pulse ns ignored recognised = (false, s) := by
  unfold State.pulse
  rw [if_neg (by omega), if_pos h]

/-! ## Wakes -/

/-- The enables driven high, one after the other (R51). -/
theorem State.raiseRails_eq (s : State) : s.raiseRails =
    { s with out := s.out ++ [.rails true false false, .rails true true false, .rails true true true] } := by
  unfold State.raiseRails State.raiseTo State.emit
  simp

/-- The enables lowered, in the reverse order (R51). -/
theorem State.lowerRails_eq (s : State) : s.lowerRails 3 = { s with
    dev := { s.dev with helpers := none }
    out := s.out ++ [.rails true true false, .rails true false false, .rails false false false] } := by
  unfold State.lowerRails State.emit
  simp

/-- All that a wake does in service and in HIBERNATE (R72, R79). -/
theorem wakeBy_wakes (s : State) (src : Field) (detail : Nat) :
    (s.dev.phase = .service → s.dev.entering ≠ none ∨ s.dev.power = .idle ∨ s.dev.power = .standby ∨
        s.dev.power = .sleep →
      (s.wakeBy src detail).dev.power = .active ∧ (s.wakeBy src detail).dev.entering = none) ∧
    (s.dev.phase = .hibernate → (s.wakeBy src detail).dev.phase = .starting false ∧
      (s.wakeBy src detail).dev.kind = .hibernateExit) := by
  unfold State.wakeBy
  refine ⟨fun hp h => ?_, fun hp => ?_⟩
  · obtain ⟨hn, ha⟩ := State.arrive_active hp src
    rw [if_neg (by simp [hp])]
    refine ⟨ha ?_, hn⟩
    obtain h | h | h | h := h
    · exact .inl h
    all_goals exact .inr (by simp [h])
  · rw [if_pos hp, State.raiseRails_eq]
    exact ⟨rfl, rfl⟩

/-! ## The entry of SLEEP -/

theorem State.quiet_of_answered {s : State} (hq : s.cmd.queue = []) (h : s.AllAnswered none) : s.quiet = true := by
  unfold State.quiet
  rw [hq, List.isEmpty_nil, Bool.true_and, List.all_eq_true]
  intro f hf
  obtain h | h := h f hf
  · cases h
  · simp [h]

@[simp] theorem State.retain_power (s : State) : s.retain.dev.power = s.dev.power := rfl

@[simp] theorem State.retain_entering (s : State) : s.retain.dev.entering = s.dev.entering := rfl

/-- SLEEP is reached where nothing is outstanding and the buffer is empty (Table 03-6). -/
theorem State.sleep_reached {s : State} (hq : s.quiet = true) (hd : s.drained = true) :
    (s.completeEntry .sleep).dev.power = .sleep ∧ (s.completeEntry .sleep).dev.entering = none := by
  have hs : s.spinDown.drained = true := by
    obtain ⟨r, o, v, sp, h, -⟩ := s.spinDown_eq
    rw [h]; exact hd
  unfold State.completeEntry
  rw [if_pos hq]
  dsimp only
  rw [if_pos (State.drain_drained hs)]
  rw [State.retain_power, State.retain_entering]
  obtain ⟨hp, hn, -⟩ := s.spinDown.drain.flushLog.endEntry_reaches .sleep
  exact ⟨hp, hn⟩

/-! ## The ballast -/

/-- BALLAST_WARN changes only registers and the log. -/
theorem State.checkBallast_eq (s : State) : ∃ r l, s.checkBallast = { s with regs := r, log := l } := by
  unfold State.checkBallast
  split
  · exact State.warn_eq ..
  · split
    · exact ⟨(s.wr Reg.HLT_SUMMARY.BALLAST 0).regs, s.log, rfl⟩
    · exact ⟨s.regs, s.log, rfl⟩

@[simp] theorem State.checkBallast_dev (s : State) : s.checkBallast.dev = s.dev := by
  obtain ⟨r, l, h⟩ := s.checkBallast_eq; rw [h]

@[simp] theorem State.checkBallast_out (s : State) : s.checkBallast.out = s.out := by
  obtain ⟨r, l, h⟩ := s.checkBallast_eq; rw [h]

@[simp] theorem raise_out (s : State) (e : Event) : (s.raise e).out = s.out := Draining.out (Draining.raise s e)

@[simp] theorem drain_out (s : State) : s.drain.out = s.out := Draining.out (Draining.drain s)

/-- A judgement withdraws what the samples no longer bear out, and puts nothing out (R87). -/
theorem State.judgeBallast_keeps (s : State) : s.judgeBallast.out = s.out ∧
    s.judgeBallast.dev.ballastCodes = s.dev.ballastCodes ∧ s.judgeBallast.dev.ballastPassed =
      (s.dev.ballastPassed && (!s.rdB Reg.BAL_STAT.BAL_OK || s.dev.ballastCodes.all fun c => s.sampleHolds c)) := by
  unfold State.judgeBallast
  dsimp only
  rw [State.checkBallast_out, State.checkBallast_dev]
  cases hb : s.rdB Reg.BAL_STAT.BAL_OK
  · cases hk : s.dev.ballastPassed && s.dev.ballastCodes.all fun c => s.sampleHolds c
    · simp
    · cases s.dev.ballastWithdrawn <;> simp
  · cases hk : s.dev.ballastPassed && s.dev.ballastCodes.all fun c => s.sampleHolds c
    · simpa using hk
    · simp_all

end Sys2Proof.Machine
end

section
/-! PROOF. O50: wakes, the power timers and the ballast. -/

namespace Sys2Proof.Machine

open Sys2Proof

/-! ## Wakes and the power timers -/

/-- A command that is a wake wakes the device (R72, R79). -/
theorem exec_wakes {s : State} {c : Instr} {src : Field} {detail : Nat} (h : exec c s = s.done (s.wakeBy src detail)) :
    (s.dev.phase = .service → s.dev.entering ≠ none ∨ s.dev.power = .idle ∨ s.dev.power = .standby ∨
        s.dev.power = .sleep →
      ∃ u, exec c s = .next u ∧ u.dev.power = .active ∧ u.dev.entering = none) ∧
    (s.dev.phase = .hibernate → ∃ u, exec c s = .next u ∧ u.dev.phase = .starting false ∧ u.dev.kind = .hibernateExit) := by
  obtain ⟨hw, hh⟩ := wakeBy_wakes s src detail
  rw [h]
  exact ⟨fun hp he => ⟨_, State.done_eq .., hw hp he⟩, fun hp => ⟨_, State.done_eq .., hh hp⟩⟩

theorem exec_wakeN_recognised {s : State} {ns : Nat} (h : 100000 ≤ ns) :
    exec (.wakeN ns) s = s.done (s.wakeBy Reg.WAKE_SRC.WAKE_PIN 0) := by
  show execWakeN ns s = _
  unfold execWakeN
  rw [State.pulse_recognised h]

theorem exec_wakeN_ignored {s : State} {ns : Nat} (h : ns < 50000) : exec (.wakeN ns) s = .next s := by
  show execWakeN ns s = _
  unfold execWakeN
  rw [State.pulse_ignored h (by omega)]
  rfl

/-- A timer's entry begins where none is under way. -/
theorem State.timerEntry_begins {s : State} (he : s.dev.entering = none) (m : PowerMode) (pause : Bool) :
    let a := { s with dev := { s.dev with entering := some m } }
    s.timerEntry m pause = if pause then a else a.completeEntry m := by
  unfold State.timerEntry State.enterState
  rw [if_pos (.inl he)]
  cases pause <;> rfl

/-- An expiry of STANDBY_AFTER alone begins the entry of STANDBY (R73). -/
theorem exec_standbyAfter {s : State} {p : Bool} (hs : s.dev.phase = .service) (hb : s.rd Reg.PWR_TIMERS.STANDBY_AFTER ≠ 0)
    (hl : s.rd Reg.PWR_TIMERS.SLEEP_AFTER = 0) (hp : s.dev.power = .active ∨ s.dev.power = .idle) :
    exec (.standbyAfter p) s = s.done (s.timerEntry .standby p) :=
  congrArg s.done (if_pos ⟨hs, hb, .inl hl, hp⟩)

/-- An expiry of SLEEP_AFTER begins the entry of SLEEP (R73). -/
theorem exec_sleepAfter {s : State} {p : Bool} (hs : s.dev.phase = .service) (hl : s.rd Reg.PWR_TIMERS.SLEEP_AFTER ≠ 0)
    (hp : s.dev.power ≠ .sleep) : exec (.sleepAfter p) s = s.done (s.timerEntry .sleep p) :=
  congrArg s.done (if_pos ⟨hs, hl, hp⟩)

/-! ## The router island -/

/-- QUIET goes out on each link of a list; nothing else changes (R82). -/
theorem foldl_sendQuiet (ls : List Link) (s : State) :
    ls.foldl (fun (s : State) l => s.sendCtl l.id .quiet 0 0 []) s = { s with
      out := s.out ++ ls.map fun l => .lineFlit l.id (ctlFlit .quiet ((s.link l.id).expect + 255) 0 0 []) } := by
  induction ls generalizing s with
  | nil => simp
  | cons l ls ih =>
    rw [List.foldl_cons, ih]
    unfold State.sendCtl State.emit State.link
    simp

/-! ## Ballast tests -/

/-- What a ballast test measures, and its FAIL_REASON (R86). -/
def State.ballastMeasures (s : State) (charged : Bool) (s1 s2 : Nat) : State × Nat :=
  if !charged then (s.unmeasured, 1)
  else
    let t := (s.emit (.ballastLoad true)).emit (.ballastLoad false)
    if s1 < s2 + 256 then (t.unmeasured, 2) else t.measureBallast s1 s2

/-- A ballast test that measured something shows its reason and is judged. -/
def State.ballastShown (s : State) (reason : Nat) : State :=
  let t := (s.wr Reg.BAL_STAT.TESTED 1).wr Reg.BAL_STAT.FAIL_REASON reason
  { t with dev := { t.dev with ballastPassed := decide (reason = 0) } }

theorem State.ballastTest_eq (s : State) (charged : Bool) (s1 s2 : Nat) : s.ballastTest charged s1 s2 =
    ((s.ballastMeasures charged s1 s2).1.ballastShown (s.ballastMeasures charged s1 s2).2).judgeBallast := rfl

/-- Measuring changes registers, free values and, once charged, the load pin. -/
theorem State.ballastMeasures_keeps (s : State) (charged : Bool) (s1 s2 : Nat) :
    (s.ballastMeasures charged s1 s2).1.dev = s.dev ∧ (charged = true → (s.ballastMeasures charged s1 s2).1.out =
      s.out ++ [.ballastLoad true, .ballastLoad false]) := by
  have ho : ((s.emit (.ballastLoad true)).emit (.ballastLoad false)).out = s.out ++ [.ballastLoad true, .ballastLoad false] := by
    simp [State.emit]
  unfold State.ballastMeasures
  cases charged
  · exact ⟨rfl, fun h => by cases h⟩
  · dsimp only [Bool.not_true]
    rw [if_neg (by simp)]
    split
    · exact ⟨rfl, fun _ => ho⟩
    · exact ⟨rfl, fun _ => ho⟩

/-- FAIL_REASON 3 is given just where the energy does not suffice. -/
theorem energyReason_eq_zero {p : Prop} [Decidable p] : (if p then 0 else 3) = 0 ↔ p := by
  by_cases h : p
  · rw [if_pos h]; exact iff_of_true rfl h
  · rw [if_neg h]; exact iff_of_false (by decide) h

/-- A test that is not charged, or sees too small a drop, gives its reason; another's is 0 just when the energy reaches
EREQ. -/
theorem State.ballastMeasures_reason (s : State) (charged : Bool) (s1 s2 : Nat) :
    (charged = false ∨ s1 < s2 + 256 → (s.ballastMeasures charged s1 s2).2 ≠ 0) ∧
    (charged = true → s2 + 256 ≤ s1 →
      let e := ballastEnergy s1 s2 (s.rd Reg.BAL_CFG0.RLOAD) (s.rd Reg.BAL_CFG0.DIV) (s.rd Reg.BAL_CFG1.VMIN)
      ((s.ballastMeasures charged s1 s2).2 = 0 ↔ ((s.rd Reg.BAL_CFG1.EREQ * e.2 : Nat) : Int) ≤ e.1)) := by
  unfold State.ballastMeasures
  refine ⟨fun h => ?_, fun hc hd => ?_⟩
  · cases charged
    · exact Nat.succ_ne_zero 0
    · dsimp only [Bool.not_true]
      rw [if_neg (by simp), if_pos (h.resolve_left (by simp))]
      exact Nat.succ_ne_zero 1
  · subst hc
    dsimp only [Bool.not_true]
    rw [if_neg (by simp), if_neg (by omega)]
    exact energyReason_eq_zero

/-- A command that is a ballast test asserts the load once charged, and fails or passes as it measured (R86, R87). -/
theorem exec_tests {s : State} {c : Instr} {q : Bool} {v1 v2 : Nat} (h : exec c s = s.done (s.ballastTest q v1 v2)) :
    ∃ u l, exec c s = .next u ∧
      (q = true → u.out = s.out ++ [.ballastLoad true, .ballastLoad false] ++ l) ∧
      (q = false ∨ v1 < v2 + 256 → u.dev.ballastPassed = false) ∧
      (q = true → v2 + 256 ≤ v1 → s.dev.ballastCodes = [] →
        let e := ballastEnergy v1 v2 (s.rd Reg.BAL_CFG0.RLOAD) (s.rd Reg.BAL_CFG0.DIV) (s.rd Reg.BAL_CFG1.VMIN)
        u.dev.ballastPassed = decide (((s.rd Reg.BAL_CFG1.EREQ * e.2 : Nat) : Int) ≤ e.1)) := by
  rw [h]
  obtain ⟨hdev, hout⟩ := s.ballastMeasures_keeps q v1 v2
  obtain ⟨hfail, hpass⟩ := s.ballastMeasures_reason q v1 v2
  obtain ⟨jo, -, jp⟩ := ((s.ballastMeasures q v1 v2).1.ballastShown (s.ballastMeasures q v1 v2).2).judgeBallast_keeps
  rw [← State.ballastTest_eq] at jo jp
  refine ⟨_, [], State.done_eq .., fun hq => ?_, fun hf => ?_, fun hq hd hcodes => ?_⟩
  · rw [List.append_nil, ← hout hq]
    exact jo
  · refine jp.trans ?_
    rw [show (State.ballastShown _ _).dev.ballastPassed = false from decide_eq_false (hfail hf), Bool.false_and]
  · refine jp.trans ?_
    have hc : ((s.ballastMeasures q v1 v2).1.ballastShown (s.ballastMeasures q v1 v2).2).dev.ballastCodes = [] :=
      (congrArg Dev.ballastCodes hdev).trans hcodes
    rw [hc, List.all_nil, Bool.or_true, Bool.and_true]
    exact decide_eq_decide.mpr (hpass hq hd)

theorem exec_ballastTest {s : State} {q : Bool} {v1 v2 : Nat} (hs : s.dev.phase = .service) (hf : s.ballastFitted = true)
    (ht : s.rdB Reg.BAL_STAT.TESTED = false) : exec (.ballastTest q v1 v2) s = s.done (s.ballastTest q v1 v2) :=
  congrArg s.done (if_pos ⟨hs, hf, by simp [ht]⟩)

theorem exec_ballastRetest {s : State} {q : Bool} {v1 v2 : Nat} (hs : s.dev.phase = .service) (hf : s.ballastFitted = true)
    (ht : s.rdB Reg.BAL_STAT.TESTED = true) (hb : s.bufferedOk = false) (hd : s.drained = true) :
    exec (.ballastRetest q v1 v2) s = s.done (s.ballastTest q v1 v2) :=
  congrArg s.done (if_pos ⟨hs, hf, ht, by simp [hb], hd⟩)

/-- A sample is the newest of the last three, whatever it tells of the reserve (R87). -/
theorem exec_ballastSample_codes {s : State} (hs : s.serving = true) (code : Nat) :
    ∃ u, exec (.ballastSample code) s = .next u ∧ u.dev.ballastCodes = (min 1023 code :: s.dev.ballastCodes).take 3 := by
  refine ⟨_, State.done_eq .., ?_⟩
  dsimp only
  rw [if_pos hs]
  split
  · exact (State.judgeBallast_keeps _).2.1
  · rfl

/-- Settles O50: both wakes are `wakeBy` and both ballast tests are `ballastTest`; the timers run the entries of Tables 03-5
and 03-6. -/
theorem wakesTimersAndBallast : Obligations.WakesTimersAndBallast := by
  unfold Obligations.WakesTimersAndBallast
  intro s ns v1 v2 code q wakes tests
  refine ⟨fun h => exec_wakes (exec_wakeN_recognised h), exec_wakes (src := Reg.WAKE_SRC.TIMER) (detail := 1) rfl,
    exec_wakeN_ignored, fun hs => ⟨fun hp he hr => ?_, fun hb hl hp he => ?_, fun hl hp he => ⟨?_, fun hq ha hd => ?_⟩,
      fun hf hp hr => ?_, fun hf => ⟨fun ht => exec_tests (exec_ballastTest hs hf ht),
        fun ht hb hd => exec_tests (exec_ballastRetest hs hf ht hb hd)⟩⟩, fun hs => exec_ballastSample_codes hs code⟩
  · exact congrArg s.done (if_pos ⟨hs, hp, he, hr⟩)
  · rw [exec_standbyAfter hs hb hl hp, State.timerEntry_begins he]
    obtain ⟨hr, hn, -⟩ := State.standby_reached { s with dev := { s.dev with entering := some .standby } }
    exact ⟨_, State.done_eq .., hr, hn⟩
  · rw [exec_sleepAfter hs hl hp, State.timerEntry_begins he]
    exact ⟨_, State.done_eq .., rfl, rfl⟩
  · rw [exec_sleepAfter hs hl hp, State.timerEntry_begins he]
    exact ⟨_, State.done_eq .., State.sleep_reached (s := { s with dev := { s.dev with entering := some .sleep } })
      (State.quiet_of_answered hq ha) hd⟩
  · have hx : exec .routerIslandQuiet s = s.done s.quietIsland := congrArg s.done (if_pos ⟨hf, hs, hp, by simp [hr]⟩)
    rw [hx]
    unfold State.quietIsland
    dsimp only
    rw [foldl_sendQuiet]
    exact ⟨_, State.done_eq .., rfl, rfl⟩

end Sys2Proof.Machine
end

section
/-! SUPPORT. Power losses: the heads retracted (R306), the drain into the reserve (R95), what a reset keeps of the key store,
and alarms (R375, R376). -/

namespace Sys2Proof.Machine

open Sys2Proof

/-! ## Service stops (Table 03-10) -/

/-- RETRACT leaves every head inhibited and the spindle braked; beside it only START_TIME, an event, the outputs and the
disk change (R306). -/
theorem State.retract_eq (s : State) : ∃ r l o v, s.retract =
    { s with regs := r, log := l, out := o, srv := v, dev := { s.dev with spinning := false } } ∧
      ∀ h ∈ v.heads, h.inhibit = true ∧ h.writing = false := by
  obtain ⟨o, hs, h, hp⟩ := s.unloadHeads_eq
  unfold State.retract
  dsimp only
  rw [h]
  split
  · exact ⟨_, s.log, o, _, rfl, hp⟩
  · obtain ⟨r, l, hr⟩ := State.raise_eq (State.emit (State.wr { s with out := o, srv := { s.srv with heads := hs } }
      Reg.START_TIME.DISK_100MS 0) (.motFrame motRetract)) Ev.SRV.RETRACTED
    rw [hr]
    exact ⟨r, l, _, _, rfl, hp⟩

/-- An entry that PWRFAIL_N cuts off is noted (Table 03-10). -/
def State.noteAbandoned (s : State) : State := if s.dev.entering.isSome then s.raise Ev.PWR.ENTRY_ABANDONED else s

theorem State.stopService_eq (s : State) : s.stopService = { s.noteAbandoned.retract with
    dev := { s.noteAbandoned.retract.dev with phase := .drained false, riseCounting := false, entering := none,
                                              power := .active, routerQuiet := false } } := rfl

theorem State.noteAbandoned_cmd (s : State) : s.noteAbandoned.cmd = s.cmd := by
  unfold State.noteAbandoned
  split
  · exact raise_cmd ..
  · rfl

/-- Steps 1 and 2 of Table 03-10 leave the drained state under way, no entry, and every head inhibited. -/
theorem State.stopService_stops (s : State) : s.stopService.dev.phase = .drained false ∧
    s.stopService.dev.entering = none ∧ s.stopService.dev.spinning = false ∧ s.stopService.cmd = s.cmd ∧
    ∀ h ∈ s.stopService.srv.heads, h.inhibit = true ∧ h.writing = false := by
  obtain ⟨r, l, o, v, h, hv⟩ := s.noteAbandoned.retract_eq
  rw [State.stopService_eq, h]
  exact ⟨rfl, rfl, rfl, s.noteAbandoned_cmd, hv⟩

/-- A recognised low in service or stalemate takes the device from either (R85). -/
theorem exec_pwrfail {s : State} {ns : Nat} (h : 2000 ≤ ns) (hp : s.dev.phase = .service ∨ s.dev.phase = .stalemate) :
    exec (.pwrfail ns) s = s.done s.powerFail := by
  show execPwrfail ns s = _
  unfold execPwrfail
  rw [State.pulse_recognised h]
  show s.done s.pwrfailFalls = _
  unfold State.pwrfailFalls
  obtain hp | hp := hp <;> rw [hp]

/-! ## The drain into the reserve -/

/-- The seal of a directory is of what it covers: the directory, its seed, the tier and the journal's place (R211). -/
theorem State.sealDir_congr {s u : State} (hk : u.key.slots = s.key.slots) (ht : u.flash.tierId = s.flash.tierId)
    (hj : u.flash.journalSeq = s.flash.journalSeq) (hd : u.kv.dir = s.kv.dir) (hs : u.kv.side = s.kv.side) :
    u.sealDir = s.sealDir := by
  unfold State.sealDir State.dirHash State.seed State.slot
  rw [hk, ht, hj, hd, hs]

@[simp] theorem raise_key (s : State) (e : Event) : (s.raise e).key = s.key := by
  obtain ⟨r, l, h⟩ := s.raise_eq e; rw [h]

@[simp] theorem flushLog_key (s : State) : s.flushLog.key = s.key := by
  unfold State.flushLog
  dsimp only
  split
  · rfl
  · split
    · exact raise_key ..
    · rfl

@[simp] theorem dropBuffer_key (s : State) : s.dropBuffer.key = s.key := by
  unfold State.dropBuffer State.loseBuffer
  split
  · rfl
  · split <;> rfl

@[simp] theorem hardDrain_key (s : State) (completes : Bool) : (s.hardDrain completes).key = s.key := by
  unfold State.hardDrain
  split
  · dsimp only
    split
    · exact flushLog_key s
    · exact flushLog_key s
  · exact dropBuffer_key s

/-- A drain that completes leaves its marker and the seal of the directory as it stands (R85, R212). -/
theorem State.hardDrain_completes (s : State) : (s.hardDrain true).flash.drainMark = true ∧
    (s.hardDrain true).kv.sramSeal = some (s.hardDrain true).sealDir := by
  unfold State.hardDrain
  rw [if_pos rfl]
  exact ⟨rfl, congrArg some (State.sealDir_congr rfl rfl rfl rfl rfl).symm⟩

/-! ## Resets -/

@[simp] theorem resetHeads_key (s : State) : s.resetHeads.key = s.key := by
  have hf : ∀ (l : List Head) (t : State), (l.foldl (fun (s : State) h => s.emit (.maOut h.id 0)) t).key = t.key := by
    intro l
    induction l with
    | nil => exact fun _ => rfl
    | cons a l ih => exact fun t => (ih _).trans rfl
  obtain ⟨o, hs, h, -⟩ := s.parkHeads_eq
  unfold State.resetHeads
  dsimp only
  rw [hf, h]

@[simp] theorem degradeMember_key (s : State) (n a : Nat) : (s.degradeMember n a).key = s.key := by
  unfold State.degradeMember
  split
  · split
    · rfl
    · exact raise_key ..
  · rfl

@[simp] theorem dropMirrors_key (s : State) : s.dropMirrors.key = s.key := by
  have hf : ∀ (l : List MirrorMember) (t : State),
      (l.foldl (fun (s : State) m => s.degradeMember m.nsid m.addr) t).key = t.key := by
    intro l
    induction l with
    | nil => exact fun _ => rfl
    | cons a l ih => exact fun t => (ih _).trans (degradeMember_key ..)
  unfold State.dropMirrors
  exact hf ..

@[simp] theorem dropCommit_key (s : State) : s.dropCommit.key = s.key := by
  unfold State.dropCommit
  split <;> rfl

/-- A reset ends every session and tag, and its start is about to run. -/
theorem State.beginReset_ends (s : State) (kind : StartKind) (src detail : Nat) :
    (s.beginReset kind src detail).sessions = [] ∧ (s.beginReset kind src detail).cmd.tags = [] ∧
    (s.beginReset kind src detail).dev.phase = .starting kind.cold ∧ (s.beginReset kind src detail).dev.kind = kind :=
  ⟨rfl, rfl, rfl, rfl⟩

/-- Of the key store a reset clears the live slots alone (Table 04-5). -/
theorem State.beginReset_key (s : State) (kind : StartKind) (src detail : Nat) :
    (s.beginReset kind src detail).key = { s.key with slots := [], vaultOk := false, rootOk := false } := by
  have h : (s.resetHeads.dropMirrors.dropCommit.dropEarly fun _ => true).key = s.key :=
    (dropCommit_key _).trans ((dropMirrors_key _).trans (resetHeads_key s))
  rw [← h]
  rfl

/-! ## Alarms -/

/-- An alarm's reset is one of a state whose live keys are gone (R375). -/
theorem State.alarmReset_eq (s : State) (src : Nat) (d : Bool) :
    ∃ t : State, s.alarmReset src d = t.beginReset .alarm src 0 ∧ t.key = { s.key with slots := [] } := by
  unfold State.alarmReset
  refine ⟨_, rfl, ?_⟩
  split
  · rfl
  · exact hardDrain_key ..

/-- An environmental alarm leaves an ALARM cold start about to run, no live key and a count one higher up to 16 (R375,
R376). -/
theorem State.envAlarm_erases (s : State) (src : Nat) (d : Bool) : (s.envAlarm src d).dev.phase = .starting true ∧
    (s.envAlarm src d).dev.kind = .alarm ∧ (s.envAlarm src d).key.slots = [] ∧
    (s.envAlarm src d).key.envCount = min 16 (s.key.envCount + 1) := by
  unfold State.envAlarm
  dsimp only
  obtain ⟨t, ht, hk⟩ := State.alarmReset_eq { s with key := { s.key with
    envCount := min 16 (s.key.envCount + 1), envHours := 0
    killPending := s.key.killPending || decide (s.key.envCount = 15) } } (if decide (s.key.envCount = 15) then 5 else src) d
  rw [ht]
  exact ⟨rfl, rfl, rfl, by rw [State.beginReset_key, hk]⟩

/-- Always-on power lost keeps the vault, and neither session, tag nor live key (R99). -/
theorem State.powerOff_keeps (s : State) : s.powerOff.dev.phase = .unpowered ∧ s.powerOff.sessions = [] ∧
    s.powerOff.cmd.tags = [] ∧ s.powerOff.key.slots = [] ∧ s.powerOff.key.vault = s.key.vault := by
  unfold State.powerOff
  dsimp only
  rw [State.beginReset_key, dropBuffer_key]
  exact ⟨rfl, rfl, rfl, rfl, rfl⟩

/-- The state in which service or stalemate resumes (R85). -/
def State.resumed (s : State) : State :=
  { s with dev := { s.dev with phase := if s.rdB Reg.STALE_STAT.ACTIVE then .stalemate else .service
                               power := .active, enterTags := [], riseCounting := false }
           flash := { s.flash with drainMark := false } }

theorem State.resumeService_eq (s : State) :
    s.resumeService = (s.resumed.raise Ev.PWR.PWRFAIL_SEEN).finishTags stAbandoned s.dev.enterTags := rfl

/-- Service or stalemate resumes in ACTIVE, with the drain's marker gone and no POWER_STATE left (R85). -/
theorem State.resumeService_resumes (s : State) : s.resumeService.dev.power = .active ∧
    s.resumeService.dev.enterTags = [] ∧ s.resumeService.flash.drainMark = false ∧
    s.resumeService.dev.phase = if s.rdB Reg.STALE_STAT.ACTIVE then .stalemate else .service := by
  have k : s.resumed.AnswerKeeps s.resumeService :=
    AnswerKeeps.trans (AnswerKeeps.of_answering (Answering.raiseWith ..)) (AnswerKeeps.finishTags ..)
  exact ⟨k.power, k.enterTags rfl, k.drainMark, k.phase⟩

end Sys2Proof.Machine
end

section
/-! PROOF. O47: PWRFAIL_N, and the loss of the switched rails and of always-on power. -/

namespace Sys2Proof.Machine

open Sys2Proof

/-! ## PWRFAIL_N -/

theorem exec_pwrfail_ignored {s : State} {ns : Nat} (h : ns < 500) : exec (.pwrfail ns) s = .next s := by
  show execPwrfail ns s = _
  unfold execPwrfail
  rw [State.pulse_ignored h (by omega)]
  rfl

/-- A recognised low leaves the drained state under way (Table 03-10). -/
theorem State.powerFail_stops (s : State) : s.powerFail.dev.phase = .drained false ∧ s.powerFail.dev.pwrfailLow = true ∧
    s.powerFail.dev.entering = none ∧ s.powerFail.dev.spinning = false ∧ s.powerFail.cmd = s.cmd ∧
    ∀ h ∈ s.powerFail.srv.heads, h.inhibit = true ∧ h.writing = false := by
  obtain ⟨hphase, hent, hspin, hcmd, hheads⟩ := (s.wake Reg.WAKE_SRC.PWRFAIL).stopService_stops
  exact ⟨hphase, rfl, hent, hspin, hcmd.trans (wake_cmd ..), hheads⟩

/-- The drain ends with its marker and the seal of the directory as it stands. -/
theorem exec_drainComplete {s : State} (h : s.dev.phase = .drained false) : ∃ u, exec .drainComplete s = .next u ∧
    u.dev.phase = .drained true ∧ u.flash.drainMark = true ∧ u.kv.sramSeal = some u.sealDir := by
  obtain ⟨hm, hs⟩ := s.hardDrain_completes
  have hx : exec .drainComplete s = s.done { s.hardDrain true with
      dev := { (s.hardDrain true).dev with phase := .drained true } } := congrArg s.done (if_pos h)
  rw [hx]
  generalize s.hardDrain true = t at hm hs
  exact ⟨_, State.done_eq .., rfl, hm, hs⟩

section
variable {s : State} (hl : s.dev.pwrfailLow = false) (hr : s.dev.riseCounting = true)
include hl hr

/-- Once the rise has lasted 100 ms, service resumes where no core is halted and the pins are not held. -/
theorem exec_pwrfailResume_drained (hp : s.dev.phase = .drained true) (hh : s.dev.pinsHeld = false)
    (hc : (s.dbg.cores.any fun c => c.halted) = false) : exec .pwrfailResume s = s.done s.resumeService := by
  show execPwrfailResume s = _
  unfold execPwrfailResume
  rw [if_neg (by simp [hl, hr]), hp]
  dsimp only
  rw [if_neg (by simp [hh, hc])]

/-- With the rails lost they are raised again for a cold start (R100). -/
theorem exec_pwrfailResume_railsLost (hp : s.dev.phase = .railsLost) : exec .pwrfailResume s = s.done
    { s.raiseRails with dev := { s.raiseRails.dev with phase := .starting true, riseCounting := false } } := by
  show execPwrfailResume s = _
  unfold execPwrfailResume
  rw [if_neg (by simp [hl, hr]), hp]

end

/-! ## Lost supplies -/

/-- After a completed drain a loss of the switched rails lowers the enables, with no session left and no alarm (R100). -/
theorem exec_switchedRailLoss_drained {s : State} (hp : s.dev.phase = .drained true) (hl : s.dev.pwrfailLow = true) (d : Bool) :
    ∃ u l, exec (.switchedRailLoss d) s = .next u ∧
      u.out = l ++ [.rails true true false, .rails true false false, .rails false false false] ∧
      u.dev.phase = .railsLost ∧ u.dev.kind = .railLoss ∧ u.sessions = [] ∧ u.srv.disk = 0 ∧
      u.key.envCount = s.key.envCount := by
  have hg : s.powerGoes = true := by simp [State.powerGoes, hp, hl]
  have hx : exec (.switchedRailLoss d) s = s.done (
      let t := (s.beginReset .railLoss 0 0).lowerRails 3
      { t with dev := { t.dev with phase := .railsLost, spinning := false }, srv := { t.srv with disk := 0 } }) :=
    congrArg s.done (if_pos hg)
  have hk := congrArg Key.envCount (s.beginReset_key .railLoss 0 0)
  obtain ⟨hs, -, -, hkind⟩ := s.beginReset_ends .railLoss 0 0
  rw [hx, State.lowerRails_eq]
  generalize s.beginReset .railLoss 0 0 = t at hk hs hkind
  exact ⟨_, t.out, State.done_eq .., rfl, rfl, hkind, hs, rfl, hk⟩

/-- At any other powered time it is a voltage alarm (R374, R375). -/
theorem exec_switchedRailLoss_alarm {s : State} (hp : s.powered = true)
    (hn : ¬ (s.dev.phase = .drained true ∧ s.dev.pwrfailLow = true)) (d : Bool) :
    exec (.switchedRailLoss d) s = s.done (s.envAlarm 1 d) := by
  have hg : s.powerGoes = false := by simpa [State.powerGoes] using hn
  show execSwitchedRailLoss d s = _
  unfold execSwitchedRailLoss
  rw [if_neg (by simp [hg]), if_pos hp]

/-- Settles O47: each event is the operation of Table 03-10, R99 or R100 that its phase selects. -/
theorem powerLossDrainsAndResumes : Obligations.PowerLossDrainsAndResumes := by
  unfold Obligations.PowerLossDrainsAndResumes
  intro s ns d
  refine ⟨fun h hp => ?_, exec_pwrfail_ignored, exec_drainComplete, fun h => congrArg s.done (if_neg h), ?_,
    fun h => congrArg s.done (if_pos (.inl h)), fun hl hr => ⟨fun hp hh hc => ?_, fun hp => ?_⟩,
    fun hp hl => exec_switchedRailLoss_drained hp hl d, fun hp hn => ?_, fun h => ?_, fun h => congrArg s.done (if_pos h)⟩
  · rw [exec_pwrfail h hp]
    exact ⟨_, State.done_eq .., s.powerFail_stops⟩
  · refine ⟨_, rfl, rfl, rfl, fun c hc => ?_⟩
    dsimp only
    rw [hc]
  · rw [exec_pwrfailResume_drained hl hr hp hh hc]
    exact ⟨_, State.done_eq .., s.resumeService_resumes⟩
  · rw [exec_pwrfailResume_railsLost hl hr hp, State.raiseRails_eq]
    exact ⟨_, State.done_eq .., rfl, rfl⟩
  · obtain ⟨hphase, hkind, hslots, hcount⟩ := s.envAlarm_erases 1 d
    rw [exec_switchedRailLoss_alarm hp hn]
    exact ⟨_, State.done_eq .., hphase, hkind, hslots, hcount⟩
  · obtain ⟨hphase, hsess, htags, hslots, hvault⟩ := s.powerOff_keeps
    have hx : exec .alwaysOnPowerLoss s = s.done s.powerOff := congrArg s.done (if_neg h)
    rw [hx]
    exact ⟨_, State.done_eq .., hphase, hsess, htags, hslots, hvault, rfl⟩

end Sys2Proof.Machine
end

section
/-! SUPPORT. What sealing frames changes, and what answers and the keeper records leave of the configuration record (R104,
R152, R412). -/

namespace Sys2Proof.Machine

open Sys2Proof

/-! ## Frames of the fabric -/

/-- A report changes only registers and the log. -/
theorem State.report_eq (s : State) (e : Event) (st : Nat) : ∃ r l, s.report e st = { s with regs := r, log := l } := by
  obtain ⟨r, l, h⟩ := s.raiseWith_eq e 0 false st 0
  obtain ⟨r', h'⟩ := State.capture_eq { s with regs := r, log := l } e.block 0 st 0
  unfold State.report
  rw [h, h']
  exact ⟨r', l, rfl⟩

/-- Nothing but what the sealing of frames may change differs: registers, the event log, the key store's counters and slots,
and the fabric. -/
def State.Sealing (s u : State) : Prop := ∃ r l k f, u = { s with regs := r, log := l, key := k, fab := f }

namespace Sealing

theorem refl (s : State) : s.Sealing s := ⟨s.regs, s.log, s.key, s.fab, rfl⟩

theorem trans {s t u : State} (h : s.Sealing t) (k : t.Sealing u) : s.Sealing u := by
  obtain ⟨r, l, k, f, rfl⟩ := h
  obtain ⟨r', l', k', f', rfl⟩ := k
  exact ⟨r', l', k', f', rfl⟩

theorem cfg {s u : State} (h : s.Sealing u) : u.cfg = s.cfg := by
  obtain ⟨r, l, k, f, rfl⟩ := h; rfl

theorem of_pair {α : Type} {x : α × State} {a : α} {s t : State} (h : x = (a, t)) (hx : s.Sealing x.2) : s.Sealing t := by
  rw [h] at hx; exact hx

theorem reserve (s : State) (i : Nat) : s.Sealing (s.reserve i) := ⟨_, s.log, _, s.fab, rfl⟩

theorem disableEnc (s : State) (i : Nat) : s.Sealing (s.disableEnc i) := by
  obtain ⟨r, l, h⟩ := State.report_eq (s.commitSlot i { s.slot i with attr := (s.slot i).attr ||| 0x800 })
    Ev.CRY.NONCE_EXHAUSTED stNonce
  exact ⟨r, l, _, s.fab, h⟩

theorem cipher (s : State) (c n : Nat) : s.Sealing (s.cipher c n) := by
  unfold State.cipher
  split
  · exact ⟨_, s.log, s.key, s.fab, rfl⟩
  · exact refl s

theorem nonce (s : State) (i : Nat) : s.Sealing (s.nonce i).2 := by
  unfold State.nonce
  extract_lets c
  split
  · exact refl s
  · split
    · exact refl s
    · rename_i t iv key u v _ _
      have ht : s.Sealing t := by
        unfold t; split
        · exact reserve ..
        · exact refl s
      have hu : s.Sealing u := trans ht ⟨t.regs, t.log, _, t.fab, rfl⟩
      have hv : s.Sealing v := by
        unfold v; split
        · exact trans hu (reserve ..)
        · exact hu
      dsimp only
      split
      · exact trans hv (disableEnc ..)
      · exact hv

theorem sealFrame (s : State) (key : Bytes) (f : FabFrame) : s.Sealing (s.sealFrame key f).2 := by
  unfold State.sealFrame
  split
  · rename_i h; exact of_pair h (nonce ..)
  · rename_i h; exact trans (of_pair h (nonce ..)) (cipher ..)

theorem sealFrames (key : Bytes) (fs : List FabFrame) (s : State) : s.Sealing (sealFrames key fs s).2 := by
  induction fs generalizing s with
  | nil => exact refl s
  | cons f fs ih =>
    unfold Machine.sealFrames
    split
    · rename_i h; exact of_pair h (sealFrame ..)
    · rename_i h; exact trans (of_pair h (sealFrame ..)) (ih _)

theorem makeFrames (s : State) (dest : FrameTo) (body : Bytes) : s.Sealing (s.makeFrames dest body).2 := by
  have hn : ∀ n, s.Sealing { s with fab := { s.fab with nextMsg := n } } := fun _ => ⟨s.regs, s.log, s.key, _, rfl⟩
  unfold State.makeFrames
  dsimp only
  repeat' split
  · exact hn _
  · exact hn _
  · exact hn _
  · exact trans (hn _) (sealFrames ..)

end Sealing

@[simp] theorem fabReply_cfg (s : State) (dst ftype reqId : Nat) (p : FabPayload) :
    (s.fabReply dst ftype reqId p).cfg = s.cfg := by
  have h := Sealing.cfg (Sealing.makeFrames s ⟨dst, ftype, none, Config.fabFlow dst 0⟩ (replyBytes ftype reqId p))
  exact h

@[simp] theorem fabAsk_cfg (s : State) (dest : FrameTo) (p : FabPayload) (tag : Option TagId) (nsid asn : Nat) :
    (s.fabAsk dest p tag nsid asn).cfg = s.cfg := by
  unfold State.fabAsk
  split
  · rfl
  · have h := Sealing.cfg (Sealing.makeFrames s dest (payloadBytes p))
    exact h

@[simp] theorem sendKeepers_cfg (s : State) : s.sendKeepers.cfg = s.cfg := by
  have hk : ∀ (t : State) l, (t.sendKeeper l).cfg = t.cfg := fun t l => by
    unfold State.sendKeeper
    split
    · split
      · exact fabAsk_cfg ..
      · rfl
    · rfl
  unfold State.sendKeepers
  split
  · exact List.foldlRecOn s.fab.links _ (motive := fun t => t.cfg = s.cfg) rfl fun t h l _ => (hk t l).trans h
  · rfl

/-! ## Answers -/

theorem AnswerKeeps.answer (s : State) (w : Waiter) (st : Nat) : s.AnswerKeeps (s.answer w st) := by
  cases w with
  | tag t =>
    unfold State.answer
    dsimp only
    split
    · exact finish ..
    · exact refl s
  | mctp tag code => exact ⟨rfl, rfl, rfl, rfl, rfl, rfl, rfl, rfl, rfl, id⟩
  | path p =>
    obtain ⟨d, h⟩ := s.answer_path_eq p st
    rw [h]
    exact ⟨rfl, rfl, rfl, rfl, rfl, rfl, rfl, rfl, rfl, id⟩

/-- The configuration record is as it was: both copies, and no change waits that did not. The end of a session renames those
that wait (R152). -/
structure State.KeepsRecord (s u : State) : Prop where
  copy0 : u.cfg.copy0 = s.cfg.copy0
  copy1 : u.cfg.copy1 = s.cfg.copy1
  noCommit : s.NoCommit → u.NoCommit

namespace KeepsRecord

theorem of_cfg {s u : State} (h : u.cfg = s.cfg) : s.KeepsRecord u := by
  refine ⟨by rw [h], by rw [h], fun ⟨hu, hw⟩ => ⟨?_, ?_⟩⟩
  · rw [h, hu]
  · rw [h, hw]

theorem trans {s t u : State} (h : s.KeepsRecord t) (k : t.KeepsRecord u) : s.KeepsRecord u :=
  ⟨k.copy0.trans h.copy0, k.copy1.trans h.copy1, fun hs => k.noCommit (h.noCommit hs)⟩

theorem of_answering {s u : State} (h : s.Answering u) : s.KeepsRecord u := by
  obtain ⟨r, l, cm, ss, o, q, rfl⟩ := h
  exact of_cfg rfl

theorem dropEarly (s : State) (p : TagId → Bool) : s.KeepsRecord (s.dropEarly p) := of_cfg rfl

theorem renameTags (s : State) (f : TagId → TagId) : s.KeepsRecord (s.renameTags f) := by
  refine ⟨rfl, rfl, fun ⟨hu, hw⟩ => ⟨?_, ?_⟩⟩
  · exact List.map_eq_nil_iff.mpr hu
  · exact List.map_eq_nil_iff.mpr hw

theorem endSession (s : State) (i : Nat) : s.KeepsRecord (s.endSession i) := by
  unfold State.endSession
  split
  · exact of_cfg rfl
  · extract_lets lapse q t cmd kv cry u
    have ht : s.KeepsRecord t := trans (dropEarly ..) (renameTags ..)
    have hu : (u.releasePages i).cfg = t.cfg := by
      obtain ⟨r, l, h⟩ := u.releasePages_eq i
      rw [h]
    exact trans ht (of_cfg hu)

theorem post (s : State) (e : TagEntry) (c : Completion) : s.KeepsRecord (s.post e c) := by
  obtain ⟨m, hm, h⟩ := AnswerFrame.post s e c
  have hm : s.KeepsRecord m := trans (dropEarly ..) (of_answering hm)
  split at h
  · obtain h | ⟨x, -, -, h⟩ := h
    · rw [h]; exact hm
    · rw [h]; exact trans hm (endSession ..)
  · obtain ⟨p, h⟩ := h
    rw [h]; exact trans hm (of_cfg (fabReply_cfg ..))
  · rw [h]; exact hm

theorem answer (s : State) (w : Waiter) (st : Nat) : s.KeepsRecord (s.answer w st) := by
  cases w with
  | tag t =>
    unfold State.answer
    dsimp only
    split
    · exact post ..
    · exact of_cfg rfl
  | mctp tag code => exact of_cfg rfl
  | path p =>
    obtain ⟨d, h⟩ := s.answer_path_eq p st
    rw [h]
    exact of_cfg rfl

end KeepsRecord

end Sys2Proof.Machine
end

section
/-! PROOF. O22: CONFIG_COMMIT (R102, R104, R106, R107). -/

namespace Sys2Proof.Machine

open Sys2Proof

/-! ## Copies and generations (R106, R107) -/

theorem CfgCommit.live_some {c : Option CfgCommit} {x : CfgCommit} (h : live c = some x) :
    c = some x ∧ x.generation ≠ 0 := by
  obtain ⟨hc, hx⟩ := Option.filter_eq_some_iff.mp h
  simp only [Bool.and_eq_true, bne_iff_ne] at hx
  exact ⟨hc, hx.1⟩

/-- A generation of R106 makes a copy valid. -/
theorem CfgCommit.live_of_generation {x : CfgCommit} (h0 : x.generation ≠ 0) (h1 : x.generation ≠ 0xFFFFFFFF) :
    live (some x) = some x := by
  simp [live, h0, h1]

/-- Which copy is current, and what the other one can be. -/
theorem Cfg.current_cases (c : Cfg) :
    (c.current = none ∧ CfgCommit.live c.copy0 = none ∧ CfgCommit.live c.copy1 = none) ∨
    (∃ x, c.current = some (0, x) ∧ CfgCommit.live c.copy0 = some x) ∨
    (∃ x, c.current = some (1, x) ∧ CfgCommit.live c.copy1 = some x) := by
  unfold Cfg.current
  split
  · split
    · exact .inr (.inr ⟨_, rfl, by assumption⟩)
    · exact .inr (.inl ⟨_, rfl, by assumption⟩)
  · exact .inr (.inl ⟨_, rfl, by assumption⟩)
  · exact .inr (.inr ⟨_, rfl, by assumption⟩)
  · exact .inl ⟨rfl, by assumption, by assumption⟩

theorem Cfg.current_congr {c d : Cfg} (h0 : c.copy0 = d.copy0) (h1 : c.copy1 = d.copy1) : c.current = d.current := by
  unfold Cfg.current
  rw [h0, h1]

/-- Copy 1 is current where its generation is the higher one, copy 0 in every other case. -/
theorem Cfg.current_copy1 {c : Cfg} {x : CfgCommit} (h1 : CfgCommit.live c.copy1 = some x)
    (h0 : ∀ y, CfgCommit.live c.copy0 = some y → y.generation < x.generation) : c.current = some (1, x) := by
  unfold Cfg.current
  rw [h1]
  cases h : CfgCommit.live c.copy0 with
  | none => rfl
  | some y => exact if_pos (h0 y h)

theorem Cfg.current_copy0 {c : Cfg} {x : CfgCommit} (h0 : CfgCommit.live c.copy0 = some x)
    (h1 : ∀ y, CfgCommit.live c.copy1 = some y → y.generation ≤ x.generation) : c.current = some (0, x) := by
  unfold Cfg.current
  rw [h0]
  cases h : CfgCommit.live c.copy1 with
  | none => rfl
  | some y => exact if_neg (Nat.not_lt.mpr (h1 y h))

/-- The generation after one below the last but one is the next number. -/
theorem nextGeneration_of_lt {g : Nat} (h : g < 0xFFFFFFFE) : nextGeneration g = g + 1 := by
  unfold nextGeneration; omega

@[simp] theorem Cfg.commit_waiting (c : Cfg) (b : CfgBody) : (c.commit b).waiting = c.waiting := by
  unfold Cfg.commit
  split <;> rfl

/-- The first commit goes to copy 0. -/
theorem Cfg.commit_first {c : Cfg} (h : c.current = none) (h1 : CfgCommit.live c.copy1 = none) (b : CfgBody) :
    (c.commit b).current = some (0, ⟨1, b⟩) := by
  unfold Cfg.commit
  rw [h]
  exact current_copy0 (CfgCommit.live_of_generation Nat.one_ne_zero (Nat.ne_of_beq_eq_false rfl)) fun y hy => by
    rw [h1] at hy; cases hy

theorem Cfg.commit_of_current {c : Cfg} {k : Nat} {x : CfgCommit} (h : c.current = some (k, x)) (b : CfgBody) :
    c.commit b = if k = 0 then { c with copy1 := some ⟨nextGeneration x.generation, b⟩ }
      else { c with copy0 := some ⟨nextGeneration x.generation, b⟩ } := by
  unfold Cfg.commit
  rw [h]
  cases k <;> rfl

section
variable {c : Cfg} {x : CfgCommit} (hg : x.generation < 0xFFFFFFFE) (b : CfgBody)
include hg

/-- A commit over copy 0 goes to copy 1, and is current. -/
theorem Cfg.commit_copy1 (h : c.current = some (0, x)) (h0 : CfgCommit.live c.copy0 = some x) :
    (c.commit b).current = some (1, ⟨x.generation + 1, b⟩) ∧ (c.commit b).copy0 = some x := by
  rw [Cfg.commit_of_current h, nextGeneration_of_lt hg]
  refine ⟨current_copy1 (CfgCommit.live_of_generation (Nat.succ_ne_zero _) (by dsimp only; omega)) fun y hy => ?_,
    (CfgCommit.live_some h0).1⟩
  cases h0.symm.trans hy
  exact Nat.lt_succ_self _

/-- A commit over copy 1 goes to copy 0, and is current. -/
theorem Cfg.commit_copy0 (h : c.current = some (1, x)) (h1 : CfgCommit.live c.copy1 = some x) :
    (c.commit b).current = some (0, ⟨x.generation + 1, b⟩) ∧ (c.commit b).copy1 = some x := by
  rw [Cfg.commit_of_current h, nextGeneration_of_lt hg]
  refine ⟨current_copy0 (CfgCommit.live_of_generation (Nat.succ_ne_zero _) (by dsimp only; omega)) fun y hy => ?_,
    (CfgCommit.live_some h1).1⟩
  cases h1.symm.trans hy
  exact Nat.le_succ _

end

/-! ## What a change of the registers leaves alone -/

theorem checkWear_eq (s : State) : ∃ r l, s.checkWear = { s with regs := r, log := l } := by
  unfold State.checkWear
  dsimp only
  split
  · exact State.warn_eq ..
  · exact ⟨_, s.log, rfl⟩

theorem checkTemp_eq (s : State) : ∃ r l, s.checkTemp = { s with regs := r, log := l } := by
  unfold State.checkTemp
  dsimp only
  split
  · exact State.warn_eq ..
  · split
    · exact ⟨_, s.log, rfl⟩
    · exact ⟨s.regs, s.log, rfl⟩

/-- Warnings change only registers and the log (R466). -/
theorem checkThresholds_eq (s : State) : ∃ r l, s.checkThresholds = { s with regs := r, log := l } := by
  obtain ⟨r, l, hw⟩ := checkWear_eq s
  obtain ⟨r', l', ht⟩ := checkTemp_eq { s with regs := r, log := l }
  unfold State.checkThresholds
  dsimp only
  rw [hw, ht]
  split
  · obtain ⟨r'', l'', h⟩ := State.warn_eq { s with regs := r', log := l' } Reg.HLT_SUMMARY.MEDIA Ev.HLT.MEDIA_WARN
      (s.rd Reg.HLT.MEDIA_DAY)
    exact ⟨r'', l'', h⟩
  · exact ⟨r', l', rfl⟩

@[simp] theorem settleRegs_cfg (s t : State) : (s.settleRegs t).cfg = t.cfg := by
  unfold State.settleRegs
  extract_lets moved ports cache kv u
  split
  · rfl
  · obtain ⟨r, l, h⟩ := checkThresholds_eq u
    rw [h]

@[simp] theorem raise_cfg (s : State) (e : Event) : (s.raise e).cfg = s.cfg := by
  obtain ⟨r, l, h⟩ := s.raise_eq e
  rw [h]

theorem raiseIf_cfg (c : Prop) [Decidable c] (s : State) (e : Event) : (if c then s.raise e else s).cfg = s.cfg := by
  split
  · exact raise_cfg ..
  · rfl

/-! ## The commit of one whole body -/

/-- With nothing waiting no commit forms (R102). -/
theorem State.formCommit_of_noCommit {s : State} (h : s.NoCommit) : s.formCommit = s := by
  unfold State.formCommit formGo
  rw [if_pos (by simp [h.2])]

theorem exec_configCommit_idle {s : State} (h : s.cfg.under = []) (r : NorResult) :
    exec (.configCommit r) s = .next s := by
  have hx : exec (.configCommit r) s = s.done s := congrArg s.done (if_pos (by simp [h]))
  rw [hx, State.done_self]

/-- A commit that ends without its copy leaves the other one, which was current if either was (R106). -/
theorem dropCommit_of_under {s : State} (h : s.cfg.under ≠ []) :
    ∃ c : Cfg, s.dropCommit = { s with cfg := c } ∧ c.under = [] ∧ c.current = s.cfg.current := by
  unfold State.dropCommit
  rw [if_neg (by simp [h])]
  obtain ⟨hc, h0, h1⟩ | ⟨x, hc, h0⟩ | ⟨x, hc, h1⟩ := s.cfg.current_cases
  · rw [hc]
    refine ⟨_, rfl, rfl, ?_⟩
    unfold Cfg.current
    rw [h1]
    rfl
  · rw [hc]
    exact ⟨_, rfl, rfl, Cfg.current_copy0 h0 fun y hy => nomatch hy⟩
  · rw [hc]
    exact ⟨_, rfl, rfl, Cfg.current_copy1 h1 fun y hy => nomatch hy⟩

section
variable {s : State} {b : CfgBody} {w : Waiter} (hu : s.cfg.under = [⟨.body b, w⟩])
include hu

theorem exec_configCommit_failed : exec (.configCommit .failed) s = s.done s.failCfg.formCommit :=
  congrArg s.done (if_neg (by simp [hu]))

theorem exec_configCommit_made {r : NorResult} (hr : r ≠ .failed) :
    exec (.configCommit r) s = s.done s.commitCfg.formCommit := by
  cases r with
  | failed => exact absurd rfl hr
  | first => exact congrArg s.done (if_neg (by simp [hu]))
  | second => exact congrArg s.done (if_neg (by simp [hu]))

/-- A body made current: written to the copy that is not, then answered and told to the neighbours (R107). -/
theorem commitCfg_body : ∃ t : State, s.commitCfg = (t.answer w stOK).sendKeepers ∧
    t.cfg = { s.cfg.commit b with under := [] } := by
  have hf : s.factoryFormat [⟨.body b, w⟩] = s := if_neg (by simp)
  unfold State.commitCfg
  dsimp only
  rw [hu, hf]
  exact ⟨_, rfl, (raiseIf_cfg ..).trans ((raiseIf_cfg ..).trans (settleRegs_cfg ..))⟩

/-- A commit of a body that is made with nothing waiting leaves the record with that body, and no commit under way. -/
theorem exec_configCommit_written (hw : s.cfg.waiting = []) {r : NorResult} (hr : r ≠ .failed) :
    ∃ u, exec (.configCommit r) s = .next u ∧ u.cfg.under = [] ∧ u.cfg.copy0 = (s.cfg.commit b).copy0 ∧
      u.cfg.copy1 = (s.cfg.commit b).copy1 := by
  obtain ⟨t, ht, hc⟩ := commitCfg_body hu
  have hk : t.KeepsRecord s.commitCfg := by
    rw [ht]
    exact KeepsRecord.trans (KeepsRecord.answer ..) (KeepsRecord.of_cfg (sendKeepers_cfg ..))
  have hn : s.commitCfg.NoCommit := hk.noCommit ⟨by rw [hc], by rw [hc]; exact (Cfg.commit_waiting ..).trans hw⟩
  rw [exec_configCommit_made hu hr, State.formCommit_of_noCommit hn]
  exact ⟨_, State.done_eq .., hn.1, hk.copy0.trans (congrArg Cfg.copy0 hc :), hk.copy1.trans (congrArg Cfg.copy1 hc :)⟩

/-- A failed commit changes registers and the log, drops the copy that it wrote, and answers (R107). -/
theorem failCfg_body : ∃ (r : Regs) (l : Log) (c : Cfg),
    s.failCfg = State.answer { s with regs := r, log := l, cfg := c } w stMedia ∧
    c.under = [] ∧ c.waiting = s.cfg.waiting ∧ c.current = s.cfg.current := by
  have hf : s.factoryFormat [⟨.body b, w⟩] = s := if_neg (by simp)
  obtain ⟨c, hd, hc, hk⟩ := dropCommit_of_under (s := s) (by simp [hu])
  obtain ⟨r, l, h⟩ := State.raiseWith_eq { s with cfg := { c with waiting := s.cfg.waiting } } Ev.RST.CFG_COMMIT_FAIL 0
    false stMedia 0
  refine ⟨r, l, { c with waiting := s.cfg.waiting }, ?_, hc, rfl, hk⟩
  unfold State.failCfg
  dsimp only
  rw [hu, hf, hd]
  exact congrArg (fun t => State.answer t w stMedia) h

end

/-- Settles O22: the commit under way goes to the copy that is not current under the next generation, or leaves the
current one. -/
theorem configCommitWritesTheOtherCopy : Obligations.ConfigCommitWritesTheOtherCopy := by
  unfold Obligations.ConfigCommitWritesTheOtherCopy
  intro s b w r
  refine ⟨fun hu => exec_configCommit_idle hu r, fun hu hw => ⟨fun hr hg => ?_, ?_⟩⟩
  · obtain ⟨u, hx, hn, h0, h1⟩ := exec_configCommit_written hu hw hr
    have hc : u.cfg.current = (s.cfg.commit b).current := Cfg.current_congr h0 h1
    obtain ⟨hcur, -, hl⟩ | ⟨x, hcur, hl⟩ | ⟨x, hcur, hl⟩ := s.cfg.current_cases
    · rw [hcur]
      exact ⟨u, 0, hx, hn, hc.trans (Cfg.commit_first hcur hl b), fun c h => nomatch h⟩
    · obtain ⟨hnew, hold⟩ := Cfg.commit_copy1 (hg _ hcur) b hcur hl
      rw [hcur]
      refine ⟨u, 1, hx, hn, hc.trans hnew, fun c h => ?_⟩
      cases h
      exact ⟨(if_pos rfl).trans (h0.trans hold), rfl⟩
    · obtain ⟨hnew, hold⟩ := Cfg.commit_copy0 (hg _ hcur) b hcur hl
      rw [hcur]
      refine ⟨u, 0, hx, hn, hc.trans hnew, fun c h => ?_⟩
      cases h
      exact ⟨(if_neg Nat.one_ne_zero).trans (h1.trans hold), rfl⟩
  · obtain ⟨g, l, c, hf, hcu, hcw, hcc⟩ := failCfg_body hu
    have hk := KeepsRecord.answer { s with regs := g, log := l, cfg := c } w stMedia
    have hn : (State.answer { s with regs := g, log := l, cfg := c } w stMedia).NoCommit :=
      hk.noCommit ⟨hcu, hcw.trans hw⟩
    refine ⟨_, { s with regs := g, log := l, cfg := c }, ?_, hn.1, (Cfg.current_congr hk.copy0 hk.copy1).trans hcc, rfl,
      rfl, rfl, rfl, rfl, rfl⟩
    have hm : s.AnswerKeeps { s with regs := g, log := l, cfg := c } := ⟨rfl, rfl, rfl, rfl, rfl, rfl, rfl, rfl, rfl, id⟩
    rw [exec_configCommit_failed hu, hf, State.formCommit_of_noCommit hn]
    exact AnswerKeeps.done (AnswerKeeps.trans hm (AnswerKeeps.answer ..))

end Sys2Proof.Machine
end

section
/-! PROOF. O21: REG_READ, REG_WRITE, CONFIG_WRITE and CONFIG_FACTORY (R102, R113, R114, R118, R119, R126, R127, R131). -/

namespace Sys2Proof.Machine

open Sys2Proof

/-! ## The four commands as they start -/

theorem State.Starts.id_eq {s : State} {t : TagId} {op : Nat} {e : TagEntry} (h : s.Starts t op e) : e.id = t := by
  simpa using List.find?_some h.1

/-- A command that has just begun waits for no commit where none is outstanding. -/
theorem not_waiting_of_noCommit {s : State} (h : s.NoCommit) (t : TagId) :
    ¬ ((s.cfg.under ++ s.cfg.waiting).any fun p => p.waiter == .tag t) = true := by
  rw [h.1, h.2]; simp

section
variable {s : State} {t : TagId} {e : TagEntry}

theorem exec_regRead (h : s.Starts t 0x48 e) : exec (.regRead t) s = s.done (regReadBody e.started (s.begun e)) :=
  congrArg s.done (runCmd_starts h regReadBody)

theorem exec_regWrite (h : s.Starts t 0x49 e) (hn : s.NoCommit) : exec (.regWrite t) s =
    s.done ((s.begun e).regWrite (TagId.path e.id) (.tag e.id) (beAt e.msg.param 0 4)
      (BitVec.ofNat 32 (beAt e.msg.param 4 4)) (BitVec.ofNat 32 (beAt e.msg.param 8 4))) :=
  congrArg s.done ((runCmd_starts h regWriteBody).trans (if_neg (not_waiting_of_noCommit (s := s.begun e) hn e.id)))

theorem exec_configWrite (h : s.Starts t 0x4A e) (hn : s.NoCommit) : exec (.configWrite t) s =
    s.done ((s.begun e).configWrite e.msg.value (.tag e.id)) :=
  congrArg s.done ((runCmd_starts h configWriteBody).trans (if_neg (not_waiting_of_noCommit (s := s.begun e) hn e.id)))

theorem exec_configFactory (h : s.Starts t 0x4B e) (hn : s.NoCommit) : exec (.configFactory t) s =
    s.done ((s.begun e).configFactory (.tag e.id)) :=
  congrArg s.done ((runCmd_starts h configFactoryBody).trans (if_neg (not_waiting_of_noCommit (s := s.begun e) hn e.id)))

end

/-! ## Their answers -/

/-- A command that changes the state to `m` and leaves its entry executing is answered with a status. -/
theorem done_answer_tag {s m : State} {e : TagEntry} (hm : s.AnswerKeeps m) (he : m.entry? e.id = some e.started) (st : Nat) :
    ∃ u, s.done (m.answer (.tag e.id) st) = .next u ∧ u.Answers e (doneWith st e.asn []) ∧ m.AnswerFrame e u := by
  have ha : m.answer (.tag e.id) st = m.finish e.started st [] := by
    unfold State.answer
    dsimp only
    rw [he]
  rw [ha]
  exact ⟨_, AnswerKeeps.done (AnswerKeeps.trans hm (AnswerKeeps.finish ..)), finish_answers m e.started st [],
    AnswerFrame.finish m e.started st []⟩

/-- The same, of a command whose change could as well have come before it began. -/
theorem done_answer_begun {s m : State} {e : TagEntry} (hm : s.AnswerKeeps m) (st : Nat) :
    ∃ u, s.done ((m.begun e).answer (.tag e.id) st) = .next u ∧ u.Answers e (doneWith st e.asn []) ∧ m.AnswerFrame e u := by
  have hb : s.AnswerKeeps (m.begun e) := AnswerKeeps.trans hm (AnswerKeeps.of_answering (Answering.setEntry m e.started))
  obtain ⟨u, hu, ha, hf⟩ := done_answer_tag hb (entry_setEntry m e.started) st
  exact ⟨u, hu, ha, AnswerFrame.of_begun hf⟩

/-- A register read answers OK with the words read, or the status of the check that fails. -/
theorem regReadBody_answers {s t : State} {e : TagEntry} {st : Nat} {ws : List Word}
    (h : s.regRead (TagId.path e.id) (beAt e.msg.param 0 4) (beAt e.msg.param 4 2) = (st, ws, t)) :
    (regReadBody e s).Answers e (if st = stOK then doneData stOK e.asn [] (wordBytes ws) else doneWith st e.asn []) := by
  unfold regReadBody
  rw [h]
  dsimp only
  by_cases hs : st = stOK
  · rw [if_pos hs, if_pos hs]
    exact post_answers ..
  · rw [if_neg hs, if_neg hs]
    exact finish_answers ..

/-! ## What a register write leaves alone -/

theorem capture_begun (s : State) (e : TagEntry) (b p st o : Nat) :
    (s.begun e).capture b p st o = (s.capture b p st o).begun e := by
  have hw : ∀ a, (s.begun e).word a = s.word a := fun _ => rfl
  unfold State.capture
  dsimp only
  rw [hw]
  split <;> rfl

/-- A refusal is captured alike before and after the command has begun (R118). -/
theorem refuseWrite_begun (s : State) (e : TagEntry) (a st : Nat) :
    (s.begun e).refuseWrite a st = (s.refuseWrite a st).begun e := by
  unfold State.refuseWrite
  rw [capture_begun]
  split <;> rfl

theorem refuseWrite_keeps (s : State) (a st : Nat) : s.AnswerKeeps (s.refuseWrite a st) := by
  obtain ⟨r, h⟩ := s.refuseWrite_eq a st
  rw [h]
  exact AnswerKeeps.of_answering (Answering.regs s r)

/-- Events forced change only registers and the log (R120). -/
theorem forceEvents_eq (s : State) (b page : Nat) (set : Word) :
    ∃ r l, s.forceEvents b page set = { s with regs := r, log := l } := by
  unfold State.forceEvents
  refine List.foldlRecOn _ _ (motive := fun u : State => ∃ r l, u = { s with regs := r, log := l }) ⟨s.regs, s.log, rfl⟩ ?_
  rintro u ⟨r, l, rfl⟩ k -
  exact State.raiseWith_eq ..

/-- A write applied changes only registers, the event log, and the domains that accesses hold on (R119, R120). -/
theorem applyWrite_eq (s : State) (p : Path) (a : Nat) (v m : Word) :
    ∃ r l d, s.applyWrite p a v m = { s with regs := r, log := l, dev := { s.dev with domAccess := d } } := by
  unfold State.applyWrite
  dsimp only
  split
  · split <;> exact ⟨_, s.log, s.dev.domAccess, rfl⟩
  split
  · obtain ⟨r, l, h⟩ := forceEvents_eq s (addrBlock a) (addrPage a) (v &&& m)
    exact ⟨r, l, s.dev.domAccess, h⟩
  split
  · exact ⟨_, s.log, s.dev.domAccess, rfl⟩
  split
  · unfold State.powerRequest
    dsimp only
    split <;> exact ⟨_, s.log, _, rfl⟩
  split <;> exact ⟨_, s.log, s.dev.domAccess, rfl⟩

/-- The state after a write on a powered page keeps what no answer changes, and the tag table. -/
theorem applied_keeps (s : State) (p : Path) (a : Nat) (v m : Word) :
    s.AnswerKeeps ((s.powerPage a).applyWrite p a v m) ∧ ((s.powerPage a).applyWrite p a v m).cmd = s.cmd := by
  obtain ⟨d, hd⟩ := s.powerPage_eq a
  obtain ⟨r, l, d', h⟩ := applyWrite_eq (s.powerPage a) p a v m
  rw [h, hd]
  exact ⟨⟨rfl, rfl, rfl, rfl, rfl, rfl, rfl, rfl, rfl, id⟩, rfl⟩

/-! ## A commit of one change -/

/-- The commit of exactly one change forms and its command stays executing (R102). -/
def State.Forms (s : State) (e : TagEntry) (c : CfgChange) (u : State) : Prop :=
  u.cfg.under = [⟨c, .tag e.id⟩] ∧ u.cfg.waiting = [] ∧ u.regs = s.regs ∧ u.entry? e.id = some e.started

/-- A change alone is the next run. -/
theorem nextRun_single (p : CfgPending) : nextRun [p] = ([p], []) := by
  by_cases h : p.change = .factory <;> simp [nextRun, h]

/-- The values of a whole body have no second test (R106). -/
theorem retest_body (s : State) (b : CfgBody) (w : Waiter) : s.retest [⟨.body b, w⟩] = ([⟨.body b, w⟩], []) := rfl

theorem retest_factory (s : State) (w : Waiter) : s.retest [⟨.factory, w⟩] = ([⟨.factory, w⟩], []) := rfl

/-- A change that passes the second test of R484 in every state, with none before it, forms a commit of exactly itself. -/
theorem addChange_whole {s : State} {c : CfgChange} {w : Waiter} (h : s.NoCommit)
    (hr : ∀ t : State, t.retest [⟨c, w⟩] = ([⟨c, w⟩], [])) :
    s.addChange c w = { s with cfg := { s.cfg with under := [⟨c, w⟩] } } := by
  obtain ⟨hu, hw⟩ := h
  unfold State.addChange State.formCommit formGo
  dsimp only
  rw [hu, hw, if_neg (by simp), List.nil_append, nextRun_single]
  dsimp only
  rw [hr]
  exact formGo_under _ (List.cons_ne_nil _ _)

/-- A command whose change alone is the commit under way stays executing. -/
theorem done_forms {s b : State} {e : TagEntry} {c : CfgChange} (hn : b.NoCommit) (hr : b.regs = s.regs)
    (hb : b.entry? e.id = some e.started)
    (h : b.addChange c (.tag e.id) = { b with cfg := { b.cfg with under := [⟨c, .tag e.id⟩] } }) :
    ∃ u, s.done (b.addChange c (.tag e.id)) = .next u ∧ s.Forms e c u := by
  rw [h]
  exact ⟨_, State.done_eq .., rfl, hn.2, hr, hb⟩

/-! ## The four statements -/

section
variable {s : State} {e : TagEntry}

theorem regRead_answers (h : s.Starts e.id 0x48 e) {st : Nat} {ws : List Word} {s1 : State}
    (hr : (s.begun e).regRead (TagId.path e.id) (beAt e.msg.param 0 4) (beAt e.msg.param 4 2) = (st, ws, s1)) :
    ∃ u, exec (.regRead e.id) s = .next u ∧
      u.Answers e (if st = stOK then doneData stOK e.asn [] (wordBytes ws) else doneWith st e.asn []) := by
  rw [exec_regRead h]
  exact ⟨_, State.done_eq .., answers_congr rfl rfl (regReadBody_answers (e := e.started) hr)⟩

/-- A write that passes every check of Table 05-5 passes the last one. -/
theorem inRange8_of_writeCheck {p : Path} {a : Nat} {v m : Word} (h : s.writeCheck p a v m = none) :
    s.inRange8 a v m = true := by
  unfold State.writeCheck at h
  dsimp only at h
  repeat (split at h; · cases h)
  refine Decidable.byContradiction fun hr => ?_
  rw [if_neg hr] at h
  cases h

section
variable {a : Nat} {v m : Word} (ha : a = beAt e.msg.param 0 4) (hv : v = BitVec.ofNat 32 (beAt e.msg.param 4 4))
  (hm : m = BitVec.ofNat 32 (beAt e.msg.param 8 4))
include ha hv hm

theorem regWrite_refused (h : s.Starts e.id 0x49 e) (hn : s.NoCommit) {st : Nat}
    (hc : (s.begun e).writeCheck (TagId.path e.id) a v m = some st) :
    ∃ u, exec (.regWrite e.id) s = .next u ∧ u.Answers e (doneWith st e.asn []) ∧ (s.refuseWrite a st).AnswerFrame e u := by
  rw [exec_regWrite h hn, ← ha, ← hv, ← hm]
  unfold State.regWrite
  rw [State.ahead_of_noCommit (s := s.begun e) hn, hc]
  dsimp only
  rw [refuseWrite_begun]
  exact done_answer_begun (refuseWrite_keeps s a st) st

theorem regWrite_applied (h : s.Starts e.id 0x49 e) (hn : s.NoCommit) (hr : a ≠ 0xC0040)
    (hc : (s.begun e).writeCheck (TagId.path e.id) a v m = none) (hz : m &&& classCMask a = 0) :
    ∃ u, exec (.regWrite e.id) s = .next u ∧ u.Answers e (doneWith stOK e.asn []) ∧
      (((s.begun e).powerPage a).applyWrite (TagId.path e.id) a v m).AnswerFrame e u := by
  rw [exec_regWrite h hn, ← ha, ← hv, ← hm]
  unfold State.regWrite
  rw [State.ahead_of_noCommit (s := s.begun e) hn, hc, if_neg hr, if_neg (fun hnz => hnz hz)]
  dsimp only
  obtain ⟨hk, hcmd⟩ := applied_keeps (s.begun e) (TagId.path e.id) a v m
  exact done_answer_tag (AnswerKeeps.trans (AnswerKeeps.of_answering (Answering.setEntry s e.started)) hk)
    ((entry_congr hcmd _).trans (entry_setEntry s e.started)) stOK

theorem regWrite_forms (h : s.Starts e.id 0x49 e) (hn : s.NoCommit) (hr : a ≠ 0xC0040)
    (hc : (s.begun e).writeCheck (TagId.path e.id) a v m = none) (hz : m &&& classCMask a ≠ 0) :
    ∃ u, exec (.regWrite e.id) s = .next u ∧ s.Forms e (.reg a v m) u := by
  have hrange := inRange8_of_writeCheck hc
  rw [exec_regWrite h hn, ← ha, ← hv, ← hm]
  unfold State.regWrite
  rw [State.ahead_of_noCommit (s := s.begun e) hn, hc, if_neg hr, if_pos hz]
  dsimp only
  obtain ⟨d, hd⟩ := (s.begun e).powerPage_eq a
  rw [hd]
  exact done_forms hn rfl (entry_setEntry s e.started) (addChange_alone hn hrange)

end

theorem configWrite_answers (h : s.Starts e.id 0x4A e) (hn : s.NoCommit) :
    (∀ b, (parseBody e.msg.value).bind (fun b => if s.fabric then b.joined else some b) = some b →
      ∃ u, exec (.configWrite e.id) s = .next u ∧ s.Forms e (.body b) u) ∧
    ((parseBody e.msg.value).bind (fun b => if s.fabric then b.joined else some b) = none →
      ∃ u, exec (.configWrite e.id) s = .next u ∧ u.Answers e (doneWith stBadField e.asn []) ∧ s.AnswerFrame e u) := by
  have hx : (s.begun e).fabric = s.fabric := rfl
  rw [exec_configWrite h hn]
  unfold State.configWrite
  rw [hx]
  refine ⟨fun b hb => ?_, fun hb => ?_⟩
  · rw [hb]
    exact done_forms hn rfl (entry_setEntry s e.started) (addChange_whole hn fun u => retest_body u b _)
  · rw [hb]
    exact done_answer_begun (AnswerKeeps.refl s) stBadField

theorem configFactory_answers (h : s.Starts e.id 0x4B e) (hn : s.NoCommit) (hp : s.dev.phase = .service)
    (hf : s.flash.formatted = true) :
    (s.dev.straps.profile = 1 ∨ s.dev.straps.profile = 2 →
      ∃ u, exec (.configFactory e.id) s = .next u ∧ s.Forms e .factory u) ∧
    (s.dev.straps.profile = 0 ∨ s.dev.straps.profile = 3 →
      ∃ u, exec (.configFactory e.id) s = .next u ∧ u.Answers e (doneWith stBadField e.asn []) ∧ s.AnswerFrame e u) := by
  have hstale : ¬ ((s.begun e).inStale = true ∧ (s.begun e).rd Reg.STALE_STAT.REASON = 6) := fun hs => by
    rw [State.inStale_of_service (s := s.begun e) hp] at hs
    exact Bool.false_ne_true hs.1
  have htier : ¬ ((!(s.begun e).flash.formatted) = true ∧ (!(s.begun e).drbgOk) = true) := fun hs => by
    rw [show (s.begun e).flash.formatted = true from hf] at hs
    exact Bool.false_ne_true hs.1
  rw [exec_configFactory h hn]
  unfold State.configFactory
  rw [if_neg hstale]
  refine ⟨fun hs => ?_, fun hs => ?_⟩
  · have hprof : ¬ ((s.begun e).dev.straps.profile = 0 ∨ (s.begun e).dev.straps.profile = 3) := by
      rw [show (s.begun e).dev.straps.profile = s.dev.straps.profile from rfl]
      rcases hs with hs | hs <;> rw [hs] <;> decide
    rw [if_neg hprof, if_neg htier]
    exact done_forms hn rfl (entry_setEntry s e.started) (addChange_whole hn fun u => retest_factory u _)
  · rw [if_pos (show (s.begun e).dev.straps.profile = 0 ∨ (s.begun e).dev.straps.profile = 3 from hs)]
    exact done_answer_begun (AnswerKeeps.refl s) stBadField

end

/-- Settles O21: each command runs its body on the executing entry, which answers, or leaves its change as the commit under
way. -/
theorem registerCommandsAccessAndCommit : Obligations.RegisterCommandsAccessAndCommit := by
  unfold Obligations.RegisterCommandsAccessAndCommit
  intro s t e
  dsimp only
  refine ⟨fun h st ws s1 hr => ?_, fun h hn ha => ?_, fun h hn => ?_, fun h hn hp hf => ?_⟩ <;> obtain rfl := h.id_eq
  · exact regRead_answers h hr
  · exact ⟨fun st => regWrite_refused rfl rfl rfl h hn, fun hc =>
      ⟨regWrite_applied rfl rfl rfl h hn ha hc, regWrite_forms rfl rfl rfl h hn ha hc⟩⟩
  · exact configWrite_answers h hn
  · exact configFactory_answers h hn hp hf

end Sys2Proof.Machine
end

section
/-! PROOF. O10: a register field reads back, and what lies apart from it keeps its value. -/

namespace Sys2Proof.Machine

open Sys2Proof

/-- A register read after a field write: the field's own register with the field replaced, any other as before. -/
theorem State.word_wrAt (s : State) (f : Field) (i k v a : Nat) (h : SMap.wf regReset s.regs = true) :
    (s.wrAt f i k v).word a =
      if a = f.addr i k then wordPut (s.word (f.addr i k)) f.lo f.width v else s.word a :=
  State.word_setWord s _ _ _ h

/-- A field, on any page and in any copy, reads back as what was written to it. -/
theorem State.rdAt_wrAt_same (s : State) (f : Field) (i k v : Nat) (h : SMap.wf regReset s.regs = true)
    (hf : f.lo + f.width ≤ 32) : (s.wrAt f i k v).rdAt f i k = v % 2 ^ f.width := by
  unfold State.rdAt
  rw [State.word_wrAt s f i k v _ h, if_pos rfl, wordGet_wordPut_same _ _ _ _ hf]

/-- A field of another register, or of bits apart from the field written, keeps its value. -/
theorem State.rdAt_wrAt_other (s : State) (f g : Field) (i k j l v : Nat) (h : SMap.wf regReset s.regs = true)
    (hg : g.lo + g.width ≤ 32)
    (hd : g.addr j l ≠ f.addr i k ∨ g.lo + g.width ≤ f.lo ∨ f.lo + f.width ≤ g.lo) :
    (s.wrAt f i k v).rdAt g j l = s.rdAt g j l := by
  unfold State.rdAt
  rw [State.word_wrAt s f i k v _ h]
  by_cases ha : g.addr j l = f.addr i k
  · rw [if_pos ha, wordGet_wordPut_other _ _ _ _ _ _ hg (hd.resolve_left fun hn => hn ha), ha]
  · rw [if_neg ha]

/-- Settles O10: a field write is one write to the table of register words, and `wordPut` replaces the field's bits alone. -/
theorem registerFieldsReadBack : Obligations.RegisterFieldsReadBack := by
  unfold Obligations.RegisterFieldsReadBack
  intro s f g i k j l v h hf hg
  exact ⟨s.rdAt_wrAt_same f i k v h hf, s.rdAt_wrAt_other f g i k j l v h hg, rfl, s.setWord_wf _ _ h⟩

end Sys2Proof.Machine
end

section
/-! SUPPORT. Writes of OWNER (Table 05-3): their fields, the rules of R122, what they leave in the word; and what a refused
write leaves in the registers. -/

namespace Sys2Proof.Machine

open Sys2Proof

/-! ## Checks -/

/-- The bits of OWNER that a writer names: CLAIM, LOCK, STICKY and RELEASE (Table 05-3). -/
def ownerMask (claim lock sticky release : Bool) : Word :=
  (if claim then 0x1000000 else 0) ||| (if lock then 0x10000 else 0) ||| (if sticky then 0x20000 else 0) |||
    (if release then 0x2000000 else 0)

/-- The fields of OWNER that those bits are. -/
theorem covered_owner (page : Nat) (claim lock sticky release : Bool) :
    covered (pageBase page + hOwner) (ownerMask claim lock sticky release) =
      (if lock then [hdrField hOwner 16 1 .rw .a] else []) ++ (if sticky then [hdrField hOwner 17 1 .w1s .a] else []) ++
        (if claim then [hdrField hOwner 24 1 .wo .a] else []) ++ (if release then [hdrField hOwner 25 1 .wo .a] else []) := by
  have hf : ∀ dom, headerFields dom hOwner = headerFields false hOwner := fun _ => rfl
  unfold covered
  rw [fieldsOf_header page hOwner (by decide), hf]
  revert claim lock sticky release
  decide

/-- No field of the header has a range of its own: those of check 8 lie behind it. -/
theorem fieldAllowed_header (s t : State) {f : Field} (hf : f.off < 0x40) {a : Nat} (v : Nat) (ha : addrOff a < 0x40) :
    fieldAllowed s t f a v = true := by
  have hfind : (fieldRanges.find? fun x => x.1 == f) = none := by
    rw [List.find?_eq_none]
    intro x hx h
    have hoff : ∀ x ∈ fieldRanges, 0x40 ≤ x.1.off := by decide
    have := hoff x hx
    rw [eq_of_beq h] at this
    omega
  have hne : ∀ g : Field, 0x40 ≤ g.off → f ≠ g := fun g hg h => by rw [h] at hf; omega
  unfold fieldAllowed
  rw [hfind, if_neg (by rintro (h | h) <;> exact hne _ (by decide) h), if_neg (hne _ (by decide)), if_neg (hne _ (by decide)),
    if_neg (hne _ (by decide)), if_neg (hne _ (by decide)), if_neg (hne _ (by decide)), if_neg (by omega)]
  rfl

/-- A write that names bits of OWNER covers them whole, and they take every value. -/
theorem inRange8_owner (s : State) (page : Nat) (v : Word) (claim lock sticky release : Bool) :
    s.inRange8 (pageBase page + hOwner) v (ownerMask claim lock sticky release) = true := by
  have hoff := addrOff_pageBase page hOwner (by decide)
  refine (inRange8_iff ..).mpr ⟨?_, fun f hf => .inr (fieldAllowed_header _ _ ?_ _ (by rw [hoff]; decide)),
    fun h => absurd (hoff.symm.trans h) (by decide), fun h => absurd h (header_ne_rstCtrl page hOwner (by decide))⟩
  · rw [covered_owner]
    revert claim lock sticky release
    decide
  · rw [covered_owner] at hf
    revert f
    revert claim lock sticky release
    decide

theorem ownerMask_ne_zero {claim lock sticky release : Bool} (hm : (claim || lock || sticky || release) = true) :
    ownerMask claim lock sticky release ≠ 0 := by
  revert claim lock sticky release
  decide

/-- A write of OWNER's bits names a field that is not RO, and none that LOCK protects. -/
theorem covered_owner_access (page : Nat) {claim lock sticky release : Bool}
    (hm : (claim || lock || sticky || release) = true) :
    ((covered (pageBase page + hOwner) (ownerMask claim lock sticky release)).all fun f =>
      f.access == .ro || f.access == .rc) = false ∧
    ((covered (pageBase page + hOwner) (ownerMask claim lock sticky release)).any fun f => f.access == .rwl) = false := by
  rw [covered_owner]
  revert claim lock sticky release
  decide

/-- Where the page lets the writer write, a write of OWNER's bits is held to the rules of OWNER alone. -/
theorem writeCheck_owner {s b : State} {p : Path} {page : Nat} (h : s.WritesPage p page b) (hown : b.mayOwn p page)
    (v : Word) {claim lock sticky release : Bool} (hm : (claim || lock || sticky || release) = true) :
    b.writeCheck p (pageBase page + hOwner) v (ownerMask claim lock sticky release) =
      b.ownerCheck p (pageBase page) v (ownerMask claim lock sticky release) := by
  obtain ⟨-, hp, hw⟩ := h
  obtain ⟨hro, hlock⟩ := covered_owner_access page hm
  have hreach : ¬ ((pageBase page + hOwner) % 4 ≠ 0 ∨ (!pagePresent (page / 64) (page % 64)) = true ∨
      ownerMask claim lock sticky release = 0) := by
    rintro (ha | ha | ha)
    · unfold pageBase hOwner at ha; omega
    · rw [hp] at ha; exact Bool.false_ne_true ha
    · exact ownerMask_ne_zero hm ha
  have hfree : (wordGet (b.word (pageBase page + hOwner)) 12 3 != 0 && !b.owns p (pageBase page)) = false := by
    rcases hown with hown | hown
    · rw [show wordGet (b.word (pageBase page + hOwner)) 12 3 = 0 from hown]; rfl
    · rw [hown, Bool.not_true, Bool.and_false]
  have hevt : (hOwner == hEvtStat) = false := rfl
  unfold State.writeCheck
  dsimp only
  rw [pageBase_of_addrOff page hOwner (by decide), addrBlock_pageBase page hOwner (by decide),
    addrPage_pageBase page hOwner (by decide), addrOff_pageBase page hOwner (by decide), hevt, hro, hlock,
    if_neg hreach, if_neg (by simp [hw]), if_neg (by rw [Bool.and_assoc, hfree]; simp), if_neg Bool.false_ne_true,
    if_neg (by simp), if_pos rfl, inRange8_owner, if_pos rfl]
  cases b.ownerCheck p (pageBase page) v (ownerMask claim lock sticky release) <;> rfl

/-- A claim of a page that is free or the writer's own passes the rules of OWNER (R122). -/
theorem ownerCheck_claim {b : State} {p : Path} {page : Nat} (hown : b.mayOwn p page) (lock sticky : Bool) :
    b.ownerCheck p (pageBase page) (ownerMask true lock sticky false) (ownerMask true lock sticky false) = none := by
  have h24 : (ownerMask true lock sticky false).getLsbD 24 = true := by revert lock sticky; decide
  have h25 : (ownerMask true lock sticky false).getLsbD 25 = false := by revert lock sticky; decide
  have hmine : wordGet (b.word (pageBase page + hOwner)) 12 3 = 0 ∨ b.owns p (pageBase page) = true := hown
  unfold State.ownerCheck
  dsimp only
  rw [BitVec.and_self, h24, h25]
  rcases hmine with h | h <;> simp [h]

/-- On a page of the writer's own, LOCK is refused only where it would clear a sticky lock (R122, Table 05-3). -/
theorem ownerCheck_lock {b : State} {p : Path} {page : Nat} (hown : b.owns p (pageBase page) = true) (lock : Bool) :
    b.ownerCheck p (pageBase page) (ownerMask false lock false false) (ownerMask false true false false) =
      if !lock && (b.ownerWord page).getLsbD 17 && (b.ownerWord page).getLsbD 16 then some stNotPermitted else none := by
  unfold State.ownerCheck
  rw [hown]
  cases lock <;> simp [ownerMask, State.ownerWord]

theorem ownerCheck_sticky {b : State} {p : Path} {page : Nat} (hown : b.owns p (pageBase page) = true) :
    b.ownerCheck p (pageBase page) (ownerMask false false true false) (ownerMask false false true false) = none := by
  unfold State.ownerCheck
  rw [hown]
  simp [ownerMask]

theorem ownerCheck_release {b : State} {p : Path} {page : Nat} (hown : b.owns p (pageBase page) = true) :
    b.ownerCheck p (pageBase page) (ownerMask false false false true) (ownerMask false false false true) = none := by
  unfold State.ownerCheck
  rw [hown]
  simp [ownerMask]

/-! ## Effects -/

/-- A bit of a word with one bit replaced. -/
theorem getLsbD_wordPut_bit (w : Word) (k v i : Nat) (hk : k < 32) :
    (wordPut w k 1 v).getLsbD i = if i = k then v.testBit 0 else w.getLsbD i := by
  by_cases hi : i < 32
  · rw [getLsbD_wordPut _ _ _ _ _ hi]
    by_cases h : i = k
    · rw [if_pos (by omega), if_pos h, h, Nat.sub_self]
    · rw [if_neg (by omega), if_neg h]
  · rw [if_neg (by omega), BitVec.getLsbD_of_ge _ i (by omega), BitVec.getLsbD_of_ge _ i (by omega)]

/-- A bit set where it is asked for. -/
def setWhere (c : Bool) (k : Nat) (w : Word) : Word := if c then wordPut w k 1 1 else w

theorem getLsbD_setWhere (c : Bool) (k i : Nat) (w : Word) (hk : k < 32) :
    (setWhere c k w).getLsbD i = (c && i == k || w.getLsbD i) := by
  unfold setWhere
  cases c
  · simp
  · rw [if_pos rfl, getLsbD_wordPut_bit w k 1 i hk]
    by_cases h : i = k <;> simp [h]

theorem wordGet_setWhere (c : Bool) (k lo n : Nat) (w : Word) (h : lo + n ≤ k) (hk : k < 32) :
    wordGet (setWhere c k w) lo n = wordGet w lo n := by
  unfold setWhere
  split
  · exact wordGet_wordPut_other _ _ _ _ _ _ (by omega) (.inl h)
  · rfl

/-- The word of a page that a writer has claimed. -/
def claimedWord (p : Path) (w : Word) : Word := wordPut (wordPut w 12 3 (Path.code p)) 0 12 (Path.session p)

theorem ownerWrite_claim (p : Path) (w : Word) (lock sticky : Bool) :
    ownerWrite p w (ownerMask true lock sticky false) (ownerMask true lock sticky false) =
      setWhere sticky 17 (setWhere lock 16 (claimedWord p w)) := by
  cases lock <;> cases sticky <;> rfl

theorem ownerWrite_lock (p : Path) (w : Word) (lock : Bool) :
    ownerWrite p w (ownerMask false lock false false) (ownerMask false true false false) = wordPut w 16 1 lock.toNat := by
  cases lock <;> rfl

theorem ownerWrite_sticky (p : Path) (w : Word) :
    ownerWrite p w (ownerMask false false true false) (ownerMask false false true false) = wordPut w 17 1 1 := rfl

theorem ownerWrite_release (p : Path) (w : Word) :
    ownerWrite p w (ownerMask false false false true) (ownerMask false false false true) =
      if (wordPut w 0 15 0).getLsbD 17 then wordPut w 0 15 0 else wordPut (wordPut w 0 15 0) 16 1 0 := rfl

/-- A claim leaves PATH and SESSION naming the writer, and adds LOCK and STICKY where they are asked for. -/
theorem claimed_fields (p : Path) (w : Word) (lock sticky : Bool) {w' : Word}
    (hw : w' = setWhere sticky 17 (setWhere lock 16 (claimedWord p w))) :
    wordGet w' 12 3 = Path.code p ∧ wordGet w' 0 12 = Path.session p % 4096 ∧
      w'.getLsbD 16 = (lock || w.getLsbD 16) ∧ w'.getLsbD 17 = (sticky || w.getLsbD 17) := by
  have hbit : ∀ i, 15 ≤ i → i < 32 → (claimedWord p w).getLsbD i = w.getLsbD i := fun i hi hi' => by
    unfold claimedWord
    rw [getLsbD_wordPut _ _ _ _ _ hi', if_neg (by omega), getLsbD_wordPut _ _ _ _ _ hi', if_neg (by omega)]
  subst hw
  refine ⟨?_, ?_, ?_, ?_⟩
  · rw [wordGet_setWhere _ _ _ _ _ (by decide) (by decide), wordGet_setWhere _ _ _ _ _ (by decide) (by decide)]
    unfold claimedWord
    rw [wordGet_wordPut_other _ _ _ _ _ _ (by decide) (.inr (by decide)), wordGet_wordPut_same _ _ _ _ (by decide)]
    cases p <;> rfl
  · rw [wordGet_setWhere _ _ _ _ _ (by decide) (by decide), wordGet_setWhere _ _ _ _ _ (by decide) (by decide)]
    exact wordGet_wordPut_same _ _ _ _ (by decide)
  · rw [getLsbD_setWhere _ _ _ _ (by decide), getLsbD_setWhere _ _ _ _ (by decide), hbit 16 (by decide) (by decide)]
    simp
  · rw [getLsbD_setWhere _ _ _ _ (by decide), getLsbD_setWhere _ _ _ _ (by decide), hbit 17 (by decide) (by decide)]
    simp

/-- A release leaves PATH and SESSION 0, STICKY as it was, and LOCK only under STICKY. -/
theorem released_fields (w : Word) {w' : Word}
    (hw : w' = if (wordPut w 0 15 0).getLsbD 17 then wordPut w 0 15 0 else wordPut (wordPut w 0 15 0) 16 1 0) :
    wordGet w' 12 3 = 0 ∧ wordGet w' 0 12 = 0 ∧ w'.getLsbD 17 = w.getLsbD 17 ∧
      w'.getLsbD 16 = (w.getLsbD 17 && w.getLsbD 16) := by
  have hcleared : ∀ lo n, lo + n ≤ 15 → wordGet (wordPut w 0 15 0) lo n = 0 := fun lo n h => by
    refine Nat.eq_of_testBit_eq fun i => ?_
    rw [wordGet_testBit _ _ _ _ (by omega), Nat.zero_testBit]
    by_cases hi : i < n
    · rw [getLsbD_wordPut _ _ _ _ _ (by omega), if_pos (by omega), Nat.zero_testBit, Bool.and_false]
    · rw [decide_eq_false hi, Bool.false_and]
  have hkept : ∀ i, 15 ≤ i → i < 32 → (wordPut w 0 15 0).getLsbD i = w.getLsbD i := fun i hi hi' => by
    rw [getLsbD_wordPut _ _ _ _ _ hi', if_neg (by omega)]
  have h17 := hkept 17 (by decide) (by decide)
  subst hw
  rw [h17]
  cases hs : w.getLsbD 17
  · rw [if_neg Bool.false_ne_true]
    refine ⟨?_, ?_, ?_, ?_⟩
    · rw [wordGet_wordPut_other _ _ _ _ _ _ (by decide) (.inl (by decide)), hcleared 12 3 (by decide)]
    · rw [wordGet_wordPut_other _ _ _ _ _ _ (by decide) (.inl (by decide)), hcleared 0 12 (by decide)]
    · rw [getLsbD_wordPut_bit _ _ _ _ (by decide), if_neg (by decide), h17, hs]
    · rw [getLsbD_wordPut_bit _ _ _ _ (by decide), if_pos rfl, Nat.zero_testBit, Bool.false_and]
  · rw [if_pos rfl]
    exact ⟨hcleared 12 3 (by decide), hcleared 0 12 (by decide), h17.trans hs, hkept 16 (by decide) (by decide)⟩

/-! ## Writes of OWNER -/

theorem applyWrite_owner (s : State) (p : Path) (page : Nat) (v m : Word) :
    s.applyWrite p (pageBase page + hOwner) v m =
      s.setWord (pageBase page + hOwner) (ownerWrite p (s.ownerWord page) v m) := by
  unfold State.applyWrite
  dsimp only
  rw [addrOff_pageBase page hOwner (by decide)]
  rfl

/-- A write of OWNER that passes changes that word alone of all registers, and is answered OK. -/
theorem owner_written {s b : State} {p : Path} {page : Nat} {v m : Word} (h : s.Reaches p b)
    (hc : b.writeCheck p (pageBase page + hOwner) v m = none) :
    ∃ u, s.done (s.accessWrite p (pageBase page + hOwner) v m) = .next u ∧
      u.regs = SMap.set regReset (pageBase page + hOwner) (ownerWrite p (b.ownerWord page) v m) b.regs ∧
      u.out = b.out ++ [.regResult p stOK []] := by
  obtain ⟨u, hu, k⟩ := header_applied h (by decide) (by decide) hc
  rw [applyWrite_owner] at k
  exact ⟨u, hu, k.regs, k.out⟩

/-- A refused write of a present page changes of all registers at most the page's ERR_CAPT (R118). -/
theorem State.refuseWrite_regs (s : State) {a : Nat} (st : Nat) (hp : pagePresent (addrBlock a) (addrPage a) = true) :
    ∃ c, (s.refuseWrite a st).regs = SMap.set regReset (a - addrOff a + hErrCapt) c s.regs := by
  have hbase : pageAddr (addrBlock a) (addrPage a) = a - addrOff a := by
    unfold pageAddr addrBlock addrPage addrOff; omega
  unfold State.refuseWrite
  rw [if_pos hp, ← hbase]
  unfold State.capture
  dsimp only
  split <;> exact ⟨_, rfl⟩

/-- A refused write of a present page is answered with its status, and changes of all registers at most ERR_CAPT. -/
theorem access_refused_regs {s b : State} {p : Path} {a st : Nat} {v m : Word} (h : s.Reaches p b)
    (hp : pagePresent (addrBlock a) (addrPage a) = true) (hc : b.writeCheck p a v m = some st) :
    ∃ u, s.done (s.accessWrite p a v m) = .next u ∧ u.out = b.out ++ [.regResult p st []] ∧
      ∃ c, u.regs = SMap.set regReset (a - addrOff a + hErrCapt) c b.regs := by
  obtain ⟨u, hu, k⟩ := access_refused h hc
  obtain ⟨c, hr⟩ := b.refuseWrite_regs st hp
  exact ⟨u, hu, by rw [k.out, State.refuseWrite_out], c, k.regs.trans hr⟩

end Sys2Proof.Machine
end

section
/-! PROOF. O29: OWNER written by the page's owner, or by the writer that claims it. -/

namespace Sys2Proof.Machine

open Sys2Proof

theorem exec_claim (p : Path) (page : Nat) (lock sticky : Bool) (s : State) : exec (.claim p page lock sticky) s =
    s.done (s.accessWrite p (pageBase page + hOwner) (ownerMask true lock sticky false) (ownerMask true lock sticky false)) := by
  cases lock <;> cases sticky <;> rfl

theorem exec_lock (p : Path) (page : Nat) (lock : Bool) (s : State) : exec (.lock p page lock) s =
    s.done (s.accessWrite p (pageBase page + hOwner) (ownerMask false lock false false) (ownerMask false true false false)) := by
  cases lock <;> rfl

theorem exec_sticky (p : Path) (page : Nat) (s : State) : exec (.sticky p page) s =
    s.done (s.accessWrite p (pageBase page + hOwner) (ownerMask false false true false) (ownerMask false false true false)) :=
  rfl

theorem exec_release (p : Path) (page : Nat) (s : State) : exec (.release p page) s =
    s.done (s.accessWrite p (pageBase page + hOwner) (ownerMask false false false true) (ownerMask false false false true)) :=
  rfl

/-- Settles O29: each row is one write to OWNER, held to the rules of R122, and it changes that word as Table 05-3 says. -/
theorem ownersClaimLockAndRelease : Obligations.OwnersClaimLockAndRelease := by
  unfold Obligations.OwnersClaimLockAndRelease
  intro s b p page lock sticky h
  dsimp only
  refine ⟨fun hown => ?_, fun _ hmine => ⟨fun hl => ?_, fun hs hl => ?_, ?_, ?_⟩⟩
  · have hc := (writeCheck_owner h hown _ (by rfl)).trans (ownerCheck_claim hown lock sticky)
    obtain ⟨u, hu, hr, ho⟩ := owner_written h.1 hc
    rw [← exec_claim] at hu
    exact ⟨u, _, hu, hr, claimed_fields p _ lock sticky (ownerWrite_claim ..), ho⟩
  · have hfree : (!lock && (b.ownerWord page).getLsbD 17 && (b.ownerWord page).getLsbD 16) = false := by
      rcases hl with hl | hl | hl <;> simp only [hl, Bool.not_true, Bool.and_false, Bool.false_and]
    have hc := (writeCheck_owner h (.inr hmine) _ (by rfl)).trans ((ownerCheck_lock hmine lock).trans
      (if_neg (by rw [hfree]; exact Bool.false_ne_true)))
    obtain ⟨u, hu, hr, ho⟩ := owner_written h.1 hc
    rw [← exec_lock] at hu
    refine ⟨u, _, hu, hr, ⟨?_, fun i hi => ?_⟩, ho⟩
    · rw [ownerWrite_lock, getLsbD_wordPut_bit _ _ _ _ (by decide), if_pos rfl]; cases lock <;> rfl
    · rw [ownerWrite_lock, getLsbD_wordPut_bit _ _ _ _ (by decide), if_neg hi]
  · have hc := (writeCheck_owner h (.inr hmine) _ (by rfl)).trans ((ownerCheck_lock hmine false).trans
      (if_pos (by rw [hs, hl]; rfl)))
    have hp : pagePresent (addrBlock (pageBase page + hOwner)) (addrPage (pageBase page + hOwner)) = true := by
      rw [addrBlock_pageBase _ _ (by decide), addrPage_pageBase _ _ (by decide)]; exact h.2.1
    obtain ⟨u, hu, ho, hr⟩ := access_refused_regs h.1 hp hc
    rw [pageBase_of_addrOff _ _ (by decide)] at hr
    rw [← exec_lock] at hu
    exact ⟨u, hu, ho, hr⟩
  · have hc := (writeCheck_owner h (.inr hmine) _ (by rfl)).trans (ownerCheck_sticky hmine)
    obtain ⟨u, hu, hr, ho⟩ := owner_written h.1 hc
    rw [← exec_sticky] at hu
    refine ⟨u, _, hu, hr, ⟨?_, fun i hi => ?_⟩, ho⟩
    · rw [ownerWrite_sticky, getLsbD_wordPut_bit _ _ _ _ (by decide), if_pos rfl]; rfl
    · rw [ownerWrite_sticky, getLsbD_wordPut_bit _ _ _ _ (by decide), if_neg hi]
  · have hc := (writeCheck_owner h (.inr hmine) _ (by rfl)).trans (ownerCheck_release hmine)
    obtain ⟨u, hu, hr, ho⟩ := owner_written h.1 hc
    rw [← exec_release] at hu
    exact ⟨u, _, hu, hr, released_fields _ (ownerWrite_release ..), ho⟩

end Sys2Proof.Machine
end

section
/-! PROOF. O30: who writes an owned page. -/

namespace Sys2Proof.Machine

open Sys2Proof

/-- A page that another owns refuses every write but one of EVT_STAT and one of the debug port (R123). -/
theorem writeCheck_notOwner {s : State} {p : Path} {a : Nat} {v m : Word} (ha : a % 4 = 0) (hm : m ≠ 0)
    (hp : pagePresent (addrBlock a) (addrPage a) = true)
    (hw : s.mayWrite p (addrBlock a) (addrOff a == hEvtStat) = true)
    (howned : wordGet (s.word (a - addrOff a + hOwner)) 12 3 ≠ 0) (hother : s.owns p (a - addrOff a) = false)
    (hpath : p ≠ .debug) (hevt : (addrOff a == hEvtStat) = false) : s.writeCheck p a v m = some stNotPermitted := by
  have hreach : ¬ (a % 4 ≠ 0 ∨ !pagePresent (addrBlock a) (addrPage a) ∨ m = 0) := by
    simpa [ha, hp] using hm
  unfold State.writeCheck
  dsimp only
  rw [if_neg hreach, if_neg (by simp [hw]), if_pos]
  simp [hevt, hother, hpath, howned]

/-- Settles O30: the check of the owner refuses another's write, and where it does not apply only the fields, LOCK and the
ranges are left of Table 05-5. -/
theorem onlyTheOwnerWritesAnOwnedPage : Obligations.OnlyTheOwnerWritesAnOwnedPage := by
  unfold Obligations.OnlyTheOwnerWritesAnOwnedPage
  intro s b p a v m h ha hm hp
  dsimp only
  intro hw
  refine ⟨fun howned hother hpath hevt => ?_, fun hfree hfields hlock hoff => ?_⟩
  · exact access_refused_regs h hp (writeCheck_notOwner ha hm hp hw howned hother hpath hevt)
  · have howner : wordGet (b.word (a - addrOff a + hOwner)) 12 3 = 0 ∨ b.owns p (a - addrOff a) = true ∨ p = .debug ∨
        addrOff a = hEvtStat := hfree.imp_right fun h => h.imp_right fun h => h.imp_right eq_of_beq
    rw [writeCheck_owned ha hp hm hw howner hoff, hfields, if_neg Bool.false_ne_true, if_neg]
    rcases hlock with rfl | h | h
    · simp
    · rw [h]; simp
    · rw [h, Bool.and_false]; exact Bool.false_ne_true

end Sys2Proof.Machine
end

section
/-! PROOF. O36: the MCTP control messages. -/

namespace Sys2Proof.Machine

open Sys2Proof

/-- A control request that is taken is executed once its arrival has woken the device. -/
theorem State.mctpCtl_taken {s b : State} {c : MctpCtl} (h : s.TakesControl c b) (body : State → State) :
    s.mctpCtl c body = body b := by
  obtain ⟨haddr, hpec, hreq, hans, rfl⟩ := h
  exact if_pos ⟨haddr, hpec, hreq, hans⟩

/-- A control request at another address, or without its PEC, is discarded. -/
theorem State.mctpCtl_discarded {s : State} {c : MctpCtl} (h : c.addr ≠ s.smbusAddr ∨ c.pecOk = false)
    (body : State → State) : s.mctpCtl c body = s := by
  refine if_neg fun ⟨haddr, hpec, _⟩ => ?_
  rcases h with h | h
  · exact h haddr
  · rw [h] at hpec; exact Bool.false_ne_true hpec

/-- The outcome of a control request that is taken: its body's outputs and MCTP state. -/
theorem done_mctpCtl_taken {s b : State} {c : MctpCtl} (h : s.TakesControl c b) (body : State → State) :
    ∃ u, s.done (s.mctpCtl c body) = .next u ∧ u.out = (body b).out ∧ u.mctp = (body b).mctp := by
  rw [State.mctpCtl_taken h]
  exact ⟨_, State.done_eq .., rfl, rfl⟩

/-- Settles O36: each request that is taken runs its body on the state its arrival leaves, which emits the answer. -/
theorem mctpControlMessagesAreAnswered : Obligations.MctpControlMessagesAreAnswered := by
  unfold Obligations.MctpControlMessagesAreAnswered
  intro s b c op eid code
  refine ⟨fun h => ?_, fun h => ⟨fun h2 h3 hlo hhi => ?_, ?_, ?_, ?_, ?_, ?_⟩⟩
  · show s.done (s.mctpCtl c _) = _
    rw [State.mctpCtl_discarded h, State.done_self]
  · show ∃ u, s.done (s.mctpCtl c _) = .next u ∧ _
    rw [State.mctpCtl_taken h, if_neg (by omega), if_neg h3]
    exact ⟨_, State.done_eq .., rfl, rfl⟩
  · exact done_mctpCtl_taken h _
  · exact done_mctpCtl_taken h _
  · exact done_mctpCtl_taken h _
  · show ∃ u v, s.done (s.mctpCtl c _) = .next u ∧ _
    rw [State.mctpCtl_taken h, if_pos rfl]
    exact ⟨_, beBytes 2 (Config.freeNat b.free), State.done_eq .., rfl, rfl, rfl⟩
  · exact done_mctpCtl_taken h _

end Sys2Proof.Machine
end

section
/-! SUPPORT. What storing records may change (R200, R201, R202, R266), and what the stamp of an admission changes (R180). -/

namespace Sys2Proof.Machine

open Sys2Proof

/-- Nothing but what the storing of records may change differs: registers, the event log, keys and values, flash, the key
store's counters and slots, and the fabric. -/
def State.Storing (s u : State) : Prop :=
  ∃ r l v f k b, u = { s with regs := r, log := l, kv := v, flash := f, key := k, fab := b }

namespace Storing

theorem refl (s : State) : s.Storing s := ⟨s.regs, s.log, s.kv, s.flash, s.key, s.fab, rfl⟩

theorem trans {s t u : State} (h : s.Storing t) (k : t.Storing u) : s.Storing u := by
  obtain ⟨r, l, v, f, k, b, rfl⟩ := h
  obtain ⟨r', l', v', f', k', b', rfl⟩ := k
  exact ⟨r', l', v', f', k', b', rfl⟩

theorem cmd {s u : State} (h : s.Storing u) : u.cmd = s.cmd := by
  obtain ⟨r, l, v, f, k, b, rfl⟩ := h; rfl

theorem dev {s u : State} (h : s.Storing u) : u.dev = s.dev := by
  obtain ⟨r, l, v, f, k, b, rfl⟩ := h; rfl

theorem of_pair {α : Type} {x : α × State} {a : α} {s t : State} (h : x = (a, t)) (hx : s.Storing x.2) : s.Storing t := by
  rw [h] at hx; exact hx

theorem of_sealing {s u : State} (h : s.Sealing u) : s.Storing u := by
  obtain ⟨r, l, k, f, rfl⟩ := h
  exact ⟨r, l, s.kv, s.flash, k, f, rfl⟩

theorem of_draining {s u : State} (h : s.Draining u) : s.Storing u := by
  obtain ⟨r, l, v, f, rfl⟩ := h
  exact ⟨r, l, v, f, s.key, s.fab, rfl⟩

theorem kv (s : State) (v : Kv) : s.Storing { s with kv := v } := ⟨s.regs, s.log, v, s.flash, s.key, s.fab, rfl⟩

theorem kvFlash (s : State) (v : Kv) (f : Flash) : s.Storing { s with kv := v, flash := f } :=
  ⟨s.regs, s.log, v, f, s.key, s.fab, rfl⟩

theorem foldl {α : Type} (f : State → α → State) (hf : ∀ (s : State) a, s.Storing (f s a)) (l : List α) (s : State) :
    s.Storing (l.foldl f s) := by
  induction l generalizing s with
  | nil => exact refl s
  | cons a l ih => exact trans (hf s a) (ih _)

/-! ## Leaf pages -/

theorem splitLeaf (s : State) (l : Leaf) : s.Storing (s.splitLeaf l) := by
  unfold State.splitLeaf
  dsimp only
  split
  · exact refl s
  · exact kv ..

theorem mergeLeaf (s : State) (l : Leaf) : s.Storing (s.mergeLeaf l) := by
  unfold State.mergeLeaf
  split
  · exact refl s
  · split
    · exact kvFlash ..
    · exact refl s

theorem changeLeaf (s : State) (n : Nat) (key : Bytes) : s.Storing (s.changeLeaf n key) := by
  unfold State.changeLeaf
  split
  · exact kv ..
  · rename_i l _
    extract_lets m t u
    have hu : s.Storing u := trans (kv s _) (splitLeaf t m)
    split
    · exact hu
    · extract_lets v
      have hv : s.Storing v := trans hu (mergeLeaf ..)
      split
      · split
        · exact trans hv (mergeLeaf ..)
        · exact hv
      · exact hv

theorem sealLeaf (s : State) (n : Ns) (l : Leaf) : s.Storing (s.sealLeaf n l).2 := by
  have hn : s.Storing (if s.noCipher then (.error stInternal, s) else s.nonce 3 : Except Nat Bytes × State).2 := by
    split
    · exact refl s
    · exact of_sealing (Sealing.nonce s 3)
  unfold State.sealLeaf
  split
  · exact refl s
  · split
    · rename_i h; exact of_pair h hn
    · rename_i h
      exact trans (of_pair h hn) (trans (of_sealing (Sealing.cipher ..)) (kv ..))

theorem sealLeaves (n : Ns) (ls : List Leaf) (s : State) : s.Storing (sealLeaves n ls s).2 := by
  induction ls generalizing s with
  | nil => exact refl s
  | cons l ls ih =>
    unfold Machine.sealLeaves
    split
    · rename_i h; exact of_pair h (sealLeaf ..)
    · rename_i h; exact trans (of_pair h (sealLeaf ..)) (ih _)

theorem sealWritten (s : State) (n : Nat) : s.Storing (s.sealWritten n).2 := by
  unfold State.sealWritten
  split
  · exact refl s
  · exact sealLeaves ..

theorem followLeaves (s t : State) (n : Nat) (key : Bytes) : t.Storing (s.followLeaves t n key) := by
  unfold State.followLeaves
  dsimp only
  split
  · exact refl t
  · refine foldl _ (fun u e => ?_) _ _
    split
    · exact refl u
    · split
      · exact refl u
      · split
        · exact kv ..
        · exact kv ..

theorem touchLeaf (s : State) (n : Nat) (key : Bytes) : s.Storing (s.touchLeaf n key).2 := by
  have hs : s.Storing ((s.changeLeaf n key).sealWritten n).2 := trans (changeLeaf ..) (sealWritten ..)
  unfold State.touchLeaf
  split
  · rename_i h; exact of_pair h hs
  · rename_i h; exact trans (of_pair h hs) (followLeaves ..)

theorem touchLeaves (n : Nat) (ks : List Bytes) (s : State) : s.Storing (touchLeaves n ks s).2 := by
  induction ks generalizing s with
  | nil => exact refl s
  | cons k ks ih =>
    unfold Machine.touchLeaves
    split
    · rename_i h; exact of_pair h (touchLeaf ..)
    · rename_i h; exact trans (of_pair h (touchLeaf ..)) (ih _)

/-! ## PRIOR records -/

theorem dropPriors (s : State) (n : Nat) : s.Storing (s.dropPriors n) := by
  unfold State.dropPriors
  split
  · exact refl s
  · split
    · exact refl s
    · extract_lets keep keys lost
      split
      · exact refl s
      · rename_i h
        exact trans (of_pair h (trans (kv s _) (touchLeaves ..))) (foldl _ (fun u l => kvFlash u _ _) _ _)

theorem backUp (s : State) : s.Storing s.backUp := by
  unfold State.backUp
  split
  · exact refl s
  · exact kv ..

theorem bufferFit (s : State) : s.Storing s.bufferFit := by
  unfold State.bufferFit
  split
  · exact refl s
  · exact of_draining (Draining.drain s)

theorem journal {s t : State} (h : s.Storing t) (v : State) (host : Bool) : s.Storing (v.journal t host) :=
  trans h (kvFlash t t.kv _)

theorem sweepPriors (s : State) (n : Nat) : s.Storing (s.sweepPriors n) := by
  unfold State.sweepPriors
  split
  · exact refl s
  · split
    · exact refl s
    · exact trans (journal (trans (backUp s) (dropPriors ..)) s true) (bufferFit ..)

/-- The stamp noted at an admission changes namespaces and what they store alone (R180, R202). -/
theorem noteStamp (s : State) (c : QueuedCmd) : s.Storing (s.noteStamp c) := by
  unfold State.noteStamp
  dsimp only
  split
  · exact refl s
  · split
    · exact refl s
    · exact trans (kv s _) (sweepPriors ..)

end Storing

end Sys2Proof.Machine
end

section
/-! PROOF. O41: admission from the receive queues (R161, R163 to R165, Table 07-1). -/

namespace Sys2Proof.Machine

open Sys2Proof

/-! ## PAUSE -/

/-- Outputs put out one after another change nothing else. -/
theorem foldl_emit_eq {α : Type} (g : α → Output) (l : List α) (s : State) :
    ∃ o, l.foldl (fun (t : State) x => t.emit (g x)) s = { s with out := o } := by
  induction l generalizing s with
  | nil => exact ⟨s.out, rfl⟩
  | cons x l ih =>
    obtain ⟨o, h⟩ := ih (s.emit (g x))
    exact ⟨o, h⟩

/-- PAUSE frames are put out, and nothing else changes (R138). -/
theorem pauseHosts_eq (s : State) (q : Nat) : ∃ o, s.pauseHosts q = { s with out := o } := by
  unfold State.pauseHosts
  split
  · exact foldl_emit_eq (fun (x : Port × Nat) => .pauseOut x.2 q) _ s
  · exact ⟨s.out, rfl⟩

/-- The checks of Table 07-1 do not look at what has been put out. -/
theorem refusal_out (s : State) (o : List Output) (c : QueuedCmd) : ({ s with out := o } : State).refusal c = s.refusal c := rfl

/-! ## The front command -/

/-- The state in which the front command is checked: it has left the queue, which ends a PAUSE where the queues were full. -/
def State.fronted (s : State) (cs : List QueuedCmd) : State :=
  let b := { s with cmd := { s.cmd with queue := cs } }
  if cs.length = 16383 then b.pauseHosts 0 else b

theorem fronted_eq (s : State) (cs : List QueuedCmd) :
    ∃ o, s.fronted cs = { s with cmd := { s.cmd with queue := cs }, out := o } := by
  unfold State.fronted
  dsimp only
  split
  · exact pauseHosts_eq ..
  · exact ⟨s.out, rfl⟩

theorem exec_admission_stopped {s : State} (h : s.admits = false) : exec .receiveQueueAdmission s = .next s := by
  show s.done (if s.admits then _ else s) = _
  rw [h]
  exact State.done_self s

theorem exec_admission_empty {s : State} (h : s.admits = true) (hq : s.cmd.queue = []) :
    exec .receiveQueueAdmission s = .next s := by
  show s.done (if s.admits then s.admitFront else s) = _
  unfold State.admitFront
  rw [h, hq]
  exact State.done_self s

theorem exec_admission {s : State} {c : QueuedCmd} {cs : List QueuedCmd} (h : s.admits = true) (hq : s.cmd.queue = c :: cs) :
    exec .receiveQueueAdmission s = s.done ((s.fronted cs).takeCommand c) := by
  show s.done (if s.admits then s.admitFront else s) = _
  unfold State.admitFront
  rw [h, hq]
  rfl

/-! ## A command admitted -/

/-- The tag-table entry of a command that is admitted (R164, R165). -/
def State.newEntry (s : State) (c : QueuedCmd) : TagEntry :=
  { id := ⟨c.ctx, c.tag⟩, cls := c.cls, state := .admitted, msg := c.msg, asn := SMap.get oneNat s.cmd.nextAsn c.msg.asnSpace
    order := s.cmd.nextOrder, version := s.versionFor c.msg, result := none, seqNo := none, stepTime := 0, classed := []
    mirrors := [], degraded := false, media := false, purging := none }

/-- The state once it is made. -/
def State.withEntry (s : State) (c : QueuedCmd) : State :=
  { s with cmd := { s.cmd with
      tags := s.cmd.tags ++ [s.newEntry c]
      nextAsn := SMap.set oneNat c.msg.asnSpace ((s.newEntry c).asn + 1) s.cmd.nextAsn
      nextOrder := s.cmd.nextOrder + 1 } }

/-- A command that passes the checks has its entry made, counted and its stamp noted; under a controller reset it is answered
at once (R97). -/
theorem takeCommand_admitted {s : State} {c : QueuedCmd} (h : s.refusal c = none) : ∃ t, (s.withEntry c).Storing t ∧
    s.takeCommand c = if s.dev.resetBusy then t.finish (s.newEntry c) stResetAborted [] else t := by
  unfold State.takeCommand
  rw [h]
  dsimp -zeta only
  unfold State.admitted
  extract_lets sp asn e old cmd t u
  have hu : (s.withEntry c).Storing u := Storing.trans ⟨_, s.log, s.kv, s.flash, s.key, s.fab, rfl⟩ (Storing.noteStamp ..)
  refine ⟨u, hu, ?_⟩
  rw [Storing.dev hu]
  rfl

/-! ## A command refused -/

theorem chunks_single {α : Type} {n : Nat} {l : List α} (h0 : l ≠ []) (hn : l.length ≤ n) : chunks n l = [l] := by
  unfold chunks
  cases l with
  | nil => exact absurd rfl h0
  | cons a l =>
    rw [List.length_cons] at hn ⊢
    unfold chunksGo
    rw [List.take_of_length_le hn, List.drop_of_length_le hn, if_neg (by simp)]
    unfold chunksGo
    split <;> rfl

theorem leBytes_length (n v : Nat) : (leBytes n v).length = n := by
  induction n generalizing v with
  | zero => rfl
  | succ n ih => rw [leBytes, List.length_cons, ih]

/-- A completion header has 24 bytes (Table 06-7). -/
theorem Completion.header_length (c : Completion) : c.header.length = 24 := by
  unfold Completion.header beBytes
  simp only [List.length_append, List.length_reverse, leBytes_length, List.length_take, List.length_replicate]
  omega

/-- A completion without data takes one fragment. -/
theorem frags_doneWith (x : Session) (st asn : Nat) (p : Bytes) (tag : Nat) (owner : Option Nat) :
    ((doneWith st asn p).frags x.frag tag owner).length = 1 := by
  have hl := Completion.header_length (doneWith st asn p)
  have hc : chunks x.frag ((doneWith st asn p).header ++ []) = [(doneWith st asn p).header ++ []] := by
    refine chunks_single (fun h => ?_) ?_
    · rw [List.append_nil] at h; rw [h] at hl; cases hl
    · rw [List.append_nil, hl]; unfold Session.frag; split <;> omega
  show (List.foldl _ (0, ([] : List OutFrag)) (chunks x.frag ((doneWith st asn p).header ++ []))).2.length = 1
  rw [hc]
  rfl

/-- Sending leaves the commands alone where the session goes on. -/
theorem pump_cmd_of_goesOn {s : State} {i : Nat} {x : Session} (hx : s.session? i = some x) (hgo : x.goesOn) :
    (s.pump i).cmd = s.cmd := by
  have hp : x.Continues (pumpGo s.grant x.outbox (16777216 - s.staged) x).1 := pumpGo_continues s.grant x.outbox _ x
  unfold State.pump
  rw [hx]
  dsimp only
  split
  · rfl
  · rw [if_neg (by rw [(hp.goesOn hgo).stays, Bool.and_false]; exact Bool.false_ne_true)]
    exact sendFrames_cmd ..

/-- A completion without data to a session that goes on changes no command. -/
theorem respond_cmd_of_goesOn {s : State} {t : TagId} (st asn : Nat) (p : Bytes) (live : Bool)
    (h : ∀ i x, t.ctx = .session i → s.session? i = some x → x.goesOn ∧ x.nextSeq + x.outbox.length + 1 < 2 ^ 63) :
    (s.respond t (doneWith st asn p) live).cmd = s.cmd := by
  cases ht : t.ctx with
  | session i =>
    unfold State.respond
    extract_lets u
    have hs : u.session? i = s.session? i := session_congr (countStatus_sessions ..) i
    rw [ht]
    dsimp only
    rw [hs]
    cases hx : s.session? i with
    | none => exact countStatus_cmd ..
    | some x =>
      obtain ⟨⟨hc, hn, ha⟩, hroom⟩ := h i x ht hx
      have hid := session_id hx
      have hkeep : ∀ (u : State) (fs : List OutFrag), fs.length = 1 →
          ((u.setSession { x with outbox := x.outbox ++ fs }).pump i).cmd = u.cmd := by
        intro u fs hfs
        have hgo : ({ x with outbox := x.outbox ++ fs } : Session).goesOn :=
          ⟨hc, by rw [List.length_append, hfs]; omega, ha⟩
        exact pump_cmd_of_goesOn (hid ▸ session_setSession u { x with outbox := x.outbox ++ fs }) hgo
      exact (hkeep _ _ (frags_doneWith ..)).trans (countStatus_cmd ..)
  | forward src =>
    unfold State.respond
    rw [ht]
    exact (fabReply_cmd ..).trans (countStatus_cmd ..)
  | orphan k =>
    unfold State.respond
    rw [ht]
    exact countStatus_cmd ..

/-- The end of a session leaves the series and the order of admission alone. -/
theorem endSession_series (s : State) (i : Nat) :
    (s.endSession i).cmd.nextAsn = s.cmd.nextAsn ∧ (s.endSession i).cmd.nextOrder = s.cmd.nextOrder := by
  unfold State.endSession
  split
  · exact ⟨rfl, rfl⟩
  · dsimp only
    rw [releasePages_cmd]
    exact ⟨rfl, rfl⟩

theorem respond_series (s : State) (t : TagId) (c : Completion) (live : Bool) :
    (s.respond t c live).cmd.nextAsn = s.cmd.nextAsn ∧ (s.respond t c live).cmd.nextOrder = s.cmd.nextOrder := by
  cases h : t.ctx with
  | session id =>
    obtain ⟨m, -, hm, h | ⟨x, -, -, h⟩⟩ := respond_session s t c live id h
    · rw [h, hm]; exact ⟨rfl, rfl⟩
    · rw [h, (endSession_series m id).1, (endSession_series m id).2, hm]; exact ⟨rfl, rfl⟩
  | forward src =>
    unfold State.respond
    rw [h]
    dsimp only
    rw [fabReply_cmd, countStatus_cmd]
    exact ⟨rfl, rfl⟩
  | orphan k =>
    unfold State.respond
    rw [h]
    dsimp only
    rw [countStatus_cmd]
    exact ⟨rfl, rfl⟩

/-- What a refusal does before it is answered leaves commands and sessions alone: its event, the units programmed early, and
the capture of a register write (R118, R161). -/
theorem takeCommand_refused {s : State} {c : QueuedCmd} {st : Nat} {p : Bytes} (h : s.refusal c = some (st, p)) :
    ∃ m : State, m.cmd = s.cmd ∧ m.sessions = s.sessions ∧
      s.takeCommand c = m.respond ⟨c.ctx, c.tag⟩ (doneWith st 0 p) false := by
  unfold State.takeCommand
  rw [h]
  dsimp -zeta only
  extract_lets t u v
  have ht : t.cmd = s.cmd ∧ t.sessions = s.sessions := by
    unfold t
    split
    · exact ⟨report_cmd .., report_sessions ..⟩
    · exact ⟨rfl, rfl⟩
  have hv : v.cmd = u.cmd ∧ v.sessions = u.sessions := by
    unfold v
    split
    · obtain ⟨r, hr⟩ := State.refuseWrite_eq u (beAt c.msg.param 0 4) st
      rw [hr]
      exact ⟨rfl, rfl⟩
    · exact ⟨rfl, rfl⟩
  exact ⟨v, hv.1.trans ht.1, hv.2.trans ht.2, rfl⟩

/-- Settles O41: the front command leaves the queue, and then either its entry is made, of which only the stamp is noted
after, or the completion of the check that fails is its one answer. -/
theorem commandsAreAdmittedInOrder : Obligations.CommandsAreAdmittedInOrder := by
  unfold Obligations.CommandsAreAdmittedInOrder
  intro s c cs
  refine ⟨exec_admission_stopped, exec_admission_empty, fun ha hq => ?_⟩
  obtain ⟨o, hf⟩ := fronted_eq s cs
  have hout : (if cs.length = 16383 then ({ s with cmd := { s.cmd with queue := cs } } : State).pauseHosts 0
      else { s with cmd := { s.cmd with queue := cs } }).out = o := congrArg State.out hf
  dsimp only
  rw [exec_admission ha hq, hf, hout, ← refusal_out { s with cmd := { s.cmd with queue := cs } } o c]
  refine ⟨fun hnone hrst => ?_, fun hnone hrst => ?_, fun st p hsome => ?_⟩
  · obtain ⟨t, ⟨r, l, v, f, k, b, rfl⟩, heq⟩ := takeCommand_admitted hnone
    rw [heq, if_neg (by rw [hrst]; exact Bool.false_ne_true)]
    exact ⟨_, State.newEntry _ c, State.done_eq .., rfl, rfl, rfl, rfl, rfl, rfl, rfl, rfl, rfl, rfl, rfl, rfl, rfl⟩
  · obtain ⟨t, ht, heq⟩ := takeCommand_admitted hnone
    rw [heq, if_pos hrst]
    have hqueue : t.queued = cs.map QueuedCmd.bare := queued_congr (Storing.cmd ht)
    refine ⟨_, State.newEntry _ c, State.done_eq .., rfl, rfl, finish_answers .., ?_⟩
    show (t.finish _ stResetAborted []).cmd.queue.length = _
    rw [← State.queued_length, State.finish, post_queued, hqueue, List.length_map]
  · obtain ⟨m, hm, hs, hcmd⟩ := takeCommand_refused hsome
    have hsess : ∀ i, m.session? i = s.session? i := session_congr hs
    obtain ⟨hasn, hord⟩ := respond_series m ⟨c.ctx, c.tag⟩ (doneWith st 0 p) false
    rw [hcmd]
    refine ⟨_, State.done_eq .., hasn.trans (by rw [hm]), hord.trans (by rw [hm]), ?_, fun hgo => ?_, fun i hi hx => ?_⟩
    · exact (queue_length_of_queued (respond_queued ..)).trans (by rw [hm])
    · exact (respond_cmd_of_goesOn st 0 p false fun i x hi hx => hgo i x hi (hsess i ▸ hx)).trans hm
    · obtain ⟨x, hx⟩ := Option.isSome_iff_exists.mp hx
      exact respond_puts_completion _ _ hi ((hsess i).trans hx)

end Sys2Proof.Machine
end

section
/-! PROOF. O39: the timers of a session (R146, R150, R152, R155, R156). -/

namespace Sys2Proof.Machine

open Sys2Proof

/-! ## Sending on a port -/

/-- On a port that is not paused a frame leaves at once (R138). -/
theorem sendOn_open {s : State} {p : Nat} (h : s.paused p = false) (o : Output) : s.sendOn p o = s.emit o := by
  unfold State.sendOn
  rw [h]
  rfl

/-- On a paused one it waits, and nothing is put out. -/
theorem sendOn_paused_out {s : State} {p : Nat} (h : s.paused p = true) (o : Output) : (s.sendOn p o).out = s.out := by
  unfold State.sendOn
  rw [if_pos h]
  split <;> rfl

theorem sendOn_out (s : State) (p : Nat) (o : Output) :
    (s.sendOn p o).out = if s.paused p then s.out else s.out ++ [o] := by
  cases h : s.paused p with
  | true => exact sendOn_paused_out h o
  | false => rw [sendOn_open h]; rfl

/-! ## Sessions that end -/

/-- The end of a session takes it, and leaves the others (R152). -/
theorem endSession_ends {s t : State} (h : t.sessions = s.sessions) (i : Nat) :
    (t.endSession i).session? i = none ∧ ∀ j, j ≠ i → (t.endSession i).session? j = s.session? j :=
  ⟨session_endSession .., fun j hj => (session_endSession_other _ _ _ hj.symm).trans (session_congr h j)⟩

/-! ## The acknowledgement delay -/

section
variable {s : State} {i : Nat} {x : Session} (hx : s.session? i = some x)

/-- The session once its acknowledgement has been sent. -/
def Session.answered (x : Session) (grant : Nat) : Session :=
  { x with nextAckSeq := x.nextAckSeq + 1, ackDue := false, ackSent := x.inOrder, creditSent := grant }

/-- A session that closes or has used up a sequence space ends with its acknowledgement (R146, R152). -/
theorem Session.ends_after_ack (x : Session) (g : Nat) : (x.closing.isSome || (x.answered g).spent) = true ↔
    x.closing ≠ none ∨ 2 ^ 63 ≤ x.nextSeq ∨ 2 ^ 64 ≤ x.nextAckSeq + 1 := by
  unfold Session.spent
  rw [Bool.or_eq_true, Bool.or_eq_true, decide_eq_true_iff, decide_eq_true_iff, Option.isSome_iff_ne_none]
  rfl

/-- An ACK frame on a port that is not paused leaves at once, and the session has answered (R155). -/
theorem sendAck_open (h : s.paused x.port = false) :
    (s.sendAck x).cmd = s.cmd ∧ (s.sendAck x).sessions = (s.setSession (x.answered s.grant)).sessions ∧
      (s.sendAck x).out = s.out ++ [.ackFrame (s.toHost x (x.frame s.grant 0x04 x.nextAckSeq x.bitmap)) x.id x.nextAckSeq
        (x.frame s.grant 0x04 x.nextAckSeq x.bitmap)] := by
  refine ⟨?_, ?_, ?_⟩
  · exact (cipher_cmd ..).trans (sendOn_cmd ..)
  · exact (cipher_sessions ..).trans (sendOn_sessions ..)
  · exact (cipher_out ..).trans ((sendOn_out ..).trans (if_neg (ne_true_of_eq_false h)))

include hx

theorem ackNow_eq (hd : x.ackDue = true) (h : s.paused x.port = false) : s.ackNow i =
    if x.closing.isSome || (x.answered s.grant).spent then (s.sendAck x).endSession i else s.sendAck x := by
  unfold State.ackNow
  rw [hx]
  dsimp only
  rw [hd, h]
  rfl

/-! ## The four expiries -/

/-- A session for which the condition of its expiry holds ends, and no other. -/
theorem endIf_ends {p : Session → Bool} (h : p x = true) :
    (s.endIf i p).session? i = none ∧ ∀ j, j ≠ i → (s.endIf i p).session? j = s.session? j := by
  have he : s.endIf i p = s.endSession i := by unfold State.endIf; rw [hx]; exact if_pos h
  rw [he]
  exact endSession_ends rfl i

theorem endIf_stays {p : Session → Bool} (h : p x = false) : s.endIf i p = s := by
  unfold State.endIf
  rw [hx]
  exact if_neg (ne_true_of_eq_false h)

/-- Held frames that were never acknowledged end their session with an event. -/
theorem retxEnd_eq (h : x.held ≠ []) : s.retxEnd i = (s.raise Ev.SKP.RETX_END).endSession i := by
  unfold State.retxEnd
  rw [hx]
  exact if_neg (by simpa using h)

theorem retxEnd_stays (h : x.held = []) : s.retxEnd i = s := by
  unfold State.retxEnd
  rw [hx]
  dsimp only
  rw [h]
  rfl

/-! ## Held frames -/

theorem retransmit_last {seq : Nat} {h : HeldFrame} (hh : (x.held.find? fun y => y.seq == seq) = some h) (hs : 16 ≤ h.sent) :
    s.retransmit i seq = (s.raise Ev.SKP.RETX_END).endSession i := by
  unfold State.retransmit
  rw [hx]
  dsimp only
  rw [hh]
  exact if_pos hs

/-- A held frame goes out again with the same bytes, as far as its port is not paused (R156). -/
theorem retransmit_again {seq : Nat} {h : HeldFrame} (hh : (x.held.find? fun y => y.seq == seq) = some h) (hs : h.sent < 16) :
    (s.retransmit i seq).cmd = s.cmd ∧ (s.retransmit i seq).out =
      if s.paused x.port then s.out else s.out ++ [.frame (s.toHost x h.bytes) i seq h.bytes] := by
  have hid := session_id hx
  unfold State.retransmit
  rw [hx]
  dsimp only
  rw [hh]
  dsimp only
  rw [if_neg (by omega)]
  obtain ⟨d, hd⟩ : ∃ d, s.stir = { s with dev := d } := by
    unfold State.stir
    split
    · exact ⟨_, rfl⟩
    · exact ⟨s.dev, rfl⟩
  rw [hd]
  refine ⟨sendFrames_cmd .., ?_⟩
  subst hid
  exact (cipher_out ..).trans (sendOn_out ..)

end

/-- Settles O39: an expiry ends its session where the session meets its condition, and else sends what is due or does nothing. -/
theorem sessionTimersSendOrEnd : Obligations.SessionTimersSendOrEnd := by
  unfold Obligations.SessionTimersSendOrEnd
  intro s i seq x hx
  have hid := session_id hx
  dsimp only
  refine ⟨fun hd hp => ?_, fun h hh => ⟨fun hs => ?_, fun hs => ?_⟩,
    ⟨fun h => ⟨_, State.done_eq .., endIf_ends hx h⟩, fun hidle hheld hout htags hqueue => ?_, fun h => ?_, fun h => ?_⟩,
    fun h => ?_, fun h => ?_, fun h => ?_, fun h => ?_⟩
  · obtain ⟨hcmd, hsess, hput⟩ := sendAck_open hp
    have hrow : exec (.ackDelayExpiry i) s = s.done (s.ackNow i) := rfl
    have hends := x.ends_after_ack s.grant
    rw [hrow, ackNow_eq hx hd hp]
    split
    · rename_i hend
      refine ⟨_, State.done_eq .., ?_, ?_, fun _ => session_endSession .., fun h1 h2 h3 => ?_⟩
      · exact (queue_length_of_queued (endSession_queued ..)).trans (by rw [hcmd])
      · exact (endSession_out ..).trans (hid ▸ hput)
      · rcases hends.mp hend with h | h | h
        · exact absurd h1 h
        · omega
        · omega
    · rename_i hgo
      refine ⟨_, State.done_eq .., congrArg (fun c => c.queue.length) hcmd, hid ▸ hput, fun h => absurd (hends.mpr h) hgo,
        fun _ _ _ => ⟨x.answered s.grant, ?_, rfl, rfl, rfl, rfl⟩⟩
      exact (session_congr hsess i).trans (hid ▸ session_setSession s (x.answered s.grant))
  · exact ⟨_, State.done_eq .., retransmit_again hx hh hs⟩
  · refine ⟨_, State.done_eq .., ?_⟩
    rw [retransmit_last hx hh hs]
    exact session_endSession ..
  · refine ⟨_, State.done_eq .., endIf_ends hx ?_⟩
    have ht : (s.cmd.tags.any fun e => e.id.ctx == .session i) = false := by simpa using htags
    have hq : (s.cmd.queue.any fun c => c.ctx == .session i) = false := by simpa using hqueue
    rw [hheld, hout, ht, hq]
    simpa using hidle
  · refine ⟨_, State.done_eq .., ?_⟩
    rw [retxEnd_eq hx h]
    exact endSession_ends (raiseWith_sessions ..) i
  · exact ⟨_, State.done_eq .., endIf_ends hx (Option.isSome_iff_ne_none.mpr h)⟩
  · show s.done (s.endIf i _) = _
    rw [endIf_stays hx h, State.done_self]
  · show s.done (s.endIf i _) = _
    rw [endIf_stays hx, State.done_self]
    rcases h with h | h <;> simp [h]
  · show s.done (s.retxEnd i) = _
    rw [retxEnd_stays hx h, State.done_self]
  · show s.done (s.endIf i _) = _
    rw [endIf_stays hx (by rw [h]; rfl), State.done_self]

end Sys2Proof.Machine
end

section
/-! SUPPORT. What no command changes but a few: the queue, the memories of the debug port and the fuses (R475, Table 15-1). -/

namespace Sys2Proof.Machine

open Sys2Proof

/-- The queue of commands, the memories of the debug port and the fuses are as they were, so that an effect which ends in `u`
is the next state itself. -/
structure State.Spares (s u : State) : Prop where
  pending : u.pending = s.pending
  sram : u.sram = s.sram
  dram : u.dram = s.dram
  fuses : u.key.fuses = s.key.fuses

namespace Spares

theorem refl (s : State) : s.Spares s := ⟨rfl, rfl, rfl, rfl⟩

theorem trans {s t u : State} (h : s.Spares t) (k : t.Spares u) : s.Spares u :=
  ⟨k.pending.trans h.pending, k.sram.trans h.sram, k.dram.trans h.dram, k.fuses.trans h.fuses⟩

theorem done {s u : State} (h : s.Spares u) : s.done u = .next u := State.done_of s u h.pending h.sram h.dram h.fuses

theorem of_answerKeeps {s u : State} (h : s.AnswerKeeps u) : s.Spares u := ⟨h.pending, h.sram, h.dram, h.fuses⟩

theorem of_answering {s u : State} (h : s.Answering u) : s.Spares u := of_answerKeeps (AnswerKeeps.of_answering h)

theorem foldl {α : Type} (f : State → α → State) (hf : ∀ (s : State) a, s.Spares (f s a)) (l : List α) (s : State) :
    s.Spares (l.foldl f s) := by
  induction l generalizing s with
  | nil => exact refl s
  | cons a l ih => exact trans (hf s a) (ih _)

theorem wake (s : State) (src : Field) : s.Spares (s.wake src) := by
  obtain ⟨r, d, c, h⟩ := s.wake_eq src
  rw [h]
  exact ⟨rfl, rfl, rfl, rfl⟩

theorem sendOn (s : State) (p : Nat) (o : Output) : s.Spares (s.sendOn p o) := of_answering (Answering.sendOn ..)

theorem raise (s : State) (e : Event) : s.Spares (s.raise e) := of_answering (Answering.raiseWith ..)

theorem count64 (s : State) (lo hi : Field) (i n : Nat) : s.Spares (s.count64 lo hi i n) := ⟨rfl, rfl, rfl, rfl⟩

/-- A search counts itself and takes tiles out of retention (R227). -/
theorem searchFirst (s : State) (t key : Nat) : s.Spares (s.searchFirst t key).2 := by
  show s.Spares (s.noteSearch (s.tableCfg t) 1)
  unfold State.noteSearch
  extract_lets u out
  have hu : s.Spares u := foldl _ (fun _ _ => count64 ..) _ s
  exact trans hu ⟨rfl, rfl, rfl, rfl⟩

end Spares

end Sys2Proof.Machine
end

section
/-! PROOF. O37: HELLO (R143, R148 to R151, R224, Table 06-5). -/

namespace Sys2Proof.Machine

open Sys2Proof

theorem Spares.refuse (s : State) (d : Datagram) (st : Nat) : s.Spares (s.refuse d st) := Spares.sendOn ..

theorem Spares.tableBars {s c : State} {d : Datagram} {cls : Nat} {bars : Bool} (h : s.tableBars d cls = (bars, c)) :
    s.Spares c := by
  have hs := Spares.searchFirst s 1 (sessionKey d)
  unfold State.tableBars at h
  split at h
  · cases h; exact Spares.refl s
  · split at h
    · rename_i he; rw [he] at hs; cases h; exact hs
    · rename_i he; rw [he] at hs; cases h; exact hs

/-! ## Refusals -/

/-- A refusal opens no session and changes no command; it is put out unless its port is paused (R143). -/
theorem refuse_keeps (s : State) (d : Datagram) (st : Nat) : (s.refuse d st).sessions = s.sessions ∧
    (s.refuse d st).cmd = s.cmd ∧ (s.refuse d st).out = if s.paused d.port then s.out
      else s.out ++ [.refuse (s.udpTo d.port d.srcMac d.v6 d.srcIp d.srcPort (refuseBytes st)) (refuseBytes st)] :=
  ⟨sendOn_sessions .., sendOn_cmd .., sendOn_out ..⟩

/-- The oldest half-open sessions above the limit end, and the lowest free session ID is opened (R151). -/
def State.opensFree (c : State) (d : Datagram) (f : SkpFrame) (h : Hello) (key : Bytes) : State :=
  let t := c.evicted.foldl (fun (x : State) j => x.endSession j) c
  (t.freeSession.map fun i => t.openSession d f h key i).getD t

theorem opensFree_of_free {c : State} {i : Nat}
    (h : (c.evicted.foldl (fun (x : State) j => x.endSession j) c).freeSession = some i) (d : Datagram) (f : SkpFrame)
    (g : Hello) (key : Bytes) : c.opensFree d f g key =
      (c.evicted.foldl (fun (x : State) j => x.endSession j) c).openSession d f g key i := by
  unfold State.opensFree
  dsimp only
  rw [h]
  rfl

/-! ## The checks of Table 06-5 in their order -/

section
variable {s : State} {d : Datagram} {f : SkpFrame}

theorem exec_hello (ht : s.takesUdp d = true) : exec (.hello d f) s = s.done ((s.wake Reg.WAKE_SRC.HOST_FRAME).hello d f) := by
  show s.done (if s.takesUdp d then _ else s) = _
  rw [if_pos ht]

theorem exec_hello_refused (ht : s.takesUdp d = true) {c : State} {st : Nat} (hc : (s.wake Reg.WAKE_SRC.HOST_FRAME).Spares c)
    (h : (s.wake Reg.WAKE_SRC.HOST_FRAME).hello d f = c.refuse d st) : exec (.hello d f) s = .next (c.refuse d st) := by
  rw [exec_hello ht, h]
  exact Spares.done (Spares.trans (Spares.trans (Spares.wake ..) hc) (Spares.refuse ..))

theorem hello_badField (hb : helloBad f = true) : s.hello d f = s.refuse d stBadField := if_pos hb

theorem hello_noKey (hb : helloBad f = false) (hk : s.slotKey (helloOf f.body).keyId = none) :
    s.hello d f = s.refuse d stSlotEmpty := by
  unfold State.hello
  dsimp only
  rw [if_neg (ne_true_of_eq_false hb), hk]

section
variable {key : Bytes} (hb : helloBad f = false) (hk : s.slotKey (helloOf f.body).keyId = some key)

/-- The MAC that the HELLO should carry under its key (R148). -/
def helloMac (key : Bytes) (f : SkpFrame) : Bytes :=
  cmac key (skpHeader 0x01 f.session f.seq f.ackSeq f.credit f.bodyLen ++ f.body.take 20)

include hb hk

theorem hello_noCipher (hn : s.noCipher = true) : s.hello d f = s.refuse d stInternal := by
  unfold State.hello
  dsimp only
  rw [if_neg (ne_true_of_eq_false hb), hk]
  exact if_pos hn

theorem hello_wrongMac (hn : s.noCipher = false) (hm : helloMac key f ≠ (helloOf f.body).mac) : s.hello d f = s.authFail := by
  unfold State.hello
  dsimp only
  rw [if_neg (ne_true_of_eq_false hb), hk]
  dsimp only
  rw [if_neg (ne_true_of_eq_false hn)]
  exact if_pos hm

/-- With the right MAC the session table is searched, and the checks that are left are made in the state it leaves. -/
theorem hello_checked (hn : s.noCipher = false) (hm : helloMac key f = (helloOf f.body).mac) {bars : Bool} {c : State}
    (hc : s.tableBars d (helloOf f.body).cls = (bars, c)) : s.hello d f =
      if bars ∨ c.keyBars (helloOf f.body) = true then c.refuse d stNotPermitted
      else if c.inStale ∧ (helloOf f.body).cls ≠ 3 then c.refuse d stStalemate
      else if 4096 ≤ c.sessions.length - c.evicted.length then (c.report Ev.SKP.SESSIONS_FULL stBusy).refuse d stBusy
      else if !c.drbgOk then c.refuse d stEntropy
      else c.opensFree d f (helloOf f.body) key := by
  unfold State.hello
  dsimp only
  rw [if_neg (ne_true_of_eq_false hb), hk]
  dsimp only
  unfold helloMac at hm
  rw [if_neg (ne_true_of_eq_false hn), if_neg (not_not_intro hm), hc]
  unfold State.opensFree
  dsimp only
  cases (c.evicted.foldl (fun (x : State) j => x.endSession j) c).freeSession <;> rfl

end

end

/-! ## A session opened -/

/-- The lowest free session ID names no session. -/
theorem session_freeSession {s : State} {i : Nat} (h : s.freeSession = some i) : s.session? i = none := by
  unfold State.freeSession at h
  simpa using List.find?_some h

/-- A new session that holds nothing takes no read staging, so the credit stays as it was (R154, R157). -/
theorem grant_setSession_new {s : State} {x : Session} (hx : s.session? x.id = none) (hh : x.held = [])
    (ha : x.assembling = []) : (s.setSession x).grant = s.grant := by
  have hany : (s.sessions.any fun y => y.id == x.id) = false := by
    simpa [State.session?] using hx
  have hs : (s.setSession x).sessions = s.sessions ++ [x] := by
    unfold State.setSession putWhere
    rw [hany]
    rfl
  have hstaged : (s.setSession x).staged = s.staged := by
    unfold State.staged
    rw [hs, List.foldl_append, List.foldl_cons, List.foldl_nil, hh, ha]
    rfl
  unfold State.grant
  rw [hstaged]
  rfl

/-- A session is opened under a free ID with its keys, the others stay, and the reply goes to the HELLO's own addresses. -/
theorem openSession_opens {t : State} {i : Nat} (hi : t.freeSession = some i) (d : Datagram) (f : SkpFrame) (h : Hello)
    (key : Bytes) :
    (t.openSession d f h key i).session? i = some (newSession h d f key (t.draw 16) i t.cmd.nextOrder t.grant) ∧
      (∀ j, j ≠ i → (t.openSession d f h key i).session? j = t.session? j) ∧
      (t.openSession d f h key i).cmd.tags = t.cmd.tags ∧
      (t.paused d.port = false → (t.openSession d f h key i).out = t.out ++
        [.helloReply (t.udpTo d.port d.srcMac d.v6 d.srcIp d.srcPort
          (helloReply key (t.draw 16) h.nonce i (t.rd Reg.COMPAT_NOW.IN_FORCE) t.grant)) i
          (helloReply key (t.draw 16) h.nonce i (t.rd Reg.COMPAT_NOW.IN_FORCE) t.grant)]) := by
  unfold State.openSession State.answerHello
  extract_lets dev u x v old w b
  have hg : w.grant = t.grant := grant_setSession_new (s := u) (x := x) (session_freeSession hi) rfl rfl
  refine ⟨?_, fun j hj => ?_, ?_, fun hp => ?_⟩
  · rw [session_congr (sendOn_sessions ..)]
    exact session_setSession u x
  · rw [session_congr (sendOn_sessions ..)]
    exact session_setSession_other u x j hj.symm
  · rw [sendOn_cmd]
    rfl
  · rw [sendOn_open (s := w) hp, ← hg]
    rfl

/-- Settles O37: the checks of Table 06-5 part the cases in their order; the one that is left opens the session. -/
theorem helloOpensASession : Obligations.HelloOpensASession := by
  unfold Obligations.HelloOpensASession
  intro s b d f ht hb
  subst hb
  dsimp only
  refine ⟨fun c st => refuse_keeps c d st, fun hbad => ?_, fun hok hk => ?_, fun key hok hk => ⟨fun hn => ?_, fun hn hm => ?_,
    fun bars c hn hm hc => ?_⟩⟩
  · exact exec_hello_refused ht (Spares.refl _) (hello_badField hbad)
  · exact exec_hello_refused ht (Spares.refl _) (hello_noKey hok hk)
  · exact exec_hello_refused ht (Spares.refl _) (hello_noCipher hok hk hn)
  · obtain ⟨r, l, a, h⟩ := authFail_eq (s.wake Reg.WAKE_SRC.HOST_FRAME)
    rw [exec_hello ht, hello_wrongMac hok hk hn hm, h]
    exact ⟨_, State.done_eq .., rfl, rfl, rfl⟩
  · have heq := hello_checked hok hk hn hm hc
    have hsp := Spares.tableBars hc
    refine ⟨fun hbar => ?_, fun hbars hkey => ?_⟩
    · exact exec_hello_refused ht hsp (heq.trans (if_pos hbar))
    have hpass : ¬ (bars = true ∨ c.keyBars (helloOf f.body) = true) := by simp [hbars, hkey]
    rw [if_neg hpass] at heq
    refine ⟨fun hst hcls => exec_hello_refused ht hsp (heq.trans (if_pos ⟨hst, hcls⟩)), fun hst => ?_⟩
    rw [if_neg fun h => h.2 (hst h.1)] at heq
    refine ⟨fun hfull => ?_, fun hroom => ?_⟩
    · exact exec_hello_refused ht (Spares.trans hsp (Spares.of_answering (Answering.report ..))) (heq.trans (if_pos hfull))
    rw [if_neg (by omega)] at heq
    refine ⟨fun hno => exec_hello_refused ht hsp (heq.trans (if_pos (by rw [hno]; rfl))), fun t i hdrbg hte hfree => ?_⟩
    subst hte
    rw [if_neg (by rw [hdrbg]; exact Bool.false_ne_true), opensFree_of_free hfree] at heq
    rw [exec_hello ht, heq]
    exact ⟨_, State.done_eq .., openSession_opens hfree d f (helloOf f.body) key⟩

end Sys2Proof.Machine
end

section
/-! SUPPORT. What sending on sessions, ports and links leaves alone: the ports, and the queue, memories and fuses (R138, R404,
R413). -/

namespace Sys2Proof.Machine

open Sys2Proof

/-! ## The router spares the queue, the memories and the fuses -/

namespace Spares

theorem count (s : State) (f : Field) (n : Nat) : s.Spares (s.count f n) := ⟨rfl, rfl, rfl, rfl⟩

theorem emit (s : State) (o : Output) : s.Spares (s.emit o) := ⟨rfl, rfl, rfl, rfl⟩

theorem setLink (s : State) (l : Link) : s.Spares (s.setLink l) := ⟨rfl, rfl, rfl, rfl⟩

theorem cipher (s : State) (c n : Nat) : s.Spares (s.cipher c n) := of_answering (Answering.cipher ..)

theorem of_pair {α : Type} {x : α × State} {a : α} {s t : State} (h : x = (a, t)) (hx : s.Spares x.2) : s.Spares t := by
  rw [h] at hx; exact hx

theorem creditsGo (link vc fuel n : Nat) (s : State) : s.Spares (creditsGo link vc fuel n s) := by
  induction fuel generalizing n s with
  | zero => exact refl s
  | succ fuel ih =>
    unfold Machine.creditsGo
    split
    · exact refl s
    · refine trans ?_ (ih ..)
      split <;> exact emit ..

theorem returnCredits (s : State) (link vc n : Nat) : s.Spares (s.returnCredits link vc n) := by
  unfold State.returnCredits
  extract_lets l had k
  split
  · exact refl s
  · exact trans (setLink ..) (creditsGo ..)

theorem sendFlit (s : State) (link : Nat) (o : OutFlit) : s.Spares (s.sendFlit link o) := by
  unfold State.sendFlit
  extract_lets l old f m t
  have ht : s.Spares t := trans (setLink s m) (trans (emit ..) (count64 ..))
  split
  · exact trans ht (returnCredits ..)
  · exact ht

theorem pumpLinkGo (link fuel : Nat) (s : State) : s.Spares (pumpLinkGo link fuel s) := by
  induction fuel generalizing s with
  | zero => exact refl s
  | succ fuel ih =>
    have hsend : ∀ l o, s.Spares (Machine.pumpLinkGo link fuel ((s.setLink l).sendFlit link o)) :=
      fun l o => trans (setLink s l) (trans (sendFlit ..) (ih _))
    unfold Machine.pumpLinkGo
    dsimp only
    split
    · exact refl s
    · split
      · exact hsend ..
      · split
        · exact hsend ..
        · exact refl s

theorem pumpLink (s : State) (link : Nat) : s.Spares (s.pumpLink link) := by
  unfold State.pumpLink
  dsimp only
  split
  · exact refl s
  · split
    · exact emit ..
    · exact pumpLinkGo ..

theorem arrive (s : State) (src : Field) : s.Spares (s.arrive src) := by
  have ha : s.Spares s.abandonEntry := by
    unfold State.abandonEntry
    split
    · exact refl s
    · extract_lets ts old d
      have hd : s.Spares { s with dev := d } := ⟨rfl, rfl, rfl, rfl⟩
      exact trans hd (trans (raise ..) (of_answerKeeps (AnswerKeeps.finishTags ..)))
  unfold State.arrive
  split
  · exact trans ha (wake ..)
  · exact refl s

/-! ### The decision on a frame -/

theorem consume (s : State) (i : Ingress) (vc : Nat) (f : FabFrame) : s.Spares (s.consume i vc f) := by
  unfold State.consume
  split
  · exact returnCredits ..
  · exact refl s

theorem dropFrameOf (s : State) (i : Ingress) (vc : Nat) (f : FabFrame) : s.Spares (s.dropFrameOf i vc f) :=
  trans (consume ..) (count ..)

theorem tieLink (s : State) (f : FabFrame) (vc plus minus : Nat) : s.Spares (s.tieLink f vc plus minus).2 := by
  unfold State.tieLink
  extract_lets ok kept a b pick
  split
  · exact refl s
  · cases pick with
    | none => exact refl s
    | some l => exact ⟨rfl, rfl, rfl, rfl⟩

theorem torusLink (s : State) (f : FabFrame) (vc slot : Nat) : s.Spares (s.torusLink f vc slot).2 := by
  unfold State.torusLink
  dsimp only
  repeat' split
  · exact refl s
  · exact refl s
  · exact tieLink ..
  · exact refl s
  · exact refl s
  · exact tieLink ..
  · exact refl s

theorem forwardOn (s : State) (i : Ingress) (vc link : Nat) (f : FabFrame) : s.Spares (s.forwardOn i vc link f) := by
  unfold State.forwardOn
  split
  · extract_lets f v l more m t
    have ht : s.Spares t := trans (setLink s m) (pumpLink ..)
    split
    · exact ht
    · exact trans ht (count ..)
  · exact dropFrameOf ..

theorem torusStep (s : State) (i : Ingress) (vc slot : Nat) (f : FabFrame) : s.Spares (s.torusStep i vc slot f) := by
  unfold State.torusStep
  split
  · rename_i h; exact trans (of_pair h (torusLink ..)) (forwardOn ..)
  · rename_i h; exact trans (of_pair h (torusLink ..)) (dropFrameOf ..)

theorem hostSend (s : State) (i : Ingress) (vc : Nat) (f : FabFrame) : s.Spares (s.hostSend i vc f) := by
  unfold State.hostSend
  dsimp only
  split
  · have hsend : ∀ g p o, s.Spares ((s.consume i vc g).sendOn p o) := fun g p o => trans (consume ..) (sendOn ..)
    split
    · exact hsend ..
    · exact trans (hsend ..) (count ..)
  · exact trans (dropFrameOf ..) (raise ..)
  · exact dropFrameOf ..

theorem terminate (s : State) (i : Ingress) (vc : Nat) (f : FabFrame) : s.Spares (s.terminate i vc f) := by
  unfold State.terminate
  split
  · extract_lets t u
    have ht : s.Spares t := trans (consume ..) (count ..)
    have hu : s.Spares u := by
      unfold u
      split
      · exact trans ht (cipher ..)
      · exact ht
    split
    · exact hu
    · exact trans hu (arrive ..)
  · exact dropFrameOf ..

theorem towardsSled (s : State) (i : Ingress) (vc : Nat) (f : FabFrame) : s.Spares (s.towardsSled i vc f) := by
  unfold State.towardsSled
  extract_lets own
  split
  · split
    · exact dropFrameOf ..
    · exact hostSend ..
  · split
    · exact torusStep ..
    · split
      · exact torusStep ..
      · exact dropFrameOf ..

theorem beginFlowlet (s : State) (flow : Nat) : s.Spares (s.beginFlowlet flow) := by
  unfold State.beginFlowlet
  split
  · exact refl s
  · exact ⟨rfl, rfl, rfl, rfl⟩

/-- Whatever the router decides on a frame, the queue, the memories and the fuses stay (R413). -/
theorem route (s : State) (i : Ingress) (vc : Nat) (f : FabFrame) : s.Spares (s.route i vc f) := by
  unfold State.route
  extract_lets t
  have ht : s.Spares t := beginFlowlet ..
  have hs := trans ht (searchFirst t 0 (f.dst % 2 ^ 16 * 2 ^ 64 + ingCode i * 2 ^ 61))
  split
  · rename_i h
    have hu := of_pair h hs
    split
    · exact trans hu (forwardOn ..)
    · exact trans hu (dropFrameOf ..)
  · rename_i h
    have hu := of_pair h hs
    split
    · exact trans hu (terminate ..)
    · split
      · exact trans hu (dropFrameOf ..)
      · split
        · exact trans hu (torusStep ..)
        · exact trans hu (towardsSled ..)

/-! ### What waits on a port -/

theorem endSession (s : State) (i : Nat) : s.Spares (s.endSession i) := of_answerKeeps (AnswerKeeps.endSession ..)

theorem pump (s : State) (i : Nat) : s.Spares (s.pump i) := by
  obtain ⟨m, hm, -, h | ⟨x, -, -, h⟩⟩ := pump_cases s i
  · rw [h]; exact of_answering hm
  · rw [h]; exact trans (of_answering hm) (endSession ..)

theorem pumpPort (s : State) (p : Nat) : s.Spares (s.pumpPort p) := by
  unfold State.pumpPort
  extract_lets t
  obtain ⟨o, ho⟩ : ∃ o, t = { { s with portQueue := s.portQueue.filter fun x => x.1 != p } with out := o } :=
    foldl_emit_eq (fun (x : Nat × Output) => x.2) _ _
  have ht : s.Spares t := by rw [ho]; exact ⟨rfl, rfl, rfl, rfl⟩
  exact trans ht (foldl _ pump _ t)

end Spares

/-! ## The ports stay as they are -/

theorem foldl_ports {α : Type} (f : State → α → State) (hf : ∀ s a, (f s a).ports = s.ports) (l : List α) (s : State) :
    (l.foldl f s).ports = s.ports := by
  induction l generalizing s with
  | nil => rfl
  | cons a l ih => rw [List.foldl_cons, ih, hf]

theorem ports_of_answering {s u : State} (h : s.Answering u) : u.ports = s.ports := by
  obtain ⟨r, l, cm, ss, o, q, rfl⟩ := h
  rfl

theorem ports_of_sealing {s u : State} (h : s.Sealing u) : u.ports = s.ports := by
  obtain ⟨r, l, k, f, rfl⟩ := h
  rfl

theorem endSession_ports (s : State) (i : Nat) : (s.endSession i).ports = s.ports := by
  unfold State.endSession
  split
  · rfl
  · dsimp only
    generalize hg : State.releasePages _ i = u
    obtain ⟨r, l, h⟩ := State.releasePages_eq _ i
    rw [← hg, h]
    rfl

theorem pump_ports (s : State) (i : Nat) : (s.pump i).ports = s.ports := by
  obtain ⟨m, hm, -, h | ⟨x, -, -, h⟩⟩ := pump_cases s i
  · rw [h]; exact ports_of_answering hm
  · rw [h, endSession_ports]; exact ports_of_answering hm

theorem pumpPort_ports (s : State) (p : Nat) : (s.pumpPort p).ports = s.ports := by
  unfold State.pumpPort
  extract_lets t
  obtain ⟨o, ho⟩ : ∃ o, t = { { s with portQueue := s.portQueue.filter fun x => x.1 != p } with out := o } :=
    foldl_emit_eq (fun (x : Nat × Output) => x.2) _ _
  rw [foldl_ports _ pump_ports, ho]

theorem raiseI_ports (s : State) (e : Event) (i : Nat) : (s.raiseI e i).ports = s.ports :=
  ports_of_answering (Answering.raiseWith ..)

theorem injectOn_ports (ls : List Nat) (fs : List FabFrame) (s : State) : (s.injectOn ls fs).ports = s.ports := by
  unfold State.injectOn
  induction ls generalizing s with
  | nil => rfl
  | cons l ls ih => exact ih _

/-- The flood of a device's own entry goes out on the fabric's links alone (R409). -/
theorem floodOwn_ports (s : State) : s.floodOwn.ports = s.ports := by
  have hsend : ∀ (t : State) e ls, (t.sendState e ls).ports = t.ports := by
    intro t e ls
    unfold State.sendState
    split
    · rfl
    · have h := Sealing.makeFrames t ⟨Config.floodDst 0x10, 0x10, some 0, Config.fabFlow (Config.floodDst 0x10) 0⟩
        (payloadBytes (.sled e.slot e.seq e.gateway e.links))
      exact (injectOn_ports ..).trans (ports_of_sealing h)
  unfold State.floodOwn
  split
  · rfl
  · exact hsend ..

end Sys2Proof.Machine
end

section
/-! SUPPORT. An event raised leaves every register but EVT_STAT as it was, so the device stays the gateway that it is (R120,
R419). -/

namespace Sys2Proof.Machine

open Sys2Proof

/-- An entry written with a value that is listed leaves the others as they were, whether the table is canonical or not. -/
theorem SMap.get_set_other {α : Type} [DecidableEq α] (d : Nat → α) {k j : Nat} {v : α} (hv : v ≠ d k) (hj : j ≠ k)
    (m : SMap α) : SMap.get d (SMap.set d k v m) j = SMap.get d m j := by
  induction m with
  | nil => simp [SMap.set, SMap.get, hv, hj]
  | cons x t ih =>
    obtain ⟨a, w⟩ := x
    unfold SMap.set
    rw [if_neg hv, if_neg hv]
    rcases Nat.lt_trichotomy k a with h | h | h
    · rw [if_pos h]
      by_cases hlt : j < k
      · simp only [SMap.get, if_neg hj, if_pos hlt, if_neg (show ¬ j = a by omega), if_pos (show j < a by omega)]
      · simp only [SMap.get, if_neg hj, if_neg hlt]
    · rw [if_neg (by omega), if_pos h]
      simp only [SMap.get, h ▸ hj, if_false, h]
    · rw [if_neg (by omega), if_neg (by omega)]
      simp only [SMap.get, ih]

section
variable {a : Nat} (ha : addrOff a ≠ hEvtStat)
include ha

/-- A bit set in an EVT_STAT leaves other registers. -/
theorem word_setEvent (s : State) {x bit : Nat} (hx : addrOff x = hEvtStat) (hb : bit < 32) :
    (s.setWord x (s.word x ||| BitVec.ofNat 32 (2 ^ bit))).word a = s.word a := by
  have hset : (s.word x ||| BitVec.ofNat 32 (2 ^ bit)).getLsbD bit = true := by
    rw [BitVec.getLsbD_or, BitVec.getLsbD_ofNat, Nat.testBit_two_pow_self, decide_eq_true hb]
    simp
  have hreset : regReset x = 0#32 := by unfold regReset; rw [hx]; rfl
  refine SMap.get_set_other regReset (fun h => ?_) (fun h => ha ((congrArg addrOff h).trans hx)) s.regs
  rw [h, hreset, BitVec.getLsbD_zero] at hset
  exact Bool.false_ne_true hset

theorem logRecord_word (s : State) (block inst bit : Nat) (en fo : Bool) (st dt : Nat) :
    (s.logRecord block inst bit en fo st dt).word a = s.word a := by
  unfold State.logRecord
  extract_lets mk at_ note p isVol t u
  have hnote : ∀ (v : State) k, k < 32 → (note v k).word a = v.word a := by
    intro v k hk
    unfold note
    dsimp only
    split
    · rfl
    · exact word_setEvent ha v (x := 0x500010) rfl hk
  have hu : u.word a = s.word a := by
    unfold u
    split
    · exact hnote t 5 (by decide)
    · rfl
  split
  · exact (hnote u 6 (by decide)).trans hu
  · exact hu

theorem raiseI_word (s : State) {e : Event} (he : e.bit < 32) (i : Nat) : (s.raiseI e i).word a = s.word a := by
  have hx : addrOff (pageAddr e.block (e.page i) + hEvtStat) = hEvtStat := by
    show (e.block * 0x40000 + e.page i * 0x1000 + 0x010) % 0x1000 = 0x010
    omega
  unfold State.raiseI State.raiseWith
  extract_lets base t
  have ht : t.word a = s.word a := word_setEvent ha s hx he
  split
  · split
    · split
      · exact ht
      · exact (logRecord_word ha ..).trans ht
    · exact (logRecord_word ha ..).trans ht
  · rfl

end

/-- A device whose ports and registers outside EVT_STAT are as they were is a gateway if it was one (R419). -/
theorem isGateway_congr {s u : State} (hp : u.ports = s.ports) (hw : ∀ a, addrOff a ≠ hEvtStat → u.word a = s.word a) :
    u.isGateway = s.isGateway := by
  have hrd : ∀ f : Field, addrOff (f.addr 0 0) ≠ hEvtStat → u.rd f = s.rd f := fun f hf => by
    unfold State.rd State.rdAt
    rw [hw _ hf]
  have h1 := hrd Reg.PROFILE.IN_FORCE (by decide)
  have h2 := hrd Reg.NET_FAB.GATEWAY_EN (by decide)
  have h3 := hrd Reg.NET_PORTMODE.QUAD0 (by decide)
  have h4 := hrd Reg.NET_PORTMODE.QUAD1 (by decide)
  have hfab : u.fabric = s.fabric := by unfold State.fabric; rw [h1]
  have hlane : ∀ l, u.laneParent l = s.laneParent l := fun l => by
    unfold State.laneParent State.quadMode
    rw [h3, h4, hfab]
  unfold State.isGateway State.rdB State.portExists State.port
  simp only [hfab, h2, hlane, hp]

end Sys2Proof.Machine
end

section
/-! PROOF. O40: what a port answers by itself, PAUSE, links of the host ports, and fabric frames on them (R138, R139, R141,
R144). -/

namespace Sys2Proof.Machine

open Sys2Proof

/-! ## Answers and PAUSE -/

section
variable {s : State} {d : Datagram}

theorem exec_arpRequest (ha : s.portAwake = true) (hf : s.framed d = true) (hd : s.addressed d = true) (h4 : d.v6 = false) :
    exec (.arpRequest d) s = .next (s.sendOn d.port (.arpReply (s.ethTo d.port d.srcMac) d.dstIp)) := by
  show s.done (if s.portAwake ∧ s.framed d = true ∧ !d.v6 ∧ s.addressed d = true then _ else s) = _
  rw [if_pos ⟨ha, hf, by rw [h4]; rfl, hd⟩]
  exact Spares.done (Spares.sendOn ..)

theorem exec_neighbourSolicitation (ha : s.portAwake = true) (hf : s.framed d = true) (hd : s.addressed d = true)
    (h6 : d.v6 = true) (hx : d.extHdr = false) : exec (.neighbourSolicitation d) s =
      .next (s.sendOn d.port (.neighbourAdvert (s.ethTo d.port d.srcMac) d.dstIp)) := by
  have ht : s.takesIp d = true := by
    unfold State.takesIp
    rw [hf, hd, h6, hx]
    rfl
  show s.done (if s.portAwake ∧ d.v6 ∧ s.takesIp d = true then _ else s) = _
  rw [if_pos ⟨ha, h6, ht⟩]
  exact Spares.done (Spares.sendOn ..)

/-- The echo requests that the port has answered in the device's present second (R141). -/
def State.echoes (s : State) (p : Nat) : Nat :=
  if (s.port p).echoSecond = s.dev.clockMs / 1000 then (s.port p).echoCount else 0

theorem exec_echoRequest (ha : s.portAwake = true) (ht : s.takesIp d = true) (b : Bytes) :
    exec (.echoRequest d b) s = s.done (s.echo d b) := by
  show s.done (if s.portAwake ∧ s.takesIp d = true then _ else s) = _
  rw [if_pos ⟨ha, ht⟩]

theorem exec_echoRequest_answered (ha : s.portAwake = true) (ht : s.takesIp d = true) (b : Bytes)
    (hn : s.echoes d.port < 100) : exec (.echoRequest d b) s = .next ((s.setPort d.port
      { s.port d.port with echoSecond := s.dev.clockMs / 1000, echoCount := s.echoes d.port + 1 }).sendOn d.port
        (.echoReply (s.ipTo d.port d.srcMac d.v6 d.srcIp) b)) := by
  have he : s.echo d b = (s.setPort d.port { s.port d.port with
      echoSecond := s.dev.clockMs / 1000, echoCount := s.echoes d.port + 1 }).sendOn d.port
        (.echoReply (s.ipTo d.port d.srcMac d.v6 d.srcIp) b) := if_pos hn
  have hset : ∀ x, s.Spares (s.setPort d.port x) := fun _ => ⟨rfl, rfl, rfl, rfl⟩
  rw [exec_echoRequest ha ht, he]
  exact Spares.done (Spares.trans (hset _) (Spares.sendOn ..))

theorem exec_echoRequest_ignored (ha : s.portAwake = true) (ht : s.takesIp d = true) (b : Bytes)
    (hn : 100 ≤ s.echoes d.port) : exec (.echoRequest d b) s = .next s := by
  have he : s.echo d b = s := if_neg (Nat.not_lt.mpr hn)
  rw [exec_echoRequest ha ht, he, State.done_self]

variable {p q : Nat}

/-- A PAUSE obeyed holds its port, or with quanta 0 sends what waited (R138). -/
theorem exec_pause (he : s.rdB Reg.NET_PORTMODE.PAUSE_EN = true) (hp : s.portsServe p = true) : exec (.pause p q) s =
    .next (if q % 65536 = 0 then (s.setPort p { s.port p with pauseQuanta := q % 65536 }).pumpPort p
      else s.setPort p { s.port p with pauseQuanta := q % 65536 }) := by
  have hset : s.Spares (s.setPort p { s.port p with pauseQuanta := q % 65536 }) := ⟨rfl, rfl, rfl, rfl⟩
  have h : s.pausePort p q = if q % 65536 = 0 then (s.setPort p { s.port p with pauseQuanta := q % 65536 }).pumpPort p
      else s.setPort p { s.port p with pauseQuanta := q % 65536 } := if_pos ⟨he, hp⟩
  show s.done (s.pausePort p q) = _
  rw [h]
  split
  · exact Spares.done (Spares.trans hset (Spares.pumpPort ..))
  · exact Spares.done hset

theorem exec_pause_ignored (he : s.rdB Reg.NET_PORTMODE.PAUSE_EN = false) : exec (.pause p q) s = .next s := by
  have h : s.pausePort p q = s := if_neg fun h => by rw [he] at h; exact Bool.false_ne_true h.1
  show s.done (s.pausePort p q) = _
  rw [h, State.done_self]

end

/-! ## Links of the host ports -/

/-- A port replaced, and the others as they were. -/
theorem port_of_set {s u : State} {p : Nat} {x : Port} (hp : p < s.ports.length) (h : u.ports = s.ports.set p x) :
    u.port p = x ∧ ∀ k, k ≠ p → u.port k = s.port k := by
  unfold State.port
  rw [h]
  refine ⟨?_, fun k hk => ?_⟩
  · rw [List.getD_eq_getElem?_getD, List.getElem?_set_self hp, Option.getD_some]
  · rw [List.getD_eq_getElem?_getD, List.getElem?_set_ne hk.symm, List.getD_eq_getElem?_getD]

theorem setPort_port (s : State) {p : Nat} (hp : p < s.ports.length) : s.setPort p (s.port p) = s := by
  have h : s.ports.set p (s.port p) = s.ports := by
    unfold State.port
    rw [List.getD_eq_getElem?_getD, List.getElem?_eq_getElem hp, Option.getD_some, List.set_getElem_self]
  unfold State.setPort
  rw [h]

theorem portChange_ports (s : State) (p : Nat) (x : Port) (e : Event) : (s.portChange p x e).ports = s.ports.set p x := by
  unfold State.portChange
  extract_lets was t
  have ht : t.ports = s.ports.set p x := foldl_ports _ (fun u l => raiseI_ports u e (l + 2)) _ _
  split
  · exact ht
  · exact (floodOwn_ports t).trans ht

/-- A port that goes down ends its pause (R138). -/
theorem portLost_ports (s : State) (p : Nat) : (s.portLost p).ports =
    s.ports.set p { s.port p with up := false, anDone := false, pauseQuanta := 0, eee := false } := portChange_ports ..

/-- An outcome has the ports of its effect. -/
theorem done_ports (s t : State) : ∃ u, s.done t = .next u ∧ u.ports = t.ports := ⟨_, State.done_eq .., rfl⟩

/-- A negotiation that fails leaves the port and what the device is as a gateway; it raises the event on every lane. -/
theorem portChange_same {s : State} {p : Nat} (hp : p < s.ports.length) {e : Event} (he : e.bit < 32) :
    s.portChange p (s.port p) e = (s.portLanes p).foldl (fun (t : State) l => t.raiseI e (l + 2)) s := by
  have hword : ∀ (ls : List Nat) (t : State) a, addrOff a ≠ hEvtStat →
      (ls.foldl (fun (t : State) l => t.raiseI e (l + 2)) t).word a = t.word a := by
    intro ls
    induction ls with
    | nil => exact fun _ _ _ => rfl
    | cons l ls ih => exact fun t a ha => (ih _ a ha).trans (raiseI_word ha t he _)
  unfold State.portChange
  rw [setPort_port s hp]
  exact if_pos (isGateway_congr (foldl_ports _ (fun u l => raiseI_ports u e (l + 2)) _ s) (hword _ s))

section
variable {s : State} {p : Nat}

/-- A port that has come up, as it was negotiated with a partner (R138). -/
def State.linkedPort (s : State) (p : Nat) (eee : Bool) : Port :=
  { s.port p with
    up := true
    anDone := s.rdB Reg.NET_PORTMODE.AN_EN
    eee := s.rdB Reg.NET_PORTMODE.AN_EN && eee && s.rdB Reg.NET_PORTMODE.EEE_EN }

theorem exec_linkUp (hl : s.portLinks p = true) (hd : (s.port p).up = false) (eee : Bool) : exec (.linkUp ⟨p, eee⟩) s =
    s.done ((s.portChange p (s.linkedPort p eee) Ev.NET_I.LINK_UP).pumpPort p) := by
  show s.done (if s.portLinks p ∧ !(s.port p).up then _ else s) = _
  rw [if_pos ⟨hl, by rw [hd]; rfl⟩]
  rfl

theorem exec_anFail (hl : s.portLinks p = true) (hd : (s.port p).up = false) (ha : s.rdB Reg.NET_PORTMODE.AN_EN = true)
    (hp : p < s.ports.length) : exec (.anFail p) s = .next ((s.portLanes p).foldl
      (fun (t : State) l => t.raiseI Ev.NET_I.AN_FAIL (l + 2)) s) := by
  show s.done (if s.portLinks p ∧ !(s.port p).up ∧ s.rdB Reg.NET_PORTMODE.AN_EN then _ else s) = _
  rw [if_pos ⟨hl, by rw [hd]; rfl, ha⟩, portChange_same hp (by decide)]
  exact Spares.done (Spares.foldl _ (fun _ _ => Spares.of_answering (Answering.raiseWith ..)) _ s)

theorem exec_linkDown (he : s.portExists p = true) (hu : (s.port p).up = true) :
    exec (.linkDown p) s = s.done (s.portLost p) := by
  show s.done (if s.portExists p ∧ (s.port p).up then _ else s) = _
  rw [if_pos ⟨he, hu⟩]

end

/-! ## Fabric frames on host ports -/

section
variable {s : State} {p et : Nat} {vlan : Option Nat} {mac : BitVec 48} {f : FabFrame}
    (hs : s.portsServe p = true) (ht : s.tagTaken vlan = true) (he : et = s.rd Reg.NET_FAB.FAB_ETHERTYPE)
include hs ht he

theorem exec_fabricFrame_taken (h : s.fabric = true ∧ s.rdB Reg.NET_FAB.GATEWAY_EN = true ∧ s.ownMac mac.toNat = true ∧
    s.ingressOk .gateway f = true) : exec (.fabricFrameOnHostPort p vlan mac et f) s =
      .next (if f.ftype = 0x11 then ({ s with dev := { s.dev with routerQuiet := false } } : State).terminate .gateway 0 f
        else ({ s with dev := { s.dev with routerQuiet := false } } : State).route .gateway 0 f) := by
  have hw : s.Spares { s with dev := { s.dev with routerQuiet := false } } := ⟨rfl, rfl, rfl, rfl⟩
  refine (congrArg s.done ((if_pos ⟨hs, ht, he⟩).trans (if_pos h))).trans ?_
  dsimp only
  split
  · exact Spares.done (Spares.trans hw (Spares.terminate ..))
  · exact Spares.done (Spares.trans hw (Spares.route ..))

theorem exec_fabricFrame_discarded (h : ¬ (s.fabric = true ∧ s.rdB Reg.NET_FAB.GATEWAY_EN = true ∧
    s.ownMac mac.toNat = true ∧ s.ingressOk .gateway f = true)) :
    exec (.fabricFrameOnHostPort p vlan mac et f) s = .next (s.raise Ev.NET.FAB_DISCARD) :=
  (congrArg s.done ((if_pos ⟨hs, ht, he⟩).trans (if_neg h))).trans (Spares.done (Spares.raise ..))

end

/-- Settles O40: each row's guard holds, and the row's one effect is the next state. -/
theorem portsAnswerAndLink : Obligations.PortsAnswerAndLink := by
  unfold Obligations.PortsAnswerAndLink
  intro s d payload p q vlan mac et eee f
  refine ⟨fun ha hf hd => ⟨fun h4 => exec_arpRequest ha hf hd h4, fun h6 hx => exec_neighbourSolicitation ha hf hd h6 hx⟩,
    fun o h => sendOn_open h o, fun o h => sendOn_paused_out h o,
    fun ha ht => ⟨fun hn => exec_echoRequest_answered ha ht payload hn, fun hn => exec_echoRequest_ignored ha ht payload hn⟩,
    fun he hp hq => ?_, fun he hp hq => ?_, exec_pause_ignored, fun hl hd hp => ⟨?_, fun ha => exec_anFail hl hd ha hp⟩,
    fun he hu hp => ?_, fun hs ht he => ⟨fun h hx => ?_, fun h hx => ?_, exec_fabricFrame_discarded hs ht he⟩⟩
  · rw [exec_pause he hp, if_neg (by omega)]
  · rw [exec_pause he hp, if_pos hq, hq]
  · obtain ⟨u, hu, hports⟩ := done_ports s ((s.portChange p (s.linkedPort p eee) Ev.NET_I.LINK_UP).pumpPort p)
    obtain ⟨hup, hothers⟩ := port_of_set hp (hports.trans ((pumpPort_ports ..).trans (portChange_ports ..)))
    exact ⟨u, (exec_linkUp hl hd eee).trans hu, by rw [hup]; rfl, by rw [hup]; rfl, by rw [hup]; rfl, hothers⟩
  · obtain ⟨u, hdone, hports⟩ := done_ports s (s.portLost p)
    obtain ⟨hdown, hothers⟩ := port_of_set hp (hports.trans (portLost_ports s p))
    exact ⟨u, (exec_linkDown he hu).trans hdone, by rw [hdown], by rw [hdown], hothers⟩
  · rw [exec_fabricFrame_taken hs ht he h, if_neg hx]
  · rw [exec_fabricFrame_taken hs ht he h, if_pos hx]

end Sys2Proof.Machine
end

section
/-! SUPPORT. What an answer and a copy in the system area leave alone: the pattern store, the associative tables and registers
that are listed (R235, R245). -/

namespace Sys2Proof.Machine

open Sys2Proof

/-! ## Copies in the system area -/

namespace Draining

/-- A copy saved changes the tier and its counters alone. -/
theorem saveSys (s : State) (obj : SysObj) (bytes : Nat) : s.Draining (s.saveSys obj bytes) := by
  unfold State.saveSys
  extract_lets lmus
  split
  · exact refl s
  · extract_lets old g new
    exact trans ⟨s.regs, s.log, _, _, rfl⟩ (countUnits ..)

theorem forgetSys (s : State) (p : SysObj → Bool) : s.Draining (s.forgetSys p) := by
  unfold State.forgetSys
  extract_lets gone f
  split
  · exact refl s
  · exact ⟨s.regs, s.log, _, _, rfl⟩

end Draining

/-! ## What leaves the pattern store and the tables alone -/

/-- The pattern store and the associative tables are as they were. -/
structure State.SameStores (s u : State) : Prop where
  pat : u.pat = s.pat
  cam : u.cam = s.cam

namespace SameStores

theorem refl (s : State) : s.SameStores s := ⟨rfl, rfl⟩

theorem trans {s t u : State} (h : s.SameStores t) (k : t.SameStores u) : s.SameStores u :=
  ⟨k.pat.trans h.pat, k.cam.trans h.cam⟩

theorem of_answering {s u : State} (h : s.Answering u) : s.SameStores u := by
  obtain ⟨r, l, cm, ss, o, q, rfl⟩ := h
  exact ⟨rfl, rfl⟩

theorem of_draining {s u : State} (h : s.Draining u) : s.SameStores u := by
  obtain ⟨r, l, k, f, rfl⟩ := h
  exact ⟨rfl, rfl⟩

theorem of_sealing {s u : State} (h : s.Sealing u) : s.SameStores u := by
  obtain ⟨r, l, k, f, rfl⟩ := h
  exact ⟨rfl, rfl⟩

theorem hashed (s : State) (n : Nat) : s.SameStores (s.hashed n) := by
  unfold State.hashed
  split <;> exact ⟨rfl, rfl⟩

theorem endSession (s : State) (i : Nat) : s.SameStores (s.endSession i) := by
  unfold State.endSession
  split
  · exact refl s
  · extract_lets lapse q t cmd kv cry u
    obtain ⟨r, l, h⟩ := u.releasePages_eq i
    rw [h]
    exact ⟨rfl, rfl⟩

theorem fabReply (s : State) (dst ftype reqId : Nat) (p : FabPayload) : s.SameStores (s.fabReply dst ftype reqId p) :=
  trans (of_sealing (Sealing.makeFrames s ⟨dst, ftype, none, Config.fabFlow dst 0⟩ (replyBytes ftype reqId p)))
    ⟨rfl, rfl⟩

theorem post (s : State) (e : TagEntry) (c : Completion) : s.SameStores (s.post e c) := by
  obtain ⟨m, hm, h⟩ := AnswerFrame.post s e c
  have hm : s.SameStores m := trans (t := s.dropEarly fun t => t == e.id) ⟨rfl, rfl⟩ (of_answering hm)
  split at h
  · obtain h | ⟨x, -, -, h⟩ := h
    · rw [h]; exact hm
    · rw [h]; exact trans hm (endSession ..)
  · obtain ⟨p, h⟩ := h
    rw [h]; exact trans hm (fabReply ..)
  · rw [h]; exact hm

theorem finish (s : State) (e : TagEntry) (st : Nat) (p : Bytes) : s.SameStores (s.finish e st p) := post ..

theorem image {s u : State} (h : s.SameStores u) (i : Nat) : u.image? i = s.image? i := by
  unfold State.image?; rw [h.pat]

theorem table {s u : State} (h : s.SameStores u) (t : Nat) : u.table t = s.table t := by
  unfold State.table; rw [h.cam]

end SameStores

/-- A command that takes the state to `m` and is answered there OK keeps the stores of `m`. -/
theorem done_finish_stores (s m : State) (e : TagEntry) :
    ∃ u, s.done (m.finish e.started stOK []) = .next u ∧ u.Answers e (doneWith stOK e.asn []) ∧ m.SameStores u :=
  ⟨_, State.done_eq .., answers_congr rfl rfl (finish_answers m e.started stOK []),
    SameStores.trans (SameStores.finish m e.started stOK []) ⟨rfl, rfl⟩⟩

/-! ## Registers that are listed -/

/-- An entry that is listed stays as another is written or dropped, whether the table is canonical or not. -/
theorem SMap.get_set_listed {α : Type} [DecidableEq α] (d : Nat → α) {k j : Nat} (v : α) (hj : j ≠ k) (m : SMap α)
    (h : SMap.get d m j ≠ d j) : SMap.get d (SMap.set d k v m) j = SMap.get d m j := by
  by_cases hv : v = d k
  · induction m with
    | nil => exact absurd rfl h
    | cons x t ih =>
      obtain ⟨a, w⟩ := x
      unfold SMap.set
      rw [if_pos hv, if_pos hv]
      rcases Nat.lt_trichotomy k a with hk | rfl | hk
      · rw [if_pos hk]
      · have hlt : ¬ j < k := fun hlt => h (by simp only [SMap.get, if_neg hj, if_pos hlt])
        rw [if_neg (Nat.lt_irrefl k), if_pos rfl]
        simp only [SMap.get, if_neg hj, if_neg hlt]
      · rw [if_neg (by omega), if_neg (by omega)]
        simp only [SMap.get] at h ⊢
        by_cases hja : j = a
        · rw [if_pos hja, if_pos hja]
        · by_cases hlt : j < a
          · rw [if_neg hja, if_neg hja, if_pos hlt, if_pos hlt]
          · rw [if_neg hja, if_neg hlt] at h
            rw [if_neg hja, if_neg hja, if_neg hlt, if_neg hlt]
            exact ih h
  · exact SMap.get_set_other d hv hj m

section
variable {s : State} {a : Nat} (hs : s.word a ≠ regReset a)
include hs

theorem wrAt_word_listed (f : Field) (i k v : Nat) (ha : a ≠ f.addr i k) : (s.wrAt f i k v).word a = s.word a :=
  SMap.get_set_listed regReset _ ha s.regs hs

theorem count64_word_listed (lo hi : Field) (i n : Nat) (hlo : a ≠ lo.addr i 0) (hhi : a ≠ hi.addr i 0) :
    (s.count64 lo hi i n).word a = s.word a := by
  have h := wrAt_word_listed hs lo i 0 (s.rdAt lo i 0 + 2 ^ 32 * s.rdAt hi i 0 + n) hlo
  exact (wrAt_word_listed (by rw [h]; exact hs) hi i 0 _ hhi).trans h

/-- Units are counted in registers of the flash block, and a register of the blocks before it stays that is listed. -/
theorem countUnits_word_listed (ha : addrOff a ≠ hEvtStat) (hlt : a < 0x280000) (f : Flash) (n : Nat) :
    (s.countUnits f n).word a = s.word a := by
  have hne : ∀ b, 0x280000 ≤ b → a ≠ b := by omega
  have hnand := count64_word_listed hs Reg.FLT.NAND_UNITS_LO Reg.FLT.NAND_UNITS_HI 0 (s.flash.wseq - f.wseq)
    (hne _ (by decide)) (hne _ (by decide))
  have hhost := (count64_word_listed (by rw [hnand]; exact hs) Reg.FLT.HOST_UNITS_LO Reg.FLT.HOST_UNITS_HI 0 n
    (hne _ (by decide)) (hne _ (by decide))).trans hnand
  unfold State.countUnits State.noteCollection
  dsimp only
  split
  · exact (raiseI_word ha _ (e := Ev.FLT.GC_MANDATORY) (by decide) 0).trans hhost
  · exact hhost

theorem saveSys_word_listed (ha : addrOff a ≠ hEvtStat) (hlt : a < 0x280000) (obj : SysObj) (bytes : Nat) :
    (s.saveSys obj bytes).word a = s.word a := by
  unfold State.saveSys
  extract_lets lmus
  split
  · rfl
  · exact countUnits_word_listed (by exact hs) ha hlt ..

end

end Sys2Proof.Machine
end

section
/-! SUPPORT. The current images of the pattern store as versions are added, retired and freed (R243, R245). -/

namespace Sys2Proof.Machine

open Sys2Proof

/-- A version once its ID has another current one or none. -/
def Image.retire (id : Nat) (i : Image) : Image := if i.id = id then { i with current := false } else i

/-- The versions of an ID are no longer current. -/
def State.retireImages (s : State) (id : Nat) : State :=
  { s with pat := { s.pat with images := s.pat.images.map (Image.retire id) } }

/-- A new version, current. -/
def State.addImage (s : State) (id : Nat) (b : Bytes) : State :=
  { s with pat := { s.pat with images := s.pat.images ++ [⟨id, s.pat.nextVersion, b, true⟩],
                               nextVersion := s.pat.nextVersion + 1 } }

theorem loadImage_eq (s : State) (id : Nat) (b : Bytes) : s.loadImage id b =
    (((s.retireImages id).addImage id b).saveSys (.image id s.pat.nextVersion) b.length).freeImages := rfl

theorem image_retireImages (s : State) (id j : Nat) :
    (s.retireImages id).image? j = if j = id then none else s.image? j := by
  unfold State.image? State.retireImages
  induction s.pat.images with
  | nil => simp
  | cons x xs ih =>
    dsimp only at ih ⊢
    rw [List.map_cons, List.find?_cons, List.find?_cons, ih]
    unfold Image.retire
    by_cases hj : j = id
    · subst hj
      by_cases hx : x.id = j
      · simp [hx]
      · simp [hx, beq_false_of_ne hx]
    · by_cases hx : x.id = id
      · simp [hx, hj, beq_false_of_ne (Ne.symm hj)]
      · simp [hx, hj]

theorem image_addImage_same {s : State} {id : Nat} (h : s.image? id = none) (b : Bytes) :
    (s.addImage id b).image? id = some ⟨id, s.pat.nextVersion, b, true⟩ := by
  unfold State.image? at h
  unfold State.image? State.addImage
  simp [List.find?_append, h]

theorem image_addImage_other (s : State) {id j : Nat} (h : j ≠ id) (b : Bytes) :
    (s.addImage id b).image? j = s.image? j := by
  unfold State.image? State.addImage
  simp [List.find?_append, Ne.symm h]

/-- Versions that nothing uses are not current. -/
theorem image_freeImages (s : State) (j : Nat) : s.freeImages.image? j = s.image? j := by
  refine (SameStores.image (SameStores.of_draining (Draining.forgetSys ..)) j).trans ?_
  unfold State.image?
  dsimp only
  rw [List.find?_filter]
  refine congrArg (fun p => s.pat.images.find? p) (funext fun i => ?_)
  rw [Bool.eq_iff_iff, decide_eq_true_eq, Bool.and_eq_true]
  refine and_iff_right_of_imp fun ⟨_, hcurrent⟩ => ?_
  unfold State.imageUsed
  rw [hcurrent]
  rfl

theorem image_loadImage_same (s : State) (id : Nat) (b : Bytes) :
    (s.loadImage id b).image? id = some ⟨id, s.pat.nextVersion, b, true⟩ := by
  rw [loadImage_eq, image_freeImages, SameStores.image (SameStores.of_draining (Draining.saveSys ..)) id]
  exact image_addImage_same (by rw [image_retireImages, if_pos rfl]) b

theorem image_loadImage_other (s : State) {id j : Nat} (h : j ≠ id) (b : Bytes) :
    (s.loadImage id b).image? j = s.image? j := by
  rw [loadImage_eq, image_freeImages, SameStores.image (SameStores.of_draining (Draining.saveSys ..)) j,
    image_addImage_other _ h, image_retireImages, if_neg h]

end Sys2Proof.Machine
end

section
/-! SUPPORT. The associative tables: which registers bear on a change, and what a change, a search and a commit point do
(R227, R231, R235, R236). -/

namespace Sys2Proof.Machine

open Sys2Proof

/-! ## Tables -/

theorem table_setTable_same (s : State) (t : Nat) (m : SMap (Option CamEntry)) : (s.setTable t m).table t = m := by
  unfold State.table State.setTable
  dsimp only
  rw [find_putWhere (fun x => x.1 == t) (t, m) (beq_self_eq_true t)]

theorem table_setTable_other (s : State) {t j : Nat} (h : j ≠ t) (m : SMap (Option CamEntry)) :
    (s.setTable t m).table j = s.table j := by
  unfold State.table State.setTable
  dsimp only
  rw [find_putWhere_other (fun x => x.1 == t) (fun x => x.1 == j) (t, m) (beq_false_of_ne (Ne.symm h)) fun z hz =>
    (congrArg (· == j) (eq_of_beq hz)).trans (beq_false_of_ne (Ne.symm h))]

/-- Of a table's place only the width bears on how a change is applied. -/
theorem camApply_congr {c d : TableCfg} (h : c.code = d.code) (k : CamCmd) (v : Bytes) (m : SMap (Option CamEntry)) :
    camApply c k v m = camApply d k v m := by
  unfold camApply camRecords TableCfg.recLen TableCfg.width
  rw [h]

/-! ## Where a table lies -/

/-- A field-filter table lies where its register says (R226). -/
theorem tableCfg_filter (s : State) {t : Nat} (h : 8 ≤ t ∧ t ≤ 15) : s.tableCfg t =
    ⟨s.rdAt Reg.CAM_TBL.FIRST_TILE 0 (t - 8), s.rdAt Reg.CAM_TBL.TILES 0 (t - 8), s.rdAt Reg.CAM_TBL.WIDTH 0 (t - 8),
     s.rdAt Reg.CAM_TBL.SEL_LSB 0 (t - 8), s.rdAt Reg.CAM_TBL.SEL_BITS 0 (t - 8)⟩ := by
  unfold State.tableCfg
  rw [if_neg (by omega), if_neg (by omega), if_neg (by omega), if_pos h]

/-- The width of a table is fixed, but for those of the field filters (Table 09-2). -/
theorem tableCfg_code_congr {s u : State} {t : Nat} (h : 8 ≤ t → t ≤ 15 →
    u.word (Reg.CAM_TBL.WIDTH.addr 0 (t - 8)) = s.word (Reg.CAM_TBL.WIDTH.addr 0 (t - 8))) :
    (u.tableCfg t).code = (s.tableCfg t).code := by
  by_cases ht : 8 ≤ t ∧ t ≤ 15
  · rw [tableCfg_filter u ht, tableCfg_filter s ht]
    dsimp only
    unfold State.rdAt
    rw [h ht.1 ht.2]
  · unfold State.tableCfg
    rw [if_neg ht, if_neg ht]
    by_cases h0 : t = 0
    · rw [if_pos h0, if_pos h0]
    · rw [if_neg h0, if_neg h0]

/-- A field-filter table has no tiles until its register is written (Table 09-6). -/
theorem regReset_camTbl : ∀ k < 8, wordGet (regReset (Reg.CAM_TBL.WIDTH.addr 0 k)) 5 6 = 0 := by decide +kernel

/-- A field-filter table that has tiles has its register listed. -/
theorem word_listed_of_tiles {s : State} {t : Nat} (h8 : 8 ≤ t) (h15 : t ≤ 15) (h : (s.tableCfg t).tiles ≠ 0) :
    s.word (Reg.CAM_TBL.WIDTH.addr 0 (t - 8)) ≠ regReset (Reg.CAM_TBL.WIDTH.addr 0 (t - 8)) := by
  intro hw
  refine h ?_
  rw [tableCfg_filter s ⟨h8, h15⟩]
  show wordGet (s.word (Reg.CAM_TBL.WIDTH.addr 0 (t - 8))) 5 6 = 0
  rw [hw]
  obtain ⟨k, rfl⟩ := Nat.exists_eq_add_of_le h8
  rw [Nat.add_sub_cancel_left]
  exact regReset_camTbl k (by omega)

/-- A field-filter table without tiles fails R234 at the change's turn. -/
theorem tiles_of_camCheck {s : State} {v : Bytes} {k : CamCmd} (h : s.camCheck v k true = none) (h8 : 8 ≤ k.table) :
    (s.tableCfg k.table).tiles ≠ 0 := by
  intro h0
  unfold State.camCheck at h
  rw [Option.map_eq_none_iff, List.find?_eq_none] at h
  refine h (true, decide (8 ≤ k.table) && decide ((s.tableCfg k.table).tiles = 0), stBadField) ?_ ?_
  · unfold State.camChecks
    simp
  · simp [h8, h0]

/-! ## Commit points -/

/-- The entries of its table once a command's change is applied. -/
def State.camChanged (s : State) (e : TagEntry) : SMap (Option CamEntry) :=
  let k := camCmd e.msg.param
  camApply (s.tableCfg k.table) k e.msg.value (s.table k.table)

theorem saveTable_cam (s : State) (t : Nat) (m : SMap (Option CamEntry)) : (s.saveTable t m).cam =
    if t = 0 then s.cam else { s.cam with saved := putWhere (fun x => x.1 == t) (t, m) s.cam.saved } := by
  unfold State.saveTable
  split
  · rfl
  · exact (SameStores.of_draining (Draining.saveSys ..)).cam

theorem saveTable_word_listed {s : State} {a : Nat} (hs : s.word a ≠ regReset a) (ha : addrOff a ≠ hEvtStat)
    (hlt : a < 0x280000) (t : Nat) (m : SMap (Option CamEntry)) : (s.saveTable t m).word a = s.word a := by
  unfold State.saveTable
  split
  · rfl
  · exact saveSys_word_listed (s := { s with cam := { s.cam with saved := putWhere (fun x => x.1 == t) (t, m) s.cam.saved } })
      hs ha hlt ..

theorem camCommit_cam (e : TagEntry) (s : State) : ∃ x, (camCommit e s).cam =
    { (s.saveTable (camCmd e.msg.param).table (s.camChanged e)).cam with moving := some (e.id, x) } := ⟨_, rfl⟩

/-- At its commit point a change is saved and begins, and no word of a table has changed (R235). -/
theorem camCommit_begins (e : TagEntry) (s : State) : (camCommit e s).cam.tables = s.cam.tables ∧
    (∃ x, (camCommit e s).cam.moving = some (e.id, x)) ∧
    ((camCmd e.msg.param).table ≠ 0 → ((camCmd e.msg.param).table, s.camChanged e) ∈ (camCommit e s).cam.saved) := by
  obtain ⟨x, h⟩ := camCommit_cam e s
  rw [h, saveTable_cam]
  refine ⟨?_, ⟨x, rfl⟩, fun h0 => ?_⟩
  · split <;> rfl
  · rw [if_neg h0]
    exact List.mem_of_find?_eq_some (find_putWhere (fun y : Nat × SMap (Option CamEntry) =>
      y.1 == (camCmd e.msg.param).table) _ (beq_self_eq_true _) _)

theorem camCommit_commits (e : TagEntry) (s : State) : (camCommit e s).Commits e (doneWith stOK e.asn []) :=
  ⟨false, [], false, entry_setEntry ..⟩

/-- The commit of a change that passes R234 leaves the width of its table. -/
theorem camCommit_code {s : State} {e : TagEntry} (h : s.camCheck e.msg.value (camCmd e.msg.param) true = none) :
    ((camCommit e s).tableCfg (camCmd e.msg.param).table).code = (s.tableCfg (camCmd e.msg.param).table).code := by
  refine tableCfg_code_congr fun h8 h15 => ?_
  have hs := word_listed_of_tiles h8 h15 (tiles_of_camCheck h h8)
  have ha : Reg.CAM_TBL.WIDTH.addr 0 ((camCmd e.msg.param).table - 8) = 0x200060 + 4 * ((camCmd e.msg.param).table - 8) := rfl
  have hoff : addrOff (Reg.CAM_TBL.WIDTH.addr 0 ((camCmd e.msg.param).table - 8)) ≠ hEvtStat := by
    rw [ha]; unfold addrOff hEvtStat; omega
  exact saveTable_word_listed hs hoff (by rw [ha]; omega) _ (s.camChanged e)

/-- A change that is under way ends with its table changed and every other as it was. -/
theorem camEnd_changes {s : State} {e : TagEntry} {x : Option (Nat × Nat)} (h : s.cam.moving = some (e.id, x)) :
    (s.camEnd e).table (camCmd e.msg.param).table = s.camChanged e ∧
    ∀ j, j ≠ (camCmd e.msg.param).table → (s.camEnd e).table j = s.table j := by
  unfold State.camEnd
  rw [h]
  dsimp only
  rw [if_pos rfl]
  exact ⟨table_setTable_same .., fun j hj => table_setTable_other s hj _⟩

/-- A change without a pause runs through its commit point to its end. -/
theorem camCommit_camEnd {s : State} {e : TagEntry} (h : s.camCheck e.msg.value (camCmd e.msg.param) true = none) :
    ((camCommit e s).camEnd e).table (camCmd e.msg.param).table = s.camChanged e ∧
    ∀ j, j ≠ (camCmd e.msg.param).table → ((camCommit e s).camEnd e).table j = s.table j := by
  obtain ⟨htables, ⟨x, hx⟩, -⟩ := camCommit_begins e s
  have htable : ∀ j, (camCommit e s).table j = s.table j := fun j => by unfold State.table; rw [htables]
  obtain ⟨hsame, hother⟩ := camEnd_changes hx
  refine ⟨hsame.trans ?_, fun j hj => (hother j hj).trans (htable j)⟩
  unfold State.camChanged
  dsimp only
  rw [htable, camApply_congr (camCommit_code h)]

/-! ## Searches -/

/-- A search counts itself on the tiles, which leave retention (R227). -/
theorem noteSearch_eq (s : State) (c : TableCfg) : ∃ r, s.noteSearch c 1 = { s with regs := r, cam := { s.cam with
    retained := s.cam.retained.filter fun t => decide (t < c.first) || decide (c.first + c.tiles ≤ t) } } := by
  have hcount : ∀ (l : List Nat) (t : State), ∃ r, l.foldl (fun (s : State) k =>
      s.count64 Reg.SEARCHES_LO.WORD Reg.SEARCHES_HI.WORD (c.first + k) 1) t = { t with regs := r } := fun l => by
    induction l with
    | nil => exact fun t => ⟨t.regs, rfl⟩
    | cons k l ih =>
      intro t
      obtain ⟨r, h⟩ := ih (t.count64 Reg.SEARCHES_LO.WORD Reg.SEARCHES_HI.WORD (c.first + k) 1)
      exact ⟨r, h⟩
  obtain ⟨r, h⟩ := hcount (List.range c.tiles) s
  unfold State.noteSearch
  rw [h]
  exact ⟨r, rfl⟩

/-- A search by a command that has begun changes the tables as one before it began, and beside them only what an answer
may. -/
theorem noteSearch_answering (s : State) (e : TagEntry) (c : TableCfg) :
    ({ s with cam := (s.noteSearch c 1).cam } : State).Answering ((s.begun e).noteSearch c 1) := by
  obtain ⟨r, h⟩ := noteSearch_eq s c
  obtain ⟨r', h'⟩ := noteSearch_eq (s.begun e) c
  rw [h, h']
  exact ⟨r', s.log, (s.begun e).cmd, s.sessions, s.out, s.portQueue, rfl⟩

end Sys2Proof.Machine
end

section
/-! PROOF. O25: PATTERN_LOAD and CAM_WRITE (R231, R233 to R235, R243 to R245). -/

namespace Sys2Proof.Machine

open Sys2Proof

/-! ## The two commands as they start -/

section
variable {s : State} {t : TagId} {e : TagEntry}

theorem exec_patternLoad (h : s.Starts t 0x58 e) : exec (.patternLoad t) s = s.done (patternLoadBody e.started (s.begun e)) :=
  congrArg s.done (runCmd_starts h patternLoadBody)

theorem exec_camWrite (h : s.Starts t 0x59 e) (hh : s.camHeld t = false) (p : Bool) :
    exec (.camWrite ⟨t, p⟩) s = s.done (camWriteBody p e.started (s.begun e)) :=
  congrArg s.done ((if_neg (by rw [hh]; exact Bool.false_ne_true)).trans (runCmd_starts h (camWriteBody p)))

end

/-! ## PATTERN_LOAD -/

section
variable {s : State} {e : TagEntry} (hid : beAt e.msg.param 0 2 ≠ 1)
include hid

section
variable (hop : beAt e.msg.param 2 1 = 1) (hh : s.noHash = false)
include hop hh

theorem patternLoadBody_invalid
    (hbad : imgInvalid e.msg.value (decide ((s.tableCfg (imgFilter e.msg.value)).tiles ≠ 0)) = true) :
    patternLoadBody e s = s.finish e stPatternInvalid [] := by
  unfold patternLoadBody
  dsimp only
  rw [if_neg hid, if_pos hop, hh, if_neg Bool.false_ne_true, if_pos hbad]

theorem patternLoadBody_loads
    (hgood : imgInvalid e.msg.value (decide ((s.tableCfg (imgFilter e.msg.value)).tiles ≠ 0)) = false)
    (hfit : s.storeUsed + (e.msg.value.length + 4095) / 4096 ≤ 4096) (htier : s.noTier = false)
    (hfull : s.sysFull e.msg.value.length = false) (hro : s.flash.readOnly = false) : patternLoadBody e s =
      (((s.loadImage (beAt e.msg.param 0 2) e.msg.value).hashed (e.msg.value.length - 64)).raise Ev.PAT.IMAGE_LOADED).finish e
        stOK [] := by
  unfold patternLoadBody
  dsimp only
  rw [if_neg hid, if_pos hop, hh, if_neg Bool.false_ne_true, hgood, if_neg Bool.false_ne_true, if_neg (by omega), htier,
    if_neg Bool.false_ne_true, hfull, if_neg Bool.false_ne_true, hro, if_neg Bool.false_ne_true]

end

theorem patternLoadBody_deletes (hop : beAt e.msg.param 2 1 ≠ 1) {img : Image}
    (himg : s.image? (beAt e.msg.param 0 2) = some img)
    (hw : (s.pat.watches.any fun w => w.imageId == beAt e.msg.param 0 2) = false) (hro : s.flash.readOnly = false) :
    patternLoadBody e s =
      ((s.retireImages (beAt e.msg.param 0 2)).freeImages.raise Ev.PAT.IMAGE_LOADED).finish e stOK [] := by
  unfold patternLoadBody
  dsimp only
  rw [if_neg hid, if_neg hop, himg, if_neg (by simp), hw, if_neg Bool.false_ne_true, hro, if_neg Bool.false_ne_true]
  rfl

end

/-! ## CAM_WRITE -/

section
variable {s : State} {e : TagEntry} {p : Bool}

theorem camWriteBody_refused {st : Nat} (h : s.camCheck e.msg.value (camCmd e.msg.param) true = some st) :
    camWriteBody p e s = s.finish e st [] := by
  unfold camWriteBody
  dsimp only
  rw [h]

variable (h : s.camCheck e.msg.value (camCmd e.msg.param) true = none)
include h

theorem camWriteBody_reads (hop : (camCmd e.msg.param).op = 5) : camWriteBody p e s =
    s.tookFree.finishData e stOK (beBytes 4 (camCmd e.msg.param).count)
      (camReadData (s.tableCfg (camCmd e.msg.param).table) (s.table (camCmd e.msg.param).table) s.free
        (camCmd e.msg.param).index (camCmd e.msg.param).count) := by
  unfold camWriteBody
  dsimp only
  rw [h]
  exact if_pos hop

theorem camWriteBody_searches (hop : (camCmd e.msg.param).op = 6) : camWriteBody p e s =
    (s.noteSearch (s.tableCfg (camCmd e.msg.param).table) 1).finishData e stOK
      (camSearchData (camFind (s.tableCfg (camCmd e.msg.param).table) (s.table (camCmd e.msg.param).table)
        (leNat e.msg.value)) ((camCmd e.msg.param).count = 1)).1
      (camSearchData (camFind (s.tableCfg (camCmd e.msg.param).table) (s.table (camCmd e.msg.param).table)
        (leNat e.msg.value)) ((camCmd e.msg.param).count = 1)).2 := by
  unfold camWriteBody
  dsimp only
  rw [h]
  exact (if_neg (by omega)).trans (if_pos hop)

theorem camWriteBody_changes (h5 : (camCmd e.msg.param).op ≠ 5) (h6 : (camCmd e.msg.param).op ≠ 6)
    (htier : s.noTier = false) (hro : s.flash.readOnly = false) (hfull : s.sysFull (tableBytes (s.camChanged e)) = false) :
    camWriteBody p e s = if p then s else ((camCommit e s).camEnd e).finish e stOK [] := by
  unfold State.camChanged at hfull
  unfold camWriteBody
  dsimp only at hfull ⊢
  rw [h]
  dsimp only
  rw [if_neg h5, if_neg h6, htier, if_neg Bool.false_ne_true, hfull, if_neg Bool.false_ne_true, hro, if_neg Bool.false_ne_true]

end

/-- COMMIT_POINT_PASSED passes a change that has started (R166, R235). -/
theorem exec_commitPointPassed_cam {s : State} {t : TagId} {e : TagEntry} (he : s.entry? t = some e) (hx : e.state = .executing)
    (hs : s.dev.phase = .service) (ho : e.msg.opcode = 0x59) (h1 : 1 ≤ (camCmd e.msg.param).op)
    (h4 : (camCmd e.msg.param).op ≤ 4) : exec (.commitPointPassed t) s = s.done (camCommit e s) := by
  show execCommitPointPassed t s = _
  unfold execCommitPointPassed
  rw [he]
  dsimp only
  rw [if_pos ⟨hx, .inl hs⟩, if_pos ho, if_pos ⟨h1, h4⟩]

/-- An answer with data, of a command that has begun: beside it the state is `m` but for what an answer changes. -/
theorem done_finishData {s m n : State} {e : TagEntry} (hn : s.AnswerKeeps n) (hm : m.Answering n) (p d : Bytes) :
    ∃ u, s.done (n.finishData e.started stOK p d) = .next u ∧ m.AnswerFrame e u ∧ u.Answers e (doneData stOK e.asn p d) := by
  have hf : n.AnswerFrame e.started (n.finishData e.started stOK p d) := AnswerFrame.post ..
  obtain ⟨w, hw, hend⟩ := hf
  exact ⟨_, AnswerKeeps.done (AnswerKeeps.trans hn (AnswerKeeps.post ..)),
    ⟨w, Answering.trans (Answering.dropEarly (fun t => t == e.id) hm) hw, hend⟩, post_answers n e.started _⟩

/-- Settles O25: each command's body is followed to its one branch, and what the answer leaves alone gives the rest. That
the width of a table outlasts the commit's unit counters rests on its register's being listed, as it has tiles. -/
theorem imagesAndTablesAreLoaded : Obligations.ImagesAndTablesAreLoaded := by
  unfold Obligations.ImagesAndTablesAreLoaded
  intro s t e
  dsimp only
  refine ⟨fun h hid hro => ⟨fun hop hh hgood hfit htier hfull => ?_, fun hop hh hbad => ?_, fun img hop himg hw => ?_⟩,
    fun h hheld p => ⟨fun st hst => ?_, fun hok => ⟨fun hop => ?_, fun hop => ?_, fun h5 h6 htier hro hfull => ⟨?_, ?_⟩⟩⟩,
    fun he ho hx hs h1 h4 => ?_⟩
  · rw [exec_patternLoad h, patternLoadBody_loads (s := s.begun e) (e := e.started) hid hop hh hgood hfit htier hfull hro]
    obtain ⟨u, hu, ha, hk⟩ := done_finish_stores s ((((s.begun e).loadImage (beAt e.msg.param 0 2) e.msg.value).hashed
      (e.msg.value.length - 64)).raise Ev.PAT.IMAGE_LOADED) e
    have hload : ((s.begun e).loadImage (beAt e.msg.param 0 2) e.msg.value).SameStores u :=
      SameStores.trans (SameStores.hashed ..) (SameStores.trans (SameStores.of_draining (Draining.raise ..)) hk)
    exact ⟨u, hu, ha, (SameStores.image hload _).trans (image_loadImage_same ..), fun j hj =>
      (SameStores.image hload j).trans (image_loadImage_other (s.begun e) hj _)⟩
  · rw [exec_patternLoad h, patternLoadBody_invalid (s := s.begun e) (e := e.started) hid hop hh hbad]
    exact done_finish_begun ..
  · have hw : (s.pat.watches.any fun w => w.imageId == beAt e.msg.param 0 2) = false := by
      rw [List.any_eq_false]
      intro w hmem
      simpa using List.all_eq_true.mp hw w hmem
    rw [exec_patternLoad h, patternLoadBody_deletes (s := s.begun e) (e := e.started) hid hop himg hw hro]
    obtain ⟨u, hu, ha, hk⟩ := done_finish_stores s
      (((s.begun e).retireImages (beAt e.msg.param 0 2)).freeImages.raise Ev.PAT.IMAGE_LOADED) e
    have hkept : ∀ j, u.image? j = if j = beAt e.msg.param 0 2 then none else s.image? j := fun j =>
      (SameStores.image (SameStores.trans (SameStores.of_draining (Draining.raise ..)) hk) j).trans
        ((image_freeImages ..).trans (image_retireImages ..))
    exact ⟨u, hu, ha, by rw [hkept, if_pos rfl], fun j hj => by rw [hkept, if_neg hj]⟩
  · rw [exec_camWrite h hheld, camWriteBody_refused (s := s.begun e) (e := e.started) hst]
    exact done_finish_begun ..
  · rw [exec_camWrite h hheld, camWriteBody_reads (s := s.begun e) (e := e.started) hok hop]
    exact done_finishData ⟨rfl, rfl, rfl, rfl, rfl, rfl, rfl, rfl, rfl, id⟩ (Answering.setEntry s.tookFree e.started) ..
  · rw [exec_camWrite h hheld, camWriteBody_searches (s := s.begun e) (e := e.started) hok hop]
    have hm := noteSearch_answering s e (s.tableCfg (camCmd e.msg.param).table)
    exact done_finishData (AnswerKeeps.trans ⟨rfl, rfl, rfl, rfl, rfl, rfl, rfl, rfl, rfl, id⟩ (AnswerKeeps.of_answering hm))
      hm ..
  · rw [exec_camWrite h hheld, camWriteBody_changes (s := s.begun e) (e := e.started) hok h5 h6 htier hro hfull, if_pos rfl]
    exact AnswerKeeps.done (AnswerKeeps.of_answering (Answering.setEntry s e.started))
  · rw [exec_camWrite h hheld, camWriteBody_changes (s := s.begun e) (e := e.started) hok h5 h6 htier hro hfull,
      if_neg Bool.false_ne_true]
    obtain ⟨u, hu, ha, hk⟩ := done_finish_stores s ((camCommit e.started (s.begun e)).camEnd e.started) e
    obtain ⟨hsame, hother⟩ := camCommit_camEnd (s := s.begun e) (e := e.started) hok
    exact ⟨u, hu, ha, (SameStores.table hk _).trans hsame, fun j hj => (SameStores.table hk j).trans (hother j hj)⟩
  · have ht : e.id = t := by simpa using List.find?_some he
    subst ht
    obtain ⟨htables, hmoving, hsaved⟩ := camCommit_begins e s
    exact ⟨_, (exec_commitPointPassed_cam he hx hs ho h1 h4).trans (State.done_eq ..), camCommit_commits e s, htables,
      hmoving, hsaved⟩

end Sys2Proof.Machine
end

section
/-! SUPPORT. What a command that frees images spares, and its answer. -/

namespace Sys2Proof.Machine

open Sys2Proof

namespace Spares

theorem of_draining {s u : State} (h : s.Draining u) : s.Spares u := by
  obtain ⟨r, l, k, f, rfl⟩ := h
  exact ⟨rfl, rfl, rfl, rfl⟩

theorem freeImages (s : State) : s.Spares s.freeImages :=
  trans (t := { s with pat := { s.pat with images := s.pat.images.filter s.imageUsed } }) ⟨rfl, rfl, rfl, rfl⟩
    (of_draining (Draining.forgetSys ..))

end Spares

/-- A command that takes the state to `m` and is answered there OK: beside `m` only what an answer changes differs. -/
theorem done_finish_spares {s m : State} (h : s.Spares m) (e : TagEntry) :
    ∃ u, s.done (m.finish e.started stOK []) = .next u ∧ u.Answers e (doneWith stOK e.asn []) ∧ m.AnswerFrame e u :=
  ⟨_, Spares.done (Spares.trans h (Spares.of_answerKeeps (AnswerKeeps.finish m e.started stOK []))),
    finish_answers m e.started stOK [], AnswerFrame.finish m e.started stOK []⟩

end Sys2Proof.Machine
end

section
/-! PROOF. O18: WATCH_ARM and WATCH_DISARM (R245, R252 to R254). -/

namespace Sys2Proof.Machine

open Sys2Proof

/-! ## The watch a command names, and what the two commands do with it -/

/-- The watch that a WATCH command in namespace `n` names. -/
def TagEntry.namesWatch (e : TagEntry) (n : Ns) (w : Watch) : Bool := w.nsid == n.nsid && w.id == beAt e.msg.param 0 2

/-- The states of that watch. -/
def TagEntry.namesState (e : TagEntry) (n : Ns) (x : WatchState) : Bool := x.nsid == n.nsid && x.id == beAt e.msg.param 0 2

/-- The counters of the image version that a watch is bound to. -/
def State.watchCounters (s : State) (w : Watch) : Nat :=
  match s.imageVer? w.imageId w.version with
  | some i => imgCounters i.bytes
  | none => 0

/-- The watch that a WATCH_ARM describes, armed behind the others (R252). -/
def State.armWatch (s : State) (e : TagEntry) (n : Ns) (img : Image) : State :=
  { s with pat := { s.pat with watches := s.pat.watches ++
    [⟨n.nsid, beAt e.msg.param 0 2, img.id, img.version, beAt e.msg.param 4 2, beAt e.msg.param 6 2, e.msg.key, e.asn⟩] } }

/-- A watch bound to another image version, its states keeping the counters that both have (R253). -/
def State.rebindWatch (s : State) (e : TagEntry) (n : Ns) (w : Watch) (img : Image) : State :=
  { s with pat := { s.pat with
      watches := putWhere (e.namesWatch n) { w with imageId := img.id, version := img.version, armAsn := e.asn } s.pat.watches
      states := updWhere (e.namesState n)
        (fun x => { x with counters := keptCtrs (s.watchCounters w) (imgCounters img.bytes) x.counters }) s.pat.states } }

/-- A watch gone with its states (R254). -/
def State.disarmWatch (s : State) (e : TagEntry) (n : Ns) : State :=
  { s with pat := { s.pat with watches := s.pat.watches.filter fun w => !e.namesWatch n w
                               states := s.pat.states.filter fun x => !e.namesState n x } }

/-! ## The commands as they start -/

section
variable {s : State} {t : TagId} {e : TagEntry} {n : Ns}

theorem exec_watchArm (h : s.StartsIn t 0x10 e n) :
    exec (.watchArm t) s = s.done (watchArmBody e.started n (s.begun e)) :=
  congrArg s.done (runNs_starts h watchArmBody)

theorem exec_watchDisarm (h : s.StartsIn t 0x11 e n) :
    exec (.watchDisarm t) s = s.done (watchDisarmBody e.started n (s.begun e)) :=
  congrArg s.done (runNs_starts h watchDisarmBody)

end

/-! ## WATCH_ARM -/

section
variable {s : State} {e : TagEntry} {n : Ns}

theorem watchArmBody_idZero (h : beAt e.msg.param 0 2 = 0) : watchArmBody e n s = s.finish e stBadField [] :=
  if_pos (.inl h)

section
variable {img : Image} (hid : beAt e.msg.param 0 2 ≠ 0) (hev : s.eventNsOk (beAt e.msg.param 4 2) = true)
  (himg : s.imageVer? (beAt e.msg.param 2 2) e.version = some img) (hro : s.flash.readOnly = false)
include hid hev himg hro

theorem watchArmBody_arms (hre : bitOf (beAt e.msg.param 8 1) 0 = false)
    (hnone : s.pat.watches.find? (e.namesWatch n) = none) (hfree : s.pat.watches.length < 4096) :
    watchArmBody e n s = (s.armWatch e n img).finish e stOK [] := by
  unfold TagEntry.namesWatch at hnone
  unfold watchArmBody
  dsimp only
  rw [hnone, if_neg (by simp [hid, hre, hev]), himg]
  dsimp only
  rw [if_neg (Nat.not_le_of_lt hfree), hro, if_neg Bool.false_ne_true]
  rfl

theorem watchArmBody_rebinds {w : Watch} (hre : bitOf (beAt e.msg.param 8 1) 0 = true)
    (hw : s.pat.watches.find? (e.namesWatch n) = some w) :
    watchArmBody e n s = (s.rebindWatch e n w img).freeImages.finish e stOK [] := by
  unfold TagEntry.namesWatch at hw
  unfold watchArmBody
  dsimp only
  rw [hw, if_neg (by simp [hid, hre, hev]), himg]
  dsimp only
  rw [hro, if_neg Bool.false_ne_true]
  rfl

end

/-! ## WATCH_DISARM -/

theorem watchDisarmBody_disarms (hw : s.pat.watches.any (e.namesWatch n) = true) (hro : s.flash.readOnly = false) :
    watchDisarmBody e n s = (s.disarmWatch e n).freeImages.finish e stOK [] :=
  (if_pos hw).trans (if_neg (by rw [hro]; exact Bool.false_ne_true))

theorem watchDisarmBody_notArmed (hw : s.pat.watches.any (e.namesWatch n) = false) :
    watchDisarmBody e n s = s.finish e stBadField [] :=
  if_neg fun h => Bool.false_ne_true (hw.symm.trans h)

end

/-- Settles O18: under each clause's conditions a command's body takes its one branch, and the answer leaves alone the watches,
states and images of that branch (R252 to R254; the frame of REBIND is log entry 132). -/
theorem watchesAreArmedAndDisarmed : Obligations.WatchesAreArmedAndDisarmed := by
  unfold Obligations.WatchesAreArmedAndDisarmed
  intro s t e n
  dsimp only
  refine ⟨fun h => ⟨fun img hid hev himg hro => ⟨fun hre hnone hfree => ?_, fun w old hre hw hold => ?_⟩, fun hid => ?_⟩,
    fun h => ⟨fun hw hro => ?_, fun hw => ?_⟩⟩
  · have hfind : s.pat.watches.find? (e.namesWatch n) = none :=
      List.find?_eq_none.mpr fun w hmem => List.any_eq_false.mp hnone w hmem
    rw [exec_watchArm h, watchArmBody_arms (s := s.begun e) (e := e.started) hid hev himg hro hre hfind hfree]
    obtain ⟨u, hu, ha, hk⟩ := done_finish_spares (s := s) (m := (s.begun e).armWatch e n img) ⟨rfl, rfl, rfl, rfl⟩ e
    exact ⟨u, hu, ha, AnswerFrame.of_begun (s := s.armWatch e n img) hk⟩
  · subst hold
    rw [exec_watchArm h, watchArmBody_rebinds (s := s.begun e) (e := e.started) hid hev himg hro hre hw]
    exact done_finish_spares (Spares.trans (t := (s.begun e).rebindWatch e n w img) ⟨rfl, rfl, rfl, rfl⟩
      (Spares.freeImages _)) e
  · rw [exec_watchArm h, watchArmBody_idZero (s := s.begun e) (e := e.started) hid]
    exact done_finish_begun ..
  · rw [exec_watchDisarm h, watchDisarmBody_disarms (s := s.begun e) (e := e.started) hw hro]
    exact done_finish_spares (Spares.trans (t := (s.begun e).disarmWatch e n) ⟨rfl, rfl, rfl, rfl⟩
      (Spares.freeImages _)) e
  · rw [exec_watchDisarm h, watchDisarmBody_notArmed (s := s.begun e) (e := e.started) hw]
    exact done_finish_begun ..

end Sys2Proof.Machine
end

section
/-! SUPPORT. What work inside the flash tier leaves of it: every placing, moving and retiring of units and blocks keeps each
mapped unit mapped, every erase count, the journal's records and the parts in service (R261 to R275, R282). -/

namespace Sys2Proof.Machine

open Sys2Proof

/-! ## Blocks -/

@[simp] theorem Flash.block_id (f : Flash) (b : Nat) : (f.block b).id = b := by
  unfold Flash.block
  cases h : f.blocks.find? fun x => x.id == b with
  | none => rfl
  | some x => exact beq_iff_eq.mp (List.find?_some (p := fun x : Block => x.id == b) h)

theorem Flash.block_congr {f : Flash} (g : Flash) (h : f.blocks = g.blocks) (b : Nat) : f.block b = g.block b := by
  unfold Flash.block; rw [h]

/-- A block replaced is what its number then names, and no other block changes. -/
theorem Flash.block_setBlock (f : Flash) (x : Block) (b : Nat) :
    (f.setBlock x).block b = if b = x.id then x else f.block b := by
  unfold Flash.setBlock Flash.block
  by_cases hx : x = freshBlock x.id
  · rw [if_pos hx]
    dsimp only
    unfold dropWhere
    rw [List.find?_filter]
    split
    · next h =>
      subst h
      rw [List.find?_eq_none.mpr fun y _ => by simp]
      exact hx.symm
    · next h =>
      congr 2
      funext y
      by_cases hy : y.id = b
      · simp [hy, h]
      · simp [hy]
  · rw [if_neg hx]
    dsimp only
    split
    · next h =>
      subst h
      rw [find_putWhere (fun y : Block => y.id == x.id) x (beq_self_eq_true _)]
      rfl
    · next h =>
      have hx : (x.id == b) = false := beq_false_of_ne fun e => h e.symm
      rw [find_putWhere_other (fun y => y.id == x.id) (fun y => y.id == b) x hx fun z hz => by rw [beq_iff_eq.mp hz, hx]]

theorem Flash.setBlock_eq (f : Flash) (x : Block) : ∃ l, f.setBlock x = { f with blocks := l } := by
  unfold Flash.setBlock
  split <;> exact ⟨_, rfl⟩

theorem betterBlock_or (st : WriteStream) (a b : Block) : betterBlock st a b = a ∨ betterBlock st a b = b := by
  unfold betterBlock
  extract_lets first
  split
  · exact .inl rfl
  · exact .inr rfl

@[simp] theorem Flash.setBlock_map (f : Flash) (x : Block) : (f.setBlock x).map = f.map := by
  obtain ⟨l, h⟩ := f.setBlock_eq x; rw [h]

@[simp] theorem Flash.setBlock_channels (f : Flash) (x : Block) : (f.setBlock x).channels = f.channels := by
  obtain ⟨l, h⟩ := f.setBlock_eq x; rw [h]

@[simp] theorem Flash.setBlock_refresh (f : Flash) (x : Block) : (f.setBlock x).refresh = f.refresh := by
  obtain ⟨l, h⟩ := f.setBlock_eq x; rw [h]

/-- A free block picked is a block of the tier. -/
theorem Flash.pickFree_eq {f : Flash} {st : WriteStream} {die : Nat} {x : Block} (h : f.pickFree st die = some x) :
    f.block x.id = x := by
  suffices hp : ∀ y, f.pickFree st die = some y → f.block y.id = y from hp x h
  unfold Flash.pickFree
  refine List.foldlRecOn _ _ (motive := fun o : Option Block => ∀ y, o = some y → f.block y.id = y) (fun _ h => nomatch h)
    fun best hbest b hb => ?_
  obtain ⟨i, -, rfl⟩ := List.mem_map.mp hb
  have hi : f.block (f.block (die * f.blocksPerDie + i)).id = f.block (die * f.blocksPerDie + i) := by rw [f.block_id]
  intro y hy
  split at hy
  · split at hy
    · cases hy; exact hi
    · next z =>
      cases hy
      obtain h | h := betterBlock_or st z (f.block (die * f.blocksPerDie + i)) <;> rw [h]
      · exact hbest z rfl
      · exact hi
  · exact hbest y hy

/-! ## The relation -/

/-- The parts of a tier that `Flash.Keeps` speaks of: the map, blocks with their wear, channels and dies in service, the
system area and the journal. -/
def Flash.core (f : Flash) : List MapEntry × List Block × BitVec 32 × List Nat × List SysCopy × Nat × List JournalRec :=
  (f.map, f.blocks, f.channels, f.diesLost, f.system, f.trimmed, f.journal)

/-- Work inside the tier: every mapped unit stays mapped, no channel or die goes out of service, no block's erase count
changes, no record leaves the journal, and the system area lists the same copies. -/
structure Flash.Keeps (f g : Flash) : Prop where
  units : f.KeepsUnits g
  channels : g.channels = f.channels
  diesLost : g.diesLost = f.diesLost
  system : g.system = f.system
  trimmed : g.trimmed = f.trimmed
  erase : ∀ b, (g.block b).erase = (f.block b).erase
  journal : ∀ r ∈ f.journal, r ∈ g.journal

theorem Flash.KeepsUnits.refl (f : Flash) : f.KeepsUnits f := fun e h => ⟨e, h, rfl⟩

theorem Flash.KeepsUnits.of_map {f g : Flash} (h : g.map = f.map) : f.KeepsUnits g :=
  fun e he => ⟨e, h ▸ he, rfl⟩

theorem Flash.KeepsUnits.trans {f g h : Flash} (hg : f.KeepsUnits g) (hh : g.KeepsUnits h) : f.KeepsUnits h := by
  intro e he
  obtain ⟨d, hd, hde⟩ := hg e he
  obtain ⟨c, hc, hcd⟩ := hh d hd
  exact ⟨c, hc, hcd.trans hde⟩

namespace FlashKeeps

theorem refl (f : Flash) : f.Keeps f := ⟨.refl f, rfl, rfl, rfl, rfl, fun _ => rfl, fun _ h => h⟩

theorem trans {f g h : Flash} (hg : f.Keeps g) (hh : g.Keeps h) : f.Keeps h :=
  ⟨hg.units.trans hh.units, hh.channels.trans hg.channels, hh.diesLost.trans hg.diesLost, hh.system.trans hg.system,
    hh.trimmed.trans hg.trimmed, fun b => (hh.erase b).trans (hg.erase b), fun r hr => hh.journal r (hg.journal r hr)⟩

theorem foldl {α : Type} (f : Flash → α → Flash) (hf : ∀ (g : Flash) a, g.Keeps (f g a)) (l : List α) (g : Flash) :
    g.Keeps (l.foldl f g) := by
  induction l generalizing g with
  | nil => exact refl g
  | cons a l ih => exact trans (hf g a) (ih _)

/-- A change of nothing that the relation speaks of: where streams stand, units on media, staged ones, counts and queues. -/
theorem of_core {f g : Flash} (h : g.core = f.core) : f.Keeps g := by
  obtain ⟨hm, hb, hc, hd, hs, ht, hj⟩ : g.map = f.map ∧ g.blocks = f.blocks ∧ g.channels = f.channels ∧
      g.diesLost = f.diesLost ∧ g.system = f.system ∧ g.trimmed = f.trimmed ∧ g.journal = f.journal := by
    simpa [Flash.core] using h
  exact ⟨.of_map hm, hc, hd, hs, ht, fun b => congrArg Block.erase (Flash.block_congr f hb b), fun r hr => hj ▸ hr⟩

/-- A block replaced by one of the same wear. -/
theorem setBlock (f : Flash) (x : Block) (h : x.erase = (f.block x.id).erase) : f.Keeps (f.setBlock x) := by
  have he : ∀ b, ((f.setBlock x).block b).erase = (f.block b).erase := by
    intro b
    rw [f.block_setBlock]
    split
    · next hb => rw [h, hb]
    · rfl
  obtain ⟨l, hl⟩ := f.setBlock_eq x
  rw [hl] at he ⊢
  exact ⟨.refl f, rfl, rfl, rfl, rfl, he, fun _ h => h⟩

/-- The block with a number changed in something but its wear. -/
theorem changeBlock (f : Flash) (b : Nat) (x : Block) (hid : x.id = b) (h : x.erase = (f.block b).erase) :
    f.Keeps (f.setBlock x) := setBlock f x (by rw [hid]; exact h)

theorem setPos (f : Flash) (p : StreamPos) : f.Keeps (f.setPos p) := of_core rfl

theorem record (f : Flash) (host : Bool) (cs : List JChange) : f.Keeps (f.record host cs) :=
  ⟨.refl f, rfl, rfl, rfl, rfl, fun _ => rfl, fun _ h => List.mem_append_left _ h⟩

/-- Blocks that become stale keep their wear. -/
theorem staleEmpty (f : Flash) : f.Keeps f.staleEmpty := by
  refine ⟨.refl f, rfl, rfl, rfl, rfl, fun b => ?_, fun _ h => h⟩
  have hid : ((fun x : Block => x.id == b) ∘ fun x : Block =>
      if x.state = .closed ∧ f.valid x.id = 0 then { x with state := .stale } else x) = fun x => x.id == b := by
    funext x
    dsimp only [Function.comp]
    split <;> rfl
  unfold Flash.staleEmpty Flash.block
  dsimp only
  rw [List.find?_map, hid]
  cases f.blocks.find? fun x => x.id == b with
  | none => rfl
  | some x =>
    dsimp only [Option.map, Option.getD]
    split <;> rfl

theorem mapTo (f : Flash) (e : MapEntry) : f.Keeps (f.mapTo e) := by
  refine ⟨fun d hd => ?_, rfl, rfl, rfl, rfl, fun _ => rfl, fun _ h => h⟩
  show ∃ c ∈ putWhere (fun x => x.lmu == e.lmu) e f.map, c.lmu = d.lmu
  unfold putWhere
  split
  · refine ⟨_, List.mem_map_of_mem hd, ?_⟩
    split
    · next h => exact (beq_iff_eq.mp h).symm
    · rfl
  · exact ⟨d, List.mem_append_left _ hd, rfl⟩

/-! ## Placing units -/

theorem openOn (f : Flash) (st : WriteStream) (die : Nat) : f.Keeps (f.openOn st die) := by
  unfold Flash.openOn
  split
  · exact refl f
  · split
    · exact refl f
    · next x hx =>
      exact trans (changeBlock f x.id (x.opened st) rfl (by rw [Flash.pickFree_eq hx]; rfl)) (setPos ..)

theorem openAll (f : Flash) : f.Keeps f.openAll :=
  foldl _ (fun g st => foldl _ (fun g d => openOn g st d) _ g) _ f

theorem program {f : Flash} {st : WriteStream} {k stripe : Nat} {info : UnitInfo} {x : Flash × Nat × Nat}
    (h : f.program st k stripe info = some x) : f.Keeps x.1 := by
  unfold Flash.program at h
  extract_lets dies at h
  split at h
  · cases h
  · next die _ =>
    extract_lets o at h
    have ho : f.Keeps o := openOn f st die
    split at h
    · cases h
    · next id _ =>
      extract_lets b _ g at h
      have hg : f.Keeps g := trans ho (of_core rfl)
      have hb : ∀ y : Block, y.id = b.id → y.erase = b.erase → f.Keeps (g.setBlock y) := fun y hi he =>
        trans hg (changeBlock g id y (hi.trans (o.block_id id)) (by rw [Flash.block_congr (f := g) o rfl]; exact he))
      split at h
      · cases h
        refine trans (trans ?_ (setPos _ _)) (openOn _ st die)
        exact hb _ rfl rfl
      · cases h
        exact hb _ rfl rfl

theorem place {f : Flash} {st : WriteStream} {info : UnitInfo} {x : Flash × Nat × Nat}
    (h : f.place st info = some x) : f.Keeps x.1 := by
  unfold Flash.place at h
  extract_lets c per u stripe i k at h
  split at h
  · cases h
  · split at h
    · cases h
    · next g b unit hp =>
      extract_lets _ g₁ g₂ at h
      have h₁ : f.Keeps g₁ := trans (program hp) (setPos ..)
      cases h
      show f.Keeps g₂
      unfold g₂
      split
      · split
        · next q => exact trans h₁ (program q)
        · exact h₁
      · exact h₁

theorem padGo (st : WriteStream) (k : Nat) (f : Flash) : f.Keeps (Flash.padGo st k f) := by
  induction k generalizing f with
  | zero => exact refl f
  | succ k ih =>
    unfold Flash.padGo
    split
    · split
      · next h => exact trans (place h) (ih _)
      · exact refl f
    · exact refl f

theorem padStream (f : Flash) (st : WriteStream) : f.Keeps (f.padStream st) := padGo ..

theorem padDense (f : Flash) : f.Keeps f.padDense :=
  trans (trans (padStream f .stream) (padStream _ .mutable_)) (padStream _ .cold)

theorem put {f : Flash} {st : WriteStream} {kind : UnitKind} {lmu : Nat} {relocated cold : Bool} {x : Flash × MapEntry}
    (h : f.put st kind lmu relocated cold = some x) : f.Keeps x.1 := by
  obtain ⟨y, hy, rfl⟩ := Option.map_eq_some_iff.mp h
  exact place hy

theorem write (f : Flash) (st : WriteStream) (kind : UnitKind) (lmu : Nat) (relocated cold : Bool) :
    f.Keeps (f.write st kind lmu relocated cold).1 := by
  unfold Flash.write
  split
  · exact refl f
  · next h => exact trans (put h) (mapTo ..)

/-! ## Lists of units -/

theorem moveUnits (stream : Bool → WriteStream) (es : List MapEntry) (f : Flash) : f.Keeps (f.moveUnits stream es) := by
  induction es generalizing f with
  | nil => exact trans (padDense f) (staleEmpty _)
  | cons e es ih => exact trans (write ..) (ih _)

theorem putJournal (st : WriteStream) (relocated : Bool) (jseq n : Nat) (f : Flash) :
    f.Keeps (Flash.putJournal st relocated jseq n f).1 := by
  induction n generalizing f with
  | zero => exact refl f
  | succ n ih =>
    unfold Flash.putJournal
    split
    · exact refl f
    · next h => exact trans (place h) (ih _)

theorem moveJournal (f : Flash) (b : Nat) : f.Keeps (f.moveJournal b) := by
  refine foldl _ (fun g u => ?_) _ f
  have hp := putJournal .host true u.info.jseq 1 g
  split
  · next h => rw [h] at hp; exact trans hp (of_core rfl)
  · exact refl g

theorem drainUnits (kind : UnitKind) (cold : Bool) (ls : List Nat) (f : Flash) :
    f.Keeps (Machine.drainUnits kind cold ls f).1 := by
  induction ls generalizing f with
  | nil => exact refl f
  | cons l ls ih =>
    have hw := write f (f.drainStream cold) kind l false cold
    unfold Machine.drainUnits
    split
    · next h => rw [h] at hw; exact trans hw (ih _)
    · next h => rw [h] at hw; exact hw

theorem rewrite (st : WriteStream) (es : List MapEntry) (f : Flash) : f.Keeps (f.rewrite st es) := by
  induction es generalizing f with
  | nil => exact padStream ..
  | cons e es ih => exact trans (write ..) (ih _)

theorem restage (st : WriteStream) (es : List MapEntry) (f : Flash) : f.Keeps (f.restage st es) := by
  induction es generalizing f with
  | nil => exact refl f
  | cons e es ih =>
    unfold Flash.restage
    split
    · next h =>
      refine trans (put h) (trans ?_ (ih _))
      exact of_core rfl
    · exact ih f

theorem sysUnits {kind : UnitKind} {ls : List Nat} {f g : Flash} (h : Machine.sysUnits kind ls f = some g) : f.Keeps g := by
  induction ls generalizing f with
  | nil => cases h; exact refl _
  | cons l ls ih =>
    have hw := write f .meta_ kind l false false
    unfold Machine.sysUnits at h
    split at h
    · next hf => rw [hf] at hw; exact trans hw (ih h)
    · cases h

theorem setAside (f : Flash) (bs : List Nat) : f.Keeps (f.setAside bs) :=
  foldl _ (fun g b => changeBlock g b { g.block b with state := .reserved } (g.block_id b) rfl) bs f

end FlashKeeps

end Sys2Proof.Machine
end

section
/-! SUPPORT. The same of the device's operations on the tier: the drain of the write buffer, relocation, and blocks retired
(R266, R271, R274, R282). -/

namespace Sys2Proof.Machine

open Sys2Proof

/-- Work on the flash tier: nothing but what a drain may change differs, the namespaces are as they were, and the tier keeps
what work inside it keeps. -/
structure State.KeepsTier (s u : State) : Prop where
  draining : s.Draining u
  namespaces : u.kv.namespaces = s.kv.namespaces
  flash : s.flash.Keeps u.flash

theorem noteCollection_eq (s : State) (f : Flash) : ∃ r l, s.noteCollection f = { s with regs := r, log := l } := by
  unfold State.noteCollection
  split
  · exact State.raise_eq ..
  · exact ⟨s.regs, s.log, rfl⟩

namespace KeepsTier

theorem refl (s : State) : s.KeepsTier s := ⟨Draining.refl s, rfl, FlashKeeps.refl _⟩

theorem trans {s t u : State} (h : s.KeepsTier t) (k : t.KeepsTier u) : s.KeepsTier u :=
  ⟨Draining.trans h.draining k.draining, k.namespaces.trans h.namespaces, FlashKeeps.trans h.flash k.flash⟩

theorem foldl {α : Type} (f : State → α → State) (hf : ∀ (s : State) a, s.KeepsTier (f s a)) (l : List α) (s : State) :
    s.KeepsTier (l.foldl f s) := by
  induction l generalizing s with
  | nil => exact refl s
  | cons a l ih => exact trans (hf s a) (ih _)

theorem of_flash {s : State} {f : Flash} (h : s.flash.Keeps f) : s.KeepsTier { s with flash := f } :=
  ⟨Draining.flash .., rfl, h⟩

theorem of_kv {s : State} {k : Kv} (h : k.namespaces = s.kv.namespaces) : s.KeepsTier { s with kv := k } :=
  ⟨⟨s.regs, s.log, k, s.flash, rfl⟩, h, FlashKeeps.refl _⟩

theorem of_events {s u : State} (h : ∃ r l, u = { s with regs := r, log := l }) : s.KeepsTier u := by
  obtain ⟨r, l, rfl⟩ := h
  exact ⟨⟨r, l, s.kv, s.flash, rfl⟩, rfl, FlashKeeps.refl _⟩

theorem count (s : State) (f : Field) (n : Nat) : s.KeepsTier (s.count f n) := of_events ⟨_, _, rfl⟩

theorem countAt (s : State) (f : Field) (i n : Nat) : s.KeepsTier (s.countAt f i n) := of_events ⟨_, _, rfl⟩

theorem countUnits (s : State) (f : Flash) (n : Nat) : s.KeepsTier (s.countUnits f n) :=
  trans (of_events ⟨_, _, rfl⟩) (of_events (noteCollection_eq ..))

theorem backUp (s : State) : s.KeepsTier s.backUp := by
  unfold State.backUp
  split
  · exact refl s
  · exact of_kv rfl

theorem journal {s t : State} (h : s.KeepsTier t) (a : State) (host : Bool) : s.KeepsTier (a.journal t host) :=
  trans h (of_flash (FlashKeeps.record ..))

/-! ## Reads -/

theorem queueRefresh (s : State) (b : Nat) : s.KeepsTier (s.queueRefresh b) := by
  unfold State.queueRefresh
  split
  · exact refl s
  · exact of_flash (FlashKeeps.of_core rfl)

theorem readUnit (s : State) (b : Nat) : s.KeepsTier (s.readUnit b) := by
  unfold State.readUnit
  extract_lets blk t
  have ht : s.KeepsTier t := of_flash (FlashKeeps.changeBlock _ b _ (s.flash.block_id b) rfl)
  split
  · exact trans ht (queueRefresh ..)
  · exact ht

/-! ## The drain of the write buffer -/

theorem drainExtent (s : State) (e : Extent) : s.KeepsTier (s.drainExtent e) := by
  have hd := FlashKeeps.drainUnits .value (s.coldNs e.nsid) e.lmus s.flash
  unfold State.drainExtent
  split
  · next h => rw [h] at hd; exact trans (of_flash hd) (of_kv rfl)
  · exact refl s

theorem drainLeaf (s : State) (l : Leaf) : s.KeepsTier (s.drainLeaf l) := by
  have hd := FlashKeeps.drainUnits .leaf (s.coldNs l.nsid) [l.lmu] s.flash
  unfold State.drainLeaf
  split
  · next h =>
    rw [h] at hd
    exact ⟨⟨s.regs, s.log, _, _, rfl⟩, rfl, FlashKeeps.trans hd (FlashKeeps.staleEmpty _)⟩
  · exact refl s

theorem drainJournal (s : State) : s.KeepsTier s.drainJournal.1 := by
  have hh := FlashKeeps.putJournal .host false s.flash.journalSeq (s.journalUnits true) s.flash
  unfold State.drainJournal
  dsimp only
  split
  · next h => rw [h] at hh; exact of_flash hh
  · next h => rw [h] at hh; exact of_flash (FlashKeeps.trans hh (FlashKeeps.putJournal ..))

theorem settleBack (s : State) : s.KeepsTier s.settleBack := by
  unfold State.settleBack
  split
  · exact of_kv rfl
  · exact refl s

theorem drain (s : State) : s.KeepsTier s.drain := by
  unfold State.drain
  extract_lets f es ls host t₀ t₁ t₂ data
  have h₁ : s.KeepsTier t₁ := trans (trans (foldl _ drainExtent es s) (foldl _ drainLeaf ls _))
    (of_flash (FlashKeeps.padDense _))
  have h₂ : s.KeepsTier t₂ := by
    unfold t₂
    split
    · exact h₁
    · exact journal h₁ s true
  have h₃ := trans h₂ (drainJournal t₂)
  split
  next u ok h =>
    rw [h] at h₃
    have h₄ := trans h₃ (countUnits u f (data + t₂.journalUnits true))
    dsimp only
    split
    · exact trans h₄ (settleBack _)
    · exact h₄

theorem mapSettled (s : State) : s.KeepsTier s.mapSettled := by
  unfold State.mapSettled
  split
  · exact refl s
  · exact drain s

/-! ## Relocation -/

theorem relocate (s : State) (es : List MapEntry) : s.KeepsTier (s.relocate es) := by
  unfold State.relocate
  split
  · exact refl s
  · extract_lets t
    have ht : s.KeepsTier t :=
      trans (foldl (fun u (e : MapEntry) => u.readUnit e.block) (fun u e => readUnit u e.block) es s) (backUp _)
    exact trans ht (trans (trans (journal (of_flash (FlashKeeps.moveUnits ..)) t false) (mapSettled _)) (countUnits ..))

/-- The journal's units of a block copied and counted. -/
theorem moveJournal (s : State) (b : Nat) :
    s.KeepsTier (({ s with flash := s.flash.moveJournal b } : State).countUnits s.flash 0) :=
  trans (of_flash (FlashKeeps.moveJournal ..)) (countUnits ..)

theorem empty (s : State) (b : Nat) : s.KeepsTier (s.empty b) :=
  trans (trans (moveJournal s b) (relocate ..)) (of_flash (FlashKeeps.staleEmpty _))

end KeepsTier

/-! ## Blocks retired -/

/-- A report changes only registers and the log. -/
theorem report_eq (s : State) (e : Event) (status : Nat) : ∃ r l, s.report e status = { s with regs := r, log := l } := by
  obtain ⟨r, l, h⟩ := State.raiseWith_eq s e 0 false status 0
  obtain ⟨r', h'⟩ := State.capture_eq (s.raiseWith e 0 false status 0) e.block 0 status 0
  exact ⟨r', l, by unfold State.report; rw [h', h]⟩

/-- Judging the spares changes the tier in its root records and READ_ONLY alone. -/
theorem checkSpares_eq (s : State) (before : Nat) : ∃ r l ro roots,
    s.checkSpares before = { s with regs := r, log := l, flash := { s.flash with readOnly := ro, roots := roots } } := by
  unfold State.checkSpares
  extract_lets f low t₁ t₂
  have h₁ : ∃ r l, t₁ = { s with regs := r, log := l } := by
    unfold t₁
    split
    · exact State.raise_eq ..
    · exact ⟨s.regs, s.log, rfl⟩
  obtain ⟨r₁, l₁, h₁⟩ := h₁
  have h₂ : ∃ r l, t₂ = { s with regs := r, log := l } := by
    unfold t₂
    split
    · obtain ⟨r, l, h⟩ := State.warn_eq t₁ Reg.HLT_SUMMARY.FLASH_SPARE Ev.HLT.SPARE_WARN f.spareNow
      exact ⟨r, l, by rw [h, h₁]⟩
    · exact ⟨r₁, l₁, h₁⟩
  obtain ⟨r₂, l₂, h₂⟩ := h₂
  split
  · obtain ⟨r₃, l₃, h₃⟩ := report_eq t₂ Ev.FLT.READ_ONLY stWorn
    refine ⟨r₃, l₃, true, ({ f with readOnly := true } : Flash).writeRoot.roots, ?_⟩
    show { t₂.report Ev.FLT.READ_ONLY stWorn with flash := ({ f with readOnly := true } : Flash).writeRoot } = _
    rw [h₃, h₂]
    rfl
  · exact ⟨r₂, l₂, s.flash.readOnly, s.flash.roots, h₂⟩

theorem countUnits_flash (s : State) (f : Flash) (n : Nat) : (s.countUnits f n).flash = s.flash := by
  obtain ⟨r, l, h⟩ := noteCollection_eq ((s.count64 Reg.FLT.NAND_UNITS_LO Reg.FLT.NAND_UNITS_HI 0
    (s.flash.wseq - f.wseq)).count64 Reg.FLT.HOST_UNITS_LO Reg.FLT.HOST_UNITS_HI 0 n) f
  unfold State.countUnits
  dsimp only
  rw [h]
  rfl

/-- What the retiring of a block does: nothing to one retired already or past the tier, else the block is retired, and no other
block is queued for refresh than were. -/
theorem retireBlock_cases (s : State) (b : Nat) (lostOnly : Bool) :
    (s.retireBlock b lostOnly = s ∧ ((s.flash.block b).state = .retired ∨ s.flash.nBlocks ≤ b)) ∨
    ∃ f r l ro roots, s.retireBlock b lostOnly =
        { s with regs := r, log := l, flash := { f with readOnly := ro, roots := roots } } ∧
      s.flash.Keeps f ∧ (f.block b).state = .retired ∧ f.refresh ⊆ s.flash.refresh := by
  unfold State.retireBlock
  extract_lets f blk ps g before h
  split
  · next hb => exact .inl ⟨rfl, hb⟩
  · right
    have hg : s.flash.Keeps g :=
      FlashKeeps.trans (g := { f with streams := ps }) (FlashKeeps.of_core rfl)
        (FlashKeeps.changeBlock _ b _ (f.block_id b) rfl)
    have hblk : g.block b = { blk with state := .retired, lostOnly := lostOnly } := by
      unfold g
      rw [Flash.block_setBlock, if_pos (f.block_id b).symm]
    have hrefresh : g.refresh = s.flash.refresh := Flash.setBlock_refresh ..
    obtain ⟨r₁, l₁, h₁⟩ := State.raiseI_eq { s with flash := h } Ev.FLT_I.BLOCK_RETIRED (h.chOf b)
    rw [h₁]
    obtain ⟨r₂, l₂, ro, roots, h₂⟩ := checkSpares_eq { s with regs := r₁, log := l₁, flash := h } before
    rw [h₂]
    obtain ⟨r, l, h₃⟩ := noteCollection_eq
      { s with regs := r₂, log := l₂, flash := { h with readOnly := ro, roots := roots } } s.flash
    refine ⟨h, r, l, ro, roots, h₃, FlashKeeps.trans hg (FlashKeeps.of_core rfl), congrArg Block.state hblk, ?_⟩
    show (g.refresh.filter fun x => x != b) ⊆ _
    rw [hrefresh]
    exact fun _ hx => (List.mem_filter.mp hx).1

theorem KeepsTier.retireBlock (s : State) (b : Nat) (lostOnly : Bool) : s.KeepsTier (s.retireBlock b lostOnly) := by
  obtain ⟨h, -⟩ | ⟨f, r, l, ro, roots, h, hf, -, -⟩ := retireBlock_cases s b lostOnly
  · rw [h]; exact KeepsTier.refl s
  · rw [h]; exact ⟨⟨r, l, s.kv, _, rfl⟩, rfl, FlashKeeps.trans hf (FlashKeeps.of_core rfl)⟩

theorem retireBlock_retired {s : State} {b : Nat} (hb : b < s.flash.nBlocks) (lostOnly : Bool) :
    ((s.retireBlock b lostOnly).flash.block b).state = .retired := by
  obtain ⟨h, hr⟩ | ⟨f, r, l, ro, roots, h, -, hr, -⟩ := retireBlock_cases s b lostOnly
  · rw [h]; exact hr.resolve_right (Nat.not_le.mpr hb)
  · rw [h]; exact hr

theorem retireBlock_refresh (s : State) (b : Nat) (lostOnly : Bool) :
    (s.retireBlock b lostOnly).flash.refresh ⊆ s.flash.refresh := by
  obtain ⟨h, -⟩ | ⟨f, r, l, ro, roots, h, -, -, hr⟩ := retireBlock_cases s b lostOnly
  · rw [h]; exact List.Subset.refl _
  · rw [h]; exact hr

end Sys2Proof.Machine
end

section
/-! SUPPORT. The flash tier's background rows and failures, each as work on the tier (R268 to R282, Table 11-7). -/

namespace Sys2Proof.Machine

open Sys2Proof

/-! ## Background work begins -/

theorem State.stir_eq (s : State) : ∃ d, s.stir = { s with dev := d } ∧ d.trainTemp = s.dev.trainTemp := by
  unfold State.stir
  split
  · exact ⟨_, rfl, rfl⟩
  · exact ⟨s.dev, rfl, rfl⟩

@[simp] theorem State.stir_flash (s : State) : s.stir.flash = s.flash := by
  obtain ⟨d, h, -⟩ := s.stir_eq; rw [h]

@[simp] theorem State.stir_kv (s : State) : s.stir.kv = s.kv := by
  obtain ⟨d, h, -⟩ := s.stir_eq; rw [h]

@[simp] theorem State.stir_sea (s : State) : s.stir.sea = s.sea := by
  obtain ⟨d, h, -⟩ := s.stir_eq; rw [h]

@[simp] theorem State.stir_trainTemp (s : State) : s.stir.dev.trainTemp = s.dev.trainTemp := by
  obtain ⟨d, h, ht⟩ := s.stir_eq; rw [h]; exact ht

@[simp] theorem State.stir_rd (s : State) (f : Field) : s.stir.rd f = s.rd f := by
  obtain ⟨d, h, -⟩ := s.stir_eq; rw [h]; rfl

@[simp] theorem State.stir_uneven (s : State) : s.stir.uneven = s.uneven := by
  unfold State.uneven; simp only [State.stir_flash, State.stir_rd]

theorem Spares.stir (s : State) : s.Spares s.stir := by
  obtain ⟨d, h, -⟩ := s.stir_eq; rw [h]; exact ⟨rfl, rfl, rfl, rfl⟩

theorem State.background_works {s : State} {w : Work} {must : Bool} (h : s.Works w must) (f : State → State) :
    s.background w must f = f s.stir := by
  obtain ⟨hphase, hmount, hsleep, hentry, hcap⟩ := h
  unfold State.background
  rw [if_pos ⟨hphase, hmount, hsleep, by rw [hentry]; rfl, hcap.imp_right (.imp_right fun h => by rw [h]; rfl)⟩]

/-! ## Reads -/

/-- Reading units changes registers, the event log, read counts and the refresh queue, and no map. -/
structure State.SameMap (s u : State) : Prop where
  draining : s.Draining u
  map : u.flash.map = s.flash.map

namespace SameMap

theorem refl (s : State) : s.SameMap s := ⟨Draining.refl s, rfl⟩

theorem trans {s t u : State} (h : s.SameMap t) (k : t.SameMap u) : s.SameMap u :=
  ⟨Draining.trans h.draining k.draining, k.map.trans h.map⟩

theorem foldl {α : Type} (f : State → α → State) (hf : ∀ (s : State) a, s.SameMap (f s a)) (l : List α) (s : State) :
    s.SameMap (l.foldl f s) := by
  induction l generalizing s with
  | nil => exact refl s
  | cons a l ih => exact trans (hf s a) (ih _)

theorem of_events {s u : State} (h : ∃ r l, u = { s with regs := r, log := l }) : s.SameMap u := by
  obtain ⟨r, l, rfl⟩ := h
  exact ⟨⟨r, l, s.kv, s.flash, rfl⟩, rfl⟩

theorem count (s : State) (f : Field) (n : Nat) : s.SameMap (s.count f n) := of_events ⟨_, _, rfl⟩

theorem countAt (s : State) (f : Field) (i n : Nat) : s.SameMap (s.countAt f i n) := of_events ⟨_, _, rfl⟩

theorem queueRefresh (s : State) (b : Nat) : s.SameMap (s.queueRefresh b) := by
  unfold State.queueRefresh
  split
  · exact refl s
  · exact ⟨Draining.flash .., rfl⟩

theorem readUnit (s : State) (b : Nat) : s.SameMap (s.readUnit b) := by
  unfold State.readUnit
  extract_lets blk t
  have ht : s.SameMap t := ⟨Draining.flash .., Flash.setBlock_map ..⟩
  split
  · exact trans ht (queueRefresh ..)
  · exact ht

theorem uncorrectable (s : State) (life : Field) : s.SameMap (s.uncorrectable life) := by
  unfold State.uncorrectable
  extract_lets t d
  have ht : s.SameMap t := trans (count ..) (count ..)
  split
  · exact trans ht (of_events (State.warn_eq ..))
  · exact ht

/-- What a read counts, by its rung (Table 11-5). -/
theorem noteFlash (s : State) (lmu : Nat) (r : ReadResult) : s.SameMap (s.noteFlash lmu r) := by
  unfold State.noteFlash
  split
  · exact refl s
  · extract_lets ch mates t
    have ht : s.SameMap t := trans (readUnit ..) (foldl _ (fun u x => readUnit u x.block) mates _)
    split
    · refine trans ht ?_
      split
      · exact refl t
      · split
        · exact countAt ..
        · split
          · exact countAt ..
          · split
            · exact trans (countAt ..) (queueRefresh ..)
            · split
              · exact trans (countAt ..) (queueRefresh ..)
              · exact trans (count ..) (queueRefresh ..)
    · exact trans (trans (trans (trans ht (count ..)) (of_events (report_eq ..))) (uncorrectable ..)) (queueRefresh ..)

end SameMap

theorem patrol_sameMap (s : State) (reads : List (Nat × ReadResult)) : s.SameMap (s.patrol reads) := by
  unfold State.patrol
  extract_lets answer t
  have ht : s.SameMap t := SameMap.foldl _ (fun u e => by
    extract_lets v
    have hv : u.SameMap v := SameMap.noteFlash ..
    split
    · exact SameMap.trans hv (SameMap.queueRefresh ..)
    · exact hv) _ s
  exact SameMap.trans ht ⟨Draining.flash .., rfl⟩

/-! ## Copies in the system area, and the checkpoint (R267, R268) -/

theorem saveSys_flash_kv (s : State) (obj : SysObj) (bytes : Nat) :
    let u := s.saveSys obj bytes
    (∀ e ∈ s.flash.map, (∀ x ∈ s.flash.system, x.obj = obj → e.lmu ∉ x.lmus) →
      ∃ d ∈ u.flash.map, d.lmu = e.lmu) ∧
      u.flash.trimmed = s.flash.trimmed ∧ u.kv.namespaces = s.kv.namespaces ∧ u.kv.extents = s.kv.extents := by
  intro u
  unfold u State.saveSys
  extract_lets lmus
  split
  · exact ⟨fun e he _ => ⟨e, he, rfl⟩, rfl, rfl, rfl⟩
  · next f hf =>
    extract_lets old g new
    have hk : s.flash.Keeps f := by
      split at hf
      · exact FlashKeeps.sysUnits hf
      · cases hf
    rw [countUnits_flash, countUnits_kv]
    refine ⟨fun e he hold => ?_, hk.trimmed, rfl, rfl⟩
    obtain ⟨d, hd, hde⟩ := hk.units e he
    refine ⟨d, List.mem_filter.mpr ⟨hd, ?_⟩, hde⟩
    have hnot : d.lmu ∉ old := by
      rw [hde]
      intro hmem
      obtain ⟨l, hl, hel⟩ := List.mem_flatten.mp hmem
      obtain ⟨x, hx, rfl⟩ := List.mem_map.mp hl
      obtain ⟨hxs, hobj⟩ := List.mem_filter.mp hx
      exact hold x (hk.system ▸ hxs) (beq_iff_eq.mp hobj) hel
    simpa using hnot

/-- Blocks that become stale keep the read counts that a checkpoint takes. -/
theorem Flash.staleEmpty_reads (f : Flash) :
    ((f.staleEmpty.blocks.filter fun x => x.reads != 0).map fun x => (x.id, x.reads)) =
      (f.blocks.filter fun x => x.reads != 0).map fun x => (x.id, x.reads) := by
  unfold Flash.staleEmpty
  dsimp only
  rw [List.filter_map, List.map_map]
  congr 1
  · funext x
    dsimp only [Function.comp]
    split <;> rfl
  · congr 1
    funext x
    dsimp only [Function.comp]
    split <;> rfl

/-- A checkpoint is a copy saved, then the read counts noted, the journal trimmed no further than its end, and a root
record. -/
theorem checkpoint_eq {s t : State} (ht : s.saveSys .checkpoint s.ckptBytes = t) : ∃ cut r l sys,
    cut ≤ t.flash.journalSeq ∧ s.checkpoint = { t with regs := r, log := l, free := t.free + 1, flash :=
      (({ t.flash with system := sys, ckptReads := ((t.flash.blocks.filter fun x => x.reads != 0).map fun x =>
        (x.id, x.reads)) } : Flash).trim cut).writeRoot } := by
  unfold State.checkpoint
  rw [ht]
  extract_lets _ f _ _ _ _ cut _ u
  have hcut : cut ≤ f.journalSeq := by
    unfold cut
    split
    · exact Nat.le_refl _
    · exact Nat.min_le_left ..
  split
  · obtain ⟨r, l, h⟩ := u.raise_eq Ev.FLT.JOURNAL_TRIMMED
    exact ⟨cut, r, l, _, hcut, h⟩
  · exact ⟨cut, _, _, _, hcut, rfl⟩

theorem checkpoint_spares (s : State) : s.Spares s.checkpoint := by
  obtain ⟨cut, r, l, sys, -, h⟩ := checkpoint_eq (s := s) rfl
  rw [h]
  exact Spares.trans (Spares.of_draining (Draining.saveSys s .checkpoint s.ckptBytes)) ⟨rfl, rfl, rfl, rfl⟩

/-- A checkpoint unmaps its own older copy alone, and leaves namespaces and extents as they are. -/
theorem checkpoint_flash_kv (s : State) : let u := s.checkpoint
    (∀ e ∈ s.flash.map, (∀ x ∈ s.flash.system, x.obj = .checkpoint → e.lmu ∉ x.lmus) →
      ∃ d ∈ u.flash.map, d.lmu = e.lmu) ∧
    s.flash.trimmed ≤ u.flash.trimmed ∧ u.flash.trimmed ≤ max s.flash.trimmed u.flash.journalSeq ∧
    u.flash.ckptReads = ((u.flash.blocks.filter fun x => x.reads != 0).map fun x => (x.id, x.reads)) ∧
    u.kv.namespaces = s.kv.namespaces ∧ u.kv.extents = s.kv.extents := by
  obtain ⟨hmap, htrim, hns, hext⟩ := saveSys_flash_kv s .checkpoint s.ckptBytes
  generalize ht : s.saveSys .checkpoint s.ckptBytes = t at hmap htrim hns hext
  obtain ⟨cut, r, l, sys, hcut, h⟩ := checkpoint_eq ht
  intro u
  unfold u
  rw [h, ← htrim]
  exact ⟨hmap, Nat.le_max_left .., Nat.max_le.mpr ⟨Nat.le_max_left .., Nat.le_trans hcut (Nat.le_max_right ..)⟩,
    (Flash.staleEmpty_reads { t.flash with trimmed := _, journal := _, system := sys, ckptReads := _ }).symm, hns, hext⟩

/-! ## Relocating rows -/

namespace KeepsTier

theorem collect (s : State) : s.KeepsTier s.collect := by
  unfold State.collect
  extract_lets f
  split
  · exact refl s
  · split
    · exact refl s
    · exact trans (empty ..) (count ..)

theorem promote (s : State) : s.KeepsTier s.promote := trans (relocate ..) (count ..)

theorem level (s : State) : s.KeepsTier s.level := by
  unfold State.level
  extract_lets f
  split
  · split
    · exact refl s
    · exact trans (relocate ..) (of_flash (FlashKeeps.of_core rfl))
  · exact of_flash (FlashKeeps.of_core rfl)

theorem refresh (s : State) (b : Nat) (bad : List Nat) : s.KeepsTier (s.refresh b bad) := by
  unfold State.refresh
  split
  · extract_lets es lost t u _ v
    have hv : s.KeepsTier v := trans (trans (trans (moveJournal s b) (relocate ..)) (count ..))
      (of_flash (FlashKeeps.of_core rfl))
    split
    · exact trans hv (retireBlock ..)
    · exact hv
  · exact refl s

theorem eraseFailed (s : State) (b : Nat) : s.KeepsTier (s.eraseFailed b) := trans (countAt ..) (retireBlock ..)

theorem programFailed (s : State) (b : Nat) : s.KeepsTier (s.programFailed b) := by
  unfold State.programFailed
  extract_lets f g failing st waiting t u
  have ht : s.KeepsTier t := trans (trans (countAt ..) (retireBlock ..)) (backUp _)
  have hu : s.KeepsTier u :=
    trans ht (journal (of_flash (FlashKeeps.trans (FlashKeeps.restage ..) (FlashKeeps.rewrite ..))) t false)
  exact trans (trans (trans hu (mapSettled _)) (countUnits ..)) (empty ..)

theorem loseBlocks (s : State) (bs : List Nat) (striped : Bool) : s.KeepsTier (s.loseBlocks bs striped) := by
  unfold State.loseBlocks
  extract_lets es t
  have ht : s.KeepsTier t := foldl (fun (u : State) b => u.retireBlock b true) (fun u b => retireBlock u b true) bs s
  split
  · exact trans (trans ht (relocate ..)) (count ..)
  · exact ht

theorem checkWear (s : State) : s.KeepsTier s.checkWear := by
  unfold State.checkWear
  extract_lets w
  split
  · exact of_events (State.warn_eq ..)
  · exact of_events ⟨_, _, rfl⟩

end KeepsTier

theorem collect_enough {s : State} (h : s.flash.nBlocks * s.rd Reg.FLT_CFG1.GC_START_PM < s.flash.freeCount * 1000) :
    s.collect = s := if_pos h

theorem collect_flash {s : State} (h : s.flash.freeCount * 1000 ≤ s.flash.nBlocks * s.rd Reg.FLT_CFG1.GC_START_PM)
    {v : Block} (hv : s.flash.victim = some v) : s.collect.flash = (s.empty v.id).flash := by
  unfold State.collect
  dsimp only
  rw [if_neg (Nat.not_lt.mpr h), hv]
  rfl

theorem level_even {s : State} (h : s.uneven = false) :
    s.level = { s with flash := { s.flash with levelling := false } } := by
  unfold State.level
  dsimp only
  rw [h, if_neg Bool.false_ne_true]

theorem level_flash {s : State} (h : s.uneven = true) {v : Block} (hv : s.flash.leastWornCold = some v) :
    s.level.flash =
      { (s.relocate ((s.flash.unitsOf v.id).filter fun e => e.cold)).flash with levelling := true } := by
  unfold State.level
  dsimp only
  rw [if_pos h, hv]

theorem refresh_unqueued (s : State) (b : Nat) (bad : List Nat) : b ∉ (s.refresh b bad).flash.refresh := by
  unfold State.refresh
  split
  · extract_lets es lost t u _ v
    have hv : b ∉ v.flash.refresh := fun h => by simpa using (List.mem_filter.mp h).2
    split
    · exact fun h => hv (retireBlock_refresh v b false h)
    · exact hv
  · next h => exact fun hb => h (List.contains_iff_mem.mpr hb)

theorem eraseFailed_retired {s : State} {b : Nat} (h : b < s.flash.nBlocks) :
    ((s.eraseFailed b).flash.block b).state = .retired := retireBlock_retired (s := s.countAt ..) h false

/-! ## Erases (R275) -/

section
variable {s : State} {b : Nat} (hstale : (s.flash.block b).state = .stale)
  (hback : ∀ k, s.kv.back = some k → ∀ e ∈ k.map, e.block ≠ b)
include hstale hback

/-- An erase whose block no restored map needs is tried. -/
theorem eraseBlock_eq (passes : Bool) : s.eraseBlock b passes =
    if passes then
      let t := s.backUp
      let f := ((t.flash.dropUnits b).setBlock { freshBlock b with erase := (s.flash.block b).erase + 1 }).record false
        [⟨.erased, b, (s.flash.block b).erase + 1⟩]
      ({ t with flash := { f with refresh := f.refresh.filter fun x => x != b }.openAll } : State).mapSettled.checkWear
    else s.eraseFailed b := by
  unfold State.eraseBlock
  extract_lets blk held
  have hheld : held = false := by
    unfold held
    split
    · next k hk => exact List.any_eq_false.mpr fun e he => by simpa using hback k hk e he
    · rfl
  rw [if_neg (by rw [hheld]; exact not_or.mpr ⟨fun hne => hne hstale, Bool.false_ne_true⟩)]

/-- A block that is erased gains one erase with its journal record, and no unit is lost. -/
theorem eraseBlock_passes : let u := s.eraseBlock b true
    s.Draining u ∧ s.flash.KeepsUnits u.flash ∧ (u.flash.block b).erase = (s.flash.block b).erase + 1 ∧
      ∃ r ∈ u.flash.journal, ⟨.erased, b, (s.flash.block b).erase + 1⟩ ∈ r.changes := by
  intro u
  unfold u
  rw [eraseBlock_eq hstale hback true, if_pos rfl]
  extract_lets t _ f
  have ht : s.KeepsTier t := KeepsTier.backUp s
  have hf : (f.block b).erase = (s.flash.block b).erase + 1 := by
    rw [Flash.block_congr (f := f) ((t.flash.dropUnits b).setBlock _) rfl, Flash.block_setBlock]
    exact congrArg Block.erase (if_pos rfl)
  have hmap : f.map = t.flash.map := Flash.setBlock_map ..
  have hu : ({ t with flash := f } : State).KeepsTier _ :=
    KeepsTier.trans (KeepsTier.trans (KeepsTier.of_flash (FlashKeeps.trans
      (g := { f with refresh := f.refresh.filter fun x => x != b }) (FlashKeeps.of_core rfl) (FlashKeeps.openAll _)))
      (KeepsTier.mapSettled _)) (KeepsTier.checkWear _)
  exact ⟨Draining.trans (Draining.trans ht.draining (Draining.flash ..)) hu.draining,
    (ht.flash.units.trans (.of_map hmap)).trans hu.flash.units, (hu.flash.erase b).trans hf,
    _, hu.flash.journal _ (List.mem_append_right _ (List.mem_singleton_self _)), List.mem_singleton_self _⟩

end

/-! ## Dies and channels that leave service (Table 11-7) -/

/-- The registers, the log, keys and values, and the tier may differ, but each mapped unit stays mapped and the channels in
service are the same. -/
structure State.KeepsMapped (s u : State) : Prop where
  draining : s.Draining u
  units : s.flash.KeepsUnits u.flash
  channels : u.flash.channels = s.flash.channels

namespace KeepsMapped

theorem of_keepsTier {s u : State} (h : s.KeepsTier u) : s.KeepsMapped u := ⟨h.draining, h.flash.units, h.flash.channels⟩

theorem trans {s t u : State} (h : s.KeepsMapped t) (k : t.KeepsMapped u) : s.KeepsMapped u :=
  ⟨Draining.trans h.draining k.draining, h.units.trans k.units, k.channels.trans h.channels⟩

/-- A block that becomes a root block is emptied first. -/
theorem claimRoots (s : State) : s.KeepsMapped s.claimRoots := by
  unfold State.claimRoots
  refine List.foldlRecOn _ _ (motive := s.KeepsMapped) (of_keepsTier (KeepsTier.refl s)) fun t ht b _ => trans ht ?_
  extract_lets
  split
  · exact of_keepsTier (KeepsTier.refl t)
  · split
    · exact of_keepsTier (KeepsTier.of_flash (FlashKeeps.setAside ..))
    · exact trans (of_keepsTier (KeepsTier.empty t b))
        ⟨Draining.flash .., .of_map (Flash.setBlock_map ..), Flash.setBlock_channels ..⟩

end KeepsMapped

/-- A die that stops answering leaves service, and its blocks' units move where they can. -/
theorem loseDie_lost {s : State} {d : Nat} (hd : d < s.flash.dieCh.length) (hin : d ∉ s.flash.diesLost) :
    s.Draining (s.loseDie d) ∧ s.flash.KeepsUnits (s.loseDie d).flash ∧
      (s.loseDie d).flash.diesLost = s.flash.diesLost ++ [d] := by
  unfold State.loseDie
  rw [if_neg (not_or.mpr ⟨Nat.not_le.mpr hd, fun h => hin (List.contains_iff_mem.mp h)⟩)]
  extract_lets striped _ t
  have hu : t.KeepsTier _ := KeepsTier.trans (KeepsTier.of_events (State.raise_eq t Ev.FLT.DIE_LOST))
    (KeepsTier.loseBlocks _ (s.flash.dieBlocks d) striped)
  exact ⟨Draining.trans (Draining.flash ..) hu.draining, hu.flash.units, hu.flash.diesLost⟩

/-- A channel that goes out of service takes its blocks with it, and new root blocks are claimed. -/
theorem loseChannel_out {s : State} {ch : Nat} (h : s.flash.channels.getLsbD ch = true) :
    s.Draining (s.loseChannel ch) ∧ s.flash.KeepsUnits (s.loseChannel ch).flash ∧
      (s.loseChannel ch).flash.channels = s.flash.channels &&& ~~~(BitVec.ofNat 32 (2 ^ ch)) := by
  unfold State.loseChannel
  rw [if_pos h]
  extract_lets striped dies out _ t
  have hu : t.KeepsMapped _ := KeepsMapped.trans (KeepsMapped.of_keepsTier (KeepsTier.trans
    (KeepsTier.of_events (State.raise_eq t Ev.FLT.CH_OFFLINE))
    (KeepsTier.loseBlocks _ (dies.map s.flash.dieBlocks).flatten striped))) (KeepsMapped.claimRoots _)
  exact ⟨Draining.trans (Draining.flash ..) hu.draining, hu.units, hu.channels⟩

/-! ## Training (R57) -/

/-- A channel in service that has warmed by 20 °C notes its temperature, and stays in service where a rate passes. -/
theorem retrain_warmed {s : State} {ch : Nat} {temp : Int} {rates : List Nat} {x : ChannelFound}
    (hx : s.flash.found[ch]? = some x) (hch : s.flash.channels.getLsbD ch = true) (hlen : ch < s.dev.trainTemp.length)
    (htemp : s.dev.trainTemp.getD ch 0 + 20 ≤ temp) : let u := s.retrain ch temp rates
    s.Spares u ∧ s.flash.KeepsUnits u.flash ∧ u.dev.trainTemp.getD ch 0 = temp ∧
      u.flash.channels = if s.flash.trains { x with passes := rates } = true then s.flash.channels
        else s.flash.channels &&& ~~~(BitVec.ofNat 32 (2 ^ ch)) := by
  intro u
  unfold u State.retrain
  extract_lets old
  rw [hx]
  dsimp -zeta only
  rw [if_pos (by rw [hch, decide_eq_true htemp]; rfl)]
  extract_lets y found t
  obtain ⟨r, l, ht⟩ : ∃ r l, t = { s with regs := r, log := l, flash := { s.flash with found := found }, dev :=
      { s.dev with trainTemp := s.dev.trainTemp.set ch temp } } := State.raiseI_eq ..
  have hset : t.dev.trainTemp.getD ch 0 = temp := by
    rw [ht]
    simp [List.getD_eq_getElem?_getD, hlen]
  have hspares : s.Spares t := by rw [ht]; exact ⟨rfl, rfl, rfl, rfl⟩
  have hunits : s.flash.KeepsUnits t.flash := by rw [ht]; exact .of_map rfl
  have hchannels : t.flash.channels = s.flash.channels := by rw [ht]
  cases htr : s.flash.trains y with
  | false =>
    obtain ⟨hdrain, hlost, hout⟩ := loseChannel_out (s := t) (ch := ch) (by rw [hchannels]; exact hch)
    refine ⟨Spares.trans hspares (Spares.of_draining hdrain), hunits.trans hlost, ?_, ?_⟩
    · obtain ⟨r, l, k, f, h⟩ := hdrain
      show (t.loseChannel ch).dev.trainTemp.getD ch 0 = temp
      rw [h]; exact hset
    · rw [hchannels] at hout
      exact hout
  | true =>
    have hlast : ∀ v, (∃ r l, v = { t with regs := r, log := l }) → s.Spares v ∧ s.flash.KeepsUnits v.flash ∧
        v.dev.trainTemp.getD ch 0 = temp ∧ v.flash.channels = s.flash.channels := by
      rintro v ⟨r, l, rfl⟩
      exact ⟨Spares.trans hspares ⟨rfl, rfl, rfl, rfl⟩, hunits, hset, hchannels⟩
    split
    · next h => exact nomatch h
    · split
      · exact hlast _ (State.raiseI_eq ..)
      · exact hlast _ ⟨t.regs, t.log, rfl⟩

end Sys2Proof.Machine
end

section
/-! PROOF. O51: the flash tier's background work and failures lose no mapped unit (R268 to R282, Table 11-7). -/

namespace Sys2Proof.Machine

open Sys2Proof

/-! ## From the work to its command -/

section
variable {s : State} {w : Work} {must : Bool} (h : s.Works w must) {f : State → State} {q : State → Prop}
include h

/-- Background work that is done is its effect on the device once it has left IDLE. -/
theorem exists_background (hs : s.stir.Spares (f s.stir)) (hk : s.flash.KeepsUnits (f s.stir).flash) (hq : q (f s.stir)) :
    ∃ u, s.done (s.background w must f) = .next u ∧ s.flash.KeepsUnits u.flash ∧ q u := by
  rw [State.background_works h]
  exact ⟨_, Spares.done (Spares.trans (Spares.stir s) hs), hk, hq⟩

theorem exists_background_tier (hk : s.stir.KeepsTier (f s.stir)) (hq : q (f s.stir)) :
    ∃ u, s.done (s.background w must f) = .next u ∧ s.flash.KeepsUnits u.flash ∧ q u :=
  exists_background h (Spares.of_draining hk.draining) (s.stir_flash ▸ hk.flash.units) hq

end

/-- A failure that the tier takes is its effect. -/
theorem exists_failure {p : Prop} [Decidable p] (hp : p) {s t : State} {q : State → Prop} (hd : s.Draining t)
    (hk : s.flash.KeepsUnits t.flash) (hq : q t) :
    ∃ u, s.done (if p then t else s) = .next u ∧ s.flash.KeepsUnits u.flash ∧ q u := by
  rw [if_pos hp]
  exact ⟨t, Spares.done (Spares.of_draining hd), hk, hq⟩

/-- Settles O51: each row is relocation, retiring or reading of units of the tier, and those keep every mapped unit; the
erase adds one to its block's count alone, and a checkpoint unmaps its older copy alone. The extent of one run is also log
entry 129. -/
theorem flashWorkLosesNoUnit : Obligations.FlashWorkLosesNoUnit := by
  unfold Obligations.FlashWorkLosesNoUnit
  intro s b ch die bad rates reads temp
  dsimp only
  refine ⟨fun h => ⟨?_, ?_, fun hstale hback => ⟨?_, fun hb => ?_⟩, fun x hx hch hlen htemp => ?_⟩,
    fun h => ⟨?_, fun v hfree hv => ?_⟩, fun h => ?_, fun h => ?_, fun h => ⟨?_, fun v hun hv => ?_⟩,
    fun h => ⟨fun hb => ⟨?_, ?_⟩, fun hdie hin => ?_, fun hch => ?_⟩⟩
  · have hc := checkpoint_flash_kv s.stir
    rw [s.stir_flash, s.stir_kv] at hc
    refine ⟨s.stir.checkpoint, ?_, hc⟩
    show s.done (s.background .upkeep false State.checkpoint) = _
    rw [State.background_works h]
    exact Spares.done (Spares.trans (Spares.stir s) (checkpoint_spares _))
  · have hp := patrol_sameMap s.stir reads
    have hmap : (s.stir.patrol reads).flash.map = s.flash.map := hp.map.trans (congrArg Flash.map s.stir_flash)
    exact exists_background h (Spares.of_draining hp.draining) (.of_map hmap)
      ⟨hmap, congrArg (fun x => x.time / 86400) s.stir_sea⟩
  · obtain ⟨hd, hk, he, hj⟩ := eraseBlock_passes (s := s.stir) (b := b) (by rw [s.stir_flash]; exact hstale)
      (by rw [s.stir_kv]; exact hback)
    rw [s.stir_flash] at hk he hj
    exact exists_background h (Spares.of_draining hd) hk ⟨he, hj⟩
  · have he := eraseBlock_eq (s := s.stir) (b := b) (by rw [s.stir_flash]; exact hstale)
      (by rw [s.stir_kv]; exact hback) false
    rw [if_neg Bool.false_ne_true] at he
    refine exists_background_tier h (f := fun s => s.eraseBlock b false) ?_ ?_ <;> rw [he]
    · exact KeepsTier.eraseFailed ..
    · exact eraseFailed_retired (by rw [s.stir_flash]; exact hb)
  · obtain ⟨hs, hk, ht, hc⟩ := retrain_warmed (s := s.stir) (rates := rates) (temp := temp)
      (by rw [s.stir_flash]; exact hx) (by rw [s.stir_flash]; exact hch) (by rw [s.stir_trainTemp]; exact hlen)
      (by rw [s.stir_trainTemp]; exact htemp)
    rw [s.stir_flash] at hk hc
    exact exists_background h hs hk ⟨ht, hc⟩
  · refine exists_background_tier h (KeepsTier.collect _) fun henough => collect_enough ?_
    rw [s.stir_flash, s.stir_rd]
    exact henough
  · refine exists_background_tier h (KeepsTier.collect _) ⟨collect_flash ?_ ?_, ?_⟩
    · rw [s.stir_flash, s.stir_rd]; exact hfree
    · rw [s.stir_flash]; exact hv
    · exact (KeepsTier.collect s.stir).namespaces.trans (congrArg Kv.namespaces s.stir_kv)
  · exact exists_background_tier h (KeepsTier.promote _)
      ⟨rfl, (KeepsTier.promote s.stir).namespaces.trans (congrArg Kv.namespaces s.stir_kv)⟩
  · exact exists_background_tier h (KeepsTier.refresh s.stir b bad) (refresh_unqueued s.stir b bad)
  · refine exists_background_tier h (KeepsTier.level _) fun heven => ?_
    rw [level_even (s.stir_uneven.trans heven), s.stir_flash]
  · have huneven : s.uneven = true := by
      unfold State.uneven
      rw [Bool.or_eq_true, Bool.and_eq_true, decide_eq_true_iff, decide_eq_true_iff]
      exact hun
    refine exists_background_tier h (KeepsTier.level _) ((level_flash (v := v) (s.stir_uneven.trans huneven) ?_).trans ?_)
    · rw [s.stir_flash]; exact hv
    · rw [s.stir_flash]
  · have hk := KeepsTier.eraseFailed s b
    exact exists_failure ⟨h, hb⟩ hk.draining hk.flash.units (eraseFailed_retired hb)
  · have hk := KeepsTier.programFailed s b
    exact exists_failure ⟨h, hb⟩ hk.draining hk.flash.units ⟨rfl, hk.namespaces⟩
  · obtain ⟨hd, hk, hl⟩ := loseDie_lost hdie hin
    exact exists_failure h hd hk hl
  · obtain ⟨hd, hk, hc⟩ := loseChannel_out hch
    exact exists_failure h hd hk hc

end Sys2Proof.Machine
end

section
/-! SUPPORT. The records of heads and actuators by number (chapter 12), and what the decisions about a head leave of its
record: an inhibit raised or released, a drop out of the stripe, and the end of its service (R295, R297, R299). -/

namespace Sys2Proof.Machine

open Sys2Proof

/-! ## Records by number -/

/-- A change that keeps what is looked for changes what is found. -/
theorem find_map_of_keeps {α : Type} {p : α → Bool} {f : α → α} (h : ∀ x, p (f x) = p x) (l : List α) :
    (l.map f).find? p = (l.find? p).map f := by
  rw [List.find?_map, show p ∘ f = p from funext h]

theorem State.head_id {s : State} {i : Nat} {h : Head} (hh : s.head? i = some h) : h.id = i := by
  simpa using List.find?_some hh

theorem State.actuator_id {s : State} {i : Nat} {a : Actuator} (ha : s.actuator? i = some a) : a.id = i := by
  simpa using List.find?_some ha

theorem head_congr {s t : State} (h : t.srv.heads = s.srv.heads) (i : Nat) : t.head? i = s.head? i := by
  unfold State.head?; rw [h]

theorem actuator_congr {s t : State} (h : t.srv.actuators = s.srv.actuators) (i : Nat) : t.actuator? i = s.actuator? i := by
  unfold State.actuator?; rw [h]

/-- A change of every record that keeps its number. -/
theorem head_map {s t : State} {f : Head → Head} (ht : t.srv.heads = s.srv.heads.map f) (hf : ∀ x, (f x).id = x.id)
    (i : Nat) : t.head? i = (s.head? i).map f := by
  unfold State.head?
  rw [ht, find_map_of_keeps fun x => by rw [hf]]

/-- What a command's effect `t` shows in the command's next state `u`: only the queue, the debug port's
memories and the fuses are not the effect's. -/
structure State.ShownIn (t u : State) : Prop where
  srv : u.srv = t.srv
  out : u.out = t.out
  kv : u.kv = t.kv
  cmd : u.cmd = t.cmd
  sessions : u.sessions = t.sessions
  dev : u.dev = t.dev

theorem State.ShownIn.head {t u : State} (h : t.ShownIn u) (i : Nat) : u.head? i = t.head? i :=
  head_congr (congrArg Srv.heads h.srv) i

theorem State.ShownIn.actuator {t u : State} (h : t.ShownIn u) (i : Nat) : u.actuator? i = t.actuator? i :=
  actuator_congr (congrArg Srv.actuators h.srv) i

theorem exists_next {s t : State} {c : Instr} (h : exec c s = s.done t) : ∃ u, exec c s = .next u ∧ t.ShownIn u :=
  ⟨_, h.trans (State.done_eq ..), rfl, rfl, rfl, rfl, rfl, rfl⟩

theorem head_setHead (s : State) (h : Head) (i : Nat) :
    (s.setHead h).head? i = if i = h.id then (s.head? i).map fun _ => h else s.head? i := by
  have hm : (s.setHead h).head? i = (s.head? i).map fun x => if x.id == h.id then h else x :=
    head_map rfl (fun x => by split <;> simp_all) i
  rw [hm]
  cases hx : s.head? i with
  | none => simp
  | some x =>
    have hid := State.head_id hx
    by_cases hi : i = h.id <;> simp [hid, hi]

theorem head_setHead_same {s : State} {h x : Head} (hx : s.head? h.id = some x) : (s.setHead h).head? h.id = some h := by
  rw [head_setHead, if_pos rfl, hx]; rfl

theorem actuator_setActuator {s : State} {a x : Actuator} {i : Nat} (hx : s.actuator? i = some x) (hi : a.id = i) :
    (s.setActuator a).actuator? i = some a := by
  have hid := State.actuator_id hx
  have hf : ∀ x : Actuator, ((if x.id == a.id then a else x).id == i) = (x.id == i) := fun x => by split <;> simp_all
  have hm : (s.setActuator a).actuator? i = (s.actuator? i).map fun x => if x.id == a.id then a else x :=
    find_map_of_keeps hf s.srv.actuators
  rw [hm, hx]
  simp [hid, hi]

/-- All the records with a head's number are one. -/
def State.OneRecord (s : State) (i : Nat) : Prop := ∀ x ∈ s.srv.heads, x.id = i → s.head? i = some x

theorem setHead_oneRecord (s : State) (h : Head) : (s.setHead h).OneRecord h.id := by
  intro x hx hid
  obtain ⟨y, hy, rfl⟩ := List.mem_map.mp hx
  split at hid
  · next he =>
    have hsome : (s.head? h.id).isSome := List.find?_isSome.mpr ⟨y, hy, he⟩
    obtain ⟨z, hz⟩ := Option.isSome_iff_exists.mp hsome
    rw [head_setHead_same hz, if_pos he]
  · next hne => exact absurd (by simpa using hid) hne

theorem OneRecord.setHead {s : State} {i : Nat} (ho : s.OneRecord i) (h : Head) : (s.setHead h).OneRecord i := by
  by_cases hi : i = h.id
  · rw [hi]; exact setHead_oneRecord s h
  · intro x hx hid
    obtain ⟨y, hy, rfl⟩ := List.mem_map.mp hx
    rw [head_setHead, if_neg hi]
    split at hid
    · exact absurd hid.symm hi
    · next hne => rw [if_neg hne]; exact ho y hy hid

/-! ## What a decision leaves of a head's record -/

/-- What no decision about a head changes: its wedge and position, its misses, and its target. A missed head stays inhibited,
one that is inhibited does not write once it has stopped writing, and none returns to the stripe by a missed wedge, or to
service. -/
structure Head.Keeps (h g : Head) : Prop where
  id : g.id = h.id
  wedge : g.wedge = h.wedge
  x : g.x = h.x
  target : g.target = h.target
  missRun : g.missRun = h.missRun
  missed : g.missed = h.missed
  cMiss : g.cMiss = h.cMiss
  inhibit : h.cMiss = true → h.inhibit = true → g.inhibit = true
  writing : (h.inhibit = true → h.writing = false) → g.inhibit = true → g.writing = false
  part : h.missed = true → h.part = false → g.part = false
  inService : h.inService = false → g.inService = false

theorem Head.Keeps.refl (h : Head) : h.Keeps h :=
  ⟨rfl, rfl, rfl, rfl, rfl, rfl, rfl, fun _ k => k, fun k => k, fun _ k => k, fun k => k⟩

theorem Head.Keeps.trans {h g f : Head} (hg : h.Keeps g) (hf : g.Keeps f) : h.Keeps f where
  id := hf.id.trans hg.id
  wedge := hf.wedge.trans hg.wedge
  x := hf.x.trans hg.x
  target := hf.target.trans hg.target
  missRun := hf.missRun.trans hg.missRun
  missed := hf.missed.trans hg.missed
  cMiss := hf.cMiss.trans hg.cMiss
  inhibit := fun hc hi => hf.inhibit (hg.cMiss.trans hc) (hg.inhibit hc hi)
  writing := fun hw => hf.writing (hg.writing hw)
  part := fun hm hp => hf.part (hg.missed.trans hm) (hg.part hm hp)
  inService := fun hs => hf.inService (hg.inService hs)

/-- The same of the record of each head. -/
structure State.KeepsHeads (s t : State) : Prop where
  some : ∀ {i x}, s.head? i = some x → ∃ y, t.head? i = some y ∧ x.Keeps y
  none : ∀ {i}, s.head? i = none → t.head? i = none
  one : ∀ {i}, s.OneRecord i → t.OneRecord i

namespace State.KeepsHeads

theorem of_heads {s t : State} (h : t.srv.heads = s.srv.heads) : s.KeepsHeads t where
  some := fun hx => ⟨_, (head_congr h _).trans hx, .refl _⟩
  none := fun hx => (head_congr h _).trans hx
  one := fun ho x hx hid => (head_congr h _).trans (ho x (h ▸ hx) hid)

theorem trans {s t u : State} (h : s.KeepsHeads t) (k : t.KeepsHeads u) : s.KeepsHeads u where
  some := fun hx => by
    obtain ⟨y, hy, hxy⟩ := h.some hx
    obtain ⟨z, hz, hyz⟩ := k.some hy
    exact ⟨z, hz, hxy.trans hyz⟩
  none := fun hx => k.none (h.none hx)
  one := fun ho => k.one (h.one ho)

/-- A head's record replaced by one that keeps this. -/
theorem setHead {s : State} {i : Nat} {x y : Head} (hx : s.head? i = .some x) (hk : x.Keeps y) :
    s.KeepsHeads (s.setHead y) := by
  have hi : i = y.id := (State.head_id hx).symm.trans hk.id.symm
  refine ⟨fun {j z} hz => ?_, fun {j} hz => ?_, fun ho => OneRecord.setHead ho y⟩
  · rw [head_setHead]
    split
    · next hj =>
      have : z = x := by rw [hj, ← hi, hx] at hz; exact (Option.some.inj hz).symm
      exact ⟨y, by rw [hz]; rfl, this ▸ hk⟩
    · exact ⟨z, hz, .refl z⟩
  · rw [head_setHead, hz]; simp

end State.KeepsHeads

/-! ## Decisions about heads -/

/-- Nothing but what a decision about heads may change differs: registers, the event log, the output, which grows, and the
heads' records as `Head.Keeps` says. -/
def State.Deciding (s t : State) : Prop :=
  ∃ r l o hs, t = { s with regs := r, log := l, out := o, srv := { s.srv with heads := hs } } ∧ s.out ⊆ o ∧ s.KeepsHeads t

namespace State.Deciding

theorem refl (s : State) : s.Deciding s := ⟨s.regs, s.log, s.out, s.srv.heads, rfl, List.Subset.refl _, .of_heads rfl⟩

theorem trans {s t u : State} (h : s.Deciding t) (k : t.Deciding u) : s.Deciding u := by
  obtain ⟨r, l, o, hs, ht, ho, hk⟩ := h
  obtain ⟨r', l', o', hs', hu, ho', hk'⟩ := k
  subst ht
  exact ⟨r', l', o', hs', hu, List.Subset.trans ho ho', hk.trans hk'⟩

theorem foldl {α : Type} (f : State → α → State) (hf : ∀ (s : State) a, s.Deciding (f s a)) (l : List α) (s : State) :
    s.Deciding (l.foldl f s) := by
  induction l generalizing s with
  | nil => exact refl s
  | cons a l ih => exact trans (hf s a) (ih _)

theorem of_events {s t : State} (h : ∃ r l, t = { s with regs := r, log := l }) : s.Deciding t := by
  obtain ⟨r, l, rfl⟩ := h
  exact ⟨r, l, s.out, s.srv.heads, rfl, List.Subset.refl _, .of_heads rfl⟩

theorem count (s : State) (f : Field) (n : Nat) : s.Deciding (s.count f n) := of_events ⟨_, _, rfl⟩

theorem raise (s : State) (e : Event) : s.Deciding (s.raise e) := of_events (State.raise_eq ..)

theorem emit (s : State) (o : Output) : s.Deciding (s.emit o) :=
  ⟨s.regs, s.log, s.out ++ [o], s.srv.heads, rfl, List.subset_append_left .., .of_heads rfl⟩

theorem setHead {s : State} {i : Nat} {x y : Head} (hx : s.head? i = some x) (hk : x.Keeps y) :
    s.Deciding (s.setHead y) :=
  ⟨s.regs, s.log, s.out, _, rfl, List.Subset.refl _, .setHead hx hk⟩

theorem heads {s t : State} (h : s.Deciding t) : s.KeepsHeads t := by
  obtain ⟨r, l, o, hs, -, -, hk⟩ := h; exact hk

theorem out {s t : State} (h : s.Deciding t) : s.out ⊆ t.out := by
  obtain ⟨r, l, o, hs, rfl, ho, -⟩ := h; exact ho

theorem cmd {s t : State} (h : s.Deciding t) : t.cmd = s.cmd := by
  obtain ⟨r, l, o, hs, rfl, -⟩ := h; rfl

theorem rdc {s t : State} (h : s.Deciding t) : t.rdc = s.rdc := by
  obtain ⟨r, l, o, hs, rfl, -⟩ := h; rfl

theorem flash {s t : State} (h : s.Deciding t) : t.flash = s.flash := by
  obtain ⟨r, l, o, hs, rfl, -⟩ := h; rfl

theorem srv {s t : State} (h : s.Deciding t) : t.srv = { s.srv with heads := t.srv.heads } := by
  obtain ⟨r, l, o, hs, rfl, -⟩ := h; rfl

theorem actuator {s t : State} (h : s.Deciding t) (i : Nat) : t.actuator? i = s.actuator? i :=
  actuator_congr (by rw [h.srv]) i

end State.Deciding

/-! ## The inhibit (R299) -/

theorem State.barred_of_miss (s : State) {h : Head} (hm : h.cMiss = true) : s.barred h = true := by
  unfold State.barred; simp [hm]

theorem Head.Keeps.stop (h : Head) : h.Keeps { h with inhibit := true, writing := false } :=
  ⟨rfl, rfl, rfl, rfl, rfl, rfl, rfl, fun _ _ => rfl, fun _ _ => rfl, fun _ h => h, fun k => k⟩

/-- A head's own judgement keeps its record but for the inhibit, and a missed head is inhibited by it. -/
theorem State.Deciding.judge (s : State) (i : Nat) : s.Deciding (s.judge i) := by
  unfold State.judge
  split
  · exact refl s
  · next h hh =>
    dsimp only
    split
    · exact trans (setHead hh (.stop h)) (trans (emit ..) (count ..))
    · next hn =>
      refine setHead hh ⟨rfl, rfl, rfl, rfl, rfl, rfl, rfl, fun hc _ => s.barred_of_miss hc, fun hw hi => hw ?_,
        fun _ k => k, fun k => k⟩
      simp_all

theorem judge_inhibits {s : State} {i : Nat} {h : Head} (hh : s.head? i = some h) (hm : h.cMiss = true) :
    (s.judge i).OneRecord i ∧ ∃ y, (s.judge i).head? i = some y ∧ y.inhibit = true := by
  have hid := State.head_id hh
  unfold State.judge
  rw [hh]
  dsimp only
  rw [s.barred_of_miss hm, ← hid]
  split
  · exact ⟨setHead_oneRecord s { h with inhibit := true, writing := false }, _,
      head_setHead_same (h := { h with inhibit := true, writing := false }) (hid ▸ hh), rfl⟩
  · exact ⟨setHead_oneRecord s { h with inhibit := true }, _,
      head_setHead_same (h := { h with inhibit := true }) (hid ▸ hh), rfl⟩

theorem State.Deciding.judgeAll (is : List Nat) (s : State) : s.Deciding (s.judgeAll is) := by
  refine foldl _ (fun t i => ?_) is s
  split
  · split
    · exact refl t
    · exact judge t i
  · exact refl t

/-! ## Drops and the end of service (R295, R297) -/

theorem Head.Keeps.drop (h : Head) : h.Keeps { h with part := false, rejoinRun := 0 } :=
  ⟨rfl, rfl, rfl, rfl, rfl, rfl, rfl, fun _ h => h, fun h => h, fun _ _ => rfl, fun k => k⟩

theorem Head.Keeps.leave (h : Head) : h.Keeps { h with inService := false, inU := false } :=
  ⟨rfl, rfl, rfl, rfl, rfl, rfl, rfl, fun _ h => h, fun h => h, fun _ h => h, fun _ => rfl⟩

theorem State.Deciding.dropHead (s : State) (i : Nat) : s.Deciding (s.dropHead i) := by
  unfold State.dropHead
  split
  · exact refl s
  · next h hh =>
    split
    · exact trans (trans (setHead hh (.drop h)) (count ..)) (trans (raise ..) (judgeAll ..))
    · exact refl s

/-- A missed head is out of the stripe once it has been dropped. -/
theorem dropHead_drops {s : State} {i : Nat} {h : Head} (hh : s.head? i = some h) (hm : h.missed = true) :
    ∃ y, (s.dropHead i).head? i = some y ∧ y.missed = true ∧ y.part = false := by
  have hid := State.head_id hh
  unfold State.dropHead
  rw [hh]
  dsimp only
  split
  · have hset : (s.setHead { h with part := false, rejoinRun := 0 }).head? i =
        some { h with part := false, rejoinRun := 0 } :=
      hid ▸ head_setHead_same (h := { h with part := false, rejoinRun := 0 }) (hid ▸ hh)
    obtain ⟨y, hy, hk⟩ := (State.Deciding.trans (State.Deciding.trans (State.Deciding.count _ Reg.SRV.DROPOUTS 1)
      (State.Deciding.raise _ Ev.SRV.HEAD_DROPPED)) (State.Deciding.judgeAll [i] _)).heads.some hset
    exact ⟨y, hy, hk.missed.trans hm, hk.part hm rfl⟩
  · next hp => exact ⟨h, hh, hm, by simpa using hp⟩

/-- The end of a head's service once it has dropped out: its record, and the notes of what it held. -/
theorem headOut_eq {s : State} {i : Nat} {h : Head} (hh : s.head? i = some h) (hs : h.inService = true) :
    ∃ y, (s.dropHead i).head? i = some y ∧
      ((s.dropHead i).setHead { y with inService := false, inU := false }).Deciding (s.headOut i) := by
  obtain ⟨y, hy, -⟩ := (State.Deciding.dropHead s i).heads.some hh
  refine ⟨y, hy, ?_⟩
  unfold State.headOut
  rw [hh]
  dsimp only
  rw [if_pos hs, hy]
  dsimp only
  exact (State.Deciding.raise ..).trans (State.Deciding.foldl _ (fun t e => .of_events (State.note_eq t ..)) _ _)

theorem State.Deciding.headOut (s : State) (i : Nat) : s.Deciding (s.headOut i) := by
  cases hh : s.head? i with
  | none => unfold State.headOut; rw [hh]; exact refl s
  | some h =>
    by_cases hs : h.inService = true
    · obtain ⟨y, hy, hk⟩ := headOut_eq hh hs
      exact trans (trans (dropHead s i) (setHead hy (.leave y))) hk
    · unfold State.headOut
      rw [hh]
      dsimp only
      rw [if_neg hs]
      exact refl s

/-- A head whose service has ended is out of service, and a missed one is out of the stripe as well. -/
theorem headOut_ends {s : State} {i : Nat} {h : Head} (hh : s.head? i = some h) :
    ∃ y, (s.headOut i).head? i = some y ∧ y.inService = false ∧
      (h.missed = true → h.inService = true → y.part = false) := by
  by_cases hs : h.inService = true
  · obtain ⟨y, hy, hk⟩ := headOut_eq hh hs
    have hid := State.head_id hy
    obtain ⟨z, hz, hyz⟩ := hk.heads.some (i := i) (x := { y with inService := false, inU := false })
      (hid ▸ head_setHead_same (h := { y with inService := false, inU := false }) (hid ▸ hy))
    refine ⟨z, hz, hyz.inService rfl, fun hm _ => ?_⟩
    obtain ⟨y', hy', hm', hp⟩ := dropHead_drops hh hm
    obtain rfl : y' = y := Option.some.inj (hy'.symm.trans hy)
    exact hyz.part hm' hp
  · refine ⟨h, ?_, by simpa using hs, fun _ h => absurd h hs⟩
    unfold State.headOut
    rw [hh]
    dsimp only
    rw [if_neg hs, hh]

/-- Each head of a list whose service ends is out of service after it. -/
theorem foldl_headOut_ends (is : List Nat) : ∀ (s : State), ∀ i ∈ is, ∀ g,
    (is.foldl (fun (s : State) h => s.headOut h) s).head? i = some g → g.inService = false := by
  induction is with
  | nil => exact fun _ _ h => absurd h List.not_mem_nil
  | cons j is ih =>
    intro s i hi g hg
    rw [List.foldl_cons] at hg
    obtain rfl | hi := List.mem_cons.mp hi
    · have hk := (State.Deciding.foldl _ State.Deciding.headOut is (s.headOut i)).heads
      cases hh : s.head? i with
      | none => rw [hk.none ((State.Deciding.headOut s i).heads.none hh)] at hg; cases hg
      | some h =>
        obtain ⟨y, hy, hout, -⟩ := headOut_ends hh
        obtain ⟨z, hz, hyz⟩ := hk.some hy
        obtain rfl : z = g := Option.some.inj (hz.symm.trans hg)
        exact hyz.inService hout
    · exact ih _ i hi g hg

end Sys2Proof.Machine
end

section
/-! SUPPORT. The band writer (R317, R322 to R327): what it writes into a band leaves keys and values and the heads' records
alone and only adds to the output; a write stripe begins on the heads that may write, at the band's track (R298, R306). -/

namespace Sys2Proof.Machine

open Sys2Proof

/-! ## Masks of heads -/

theorem testBit_maskOf (l : List Nat) (i : Nat) : (maskOf l).testBit i = decide (i ∈ l) := by
  have hf : ∀ (l : List Nat) (n : Nat),
      (l.foldl (fun n h => n ||| 2 ^ h) n).testBit i = (n.testBit i || decide (i ∈ l)) := by
    intro l
    induction l with
    | nil => simp
    | cons a l ih =>
      intro n
      rw [List.foldl_cons, ih, Nat.testBit_or, Nat.testBit_two_pow, Bool.or_assoc]
      simp [eq_comm, Bool.decide_or]
  unfold maskOf
  rw [hf, Nat.zero_testBit, Bool.false_or]

/-- A head of the write mask is one of which some record may write. -/
theorem mem_writeMask {s : State} {i : Nat} (h : i ∈ maskHeads s.writeMask) :
    ∃ x ∈ s.srv.heads, x.id = i ∧ x.writes = true := by
  unfold maskHeads State.writeMask at h
  rw [List.mem_filter, testBit_maskOf, decide_eq_true_iff] at h
  obtain ⟨x, hx, hid⟩ := List.mem_map.mp h.2
  obtain ⟨hx, hw⟩ := List.mem_filter.mp hx
  exact ⟨x, hx, hid, hw⟩

/-! ## Writing into a band -/

/-- Keys and values and the heads' records are as they were, and what was put out stays out. -/
structure State.BandWork (s t : State) : Prop where
  kv : t.kv = s.kv
  heads : t.srv.heads = s.srv.heads
  out : s.out ⊆ t.out

namespace State.BandWork

theorem refl (s : State) : s.BandWork s := ⟨rfl, rfl, List.Subset.refl _⟩

theorem trans {s t u : State} (h : s.BandWork t) (k : t.BandWork u) : s.BandWork u :=
  ⟨k.kv.trans h.kv, k.heads.trans h.heads, List.Subset.trans h.out k.out⟩

theorem emit (s : State) (o : Output) : s.BandWork (s.emit o) := ⟨rfl, rfl, List.subset_append_left ..⟩

theorem rdc (s : State) (r : Rdc) : s.BandWork { s with rdc := r } := ⟨rfl, rfl, List.Subset.refl _⟩

theorem count (s : State) (f : Field) (n : Nat) : s.BandWork (s.count f n) := ⟨rfl, rfl, List.Subset.refl _⟩

theorem raise (s : State) (e : Event) : s.BandWork (s.raise e) := by
  obtain ⟨r, l, h⟩ := s.raise_eq e
  rw [h]; exact ⟨rfl, rfl, List.Subset.refl _⟩

theorem wrote (b : Band) (xs : List (Nat × SlotData)) (s : State) : s.BandWork (s.wrote b xs) := by
  induction xs generalizing s with
  | nil => exact refl s
  | cons x xs ih =>
    unfold State.wrote
    split
    · exact ih s
    · exact trans (emit ..) (ih _)

theorem put {s t : State} {b c : Band} {items : List SlotData} {ps : List Nat} (h : s.put b items = some (c, ps, t)) :
    s.BandWork t := by
  unfold State.put at h
  obtain ⟨x, -, hx⟩ := Option.map_eq_some_iff.mp h
  obtain ⟨-, -, rfl⟩ : x.1 = c ∧ x.2 = ps ∧ s.wrote x.1 (x.2.zip items) = t := by simpa using hx
  exact wrote ..

theorem closeBand (s : State) (b : Band) (short : Bool) : s.BandWork (s.closeBand b short) := by
  unfold State.closeBand
  extract_lets p t q c r r' u
  have hp : s.BandWork t := by
    unfold t p
    split
    · exact refl s
    · split
      · next h => exact put h
      · exact refl s
  have hu : s.BandWork u := trans hp (rdc ..)
  split
  · exact trans hu (raise ..)
  · exact hu

theorem rewriteRows {s t : State} {b c : Band} {bad : List Nat} (h : s.rewriteRows b bad = some (c, t)) : s.BandWork t := by
  unfold State.rewriteRows at h
  split at h
  · cases h; exact refl s
  · dsimp only at h
    split at h
    · cases h; exact refl s
    · split at h
      · cases h
      · split at h
        · cases h
        · next hp => cases h; exact trans (put hp) (rdc ..)

theorem copySlots {s t : State} {b c : Band} {old : List (Nat × Nat)} (h : s.copySlots b old = some (c, t)) :
    s.BandWork t := by
  unfold State.copySlots at h
  dsimp only at h
  split at h
  · cases h
  · next hp => cases h; exact trans (put hp) (trans (rdc ..) (count ..))

theorem mendBand {s t : State} {b c : Band} (h : s.mendBand b = some (c, t)) : s.BandWork t := by
  unfold State.mendBand at h
  dsimp only at h
  split at h
  · cases h; exact refl s
  · split at h
    · cases h
    · next hr =>
      obtain ⟨x, hx, hc⟩ := Option.map_eq_some_iff.mp h
      cases hc
      refine trans (trans ?_ (copySlots (c := x.1) (t := x.2) hx)) ⟨rfl, rfl, List.Subset.refl _⟩
      split at hr
      · cases hr; exact refl s
      · exact rewriteRows hr

theorem fill {s t : State} {b c : Band} {bytes : Bytes} {n d : Nat} (h : s.fill b bytes n = some (c, d, t)) :
    s.BandWork t := by
  unfold State.fill at h
  dsimp only at h
  split at h
  · cases h
  · split at h
    · cases h
    · next hp =>
      split at h
      · cases h; exact put hp
      · cases h

theorem writeBand {s t : State} {b c : Band} {bytes : Bytes} {n d : Nat} (h : s.writeBand b bytes n = some (c, d, t)) :
    s.BandWork t := by
  unfold State.writeBand at h
  obtain ⟨x, hx, h⟩ := Option.bind_eq_some_iff.mp h
  split at h
  · cases h
  · exact trans (mendBand (c := x.1) (t := x.2) hx) (fill h)

theorem openBand (s : State) (slot : Nat) : s.BandWork (s.openBand slot).2 := ⟨rfl, rfl, List.Subset.refl _⟩

theorem closeFull (s : State) (b : Band) : s.BandWork (s.closeFull b) := by
  unfold State.closeFull
  split
  · exact closeBand ..
  · exact refl s

theorem closeWritten (s : State) (b : Band) (n : Nat) : s.BandWork (s.closeWritten b n) := by
  unfold State.closeWritten
  split
  · exact closeBand ..
  · next h => exact trans (mendBand h) (closeBand ..)

end State.BandWork

/-! ## Write stripes -/

/-- Frames that arm preamplifiers only add to the output. -/
theorem foldl_arm_eq (m : Nat → Nat) (as : List Nat) (s : State) : ∃ o,
    as.foldl (fun (s : State) a => if m a = 0 then s else s.emit (.paFrame a (preampArm (m a)))) s = { s with out := o } ∧
      s.out ⊆ o := by
  induction as generalizing s with
  | nil => exact ⟨s.out, rfl, List.Subset.refl _⟩
  | cons a as ih =>
    rw [List.foldl_cons]
    split
    · exact ih s
    · obtain ⟨o, h, ho⟩ := ih (s.emit (.paFrame a (preampArm (m a))))
      exact ⟨o, h, List.Subset.trans (List.subset_append_left ..) ho⟩

theorem updWhere_writing (ms : List Nat) (hs : List Head) :
    updWhere (fun h => ms.contains h.id) (fun h => { h with writing := true }) hs =
      hs.map fun h => { h with writing := decide (h.id ∈ ms) || h.writing } := by
  refine List.map_congr_left fun h _ => ?_
  by_cases hm : h.id ∈ ms <;> simp [hm]

/-- The heads that may write begin to, and their preamplifiers are armed: nothing else changes. -/
theorem armStripe_eq (s : State) : ∃ o as, s.armStripe = { s with out := o, srv := { s.srv with
      actuators := as
      heads := s.srv.heads.map fun h => { h with writing := decide (h.id ∈ maskHeads s.writeMask) || h.writing } } } ∧
    s.out ⊆ o := by
  unfold State.armStripe
  dsimp only
  rw [updWhere_writing]
  obtain ⟨o, h, ho⟩ := foldl_arm_eq
    (fun a => maskOf (((maskHeads s.writeMask).filter fun h => h / 11 == a).map fun h => h % 11)) [0, 1] _
  exact ⟨o, _, h, ho⟩

/-- A head at the track of a write stripe: its position and its target have moved alike, and it writes if it did, or if some
record of it may. -/
def Head.Sought (s : State) (h g : Head) : Prop :=
  ∃ d w, g = { h with x := h.x + d, target := h.target + d, writing := w } ∧
    (w = h.writing ∨ ∃ z ∈ s.srv.heads, z.id = h.id ∧ z.writes = true)

theorem Head.Sought.refl (s : State) (h : Head) : h.Sought s h :=
  ⟨0, h.writing, by simp, .inl rfl⟩

/-- Each head is where the writing of a band has taken it. -/
def State.SeeksHeads (s t : State) : Prop := ∀ i h, s.head? i = some h → ∃ g, t.head? i = some g ∧ h.Sought s g

theorem State.SeeksHeads.congr {s t u v : State} (h : t.SeeksHeads u) (hs : s.srv.heads = t.srv.heads)
    (hv : v.srv.heads = u.srv.heads) : s.SeeksHeads v := by
  intro i x hx
  obtain ⟨g, hg, d, w, he, hw⟩ := h i x ((head_congr hs i).symm.trans hx)
  exact ⟨g, (head_congr hv i).trans hg, d, w, he, hs ▸ hw⟩

theorem State.SeeksHeads.refl (s : State) : s.SeeksHeads s := fun _ _ hx => ⟨_, hx, .refl s _⟩

theorem seekTo_head (s : State) (track i : Nat) : ∃ f : Head → Head, (s.seekTo track).head? i = (s.head? i).map f ∧
    ∀ h, ∃ d, f h = { h with x := h.x + d, target := h.target + d } := by
  refine ⟨_, head_map rfl (fun h => ?_) i, fun h => ?_⟩
  · dsimp only; split <;> rfl
  · dsimp only
    split
    · exact ⟨_, rfl⟩
    · exact ⟨0, by simp⟩

theorem armStripe_head (s : State) (i : Nat) : s.armStripe.head? i = (s.head? i).map fun h =>
    { h with writing := decide (h.id ∈ maskHeads s.writeMask) || h.writing } := by
  obtain ⟨o, as, h, -⟩ := armStripe_eq s
  exact head_map (congrArg (fun u : State => u.srv.heads) h) (fun _ => rfl) i

/-- A write stripe begins at a track: the heads that may write begin to, at that track. -/
theorem armStripe_seeks (s : State) (track : Nat) : s.out ⊆ (s.armStripe.seekTo track).out ∧
    (s.armStripe.seekTo track).kv = s.kv ∧ s.SeeksHeads (s.armStripe.seekTo track) := by
  obtain ⟨o, as, h, ho⟩ := armStripe_eq s
  refine ⟨?_, ?_, fun i x hx => ?_⟩
  · show s.out ⊆ s.armStripe.out
    rw [h]; exact ho
  · show s.armStripe.kv = s.kv
    rw [h]
  · obtain ⟨f, hf, hd⟩ := seekTo_head s.armStripe track i
    obtain ⟨d, hd⟩ := hd { x with writing := decide (x.id ∈ maskHeads s.writeMask) || x.writing }
    refine ⟨_, by rw [hf, armStripe_head, hx]; rfl, d, _, hd, ?_⟩
    by_cases hm : x.id ∈ maskHeads s.writeMask
    · exact .inr (mem_writeMask hm)
    · exact .inl (by simp [hm])

/-- The writing of a band begins: the heads are at its track. -/
theorem stripe_seeks (s : State) (slot : Nat) : s.out ⊆ (s.stripe slot).out ∧ (s.stripe slot).kv = s.kv ∧
    s.SeeksHeads (s.stripe slot) := by
  unfold State.stripe
  split
  · exact ⟨List.Subset.refl _, rfl, State.SeeksHeads.refl s⟩
  · exact armStripe_seeks { s with rdc := { s.rdc with writing := some slot } } _

/-- What is written to the disk leaves keys and values alone. -/
theorem diskWrite_kv {s t : State} {stream : Bool} {bytes : Bytes} {n band d : Nat}
    (h : s.diskWrite stream bytes n = some (band, d, t)) : t.kv = s.kv := by
  have hend : ∀ (u : State) (slot : Nat) (b : Band), ((u.stripe slot).closeFull b).kv = u.kv := fun u slot b =>
    (State.BandWork.closeFull _ b).kv.trans (stripe_seeks u slot).2.1
  unfold State.diskWrite at h
  extract_lets cur fresh at h
  have hfresh : ∀ u : State, fresh u = some (band, d, t) → t.kv = u.kv := by
    intro u hu
    unfold fresh at hu
    split at hu
    · cases hu
    · dsimp only at hu
      split at hu
      · cases hu
      · next hw =>
        cases hu
        exact (hend ..).trans ((State.BandWork.openBand u _).trans (.writeBand hw)).kv
  clear_value cur
  split at h
  · split at h
    · exact hfresh s h
    · split at h
      · next hw => cases h; exact (hend ..).trans (State.BandWork.writeBand hw).kv
      · exact (hfresh _ h).trans (State.BandWork.closeWritten ..).kv
  · cases h

/-! ## Sectors written again (R300, R323, R326) -/

theorem draining_out_srv {s t : State} (h : s.Draining t) : t.out = s.out ∧ t.srv = s.srv := by
  obtain ⟨r, l, k, f, rfl⟩ := h
  exact ⟨rfl, rfl⟩

theorem mend_none {s : State} (h : s.writingBand = none) : s.mend = s := by
  unfold State.mend
  rw [h]
  split <;> rfl

/-- The rewriting of suspect sectors takes the heads to the band's track, and only adds to the output. -/
theorem mend_seeks (s : State) : s.out ⊆ s.mend.out ∧ s.SeeksHeads s.mend := by
  obtain ⟨hbo, hbs⟩ := draining_out_srv (KeepsTier.backUp s).draining
  have hend : ∀ (a u : State), s.out ⊆ u.out → s.SeeksHeads u →
      s.out ⊆ (a.journal u false).mapSettled.out ∧ s.SeeksHeads (a.journal u false).mapSettled := by
    intro a u ho hu
    obtain ⟨hmo, hms⟩ := draining_out_srv (KeepsTier.mapSettled (a.journal u false)).draining
    rw [hmo]
    exact ⟨ho, hu.congr rfl (congrArg Srv.heads hms)⟩
  have hwork : ∀ {u : State}, s.backUp.BandWork u → s.out ⊆ u.out ∧ s.SeeksHeads u := fun h =>
    ⟨hbo ▸ h.out, (State.SeeksHeads.refl s).congr rfl (h.heads.trans (congrArg Srv.heads hbs))⟩
  unfold State.mend
  split
  · exact ⟨List.Subset.refl _, State.SeeksHeads.refl s⟩
  · split
    · exact ⟨List.Subset.refl _, State.SeeksHeads.refl s⟩
    · next b _ =>
      dsimp only
      split
      · obtain ⟨ho, hs⟩ := hwork (.closeBand s.backUp b true)
        exact hend _ _ ho hs
      · next c u hm =>
        have hu : s.backUp.BandWork { u with rdc := u.rdc.setBand c } := (State.BandWork.mendBand hm).trans (.rdc ..)
        split
        · obtain ⟨ho, hs⟩ := hwork (hu.trans (.closeBand _ { c with rung7 := true } true))
          exact hend _ _ ho hs
        · obtain ⟨ho, -⟩ := hwork hu
          obtain ⟨ho', -, hs⟩ := stripe_seeks { u with rdc := u.rdc.setBand c } c.slot
          exact hend _ _ (List.Subset.trans ho ho')
            (hs.congr (hu.heads.trans (congrArg Srv.heads hbs)).symm rfl)

end Sys2Proof.Machine
end

section
/-! SUPPORT. One wedge of a head, by its steps (R288 to R300): what it leaves of the head's record. -/

namespace Sys2Proof.Machine

open Sys2Proof

/-! ## Work of a wedge -/

/-- The bands are as they were, what was put out stays out, and the heads' records are as `Head.Keeps` says. -/
structure State.Wedging (s t : State) : Prop where
  rdc : t.rdc = s.rdc
  out : s.out ⊆ t.out
  heads : s.KeepsHeads t

namespace State.Wedging

theorem refl (s : State) : s.Wedging s := ⟨rfl, List.Subset.refl _, .of_heads rfl⟩

theorem trans {s t u : State} (h : s.Wedging t) (k : t.Wedging u) : s.Wedging u :=
  ⟨k.rdc.trans h.rdc, List.Subset.trans h.out k.out, h.heads.trans k.heads⟩

theorem foldl {α : Type} (f : State → α → State) (hf : ∀ (s : State) a, s.Wedging (f s a)) (l : List α) (s : State) :
    s.Wedging (l.foldl f s) := by
  induction l generalizing s with
  | nil => exact refl s
  | cons a l ih => exact trans (hf s a) (ih _)

theorem of_deciding {s t : State} (h : s.Deciding t) : s.Wedging t := ⟨h.rdc, h.out, h.heads⟩

theorem emit (s : State) (o : Output) : s.Wedging (s.emit o) := of_deciding (.emit ..)

theorem setActuator (s : State) (a : Actuator) : s.Wedging (s.setActuator a) := ⟨rfl, List.Subset.refl _, .of_heads rfl⟩

theorem suspect (s : State) (i w : Nat) (outward : Bool) : s.Wedging (s.suspect i w outward) := by
  unfold State.suspect
  split
  · exact refl s
  · exact ⟨rfl, List.Subset.refl _, .of_heads rfl⟩

theorem checkShock (s : State) (a : Actuator) : s.Wedging (s.checkShock a) := by
  unfold State.checkShock
  extract_lets hs t t' t''
  split
  · have ht : s.Wedging t := by
      unfold t
      split
      · exact of_deciding (.raise ..)
      · exact refl s
    exact trans (trans ht (setActuator ..)) (trans (foldl _ (fun u h => suspect u ..) _ _) (of_deciding (.judgeAll ..)))
  · exact refl s

theorem endStripe (s : State) (i : Nat) : s.Wedging (s.endStripe i) := by
  unfold State.endStripe
  split
  · next h a hh _ =>
    dsimp only
    have ht : s.Wedging (s.setHead { h with writing := false }) := of_deciding
      (.setHead hh ⟨rfl, rfl, rfl, rfl, rfl, rfl, rfl, fun _ k => k, fun _ _ => rfl, fun _ k => k, fun k => k⟩)
    split
    · exact trans ht (trans (setActuator ..) (emit ..))
    · exact ht
  · exact refl s

/-- At the index wedge a head that missed it does not rejoin. -/
theorem indexWedge {s : State} {i : Nat} {rejoin : Bool}
    (h : rejoin = true → ∀ g, s.head? i = some g → g.missed = false) :
    s.Wedging (s.indexWedge i rejoin) := by
  unfold State.indexWedge
  split
  · exact refl s
  · next g hg =>
    extract_lets part t
    have hp : g.missed = true → g.part = false → part = false := by
      intro hm hp
      cases hr : rejoin
      · show (g.part || rejoin) = false
        rw [hp, hr]; rfl
      · rw [h hr g hg] at hm; cases hm
    have ht : s.Wedging t := trans (of_deciding (.setHead hg (y := { g with part := part, partRev := part, revMissed := 0 })
      ⟨rfl, rfl, rfl, rfl, rfl, rfl, rfl, fun _ k => k, fun k => k, hp, fun k => k⟩)) (endStripe ..)
    split
    · exact trans ht ⟨rfl, List.subset_append_left .., .of_heads rfl⟩
    · exact ht

end State.Wedging

/-! ## A missed wedge -/

/-- After a missed wedge the head is inhibited; the eighth in a row has dropped it, and more than 320 in a revolution have
ended its service. -/
structure Head.Missed (h : Head) (w : Option Nat) (g : Head) : Prop where
  wedge : g.wedge = w
  missRun : g.missRun = h.missRun + 1
  missed : g.missed = true
  inhibit : g.inhibit = true
  writing : h.inhibit = false → g.writing = false
  part : 8 ≤ h.missRun + 1 → g.part = false
  inService : 320 < h.revMissed + 1 → g.inService = false

theorem suspect_heads (s : State) (i w : Nat) (outward : Bool) : (s.suspect i w outward).srv.heads = s.srv.heads := by
  unfold State.suspect
  split <;> rfl

/-- A head's record when its servo field comes: one that acquires has counted the wedge that it sees (R288). -/
def Head.sampled (h : Head) (tracks : Nat) (smp : WedgeSample) : Head :=
  if h.wedge.isSome then h else h.acquire (wedgeSeen tracks h.cal smp)

theorem Head.sampled_eq (h : Head) (tracks : Nat) (smp : WedgeSample) :
    ∃ n w, h.sampled tracks smp = { h with acqRun := n, acqAt := w } := by
  unfold Head.sampled
  split
  · exact ⟨h.acqRun, h.acqAt, rfl⟩
  · unfold Head.acquire
    split <;> exact ⟨_, _, rfl⟩

/-- The wedge number predicted from the previous wedge. -/
def Head.nextWedge (h : Head) : Option Nat := h.wedge.map fun w => (w + 1) % 640

/-- Eight misses in a row drop a head, and more than half a revolution of them end its service. -/
theorem drops_missed {s : State} {i : Nat} {h : Head} (hh : s.head? i = some h) (hm : h.missed = true)
    (hs : h.inService = true) :
    ∃ g, (if 320 < h.revMissed then s.headOut i else if 8 ≤ h.missRun then s.dropHead i else s).head? i = some g ∧
      h.Keeps g ∧ (8 ≤ h.missRun → g.part = false) ∧ (320 < h.revMissed → g.inService = false) := by
  split
  · obtain ⟨g, hg, hk⟩ := (State.Deciding.headOut s i).heads.some hh
    obtain ⟨g', hg', hout, hp⟩ := headOut_ends hh
    obtain rfl : g' = g := Option.some.inj (hg'.symm.trans hg)
    exact ⟨g', hg, hk, fun _ => hp hm hs, fun _ => hout⟩
  · next hrev =>
    split
    · obtain ⟨g, hg, hk⟩ := (State.Deciding.dropHead s i).heads.some hh
      obtain ⟨g', hg', -, hp⟩ := dropHead_drops hh hm
      obtain rfl : g' = g := Option.some.inj (hg'.symm.trans hg)
      exact ⟨g', hg, hk, fun _ => hp, fun h => absurd h hrev⟩
    · next hrun => exact ⟨h, hh, .refl h, fun h => absurd h hrun, fun h => absurd h hrev⟩

/-- Where its number names one record, an inhibited head does not begin to write. -/
theorem Head.Sought.inhibited {s : State} {i : Nat} {h g : Head} (hs : h.Sought s g) (hh : s.head? i = some h)
    (ho : s.OneRecord i) (hi : h.inhibit = true) : ∃ d, g = { h with x := h.x + d, target := h.target + d } := by
  obtain ⟨d, w, rfl, rfl | ⟨z, hz, hid, hw⟩⟩ := hs
  · exact ⟨d, rfl⟩
  · obtain rfl : z = h := Option.some.inj ((ho z hz (hid.trans (State.head_id hh))).symm.trans hh)
    simp [Head.writes, hi] at hw

/-- What a missed wedge sets off (R288, R295, R297, R299, R300). -/
def State.wedgeMissed (s : State) (hid : Nat) (h : Head) : State :=
  let next := h.nextWedge
  let g := h.missAt next
  let t := (s.setHead g).count Reg.SRV.SAM_MISSES 1
  let t := if h.writing then t.suspect hid (next.getD 0) false else t
  let t := (if 320 < g.revMissed then t.headOut hid else if 8 ≤ g.missRun then t.dropHead hid else t).judge hid
  (if next = some 0 then t.indexWedge hid false else t).mend

/-- What a good wedge at position `x` sets off (R291 to R300). -/
def State.wedgeGood (s : State) (hid : Nat) (h : Head) (a : Actuator) (x : Int) : State :=
  let w := h.nextWedge.getD h.acqAt.1
  let g := s.goodWedge h w x a.reference
  let out := decide (g.reach s.srv.tracks < (({ h with x := x } : Head).need - a.reference).natAbs) || !h.inU
  let t := (s.tookFree.setHead g).emit (.maOut hid (g.maCode s.srv.tracks))
  let t := if h.writing ∧ g.cPes ∧ !h.inhibit then
      t.suspect hid w (decide (g.pes < 0 ∧ s.rd Reg.SRV_CFG0.WRITE_LIMIT < g.pes.natAbs)) else t
  let t := if h.part ∧ out = true then t.dropHead hid else t
  let t := if w = 0 then t.indexWedge hid (decide (64 ≤ h.rejoinRun) && !out) else t
  ((t.checkShock a).judge hid).mend

section
variable {s : State} {hid : Nat} {smp : WedgeSample} {h k : Head} {a : Actuator} (hd : s.srv.disk = 4)
  (hh : s.head? hid = some h) (ha : s.actuator? (hid / 11) = some a) (hk : h.sampled s.srv.tracks smp = k)
  (hs : k.inService = true)
include hd hh ha hk hs

/-- A head that has not seen three good wedges in a row goes on acquiring. -/
theorem servoWedge_acquires (hw : k.wedge = none) (hr : k.acqRun < 3) : s.servoWedge hid smp = s.setHead k := by
  unfold State.servoWedge
  rw [hh, ha, Option.map_some, ← Head.sampled, hk]
  dsimp only
  rw [if_pos ⟨hd, hs⟩, if_pos ⟨Option.isNone_iff_eq_none.mpr hw, hr⟩]

section
variable (ht : k.wedge.isSome = true ∨ 3 ≤ k.acqRun)
include ht

theorem servoWedge_missed (hx : wedgePos s.srv.tracks k.nextWedge k.cal smp = none) :
    s.servoWedge hid smp = s.wedgeMissed hid k := by
  unfold State.servoWedge
  rw [hh, ha, Option.map_some, ← Head.sampled, hk]
  dsimp only
  rw [if_pos ⟨hd, hs⟩, if_neg (by cases hw : k.wedge <;> simp_all), ← Head.nextWedge, hx]
  rfl

theorem servoWedge_good {x : Int} (hx : wedgePos s.srv.tracks k.nextWedge k.cal smp = some x) :
    s.servoWedge hid smp = s.wedgeGood hid k a x := by
  unfold State.servoWedge
  rw [hh, ha, Option.map_some, ← Head.sampled, hk]
  dsimp only
  rw [if_pos ⟨hd, hs⟩, if_neg (by cases hw : k.wedge <;> simp_all), ← Head.nextWedge, hx]
  rfl

end

end

/-- A head whose wedge was missed: its misses are counted, and it is inhibited (Table 12-5). -/
theorem wedgeMissed_head {s : State} {h : Head} (hh : (s.head? h.id).isSome = true) (hs : h.inService = true) :
    ∃ g, (s.wedgeMissed h.id h).head? h.id = some g ∧ h.Missed h.nextWedge g := by
  unfold State.wedgeMissed
  extract_lets next m t₀ t₁ t₂
  obtain ⟨h', hh⟩ := Option.isSome_iff_exists.mp hh
  have h₀ : t₀.head? h.id = some m := head_setHead_same (h := m) hh
  have h₁ : t₁.head? h.id = some m := by
    unfold t₁
    split
    · exact (head_congr (suspect_heads ..) _).trans h₀
    · exact h₀
  obtain ⟨g₁, hg₁, hk₁, hpart, hserv⟩ := drops_missed h₁ rfl hs
  obtain ⟨g₂, hg₂, hk₂⟩ := (State.Deciding.judge _ h.id).heads.some hg₁
  obtain ⟨hone, g₂', hg₂', hinh⟩ := judge_inhibits hg₁ (hk₁.cMiss.trans rfl)
  obtain rfl : g₂' = g₂ := Option.some.inj (hg₂'.symm.trans hg₂)
  have hi : t₂.Wedging (if next = some 0 then t₂.indexWedge h.id false else t₂) := by
    split
    · exact .indexWedge (fun h => by cases h)
    · exact .refl t₂
  obtain ⟨g₃, hg₃, hk₃⟩ := hi.heads.some hg₂
  have hk := (hk₁.trans hk₂).trans hk₃
  have hinh₃ : g₃.inhibit = true := hk₃.inhibit ((hk₁.trans hk₂).cMiss.trans rfl) hinh
  obtain ⟨g, hg, hsought⟩ := (mend_seeks _).2 _ _ hg₃
  obtain ⟨d, rfl⟩ := hsought.inhibited hg₃ (hi.heads.one hone) hinh₃
  have hmiss : g₁.missed = true := hk₁.missed.trans rfl
  exact ⟨_, hg, {
    wedge := hk.wedge.trans rfl
    missRun := hk.missRun.trans rfl
    missed := hk.missed.trans rfl
    inhibit := hinh₃
    writing := fun hn => hk.writing (fun hc => by rw [show m.inhibit = h.inhibit from rfl, hn] at hc; cases hc) hinh₃
    part := fun hr => (hk₂.trans hk₃).part hmiss (hpart hr)
    inService := fun hr => (hk₂.trans hk₃).inService (hserv hr) }⟩

/-- A head whose wedge was good has its number and position, and its stroke is put out. -/
theorem wedgeGood_head {s : State} {h : Head} (hh : (s.head? h.id).isSome = true) (a : Actuator) (x : Int) :
    ∃ g m, (s.wedgeGood h.id h a x).head? h.id = some g ∧ g.wedge = some (h.nextWedge.getD h.acqAt.1) ∧
      g.x - g.target = x - h.target ∧ (s.writingBand = none → g.x = x) ∧ g.missRun = 0 ∧ g.missed = false ∧
      .maOut h.id m ∈ (s.wedgeGood h.id h a x).out := by
  unfold State.wedgeGood
  extract_lets w y out t₀ t₁ t₂ t₃
  obtain ⟨h', hh⟩ := Option.isSome_iff_exists.mp hh
  have h₀ : t₀.head? h.id = some y := head_setHead_same (h := y) (s := s.tookFree) hh
  have hw₁ : t₀.Wedging t₁ := by
    unfold t₁
    split
    · exact .suspect ..
    · exact .refl t₀
  have hw₂ : t₁.Wedging t₂ := by
    unfold t₂
    split
    · exact .of_deciding (.dropHead ..)
    · exact .refl t₁
  obtain ⟨g₂, hg₂, hk₂⟩ := (hw₁.trans hw₂).heads.some h₀
  have hw₃ : t₂.Wedging t₃ := by
    unfold t₃
    split
    · refine .indexWedge fun _ g hg => ?_
      obtain rfl : g₂ = g := Option.some.inj (hg₂.symm.trans hg)
      exact hk₂.missed.trans rfl
    · exact .refl t₂
  have hwork := ((hw₁.trans hw₂).trans hw₃).trans
    ((State.Wedging.checkShock t₃ a).trans (.of_deciding (.judge _ h.id)))
  obtain ⟨g₃, hg₃, hk⟩ := hwork.heads.some h₀
  obtain ⟨hout, hseek⟩ := mend_seeks ((t₃.checkShock a).judge h.id)
  obtain ⟨g, hg, d, b, rfl, -⟩ := hseek _ _ hg₃
  refine ⟨_, y.maCode s.srv.tracks, hg, hk.wedge.trans rfl, ?_, fun hn => ?_, hk.missRun.trans rfl, hk.missed.trans rfl,
    hout (hwork.out (List.mem_append_right _ (List.mem_singleton_self _)))⟩
  · show g₃.x + d - (g₃.target + d) = x - h.target
    rw [hk.x, hk.target, show y.x = x from rfl, show y.target = h.target from rfl]
    omega
  · have hnone : ((t₃.checkShock a).judge h.id).writingBand = none := by
      unfold State.writingBand
      rw [hwork.rdc]
      exact hn
    rw [mend_none hnone, hg₃] at hg
    rw [← Option.some.inj hg, hk.x]
    rfl

end Sys2Proof.Machine
end

section
/-! PROOF. O53: wedges, the voice coil, seeks and fault polls (R288 to R299, R305 to R307). -/

namespace Sys2Proof.Machine

open Sys2Proof

/-! ## Wedges -/

section
variable {s : State} {hid : Nat} {smp : WedgeSample} {h k : Head} {a : Actuator} (hd : s.srv.disk = 4)
  (hh : s.head? hid = some h) (ha : s.actuator? (hid / 11) = some a) (hs : h.inService = true)
  (hk : h.sampled s.srv.tracks smp = k)
include hd hh ha hs hk

theorem exec_servoWedge_acquires (hw : h.wedge = none) (hr : k.acqRun < 3) :
    exec (.servoWedge hid smp) s = .next (s.setHead k) := by
  obtain ⟨n, w, rfl⟩ : ∃ n w, k = { h with acqRun := n, acqAt := w } := hk ▸ h.sampled_eq ..
  show s.done (s.servoWedge hid smp) = _
  rw [servoWedge_acquires hd hh ha hk hs hw hr]
  rfl

section
variable (ht : h.wedge.isSome = true ∨ 3 ≤ k.acqRun)
include ht

theorem exec_servoWedge_good {x : Int} (hx : wedgePos s.srv.tracks h.nextWedge h.cal smp = some x) :
    ∃ u g m, exec (.servoWedge hid smp) s = .next u ∧ u.head? hid = some g ∧
      g.wedge = some (h.nextWedge.getD k.acqAt.1) ∧ g.x - g.target = x - h.target ∧
      (s.writingBand = none → g.x = x) ∧ g.missRun = 0 ∧ g.missed = false ∧ .maOut hid m ∈ u.out := by
  obtain ⟨n, w, rfl⟩ : ∃ n w, k = { h with acqRun := n, acqAt := w } := hk ▸ h.sampled_eq ..
  obtain rfl := State.head_id hh
  have he : exec (.servoWedge h.id smp) s = s.done (s.servoWedge h.id smp) := rfl
  rw [servoWedge_good hd hh ha hk hs ht hx] at he
  obtain ⟨u, hu, hshown⟩ := exists_next he
  obtain ⟨g, m, hg, hw, hx, hband, hrun, hmissed, hout⟩ := wedgeGood_head (h := { h with acqRun := n, acqAt := w })
    (Option.isSome_of_eq_some hh) a x
  exact ⟨u, g, m, hu, (hshown.head _).trans hg, hw, hx, hband, hrun, hmissed, hshown.out ▸ hout⟩

theorem exec_servoWedge_missed (hx : wedgePos s.srv.tracks h.nextWedge h.cal smp = none) :
    ∃ u g, exec (.servoWedge hid smp) s = .next u ∧ u.head? hid = some g ∧ h.Missed h.nextWedge g := by
  obtain ⟨n, w, rfl⟩ : ∃ n w, k = { h with acqRun := n, acqAt := w } := hk ▸ h.sampled_eq ..
  obtain rfl := State.head_id hh
  have he : exec (.servoWedge h.id smp) s = s.done (s.servoWedge h.id smp) := rfl
  rw [servoWedge_missed hd hh ha hk hs ht hx] at he
  obtain ⟨u, hu, hshown⟩ := exists_next he
  obtain ⟨g, hg, hmiss⟩ := wedgeMissed_head (h := { h with acqRun := n, acqAt := w }) (Option.isSome_of_eq_some hh) hs
  exact ⟨u, g, hu, (hshown.head _).trans hg, { hmiss with }⟩

end

end

/-! ## The voice coil (R294, R307) -/

/-- The actuator's heads that a voice-coil update looks at: in service, and not missed. -/
def State.seenHeads (s : State) (a : Actuator) : List Head :=
  (s.srv.heads.filter fun h => h.id / 11 == a.id && h.inService).filter fun h => !h.missed

/-- The set U of a voice-coil update, by its heads and their required strokes. -/
def State.coilSet (s : State) (a : Actuator) : List (Nat × Int) :=
  chooseU a.reference (2 * ((s.seenHeads a).map fun h => h.reach s.srv.tracks).foldl min 16384)
    ((s.seenHeads a).map fun h => (h.id, h.need))

/-- VCM_SET goes out, and the actuator's current alone changes. -/
theorem vcmSet_sets {s : State} {i : Nat} {a : Actuator} (ha : s.actuator? i = some a) :
    ∃ c j k, (s.vcmSet i).actuator? i = some { a with current := c } ∧
      .motFrame (motBytes 0x10 (field16 j ++ field16 k)) ∈ (s.vcmSet i).out := by
  unfold State.vcmSet
  rw [ha]
  dsimp only
  have hid : a.id = i := State.actuator_id ha
  exact ⟨_, _, _, actuator_setActuator (s := s.tookFree) ha hid,
    List.mem_append_right _ (List.mem_singleton_self _)⟩

theorem voiceCoil_sets {s : State} {a : Actuator} (ha : s.actuator? a.id = some a) :
    ∃ g i j, (s.voiceCoil a).actuator? a.id = some g ∧ g.reference =
        (if (s.coilSet a).isEmpty then a.reference else ((spanOf (s.coilSet a)).1 + (spanOf (s.coilSet a)).2) / 2) ∧
      .motFrame (motBytes 0x10 (field16 i ++ field16 j)) ∈ (s.voiceCoil a).out := by
  unfold State.voiceCoil
  extract_lets mine seen m u err shocked t up v t' w
  have ht : t'.actuator? a.id = some { a with reference := err, shock := if shocked then a.shock else a.shock - 1 } :=
    actuator_setActuator (a := { a with reference := err, shock := if shocked then a.shock else a.shock - 1 }) ha rfl
  obtain ⟨c, i, j, hc, hout⟩ := vcmSet_sets ht
  have hdrop := State.Deciding.foldl (fun (s : State) (h : Head) => s.dropHead h.id) (fun s h => .dropHead s h.id)
    (seen.filter fun h => !u.any fun x => x.1 == h.id) w
  exact ⟨_, i, j, (hdrop.actuator _).trans hc, rfl, hdrop.out hout⟩

/-! ## Fault polls (R305, R306) -/

theorem State.Deciding.headFault (s : State) (i : Nat) : s.Deciding (s.headFault i) := by
  unfold State.headFault
  split
  · exact refl s
  · next h hh =>
    extract_lets now l t
    have ht : s.Deciding t := .setHead hh (y := { h with faults := l.take 3 })
      ⟨rfl, rfl, rfl, rfl, rfl, rfl, rfl, fun _ k => k, fun k => k, fun _ k => k, fun k => k⟩
    split
    · exact trans ht (headOut ..)
    · exact ht

/-- A cause that a poll names, or the third poll in a row without an answer, holds the actuator's heads and disarms its
preamplifier; the decisions about its heads follow. -/
theorem preampPoll_holds (s : State) (a : Actuator) {got : Option (BitVec 16)}
    (hc : (∃ f, got = some f ∧ f ≠ 0) ∨ got = none ∧ 3 ≤ a.badFrames + 1) :
    (s.setActuator { a with badFrames := if got = none then a.badFrames + 1 else 0, faultHeld := true, clearPolls := 0,
                            armed := false }).Deciding (s.preampPoll a got) := by
  have hdec : ∀ (t : State) (is : List Nat), t.Deciding ((t.raise Ev.SRV.PREAMP_FAULT).judgeAll is) := fun t is =>
    .trans (.raise ..) (.judgeAll ..)
  unfold State.preampPoll
  obtain ⟨f, rfl, hf⟩ | ⟨rfl, hn⟩ := hc
  · dsimp only
    rw [if_neg hf, if_neg (Option.some_ne_none f)]
    split
    · exact .trans (hdec ..) (.headFault ..)
    · exact hdec ..
  · dsimp only
    rw [if_pos hn]
    exact hdec ..

/-- A failed frame that is not the third in a row is counted. -/
theorem preampPoll_failed (s : State) {a : Actuator} (hn : a.badFrames + 1 < 3) :
    s.preampPoll a none = s.setActuator { a with badFrames := a.badFrames + 1 } := by
  unfold State.preampPoll
  dsimp only
  rw [if_neg (by omega)]

/-- A poll that is clear while a cause is held is counted; the second arms the preamplifier again. -/
theorem preampPoll_clear (s : State) {a : Actuator} (hh : a.faultHeld = true) : ∃ m, s.preampPoll a (some 0) =
    if a.clearPolls + 1 < 2 then s.setActuator { a with badFrames := 0, clearPolls := a.clearPolls + 1 }
    else (s.setActuator { a with badFrames := 0, faultHeld := false, clearPolls := 0, armed := true }).emit
      (.paFrame a.id (preampArm m)) := by
  unfold State.preampPoll
  dsimp only
  rw [if_pos rfl, if_pos hh]
  exact ⟨_, rfl⟩

section
variable {s : State} {act : Nat} {a : Actuator} {resp : Option (BitVec 24)} (ha : s.actuator? act = some a)
  (hp : s.dev.phase = .service)
include ha hp

theorem exec_preampFault : exec (.preampFault act resp) s =
    s.done ((s.emit (.paFrame act (paRead 0x04))).preampPoll a (resp.bind fun r => paAnswer 0x04 r)) := by
  show execPreampFault act resp s = _
  unfold execPreampFault
  rw [ha]
  dsimp only
  rw [if_pos hp]

theorem exec_preampFault_holds (hc : (∃ f, (resp.bind fun r => paAnswer 0x04 r) = some f ∧ f ≠ 0) ∨
      (resp.bind fun r => paAnswer 0x04 r) = none ∧ 3 ≤ a.badFrames + 1) :
    ∃ u, exec (.preampFault act resp) s = .next u ∧ .paFrame act (paRead 0x04) ∈ u.out ∧ u.actuator? act = some
      { a with badFrames := if (resp.bind fun r => paAnswer 0x04 r) = none then a.badFrames + 1 else 0, faultHeld := true,
               clearPolls := 0, armed := false } := by
  obtain ⟨u, hu, hshown⟩ := exists_next (exec_preampFault ha hp (resp := resp))
  have hd := preampPoll_holds (s.emit (.paFrame act (paRead 0x04))) a hc
  refine ⟨u, hu, hshown.out ▸ hd.out (List.mem_append_right _ (List.mem_singleton_self _)), ?_⟩
  rw [hshown.actuator, hd.actuator]
  have hid : a.id = act := State.actuator_id ha
  exact actuator_setActuator (s := s.emit _) ha hid

theorem exec_preampFault_failed (hg : (resp.bind fun r => paAnswer 0x04 r) = none) (hn : a.badFrames + 1 < 3) :
    exec (.preampFault act resp) s =
      .next ((s.emit (.paFrame act (paRead 0x04))).setActuator { a with badFrames := a.badFrames + 1 }) := by
  rw [exec_preampFault ha hp, hg, preampPoll_failed _ hn]
  rfl

section
variable (hg : (resp.bind fun r => paAnswer 0x04 r) = some 0) (hh : a.faultHeld = true)
include hg hh

theorem exec_preampFault_clear (hc : a.clearPolls = 0) : exec (.preampFault act resp) s =
    .next ((s.emit (.paFrame act (paRead 0x04))).setActuator { a with badFrames := 0, clearPolls := 1 }) := by
  obtain ⟨m, hm⟩ := preampPoll_clear (s.emit (.paFrame act (paRead 0x04))) hh
  rw [exec_preampFault ha hp, hg, hm, hc]
  rfl

theorem exec_preampFault_arms (hc : 1 ≤ a.clearPolls) :
    ∃ u g m, exec (.preampFault act resp) s = .next u ∧ u.actuator? act = some g ∧ g.faultHeld = false ∧ g.armed = true ∧
      u.out = s.out ++ [.paFrame act (paRead 0x04), .paFrame act (preampArm m)] := by
  have hid : a.id = act := State.actuator_id ha
  obtain ⟨m, hm⟩ := preampPoll_clear (s.emit (.paFrame act (paRead 0x04))) hh
  have he := exec_preampFault ha hp (resp := resp)
  rw [hg, hm, if_neg (by omega)] at he
  obtain ⟨u, hu, hshown⟩ := exists_next he
  refine ⟨u, _, m, hu, (hshown.actuator act).trans (actuator_setActuator (s := s.emit _) ha hid), rfl, rfl, ?_⟩
  rw [hshown.out, State.emit_out, State.setActuator_out, State.emit_out, List.append_assoc, hid]
  rfl

end

end

/-! ## Seeks (R298) -/

theorem exec_seekTimeout {s : State} (hd : s.srv.disk = 4) (o : Option TagId) :
    exec (.seekTimeout o) s = s.done (s.seekFails o) := by
  show s.done (if s.srv.disk = 4 then s.seekFails o else s) = _
  rw [if_pos hd]

/-- A seek that timed out is repeated. -/
theorem seekFails_repeats {s : State} (h : s.srv.seekRepeats < 3) (o : Option TagId) :
    (s.seekFails o).srv.seekRepeats = s.srv.seekRepeats + 1 ∧ (s.seekFails o).cmd = s.cmd := by
  unfold State.seekFails
  rw [if_pos h]
  extract_lets again v u
  have hd := State.Deciding.judgeAll (u.srv.heads.map Head.id) u
  exact ⟨by rw [hd.srv], hd.cmd⟩

/-- After three repeats the command that needed the seek fails. -/
theorem seekFails_fails {s : State} {t : TagId} {e : TagEntry} (h : 3 ≤ s.srv.seekRepeats) (he : s.entry? t = some e)
    (hb : e.before = true) : (s.seekFails (some t)).srv.seekRepeats = 0 ∧
      (s.seekFails (some t)).Answers e (doneWith stMedia e.asn []) := by
  unfold State.seekFails
  rw [if_neg (by omega)]
  extract_lets v u
  have hu : (some t).bind u.entry? = some e := he
  rw [hu]
  dsimp only
  rw [if_pos hb]
  exact ⟨congrArg Srv.seekRepeats (AnswerKeeps.finish ..).srv, finish_answers ..⟩

/-- Settles O53: each row is read off its steps. What a wedge sets off later keeps what it gave the head's record; where the
statement leaves the position open, suspect sectors are being written again and a seek has moved position and target alike.
That a missed head keeps its place outside the choice of the voice-coil set, with M the least of the others, is log entry 62;
that an acquiring head counts no missed wedge is log entry 167. -/
theorem wedgesMoveTheHeads : Obligations.WedgesMoveTheHeads := by
  unfold Obligations.WedgesMoveTheHeads
  intro s hid act smp h a t e resp
  refine ⟨fun hd hh ha hs => ?_, fun ha => ⟨fun hd hr => ?_, fun hp => ?_⟩, fun hd => ⟨fun hn o => ?_, fun hn he hb => ?_⟩⟩
  · refine ⟨fun hw hr => exec_servoWedge_acquires hd hh ha hs rfl hw hr, fun ht => ⟨fun x hx => ?_, fun hx => ?_⟩⟩
    · exact exec_servoWedge_good hd hh ha hs rfl ht hx
    · obtain ⟨u, g, hu, hg, hm⟩ := exec_servoWedge_missed hd hh ha hs rfl ht hx
      exact ⟨u, g, hu, hg, hm.wedge, hm.missRun, hm.missed, hm.inhibit, hm.writing, hm.part, hm.inService⟩
  · obtain rfl := State.actuator_id ha
    have he : exec (.voiceCoilUpdate a.id) s = s.done (s.voiceCoil a) := by
      show execVoiceCoilUpdate a.id s = _
      unfold execVoiceCoilUpdate
      rw [ha]
      dsimp only
      rw [if_pos ⟨hd, by rw [hr]; rfl⟩]
    obtain ⟨u, hu, hshown⟩ := exists_next he
    obtain ⟨g, i, j, hg, href, hout⟩ := voiceCoil_sets ha
    exact ⟨u, g, i, j, hu, (hshown.actuator _).trans hg, href, hshown.out ▸ hout⟩
  · refine ⟨fun f hf h0 => ?_, exec_preampFault_failed ha hp, fun hg hn => ?_, exec_preampFault_clear ha hp,
      exec_preampFault_arms ha hp⟩
    · obtain ⟨u, hu, hout, hg⟩ := exec_preampFault_holds ha hp (.inl ⟨f, hf, h0⟩)
      exact ⟨u, _, hu, hg, rfl, rfl, rfl, hout⟩
    · obtain ⟨u, hu, -, hu'⟩ := exec_preampFault_holds ha hp (.inr ⟨hg, hn⟩)
      exact ⟨u, _, hu, hu', rfl, rfl, if_pos hg⟩
  · obtain ⟨u, hu, hshown⟩ := exists_next (exec_seekTimeout hd o)
    obtain ⟨hrep, hcmd⟩ := seekFails_repeats hn o
    exact ⟨u, hu, (congrArg Srv.seekRepeats hshown.srv).trans hrep, hshown.cmd.trans hcmd⟩
  · obtain ⟨u, hu, hshown⟩ := exists_next (exec_seekTimeout hd (some t))
    obtain ⟨hrep, hans⟩ := seekFails_fails hn he hb
    exact ⟨u, hu, (congrArg Srv.seekRepeats hshown.srv).trans hrep, answers_congr hshown.cmd hshown.sessions hans⟩

end Sys2Proof.Machine
end

section
/-! SUPPORT. The disk's spin-up, calibration and spin-down by their steps (R301 to R303, R307, R321). -/

namespace Sys2Proof.Machine

open Sys2Proof

/-! ## The disk fails, and what unloading leaves -/

/-- A failed disk is at 6 with its spindle stopped; beside that only START_TIME, an event and WRITE_READY change. -/
theorem diskFailed_eq (s : State) : ∃ r l, s.diskFailed =
    { s with regs := r, log := l, srv := { s.srv with disk := 6, writeReady := false },
             dev := { s.dev with spinning := false } } := by
  unfold State.diskFailed
  extract_lets t
  obtain ⟨r, l, h⟩ := State.raise_eq
    { t with srv := { t.srv with disk := 6, writeReady := false },
             dev := { t.dev with spinning := false } } Ev.SRV.SPINUP_FAIL
  exact ⟨r, l, h⟩

theorem unloadHeads_off (s : State) :
    ∀ h ∈ s.unloadHeads.srv.heads, h.inhibit = true ∧ h.writing = false ∧ h.part = false := by
  obtain ⟨o, hs, h, hp⟩ := s.parkHeads_eq
  intro x hx
  unfold State.unloadHeads at hx
  rw [h] at hx
  obtain ⟨y, hy, rfl⟩ := List.mem_map.mp hx
  exact ⟨(hp y hy).1, (hp y hy).2, rfl⟩

/-! ## Spin-up (R301) -/

/-- A missed step brakes the spindle and counts an attempt; the third fails the disk. -/
theorem spinUp_misses {s : State} {r : SpinResult} {k : Nat} (h : r.missedStep = some k) :
    (s.srv.attempts + 1 < 3 → (s.spinUp r).srv.disk = 0 ∧ (s.spinUp r).srv.attempts = s.srv.attempts + 1 ∧
      .motFrame (motSpin 2) ∈ (s.spinUp r).out) ∧
    (3 ≤ s.srv.attempts + 1 → (s.spinUp r).srv.disk = 6 ∧ (s.spinUp r).dev.spinning = false) := by
  unfold State.spinUp
  rw [h]
  extract_lets n t v d u
  refine ⟨fun hn => ?_, fun hn => ?_⟩
  · rw [if_neg (by omega)]
    exact ⟨rfl, rfl, List.mem_append_right _ (List.mem_singleton_self _)⟩
  · rw [if_pos hn]
    obtain ⟨r, l, hf⟩ := diskFailed_eq u
    rw [hf]
    exact ⟨rfl, rfl⟩

/-- A format of the disk leaves of the servo all but the suspect sectors. -/
theorem formatDisk_srv (s : State) : ∃ l m, s.formatDisk.srv = { s.srv with suspects := l, suspectsPrev := m } := by
  unfold State.formatDisk
  split
  · exact ⟨s.srv.suspects, s.srv.suspectsPrev, rfl⟩
  · exact ⟨[], [], rfl⟩

/-- After a calibration: the heads that failed it are out of service, and a full one has saved its values where the tier
takes writes and is done; WRITE_READY follows (R302). -/
structure State.Calibrated (s : State) (full : Bool) (failed : List Nat) (u : State) : Prop where
  disk : u.srv.disk = s.srv.disk
  attempts : u.srv.attempts = s.srv.attempts
  tracks : u.srv.tracks = s.srv.tracks
  out : ∀ i ∈ failed, ∀ g, u.head? i = some g → g.inService = false
  done : full = true → u.srv.fullCal = true ∧ u.srv.writeReady = !s.rdc.writeStop
  saved : full = true → s.flash.mounted = true → s.flash.readOnly = false → ∃ l, u.srv.savedCal = some (s.flash.tierId, l)

theorem calibrate_calibrated (s : State) (full : Bool) (failed : List Nat) (r : CalResult) :
    s.Calibrated full failed (s.calibrate full failed r) := by
  unfold State.calibrate
  extract_lets saved oldH oldA setH setA v t t' all cals keep w u
  have hd : t.Deciding t' := .foldl _ State.Deciding.headOut failed t
  have hout : ∀ i ∈ failed, ∀ g, t'.head? i = some g → g.inService = false := foldl_headOut_ends failed t
  have hkept : t'.srv.disk = s.srv.disk ∧ t'.srv.attempts = s.srv.attempts ∧ t'.srv.tracks = s.srv.tracks := by
    rw [hd.srv]; exact ⟨rfl, rfl, rfl⟩
  obtain ⟨hdisk, hatt, htracks⟩ := hkept
  split
  · obtain ⟨r, l, h⟩ := u.raise_eq Ev.SRV.CAL_DONE
    rw [h]
    refine ⟨hdisk, hatt, htracks, hout, fun _ => ⟨rfl, ?_⟩, fun _ hm hr => ⟨(all, cals), ?_⟩⟩
    · show (!t'.rdc.writeStop) = !s.rdc.writeStop
      rw [hd.rdc]
    · show keep = _
      unfold keep
      rw [hd.flash]
      exact if_pos ⟨hm, by rw [show t.flash = s.flash from rfl, hr]; rfl⟩
  · next hfull => exact ⟨hdisk, hatt, htracks, hout, fun h => absurd h hfull, fun h => absurd h hfull⟩

/-- A spin-up whose steps all pass leaves the disk at speed. -/
theorem spinUp_passes {s : State} {r : SpinResult} (h : r.missedStep = none) :
    (s.spinUp r).srv.disk = 4 ∧ (s.spinUp r).srv.attempts = 0 ∧ (s.spinUp r).srv.tracks = r.tracks := by
  unfold State.spinUp
  split
  · next hm => rw [h] at hm; cases hm
  · extract_lets full acts v t u
    obtain ⟨l, m, hf⟩ := formatDisk_srv t
    have hc := calibrate_calibrated t.formatDisk full r.failed r.cal
    obtain ⟨rg, lg, hr⟩ := State.raise_eq (u.wr Reg.START_TIME.DISK_100MS
      (min 65535 ((u.rd Reg.START_TIME.SERVICE_MS + (u.dev.clockMs - u.dev.startMs)) / 100))) Ev.RST.DISK_READY
    rw [hr]
    exact ⟨hc.disk.trans (congrArg Srv.disk hf), hc.attempts.trans (congrArg Srv.attempts hf),
      hc.tracks.trans (congrArg Srv.tracks hf)⟩

/-- A spin-up starts from rest where nothing forbids it (R301). -/
theorem startSpin_starts {s : State} (hd : s.srv.disk = 0) (ha : s.srv.attempts = 0) (hp : s.dev.phase = .service)
    (hl : s.dev.pwrfailLow = false) (hh : s.cfg.hw.heads ≠ 0) : s.startSpin.srv.disk = 1 := by
  unfold State.startSpin
  rw [if_pos ⟨.inl ⟨hd, ha⟩, hp, by rw [hl]; rfl, hh⟩]
  rfl

/-- A retry whose turn has come is a spin-up that goes on from the attempts counted. -/
theorem spinRetry_spins {s : State} (hd : s.srv.disk = 0) (hp : s.dev.phase = .service) (hl : s.dev.pwrfailLow = false)
    (hh : s.cfg.hw.heads ≠ 0) (r : SpinResult) :
    ∃ t : State, s.spinRetry r = t.spinUp r ∧ t.srv.attempts = s.srv.attempts := by
  unfold State.spinRetry
  dsimp only
  rw [if_pos (startSpin_starts (s := { s with srv := { s.srv with attempts := 0 } }) hd rfl hp hl hh)]
  exact ⟨_, rfl, rfl⟩

/-! ## Spin-down (R303) -/

theorem spinDown_brakes {s : State} (h : s.srv.disk = 4) : s.spinDown.srv.disk = 5 ∧ s.spinDown.dev.spinning = false ∧
    .motFrame (motSpin 2) ∈ s.spinDown.out ∧
    ∀ g ∈ s.spinDown.srv.heads, g.inhibit = true ∧ g.writing = false ∧ g.part = false := by
  unfold State.spinDown
  rw [if_neg (by omega)]
  exact ⟨rfl, rfl, List.mem_append_right _ (List.mem_singleton_self _), unloadHeads_off s⟩

/-- A disk at rest or failed has no spin-down. -/
theorem spinDown_rests {s : State} (h : s.srv.disk = 0 ∨ s.srv.disk = 6) : s.spinDown = s := by
  unfold State.spinDown
  rw [if_pos (by omega)]

/-! ## Motor polls (R307) -/

/-- A poll without a good answer that is not the third in a row is counted. -/
theorem motPoll_counts {s : State} (h : s.srv.statusFails + 1 < 3) :
    s.motPoll none = { s with srv := { s.srv with statusFails := s.srv.statusFails + 1 } } := by
  unfold State.motPoll
  dsimp only
  rw [if_pos h]

/-- The third poll in a row without a good answer fails the disk. -/
theorem motPoll_fails {s : State} (h : 3 ≤ s.srv.statusFails + 1) : (s.motPoll none).srv.disk = 6 := by
  unfold State.motPoll
  dsimp only
  rw [if_neg (by omega)]
  obtain ⟨r, l, hf⟩ := diskFailed_eq
    ((State.retract { s with srv := { s.srv with statusFails := 0 } }).raise Ev.SRV.MOT_LINK_ERR)
  rw [hf]

/-- At speed a good answer tells the period: out of range, it holds writing off for 8 polls. -/
theorem motPoll_period {s : State} (h : s.srv.disk = 4) (w : BitVec 32) : (s.motPoll (some w)).srv.statusFails = 0 ∧
    (s.motPoll (some w)).srv.periodOff = if 8337499 < bitsOf w.toNat 0 24 * 1000 ∨ bitsOf w.toNat 0 24 * 1000 < 8329167 then 8
      else s.srv.periodOff - 1 := by
  unfold State.motPoll
  dsimp only
  rw [if_pos h]
  split
  · rw [(State.Deciding.judgeAll _ _).srv]
    exact ⟨rfl, rfl⟩
  · exact ⟨rfl, rfl⟩

end Sys2Proof.Machine
end

section
/-! SUPPORT. What band cleaning leaves of keys and values: every extent's index and every namespace (R329 to R332). -/

namespace Sys2Proof.Machine

open Sys2Proof

/-! ## Bands retired and freed (R331, R332) -/

@[simp] theorem raise_kv (s : State) (e : Event) : (s.raise e).kv = s.kv := by
  obtain ⟨r, l, h⟩ := s.raise_eq e; rw [h]

@[simp] theorem warn_kv (s : State) (f : Field) (e : Event) (detail : Nat) : (s.warn f e detail).kv = s.kv := by
  obtain ⟨r, l, h⟩ := s.warn_eq f e detail; rw [h]

theorem retireBand_kv (s : State) (b : Band) : (s.retireBand b).kv = s.kv := by
  unfold State.retireBand
  dsimp only
  split
  · exact raise_kv ..
  · split
    · split <;> simp
    · split <;> simp

theorem freeBand_kv (s : State) (b : Band) : (s.freeBand b).kv = s.kv := by
  unfold State.freeBand
  extract_lets held
  split
  · rfl
  · split
    · exact retireBand_kv s b
    · rfl

theorem foldl_freeBand_kv (bs : List Band) (s : State) : (bs.foldl (fun s b => s.freeBand b) s).kv = s.kv := by
  induction bs generalizing s with
  | nil => rfl
  | cons b bs ih => exact (ih _).trans (freeBand_kv s b)

/-! ## What cleaning keeps -/

/-- Every extent's index and every namespace are as they were. -/
structure State.KeepsIndices (s t : State) : Prop where
  indices : (t.kv.extents.map fun e => e.index) = s.kv.extents.map fun e => e.index
  namespaces : t.kv.namespaces = s.kv.namespaces

namespace State.KeepsIndices

theorem of_kv {s t : State} (h : t.kv = s.kv) : s.KeepsIndices t := ⟨by rw [h], by rw [h]⟩

theorem trans {s t u : State} (h : s.KeepsIndices t) (k : t.KeepsIndices u) : s.KeepsIndices u :=
  ⟨k.indices.trans h.indices, k.namespaces.trans h.namespaces⟩

/-- The extent of an index that is held is replaced. -/
theorem setExt {s : State} {e : Extent} (h : e.index ∈ s.kv.extents.map fun e => e.index) : s.KeepsIndices (s.setExt e) := by
  refine ⟨?_, rfl⟩
  obtain ⟨x, hx, hi⟩ := List.mem_map.mp h
  have hany : (s.kv.extents.any fun x => x.index == e.index) = true := List.any_eq_true.mpr ⟨x, hx, by simpa using hi⟩
  show ((putWhere (fun x => x.index == e.index) e s.kv.extents).map fun e => e.index) = _
  unfold putWhere
  rw [if_pos hany, List.map_map]
  refine List.map_congr_left fun y _ => ?_
  by_cases hy : y.index = e.index <;> simp [hy]

/-- Extents that are held are worked on one after another. -/
theorem foldl (f : State → Extent → State) (es : List Extent) : ∀ s : State,
    (∀ e ∈ es, e.index ∈ s.kv.extents.map fun e => e.index) →
    (∀ (t : State), ∀ e ∈ es, (e.index ∈ t.kv.extents.map fun e => e.index) → t.KeepsIndices (f t e)) →
    s.KeepsIndices (es.foldl f s) := by
  induction es with
  | nil => exact fun s _ _ => of_kv rfl
  | cons e es ih =>
    intro s hes hf
    have he := hf s e List.mem_cons_self (hes e List.mem_cons_self)
    exact trans he (ih _ (fun x hx => he.indices ▸ hes x (List.mem_cons_of_mem _ hx))
      fun t x hx => hf t x (List.mem_cons_of_mem _ hx))

/-! ## The drain of the write buffer (R271) -/

theorem drainExtent {s : State} {e : Extent} (h : e.index ∈ s.kv.extents.map fun e => e.index) :
    s.KeepsIndices (s.drainExtent e) := by
  unfold State.drainExtent
  split
  · next f _ =>
    have hf : s.KeepsIndices { s with flash := f } := of_kv rfl
    exact trans hf (setExt h)
  · exact of_kv rfl

theorem drainLeaf (s : State) (l : Leaf) : s.KeepsIndices (s.drainLeaf l) := by
  unfold State.drainLeaf
  split
  · exact ⟨rfl, rfl⟩
  · exact of_kv rfl

theorem foldl_drainLeaf (ls : List Leaf) (s : State) : s.KeepsIndices (ls.foldl State.drainLeaf s) := by
  induction ls generalizing s with
  | nil => exact of_kv rfl
  | cons l ls ih => exact trans (drainLeaf s l) (ih _)

theorem padDense (s : State) : s.KeepsIndices { s with flash := s.flash.padDense } := of_kv rfl

/-- A journal entry changes only flash. -/
theorem journal (s t : State) (host : Bool) : t.KeepsIndices (s.journal t host) := of_kv rfl

theorem drainJournal {s t : State} {ok : Bool} (h : s.drainJournal = (t, ok)) : s.KeepsIndices t :=
  of_kv (by simpa [h] using drainJournal_kv s)

theorem settleBack (s : State) : s.KeepsIndices s.settleBack :=
  ⟨congrArg (List.map fun e => e.index) (settleBack_sameBuffer s).1, (KeepsTier.settleBack s).namespaces⟩

theorem drain (s : State) : s.KeepsIndices s.drain := by
  unfold State.drain
  extract_lets f es ls host t₀ t₁ t₂ data
  have hes : s.KeepsIndices (es.foldl State.drainExtent s) :=
    foldl _ es s (fun e he => List.mem_map_of_mem (List.mem_filter.mp he).1) fun t e _ h => drainExtent h
  have h₁ : s.KeepsIndices t₁ := trans (trans hes (foldl_drainLeaf ls _)) (padDense t₀)
  have h₂ : s.KeepsIndices t₂ := by
    unfold t₂
    split
    · exact h₁
    · exact trans h₁ (journal s t₁ true)
  clear_value t₂ data
  split
  next u ok h =>
    have h₄ := trans (trans h₂ (drainJournal h)) (of_kv (countUnits_kv u f (data + t₂.journalUnits true)))
    dsimp only
    split
    · exact trans h₄ (settleBack _)
    · exact h₄

theorem mapSettled (s : State) : s.KeepsIndices s.mapSettled := by
  unfold State.mapSettled
  split
  · exact of_kv rfl
  · exact drain s

theorem backUp (s : State) : s.KeepsIndices s.backUp := by
  unfold State.backUp
  split
  · exact of_kv rfl
  · exact ⟨rfl, rfl⟩

/-! ## Cleaning (R329 to R332) -/

theorem copyOut (es : List Extent) : ∀ {s t : State}, (∀ e ∈ es, e.index ∈ s.kv.extents.map fun e => e.index) →
    State.copyOut es s = some t → s.KeepsIndices t := by
  induction es with
  | nil => intro s t _ h; cases h; exact of_kv rfl
  | cons e es ih =>
    intro s t hes h
    unfold State.copyOut at h
    split at h
    · cases h
    · next band d u hu =>
      have hk : s.KeepsIndices (u.setExt { e with band := band, sector := d }) := by
        have hkv := diskWrite_kv hu
        exact trans (of_kv hkv) (setExt (hkv ▸ hes e List.mem_cons_self))
      exact trans hk (ih (fun x hx => hk.indices ▸ hes x (List.mem_cons_of_mem _ hx)) h)

theorem cleanBand (s : State) (b : Band) : s.KeepsIndices (s.cleanBand b) := by
  unfold State.cleanBand
  extract_lets s₀
  have hb : s.KeepsIndices s₀ := backUp s
  split
  · exact of_kv rfl
  · next t ht =>
    have hc : s₀.KeepsIndices t := copyOut _ (fun e he => by
      rw [hb.indices]
      exact List.mem_map_of_mem (List.mem_filter.mp (List.mem_filter.mp he).1).1) ht
    have hend : ∀ u : State, u.kv = t.kv → s.KeepsIndices (s₀.journal u false).mapSettled := fun u hu =>
      trans (trans hb (trans (trans hc (of_kv hu)) (journal s₀ u false))) (mapSettled _)
    split
    · exact trans (hend { t with rdc := t.rdc.setBand { b with state := .stale } } rfl) (of_kv (State.count_kv ..))
    · exact hend t rfl

theorem clean (s : State) : s.KeepsIndices s.clean := by
  unfold State.clean
  extract_lets t mand t' r t''
  have hfree : t.kv = s.kv := foldl_freeBand_kv _ s
  have ht : t'.kv = s.kv := by
    unfold t'
    split
    · exact (raise_kv ..).trans hfree
    · exact hfree
  have hkept : s.KeepsIndices t'' := of_kv ht
  split
  · split
    · exact trans hkept (cleanBand ..)
    · exact hkept
  · exact hkept

end State.KeepsIndices

end Sys2Proof.Machine
end

section
/-! PROOF. O54: spin-up, calibration, spin-down, motor polls and band cleaning (R301 to R303, R307, R321, R329, R330). -/

namespace Sys2Proof.Machine

open Sys2Proof

/-- A command that is a spin-up leaves the disk at speed, or counts an attempt, or fails the disk. -/
theorem exec_spins {s t : State} {c : Instr} {r : SpinResult} (he : exec c s = s.done (t.spinUp r))
    (ha : t.srv.attempts = s.srv.attempts) :
    (r.missedStep = none → ∃ u, exec c s = .next u ∧ u.srv.disk = 4 ∧ u.srv.attempts = 0 ∧ u.srv.tracks = r.tracks) ∧
    (∀ k, r.missedStep = some k →
      (s.srv.attempts + 1 < 3 → ∃ u, exec c s = .next u ∧ u.srv.disk = 0 ∧ u.srv.attempts = s.srv.attempts + 1 ∧
        .motFrame (motSpin 2) ∈ u.out) ∧
      (3 ≤ s.srv.attempts + 1 → ∃ u, exec c s = .next u ∧ u.srv.disk = 6 ∧ u.dev.spinning = false)) := by
  obtain ⟨u, hu, hshown⟩ := exists_next he
  rw [← ha]
  refine ⟨fun h => ⟨u, hu, ?_⟩, fun k h => ⟨fun hn => ⟨u, hu, ?_⟩, fun hn => ⟨u, hu, ?_⟩⟩⟩
  · rw [hshown.srv]
    exact spinUp_passes h
  · rw [hshown.srv, hshown.out]
    exact (spinUp_misses h).1 hn
  · rw [hshown.srv, hshown.dev]
    exact (spinUp_misses h).2 hn

theorem exec_fullCalibration {s : State} (hd : s.srv.disk = 4) (hf : s.srv.fullCal = false) (he : s.dev.entering = none)
    (hp : s.dev.phase = .service) (bad : List Nat) (cal : CalResult) :
    exec (.fullCalibration bad cal) s = s.done (s.stir.calibrate true bad cal) := by
  show s.done (if _ then _ else _) = _
  rw [if_pos ⟨hd, by rw [hf]; rfl, he, hp⟩]

theorem exec_spinDown_ends {s : State} (h : s.srv.disk = 5) :
    exec .spinDown s = .next { s with srv := { s.srv with disk := 0 } } := by
  show s.done (if s.srv.disk = 5 then _ else _) = _
  rw [if_pos h]
  rfl

theorem exec_spinDown {s : State} (h : s.srv.disk ≠ 5) : exec .spinDown s = s.done s.spinDown := by
  show s.done (if s.srv.disk = 5 then _ else _) = _
  rw [if_neg h]

theorem exec_motStatus {s : State} (hp : s.dev.phase = .service) (hh : s.cfg.hw.heads ≠ 0) (resp : Option (BitVec 40)) :
    exec (.motStatus resp) s = s.done ((s.emit (.motFrame motStatus)).motPoll (resp.bind motAnswer)) := by
  show s.done (if _ then _ else _) = _
  rw [if_pos ⟨hp, hh⟩]

theorem exec_bandCleaning {s : State} (h : s.Works .move s.rdc.cleanMand) : exec .bandCleaning s =
    s.done (if s.srv.disk = 4 ∧ s.rdc.formatted then s.stir.clean else s.stir) := by
  have hb : (s.background .move s.rdc.cleanMand fun s => if s.srv.disk = 4 ∧ s.rdc.formatted then s.clean else s) =
      if s.stir.srv.disk = 4 ∧ s.stir.rdc.formatted then s.stir.clean else s.stir := State.background_works h _
  obtain ⟨d, hs, -⟩ := s.stir_eq
  show s.done (s.background ..) = _
  rw [hb, show s.stir.srv = s.srv by rw [hs], show s.stir.rdc = s.rdc by rw [hs]]

/-- Settles O54: a spin-up and a retry are one step with its attempts counted; a calibration puts heads out one after another
and changes the rest of the servo alone; cleaning copies extents under their own indices. -/
theorem theDiskSpinsUpAndDown : Obligations.TheDiskSpinsUpAndDown := by
  unfold Obligations.TheDiskSpinsUpAndDown
  intro s r bad cal resp
  refine ⟨fun hd => ?_, fun hd h0 h3 hp hl hh => ?_, fun hd hf he hp => ?_, exec_spinDown_ends, fun hd => ?_, fun hd => ?_,
    fun hp hh => ⟨fun hg hn => ?_, fun hg hn => ?_, fun w hg hd => ?_⟩, fun hw => ⟨fun hd hf => ?_, fun hd => ?_⟩⟩
  · refine exec_spins (t := s) ?_ rfl
    show s.done (if s.srv.disk = 1 then s.spinUp r else s) = _
    rw [if_pos hd]
  · obtain ⟨t, ht, ha⟩ := spinRetry_spins hd hp hl hh r
    refine exec_spins (t := t) ?_ ha
    show s.done (if _ then s.spinRetry r else s) = _
    rw [if_pos ⟨hd, h0, h3⟩, ht]
  · obtain ⟨u, hu, hshown⟩ := exists_next (exec_fullCalibration hd hf he hp bad cal)
    have hc := calibrate_calibrated s.stir true bad cal
    obtain ⟨d, hs, -⟩ := s.stir_eq
    rw [hs] at hc hshown
    refine ⟨u, hu, ?_⟩
    rw [hshown.srv]
    exact ⟨(hc.done rfl).1, hc.disk.trans hd, (hc.done rfl).2, fun i hi g hg => hc.out i hi g (hshown.head i ▸ hg),
      hc.saved rfl⟩
  · obtain ⟨u, hu, hshown⟩ := exists_next (exec_spinDown (s := s) (by omega))
    refine ⟨u, hu, ?_⟩
    rw [hshown.srv, hshown.dev, hshown.out]
    exact spinDown_brakes hd
  · rw [exec_spinDown (by omega), spinDown_rests hd, State.done_self]
  · rw [exec_motStatus hp hh, hg, motPoll_counts (s := s.emit (.motFrame motStatus)) hn]
    rfl
  · obtain ⟨u, hu, hshown⟩ := exists_next (exec_motStatus hp hh resp)
    rw [hg] at hshown
    exact ⟨u, hu, (congrArg Srv.disk hshown.srv).trans (motPoll_fails hn)⟩
  · obtain ⟨u, hu, hshown⟩ := exists_next (exec_motStatus hp hh resp)
    rw [hg] at hshown
    refine ⟨u, hu, ?_⟩
    rw [hshown.srv]
    exact motPoll_period (s := s.emit (.motFrame motStatus)) hd w
  · have he := exec_bandCleaning hw
    rw [if_pos ⟨hd, hf⟩] at he
    obtain ⟨u, hu, hshown⟩ := exists_next he
    have hk := State.KeepsIndices.clean s.stir
    refine ⟨u, hu, ?_⟩
    rw [hshown.kv, ← s.stir_kv]
    exact ⟨hk.indices, hk.namespaces⟩
  · rw [exec_bandCleaning hw, if_neg fun h => hd h.1]
    exact Spares.done (Spares.stir s)

end Sys2Proof.Machine
end

section
/-! SUPPORT. How every command ends: a command answers a next state that spares the queue, the memories of the debug port
and the fuses, but for five commands that change one of these and say so, and one that may stop (R47, R377, R475, Table 15-1). -/

namespace Sys2Proof.Machine

open Sys2Proof

/-- The outcomes that a command can have: `done` for every one, and for six of them an outcome of their own. -/
inductive State.Ends (s : State) : Instr → Host.Outcome State Fault Refusal → Prop
  | done (c t) : s.Ends c (s.done t)
  | memory (a v t) : s.Ends (.dbgAccessWrite a v) (s.doneMem t (s.memAfter a v).1 (s.memAfter a v).2)
  | provision (x y t) : s.Ends (.keyProvision x y) (s.doneBlown t)
  | confirm (x y t) : s.Ends (.fwConfirm x y) (s.doneBlown t)
  | coldStart (f t) : s.Ends (.coldStart f) (s.doneStart t)
  | warmStart (f t) : s.Ends (.warmStart f) (s.doneStart t)
  | stop (d) : s.Ends (.voltageAlarm true d) (.fault .beyondAbsoluteMaximum)

theorem exec_voltageAlarm_ends (beyond d : Bool) (s : State) :
    s.Ends (.voltageAlarm beyond d) (exec (.voltageAlarm beyond d) s) := by
  show s.Ends _ (if s.dev.phase ≠ .unpowered ∧ beyond = true then _ else _)
  split
  · rename_i h
    rw [h.2]
    exact .stop d
  · exact .done _ _

theorem exec_coldStart_ends (f : StartFindings) (s : State) : s.Ends (.coldStart f) (exec (.coldStart f) s) := by
  show s.Ends _ (if s.dev.phase = .starting true then _ else _)
  split
  · exact .coldStart f _
  · exact .done _ _

theorem exec_warmStart_ends (f : StartFindings) (s : State) : s.Ends (.warmStart f) (exec (.warmStart f) s) := by
  show s.Ends _ (if s.dev.phase = .starting false then _ else if _ then _ else _)
  repeat' split
  · exact .warmStart f _
  · exact .warmStart f _
  · exact .done _ _

/-- Each of the 250 commands ends in one of these ways. -/
theorem exec_ends (c : Instr) (s : State) : s.Ends c (exec c s) := by
  cases c with
  | dbgAccessWrite a v => exact .memory a v _
  | keyProvision t ok => exact .provision t ok _
  | fwConfirm t r => exact .confirm t r _
  | coldStart f => exact exec_coldStart_ends f s
  | warmStart f => exact exec_warmStart_ends f s
  | voltageAlarm b d => exact exec_voltageAlarm_ends b d s
  | _ => exact .done _ _

/-- A write of the debug port keeps the canonical form of either memory (R475). -/
theorem State.memAfter_wf (s : State) (a : DbgAccess) (v : Word) (hs : s.sram.wf = true) (hd : s.dram.wf = true) :
    (s.memAfter a v).1.wf = true ∧ (s.memAfter a v).2.wf = true := by
  unfold State.memAfter
  dsimp only
  split
  · split
    · exact ⟨Memory.writeBytes_wf _ _ _ hs, hd⟩
    · split
      · exact ⟨hs, Memory.writeBytes_wf _ _ _ hd⟩
      · exact ⟨hs, hd⟩
  · exact ⟨hs, hd⟩

/-- A start blows KILL and the root together, and nothing comes back (R377). -/
theorem State.killFuses_fuses (s : State) : s.killFuses.key.fuses = s.key.fuses ∨
    s.killFuses.key.fuses = { s.key.fuses with kill := true, rootGone := true, root := List.replicate 32 0xFF } := by
  unfold State.killFuses
  split
  · exact .inr rfl
  · exact .inl rfl

end Sys2Proof.Machine
end

section
/-! PROOF. O1, O3, O5, O6, O7: what every step keeps. -/

namespace Sys2Proof.Machine

open Sys2Proof

/-- The queue of the state that a step leaves off from: without the command that it takes. -/
def State.taken (s : State) : State := { s with pending := s.pending.tail }

/-- A step is a command in the state without it, or an effect that spares queue, memories and fuses. -/
theorem step_cases (s : State) : step s = s.done (tick s) ∨ ∃ c, step s = exec c s.taken := by
  unfold step
  split
  · exact .inl rfl
  · rename_i c rest h
    refine .inr ⟨c, ?_⟩
    rw [State.taken, h, List.tail_cons]

/-- Settles O1: a step looks at the front of the queue. -/
theorem frontCommandRuns : Obligations.FrontCommandRuns := by
  unfold Obligations.FrontCommandRuns
  intro s c rest h
  rw [step, h]

/-- Settles O6: every way a command ends puts the queue back. -/
theorem commandsLeaveTheQueue : Obligations.CommandsLeaveTheQueue := by
  unfold Obligations.CommandsLeaveTheQueue
  intro c s t h
  have he := exec_ends c s
  rw [h] at he
  cases he <;> rfl

/-- The memories of a start: as before, or empty after a self-test. -/
theorem Memory.left_wf {old new : Memory} (h : old.wf = true) : (if new.isEmpty then [] else old : Memory).wf = true := by
  split
  · rfl
  · exact h

theorem exec_keeps {c : Instr} {s t : State} (hs : s.Kept) (h : exec c s = .next t) : t.Kept := by
  obtain ⟨hsram, hdram, hkill⟩ := hs
  have he := exec_ends c s
  rw [h] at he
  cases he with
  | done | provision | confirm => exact ⟨hsram, hdram, hkill⟩
  | memory a v t => exact ⟨(s.memAfter_wf a v hsram hdram).1, (s.memAfter_wf a v hsram hdram).2, hkill⟩
  | coldStart | warmStart =>
    refine ⟨Memory.left_wf hsram, Memory.left_wf hdram, ?_⟩
    obtain hf | hf := s.killFuses_fuses
    · simpa only [hf] using hkill
    · simp only [hf, implies_true]

/-- Settles O3: the way each command ends keeps the memories canonical, and KILL is blown only with the root. -/
theorem everyStepKeepsTheStateSound : Obligations.EveryStepKeepsTheStateSound := by
  unfold Obligations.EveryStepKeepsTheStateSound
  intro s t hs h
  obtain ht | ⟨c, hc⟩ := step_cases s
  · cases ht.symm.trans h
    exact hs
  · exact exec_keeps (s := s.taken) hs (hc.symm.trans h)

theorem Fuses.stayBlown_refl (a : Fuses) : a.stayBlown a := ⟨id, id, id, Nat.le_refl _, rfl⟩

theorem Fuses.stayBlown_blown (a b : Fuses) : a.stayBlown (a.blown b) :=
  ⟨id, id, fun h => Bool.or_eq_true_iff.2 (.inl h), Nat.le_max_left .., rfl⟩

theorem exec_staysBlown {c : Instr} {s t : State} (h : exec c s = .next t) : s.key.fuses.stayBlown t.key.fuses := by
  have he := exec_ends c s
  rw [h] at he
  cases he with
  | done | memory => exact Fuses.stayBlown_refl _
  | provision | confirm => exact Fuses.stayBlown_blown _ _
  | coldStart | warmStart =>
    obtain hf | hf := s.killFuses_fuses
    · exact ⟨fun h => hf ▸ h, fun h => hf ▸ h, fun h => hf ▸ h, Nat.le_max_left .., by rw [hf]⟩
    · exact ⟨fun _ => by rw [hf], fun _ => by rw [hf], fun h => hf ▸ h, Nat.le_max_left .., by rw [hf]⟩

/-- Settles O5: the few commands that change fuses only blow more of them. -/
theorem noStepUnblowsAFuse : Obligations.NoStepUnblowsAFuse := by
  unfold Obligations.NoStepUnblowsAFuse
  intro s t h
  obtain ht | ⟨c, hc⟩ := step_cases s
  · cases ht.symm.trans h
    exact Fuses.stayBlown_refl _
  · exact exec_staysBlown (s := s.taken) (hc.symm.trans h)

/-- Settles O7: the commands that end otherwise than `done` are those that the statement excepts. -/
theorem onlyTheDebugPortWritesItsMemories : Obligations.OnlyTheDebugPortWritesItsMemories := by
  unfold Obligations.OnlyTheDebugPortWritesItsMemories
  intro c s t h
  have he := exec_ends c s
  rw [h] at he
  cases he with
  | done => exact ⟨fun _ _ _ _ => ⟨rfl, rfl⟩, fun _ _ _ _ => rfl⟩
  | memory a v => exact ⟨fun hc => absurd rfl (hc a v), fun _ _ _ _ => rfl⟩
  | provision x y => exact ⟨fun _ _ _ _ => ⟨rfl, rfl⟩, fun hc => absurd rfl (hc x y)⟩
  | confirm x y => exact ⟨fun _ _ _ _ => ⟨rfl, rfl⟩, fun _ hc => absurd rfl (hc x y)⟩
  | coldStart f => exact ⟨fun _ hc => absurd rfl (hc f), fun _ _ hc => absurd rfl (hc f)⟩
  | warmStart f => exact ⟨fun _ _ hc => absurd rfl (hc f), fun _ _ _ hc => absurd rfl (hc f)⟩

end Sys2Proof.Machine
end

section
/-! PROOF. O9: a byte written to a memory of the debug port reads back (R475, Table 20-5). -/

namespace Sys2Proof.Machine

open Sys2Proof

/-- What a listed table reads: its first entry, the default below it, and the rest above. -/
theorem SMap.get_cons_self {α : Type} (d : Nat → α) (a : Nat) (v : α) (t : SMap α) : SMap.get d ((a, v) :: t) a = v :=
  if_pos rfl

theorem SMap.get_cons_below {α : Type} (d : Nat → α) {a k : Nat} (v : α) (t : SMap α) (h : k < a) :
    SMap.get d ((a, v) :: t) k = d k := by
  rw [SMap.get, if_neg (by omega), if_pos h]

theorem SMap.get_cons_above {α : Type} (d : Nat → α) {a k : Nat} (v : α) (t : SMap α) (h : a < k) :
    SMap.get d ((a, v) :: t) k = SMap.get d t k := by
  rw [SMap.get, if_neg (by omega), if_neg (by omega)]

theorem SMap.wfFrom_cons {α : Type} [DecidableEq α] {d : Nat → α} {lo a : Nat} {v : α} {t : SMap α}
    (h : SMap.wfFrom d lo ((a, v) :: t) = true) : v ≠ d a ∧ SMap.wfFrom d (a + 1) t = true := by
  simp only [SMap.wfFrom, Bool.and_eq_true, decide_eq_true_eq] at h
  exact ⟨h.1.2, h.2⟩

/-- Canonical tables are equal where they read alike: their first entries have one key, since a listed entry is never its
default. -/
theorem SMap.ext_get {α : Type} [DecidableEq α] (d : Nat → α) (m : SMap α) : ∀ (n : SMap α) (lo lo' : Nat),
    SMap.wfFrom d lo m = true → SMap.wfFrom d lo' n = true → (∀ k, SMap.get d m k = SMap.get d n k) → m = n := by
  induction m with
  | nil =>
    intro n lo lo' _ hn h
    cases n with
    | nil => rfl
    | cons q n =>
      obtain ⟨b, w⟩ := q
      exact absurd ((SMap.get_cons_self d b w n).symm.trans (h b).symm) (SMap.wfFrom_cons hn).1
  | cons p t ih =>
    obtain ⟨a, v⟩ := p
    intro n lo lo' hm hn h
    obtain ⟨hv, ht⟩ := SMap.wfFrom_cons hm
    have hav := SMap.get_cons_self d a v t
    cases n with
    | nil => exact absurd (hav.symm.trans (h a)) hv
    | cons q n =>
      obtain ⟨b, w⟩ := q
      obtain ⟨hw, hn'⟩ := SMap.wfFrom_cons hn
      have hbw := SMap.get_cons_self d b w n
      obtain hab | hab | hab := Nat.lt_trichotomy a b
      · exact absurd (hav.symm.trans ((h a).trans (SMap.get_cons_below d w n hab))) hv
      · subst hab
        have hvw : v = w := hav.symm.trans ((h a).trans hbw)
        have htail : t = n := by
          refine ih n (a + 1) (a + 1) ht hn' fun k => ?_
          by_cases hk : a < k
          · rw [← SMap.get_cons_above d v t hk, h k, SMap.get_cons_above d w n hk]
          · rw [SMap.get_below d (by omega) ht, SMap.get_below d (by omega) hn']
        rw [hvw, htail]
      · exact absurd (hbw.symm.trans ((h b).symm.trans (SMap.get_cons_below d v t hab))) hw

/-- Settles O9: the laws of a sparse table, of bytes. -/
theorem memoryCellsReadBack : Obligations.MemoryCellsReadBack := by
  unfold Obligations.MemoryCellsReadBack
  intro m hm
  refine ⟨fun a b => ⟨Memory.write_wf m a b hm, ?_, fun x hx => ?_⟩,
    fun a bs => ⟨Memory.writeBytes_wf bs m a hm, fun x hx => Memory.read_writeBytes_outside bs m a x hm hx⟩,
    fun m' hm' h => SMap.ext_get memDefault m' m 0 0 hm' hm h⟩
  · rw [Memory.read_write m a a b hm, if_pos rfl]
  · rw [Memory.read_write m a x b hm, if_neg hx]

end Sys2Proof.Machine
end

section
/-! PROOF. O4: the state after reset (Table 03-11, Table 04-11, R377). -/

namespace Sys2Proof.Machine

open Sys2Proof

/-- Settles O4: the reset state is concrete, with every register word at its Reset value. -/
theorem resetStateIsSound : Obligations.ResetStateIsSound := by
  unfold Obligations.ResetStateIsSound
  have hlinks : ∀ l ∈ State.reset.fab.links, l.state = 0 := by decide
  exact ⟨⟨rfl, rfl, id⟩, rfl, rfl, rfl, rfl, rfl, rfl, fun _ => rfl, rfl, rfl, rfl, rfl, rfl, hlinks, rfl, fun _ => rfl⟩

end Sys2Proof.Machine
end

section
/-! SUPPORT. Commands that end in an answer: whatever the completion, beside the effect before it only what an answer
changes differs (R165). -/

namespace Sys2Proof.Machine

open Sys2Proof

/-- What only an answer may change can as well have changed before the answer. -/
theorem AnswerFrame.of_answering {s m u : State} {e : TagEntry} (hm : s.Answering m) (h : m.AnswerFrame e u) :
    s.AnswerFrame e u := by
  obtain ⟨n, hn, h⟩ := h
  exact ⟨n, Answering.trans (Answering.dropEarly (fun t => t == e.id) hm) hn, h⟩

section
variable {s m : State} (h : s.Spares m) (e : TagEntry)
include h

/-- A command that takes the state to `m` and is answered there, with any completion. -/
theorem done_post (c : Completion) :
    ∃ u, s.done (m.post e.started c) = .next u ∧ u.Answers e c ∧ m.AnswerFrame e u :=
  ⟨_, Spares.done (Spares.trans h (Spares.of_answerKeeps (AnswerKeeps.post m e.started c))),
    post_answers m e.started c, AnswerFrame.post m e.started c⟩

theorem done_finish (st : Nat) (p : Bytes) :
    ∃ u, s.done (m.finish e.started st p) = .next u ∧ u.Answers e (doneWith st e.asn p) ∧ m.AnswerFrame e u :=
  done_post h e _

end

theorem Spares.begun (s : State) (e : TagEntry) : s.Spares (s.begun e) := ⟨rfl, rfl, rfl, rfl⟩

/-- A command that is answered as it begins changes only what an answer changes. -/
theorem done_post_begun (s : State) (e : TagEntry) (c : Completion) :
    ∃ u, s.done ((s.begun e).post e.started c) = .next u ∧ u.Answers e c ∧ s.AnswerFrame e u := by
  obtain ⟨u, hu, ha, hf⟩ := done_post (Spares.begun s e) e c
  exact ⟨u, hu, ha, AnswerFrame.of_begun hf⟩

end Sys2Proof.Machine
end

section
/-! PROOF. O24: TIME_ADVANCE (R393). -/

namespace Sys2Proof.Machine

open Sys2Proof

theorem exec_timeAdvance {s : State} {t : TagId} {e : TagEntry} (h : s.Starts t 0x52 e) :
    exec (.timeAdvance t) s = s.done (timeAdvanceBody e.started (s.begun e)) :=
  congrArg s.done (runCmd_starts h timeAdvanceBody)

/-- What an advance changes: device time, registers and the log. -/
theorem State.advanceTime_eq (s : State) (target : Nat) : ∃ r l, s.advanceTime target =
    { s with regs := r, log := l, sea := { s.sea with
        time := target, saved := target, savedAdv := 0, advHours := 0, advMade := true,
        advTotal := s.sea.advTotal + (target - s.sea.time) } } := by
  unfold State.advanceTime
  dsimp only
  generalize ht : ({ s with sea := _ } : State) = t
  obtain ⟨r, l, h⟩ := t.raise_eq Ev.SEA.TIME_ADVANCED
  obtain ⟨r', l', h'⟩ := State.note_eq (t.raise Ev.SEA.TIME_ADVANCED) 0x0F 0x83 0 s.sea.time
  rw [h', h, ← ht]
  exact ⟨r', l', rfl⟩

/-- Settles O24: the body's conditions in their order; only the last of them advances. -/
theorem timeIsAdvancedOnlyForwardAndBounded : Obligations.TimeIsAdvancedOnlyForwardAndBounded := by
  unfold Obligations.TimeIsAdvancedOnlyForwardAndBounded
  intro s t e h
  have hfail := fun st p => done_post_begun s e (doneWith st e.asn p)
  have hbody : timeAdvanceBody e.started (s.begun e) =
      if beAt e.msg.param 0 8 < s.sea.time ∨ s.sea.time + 2592000 < beAt e.msg.param 0 8 then
        (s.begun e).finish e.started stBadField (beBytes 8 s.sea.time)
      else if beAt e.msg.param 0 8 = s.sea.time then (s.begun e).finish e.started stOK (beBytes 8 s.sea.time)
      else if !s.advOk then (s.begun e).finish e.started stNotPermitted (beBytes 8 s.sea.time)
      else if s.flash.readOnly then (s.begun e).finish e.started stWorn (beBytes 8 s.sea.time)
      else ((s.begun e).advanceTime (beAt e.msg.param 0 8)).finish e.started stOK (beBytes 8 (beAt e.msg.param 0 8)) := rfl
  simp only [exec_timeAdvance h, hbody]
  refine ⟨fun hr => ?_, fun hn => ?_, fun hlo hhi => ⟨fun ha => ?_, fun ha hw => ?_, fun ha hw => ?_⟩⟩
  · rw [if_pos hr]
    exact hfail ..
  · rw [if_neg (by omega), if_pos hn]
    exact hfail ..
  · rw [if_neg (by omega), if_neg (by omega), ha, if_pos (by decide)]
    exact hfail ..
  · rw [if_neg (by omega), if_neg (by omega), ha, if_neg (by decide), if_pos hw]
    exact hfail ..
  · rw [if_neg (by omega), if_neg (by omega), ha, if_neg (by decide), hw, if_neg (by decide)]
    obtain ⟨r, l, hadv⟩ := (s.begun e).advanceTime_eq (beAt e.msg.param 0 8)
    rw [hadv]
    obtain ⟨u, hu, hans, hf⟩ := done_finish (s := s) (m := { s.begun e with
      regs := r, log := l, sea := { s.sea with
        time := beAt e.msg.param 0 8, saved := beAt e.msg.param 0 8, savedAdv := 0, advHours := 0, advMade := true,
        advTotal := s.sea.advTotal + (beAt e.msg.param 0 8 - s.sea.time) } }) ⟨rfl, rfl, rfl, rfl⟩ e stOK
      (beBytes 8 (beAt e.msg.param 0 8))
    exact ⟨u, _, hu, hans, hf, rfl, rfl, rfl⟩

end Sys2Proof.Machine
end

section
/-! PROOF. O27: the entropy source and the DRBG (R347, R348). -/

namespace Sys2Proof.Machine

open Sys2Proof

theorem done_next {s t : State} (h : s.Spares t) : s.done t = .next t := Spares.done h

/-- An event leaves the crypto complex and the key store alone. -/
theorem raiseWith_cry_key (s : State) (e : Event) (i : Nat) (f : Bool) (st d : Nat) :
    (s.raiseWith e i f st d).cry = s.cry ∧ (s.raiseWith e i f st d).key = s.key := by
  obtain ⟨r, l, h⟩ := s.raiseWith_eq e i f st d
  rw [h]
  exact ⟨rfl, rfl⟩

/-- A DRBG that stops changes its state alone, beside registers and the log (R348). -/
theorem State.stopDrbg_eq (s : State) : ∃ r l, s.stopDrbg = { s with cry := { s.cry with drbg := 3 }, regs := r, log := l } :=
  State.report_eq { s with cry := { s.cry with drbg := 3 } } Ev.CRY.DRBG_STOPPED stEntropy

theorem exec_drbgReseed (s : State) : exec .drbgReseed s =
    s.done (if s.cry.drbg = 0 ∨ s.cry.drbg = 3 then s
      else if s.cry.esOk then { s with cry := { s.cry with drbg := 1 } } else s.stopDrbg) := rfl

/-- Settles O27: the third failure within 60 s is the one that the list of recent failures counts. -/
theorem entropyFailuresStopTheDrbg : Obligations.EntropyFailuresStopTheDrbg := by
  unfold Obligations.EntropyFailuresStopTheDrbg
  intro s recent
  have hfail : exec .esHealthFail s = s.done (if !s.cry.esOk then s
      else if 3 ≤ recent.length then
        ({ s with cry := { s.cry with esFails := recent, esOk := false, drbg := if s.cry.drbg = 1 then 2 else s.cry.drbg } } :
          State).raise Ev.CRY.ENTROPY_FAIL
      else ({ s with cry := { s.cry with esFails := recent } } : State).count Reg.CRY_DRBG.ES_RESTARTS 1) := rfl
  rw [hfail]
  refine ⟨fun ho => ?_, fun ho h3 => ?_, fun ho h3 => ?_, fun hd => ?_, fun hd => ⟨fun ho => ?_, fun ho => ?_⟩⟩
  · rw [ho, if_pos (by decide), State.done_self]
  · rw [ho, if_neg (by decide), if_pos h3]
    generalize ht : ({ s with cry := _ } : State) = t
    have hst : s.Spares t := by rw [← ht]; exact ⟨rfl, rfl, rfl, rfl⟩
    obtain ⟨hc, hk⟩ := raiseWith_cry_key t Ev.CRY.ENTROPY_FAIL 0 false 0 0
    refine ⟨_, Spares.done (Spares.trans hst (Spares.raise ..)), hc.trans ?_, hk.trans ?_⟩
    · rw [← ht]
    · rw [← ht]
  · rw [ho, if_neg (by decide), if_neg (by omega)]
    rfl
  · rw [exec_drbgReseed, if_pos hd, State.done_self]
  · rw [exec_drbgReseed, if_neg (by omega), ho, if_pos rfl]
    rfl
  · obtain ⟨r, l, h⟩ := s.stopDrbg_eq
    rw [exec_drbgReseed, if_neg (by omega), ho, if_neg Bool.false_ne_true, h]
    exact ⟨_, rfl, rfl, rfl⟩

end Sys2Proof.Machine
end

section
/-! PROOF. O34: events like the newest record are merged, others and notes are recorded (R463, R464). -/

namespace Sys2Proof.Machine

open Sys2Proof

theorem Log.push_nextSeq (l : Log) (v : Bool) (r : LogRec) : (l.push v r).1.nextSeq = l.nextSeq + 1 := by
  unfold Log.push
  split <;> rfl

/-- A record takes the next sequence number; what it wraps or drops may take more. -/
theorem State.logRecord_nextSeq (s : State) (b i k : Nat) (en f : Bool) (st d : Nat) :
    s.log.nextSeq < (s.logRecord b i k en f st d).log.nextSeq := by
  unfold State.logRecord
  extract_lets mk page note p vol t u
  have hnote : ∀ (v : State) n, v.log.nextSeq ≤ (note v n).log.nextSeq := by
    intro v n
    unfold note
    extract_lets w r
    split
    · exact Nat.le_refl _
    · exact Nat.le_of_lt (Nat.lt_of_lt_of_eq (Nat.lt_succ_self _) (Log.push_nextSeq ..).symm)
  have ht : s.log.nextSeq < t.log.nextSeq := Nat.lt_of_lt_of_eq (Nat.lt_succ_self _) (Log.push_nextSeq ..).symm
  have hu : s.log.nextSeq < u.log.nextSeq := by
    unfold u
    split
    · exact Nat.lt_of_lt_of_le ht (hnote ..)
    · exact ht
  split
  · exact Nat.lt_of_lt_of_le hu (hnote ..)
  · exact hu

/-- What an implemented event does to the log, told from the log before it: the newest record is repeated, or one is made. -/
theorem State.raiseWith_log (s : State) (e : Event) (i st d : Nat) (f : Bool) (hm : bitOf (evtMask e.block e.inst) e.bit = true) :
    (∃ r, s.log.newest = some r ∧ (r.block = e.block ∧ r.inst = e.instNo i ∧ r.bit = e.bit ∧ s.dev.clockMs ≤ r.madeMs + 10) ∧
      (s.raiseWith e i f st d).log = s.log.repeat r.seq) ∨
    ((∀ r, s.log.newest = some r →
        ¬ (r.block = e.block ∧ r.inst = e.instNo i ∧ r.bit = e.bit ∧ s.dev.clockMs ≤ r.madeMs + 10)) ∧
      s.log.nextSeq < (s.raiseWith e i f st d).log.nextSeq) := by
  unfold State.raiseWith
  extract_lets base t
  rw [if_pos hm]
  have hmade : ∀ b n k en, s.log.nextSeq < (t.logRecord b n k en f st d).log.nextSeq := fun b n k en =>
    State.logRecord_nextSeq t b n k en f st d
  split
  · rename_i r hr
    split
    · rename_i h
      exact .inl ⟨r, hr, h, rfl⟩
    · rename_i h
      refine .inr ⟨fun r' hr' => ?_, hmade ..⟩
      cases hr.symm.trans hr'
      exact h
  · rename_i hr
    exact .inr ⟨fun r h => (nomatch hr.symm.trans h), hmade ..⟩

/-- Settles O34: an implemented event that matches the newest record repeats it, and any other makes a record. -/
theorem repeatedEventsRaiseTheNewestRecord : Obligations.RepeatedEventsRaiseTheNewestRecord := by
  unfold Obligations.RepeatedEventsRaiseTheNewestRecord
  intro s e i st d f hm
  refine ⟨fun r hr hb hi hk hms => ?_, fun hne => ?_, fun b c => State.logRecord_nextSeq ..⟩
  · obtain ⟨r', hr', -, hlog⟩ | ⟨hne, -⟩ := s.raiseWith_log e i st d f hm
    · cases hr.symm.trans hr'
      rw [hlog]
      exact ⟨rfl, by simp only [Log.held, Log.repeat, satAdd, List.map_append]; rfl⟩
    · exact absurd ⟨hb, hi, hk, hms⟩ (hne r hr)
  · obtain ⟨r, hr, h, -⟩ | ⟨-, hlt⟩ := s.raiseWith_log e i st d f hm
    · exact absurd h (hne r hr)
    · exact hlt

end Sys2Proof.Machine
end

section
/-! PROOF. O48: alarms (R374 to R377). -/

namespace Sys2Proof.Machine

open Sys2Proof

/-- An alarm's reset leaves an ALARM cold start about to run, with no live key, no DRBG and no session (R375). -/
theorem State.alarmReset_erases (s : State) (src : Nat) (d : Bool) : ∃ u, s.alarmReset src d = u ∧
    u.dev.phase = .starting true ∧ u.dev.kind = .alarm ∧ u.dev.alarmSrc = src ∧ u.key.slots = [] ∧ u.cry.drbg = 0 ∧
    u.key.killPending = s.key.killPending ∧ u.sessions = [] ∧ u.key.envCount = s.key.envCount := by
  obtain ⟨t, ht, hk⟩ := s.alarmReset_eq src d
  refine ⟨_, ht, rfl, rfl, rfl, rfl, rfl, ?_, rfl, ?_⟩
  · rw [State.beginReset_key, hk]
  · rw [State.beginReset_key, hk]

/-- An environmental alarm is an alarm's reset with its count one higher, and an intrusion's where the count reaches 16
(R376). -/
theorem State.envAlarm_eq (s : State) (src : Nat) (d : Bool) : ∃ t : State,
    s.envAlarm src d = t.alarmReset (if s.key.envCount = 15 then 5 else src) d ∧
    t.key.killPending = (s.key.killPending || decide (s.key.envCount = 15)) ∧
    t.key.envCount = min 16 (s.key.envCount + 1) := by
  unfold State.envAlarm
  dsimp only
  rw [show (if decide (s.key.envCount = 15) = true then 5 else src) = if s.key.envCount = 15 then 5 else src by simp]
  exact ⟨_, rfl, rfl, rfl⟩

/-- Settles O48: each alarm is the alarm's reset after its count and its kill flag. -/
theorem alarmsEraseTheKeys : Obligations.AlarmsEraseTheKeys := by
  unfold Obligations.AlarmsEraseTheKeys
  intro s d hp erased env
  have hreset : ∀ (c : Instr) (t : State) (src : Nat) (kill : Bool), exec c s = s.done (t.alarmReset src d) →
      t.key.killPending = kill → (t.key.envCount = if src = 4 then s.key.envCount else min 16 (s.key.envCount + 1)) →
      erased c src kill := by
    intro c t src kill hc hk hn
    obtain ⟨u, hu, h1, h2, h3, h4, h5, h6, h7, h8⟩ := t.alarmReset_erases src d
    rw [hu] at hc
    exact ⟨_, hc, h1, h2, h3, h4, h5, h6.trans hk, h7, h8.trans hn⟩
  have henv : ∀ (c : Instr) (src : Nat), src ≠ 4 → exec c s = s.done (s.envAlarm src d) → env c src := by
    intro c src hs hc
    obtain ⟨t, ht, hk, hn⟩ := s.envAlarm_eq src d
    rw [ht] at hc
    refine ⟨fun hne => ?_, fun heq => ?_⟩
    · rw [if_neg hne] at hc
      exact hreset c t src _ hc (by rw [hk, decide_eq_false hne, Bool.or_false]) (by rw [hn, if_neg hs])
    · rw [if_pos heq] at hc
      exact hreset c t 5 _ hc (by rw [hk, decide_eq_true heq, Bool.or_true]) (by rw [hn, if_neg (by decide)])
  have hphase : s.dev.phase ≠ .unpowered := by
    intro h
    unfold State.powered at hp
    rw [h] at hp
    cases hp
  refine ⟨henv _ 2 (by decide) ?_, henv _ 3 (by decide) ?_, fun hg => henv _ 1 (by decide) ?_, ?_, fun t ht hph => ?_, ?_, ?_⟩
  · exact congrArg s.done (if_pos hp)
  · exact congrArg s.done (if_pos hp)
  · have hgoes : s.powerGoes = false := by
      unfold State.powerGoes
      rw [Bool.and_eq_false_iff, decide_eq_false_iff_not]
      by_cases h1 : s.dev.phase = .drained true
      · exact .inr (by simpa using fun h2 => hg ⟨h1, h2⟩)
      · exact .inl h1
    show (if s.dev.phase ≠ .unpowered ∧ false = true then _ else s.done (if s.powered && !s.powerGoes then _ else _)) = _
    rw [if_neg (by simp), hp, hgoes, if_pos (by decide)]
  · refine hreset _ { s with key := { s.key with killPending := true } } 4 true ?_ rfl rfl
    show s.done (if s.dev.phase = .unpowered then s else if s.powered then _ else _) = _
    rw [if_neg hphase, if_pos hp]
  · show t.done (if t.dev.phase = .unpowered then t else if t.powered then _ else _) = _
    rw [if_neg hph, if_neg (by rw [ht]; exact Bool.false_ne_true)]
    rfl
  · exact if_pos ⟨hphase, rfl⟩
  · show s.done (if s.powered then _ else _) = _
    rw [if_pos hp]
    rfl

end Sys2Proof.Machine
end

section
/-! SUPPORT. What the work of the cipher cores takes: counters of the key store, registers and the log, and nothing of the
fabric but the next MSG_ID (R335, R343 to R345, R412). -/

namespace Sys2Proof.Machine

open Sys2Proof

/-- Only what enciphering may change differs: registers, the log, and the key store's slots and counters. -/
def State.Enciphers (s u : State) : Prop := ∃ r l k, u = { s with regs := r, log := l, key := k } ∧ k.fuses = s.key.fuses

namespace Enciphers

theorem refl (s : State) : s.Enciphers s := ⟨s.regs, s.log, s.key, rfl, rfl⟩

theorem trans {s t u : State} (h : s.Enciphers t) (k : t.Enciphers u) : s.Enciphers u := by
  obtain ⟨r, l, x, rfl, hx⟩ := h
  obtain ⟨r', l', x', rfl, hx'⟩ := k
  exact ⟨r', l', x', rfl, hx'.trans hx⟩

theorem of_pair {α : Type} {x : α × State} {a : α} {s t : State} (h : x = (a, t)) (hx : s.Enciphers x.2) : s.Enciphers t := by
  rw [h] at hx; exact hx

theorem count64 (s : State) (lo hi : Field) (i n : Nat) : s.Enciphers (s.count64 lo hi i n) := ⟨_, s.log, s.key, rfl, rfl⟩

theorem cipher (s : State) (c n : Nat) : s.Enciphers (s.cipher c n) := by
  unfold State.cipher
  split
  · exact count64 ..
  · exact refl s

theorem reserve (s : State) (i : Nat) : s.Enciphers (s.reserve i) := ⟨_, s.log, _, rfl, rfl⟩

theorem disableEnc (s : State) (i : Nat) : s.Enciphers (s.disableEnc i) := by
  obtain ⟨r, l, h⟩ := State.report_eq (s.commitSlot i { s.slot i with attr := (s.slot i).attr ||| 0x800 })
    Ev.CRY.NONCE_EXHAUSTED stNonce
  exact ⟨r, l, _, h, rfl⟩

theorem nonce (s : State) (i : Nat) : s.Enciphers (s.nonce i).2 := by
  unfold State.nonce
  extract_lets c
  split
  · exact refl s
  · split
    · exact refl s
    · rename_i t iv key u v _ _
      have ht : s.Enciphers t := by
        unfold t; split
        · exact reserve ..
        · exact refl s
      have hu : s.Enciphers u := trans ht ⟨t.regs, t.log, _, rfl, rfl⟩
      have hv : s.Enciphers v := by
        unfold v; split
        · exact trans hu (reserve ..)
        · exact hu
      dsimp only
      split
      · exact trans hv (disableEnc ..)
      · exact hv

theorem sealFrame (s : State) (key : Bytes) (f : FabFrame) : s.Enciphers (s.sealFrame key f).2 := by
  unfold State.sealFrame
  split
  · rename_i h; exact of_pair h (nonce ..)
  · rename_i h; exact trans (of_pair h (nonce ..)) (cipher ..)

theorem sealFrames (key : Bytes) (fs : List FabFrame) (s : State) : s.Enciphers (sealFrames key fs s).2 := by
  induction fs generalizing s with
  | nil => exact refl s
  | cons f fs ih =>
    unfold Machine.sealFrames
    split
    · rename_i h; exact of_pair h (sealFrame ..)
    · rename_i h; exact trans (of_pair h (sealFrame ..)) (ih _)

/-- Making up a message takes the next MSG_ID of the fabric's state and nothing else of it (R412). -/
theorem makeFrames (s : State) (dest : FrameTo) (body : Bytes) :
    ({ s with fab := { s.fab with nextMsg := s.fab.nextMsg + 1 } } : State).Enciphers (s.makeFrames dest body).2 := by
  unfold State.makeFrames
  dsimp only
  repeat' split
  · exact refl _
  · exact refl _
  · exact refl _
  · exact sealFrames ..

end Enciphers

theorem makeFrames_fab (s : State) (dest : FrameTo) (body : Bytes) :
    (s.makeFrames dest body).2.fab = { s.fab with nextMsg := s.fab.nextMsg + 1 } := by
  obtain ⟨r, l, k, h, -⟩ := Enciphers.makeFrames s dest body
  rw [h]

end Sys2Proof.Machine
end

section
/-! SUPPORT. What answers and the ends of sessions leave of every part of the device: beside registers, the log, the tag table,
sessions and outputs, only names of tags, pages of the host crypto service, STAMPED horizons and the frames of a response
may change (R124, R152, R165, R412). -/

namespace Sys2Proof.Machine

open Sys2Proof

/-- A namespace but for the stamps that the end of a session lapses (R180). -/
def Ns.lasting (n : Ns) : Ns := { n with latest := [], horizon := 0 }

/-- What lasts through answers and the ends of sessions. -/
structure State.Outlasts (s u : State) : Prop where
  dev : u.dev = { s.dev with enterTags := u.dev.enterTags, resetWaiter := u.dev.resetWaiter,
                             routerQuiet := u.dev.routerQuiet }
  ports : u.ports = s.ports
  namespaces : u.kv.namespaces.map Ns.lasting = s.kv.namespaces.map Ns.lasting
  cam : u.cam = s.cam
  pat : u.pat = s.pat
  srv : u.srv = s.srv
  rdc : u.rdc = s.rdc
  cry : u.cry = { s.cry with pages := u.cry.pages }
  fuses : u.key.fuses = s.key.fuses
  sea : u.sea = s.sea
  fab : u.fab = { s.fab with nextMsg := u.fab.nextMsg, inject := u.fab.inject, outMsgs := u.fab.outMsgs,
                             sources := u.fab.sources }
  msgIds : u.fab.outMsgs.map OutMsg.msgId = s.fab.outMsgs.map OutMsg.msgId
  fw : u.fw = { s.fw with activating := u.fw.activating }
  dbg : u.dbg = s.dbg
  mctp : u.mctp = s.mctp
  sram : u.sram = s.sram
  dram : u.dram = s.dram
  free : u.free = s.free
  pending : u.pending = s.pending

namespace Outlasts

theorem refl (s : State) : s.Outlasts s :=
  ⟨rfl, rfl, rfl, rfl, rfl, rfl, rfl, rfl, rfl, rfl, rfl, rfl, rfl, rfl, rfl, rfl, rfl, rfl, rfl⟩

theorem trans {s t u : State} (h : s.Outlasts t) (k : t.Outlasts u) : s.Outlasts u where
  dev := k.dev.trans (by rw [h.dev])
  ports := k.ports.trans h.ports
  namespaces := k.namespaces.trans h.namespaces
  cam := k.cam.trans h.cam
  pat := k.pat.trans h.pat
  srv := k.srv.trans h.srv
  rdc := k.rdc.trans h.rdc
  cry := k.cry.trans (by rw [h.cry])
  fuses := k.fuses.trans h.fuses
  sea := k.sea.trans h.sea
  fab := k.fab.trans (by rw [h.fab])
  msgIds := k.msgIds.trans h.msgIds
  fw := k.fw.trans (by rw [h.fw])
  dbg := k.dbg.trans h.dbg
  mctp := k.mctp.trans h.mctp
  sram := k.sram.trans h.sram
  dram := k.dram.trans h.dram
  free := k.free.trans h.free
  pending := k.pending.trans h.pending

theorem of_answering {s u : State} (h : s.Answering u) : s.Outlasts u := by
  obtain ⟨r, l, cm, ss, o, q, rfl⟩ := h
  exact ⟨rfl, rfl, rfl, rfl, rfl, rfl, rfl, rfl, rfl, rfl, rfl, rfl, rfl, rfl, rfl, rfl, rfl, rfl, rfl⟩

theorem spares {s u : State} (h : s.Outlasts u) : s.Spares u := ⟨h.pending, h.sram, h.dram, h.fuses⟩

theorem done {s u : State} (h : s.Outlasts u) : s.done u = .next u := Spares.done (spares h)

/-! ## The fabric's responses -/

theorem of_enciphers {s u : State} (h : s.Enciphers u) : s.Outlasts u := by
  obtain ⟨r, l, k, rfl, hk⟩ := h
  exact ⟨rfl, rfl, rfl, rfl, rfl, rfl, rfl, rfl, hk, rfl, rfl, rfl, rfl, rfl, rfl, rfl, rfl, rfl, rfl⟩

theorem makeFrames (s : State) (dest : FrameTo) (body : Bytes) : s.Outlasts (s.makeFrames dest body).2 :=
  trans (t := { s with fab := { s.fab with nextMsg := s.fab.nextMsg + 1 } })
    ⟨rfl, rfl, rfl, rfl, rfl, rfl, rfl, rfl, rfl, rfl, rfl, rfl, rfl, rfl, rfl, rfl, rfl, rfl, rfl⟩
    (of_enciphers (Enciphers.makeFrames ..))

theorem inject (s : State) (l : Option Nat) (fs : List FabFrame) : s.Outlasts (s.inject l fs) :=
  ⟨rfl, rfl, rfl, rfl, rfl, rfl, rfl, rfl, rfl, rfl, rfl, rfl, rfl, rfl, rfl, rfl, rfl, rfl, rfl⟩

theorem fabReply (s : State) (dst ftype reqId : Nat) (p : FabPayload) : s.Outlasts (s.fabReply dst ftype reqId p) := by
  have h := makeFrames s ⟨dst, ftype, none, Config.fabFlow dst 0⟩ (replyBytes ftype reqId p)
  unfold State.fabReply
  split
  rename_i fs t hw
  rw [hw] at h
  extract_lets keep
  exact trans h ⟨rfl, rfl, rfl, rfl, rfl, rfl, rfl, rfl, rfl, rfl, rfl, rfl, rfl, rfl, rfl, rfl, rfl, rfl, rfl⟩

/-! ## The end of a session -/

theorem dropEarly (s : State) (p : TagId → Bool) : s.Outlasts (s.dropEarly p) :=
  ⟨rfl, rfl, rfl, rfl, rfl, rfl, rfl, rfl, rfl, rfl, rfl, rfl, rfl, rfl, rfl, rfl, rfl, rfl, rfl⟩

theorem renameTags (s : State) (f : TagId → TagId) : s.Outlasts (s.renameTags f) :=
  ⟨rfl, rfl, rfl, rfl, rfl, rfl, rfl, rfl, rfl, rfl, rfl, by simp [State.renameTags], rfl, rfl, rfl, rfl, rfl,
    rfl, rfl⟩

theorem releasePages (s : State) (i : Nat) : s.Outlasts (s.releasePages i) := by
  obtain ⟨r, l, h⟩ := s.releasePages_eq i
  rw [h]
  exact ⟨rfl, rfl, rfl, rfl, rfl, rfl, rfl, rfl, rfl, rfl, rfl, rfl, rfl, rfl, rfl, rfl, rfl, rfl, rfl⟩

theorem lasting_advance (n : Ns) : n.advance.lasting = n.lasting := by
  unfold Ns.advance
  split <;> rfl

theorem endSession (s : State) (i : Nat) : s.Outlasts (s.endSession i) := by
  unfold State.endSession
  split
  · exact refl s
  · extract_lets lapse q t cmd kv cry u
    have hlapse : ∀ n, (lapse n).lasting = n.lasting := by
      intro n
      unfold lapse
      split
      · exact lasting_advance _
      · rfl
    have ht : s.Outlasts t := trans (dropEarly ..) (renameTags ..)
    have hu : t.Outlasts u :=
      ⟨rfl, rfl, (List.map_map ..).trans (List.map_congr_left fun n _ => hlapse n), rfl, rfl, rfl, rfl, rfl, rfl, rfl,
        rfl, rfl, rfl, rfl, rfl, rfl, rfl, rfl, rfl⟩
    exact trans ht (trans hu (releasePages ..))

/-! ## Answers -/

theorem pump (s : State) (i : Nat) : s.Outlasts (s.pump i) := by
  obtain ⟨m, hm, -, h | ⟨x, -, -, h⟩⟩ := pump_cases s i
  · rw [h]; exact of_answering hm
  · rw [h]; exact trans (of_answering hm) (endSession ..)

theorem of_answerFrame {s u : State} {e : TagEntry} (h : s.AnswerFrame e u) : s.Outlasts u := by
  obtain ⟨m, hm, h⟩ := h
  have hm : s.Outlasts m := trans (dropEarly ..) (of_answering hm)
  split at h
  · obtain h | ⟨x, -, -, h⟩ := h
    · rw [h]; exact hm
    · rw [h]; exact trans hm (endSession ..)
  · obtain ⟨p, h⟩ := h
    rw [h]; exact trans hm (fabReply ..)
  · rw [h]; exact hm

theorem post (s : State) (e : TagEntry) (c : Completion) : s.Outlasts (s.post e c) := of_answerFrame (AnswerFrame.post s e c)

theorem foldl {α : Type} (f : State → α → State) (hf : ∀ (s : State) a, s.Outlasts (f s a)) (l : List α) (s : State) :
    s.Outlasts (l.foldl f s) := by
  induction l generalizing s with
  | nil => exact refl s
  | cons a l ih => exact trans (hf s a) (ih _)

theorem pumpPort (s : State) (p : Nat) : s.Outlasts (s.pumpPort p) := by
  unfold State.pumpPort
  extract_lets t
  obtain ⟨o, ho⟩ : ∃ o, t = { { s with portQueue := s.portQueue.filter fun x => x.1 != p } with out := o } :=
    foldl_emit_eq (fun (x : Nat × Output) => x.2) _ _
  have ht : s.Answering t := ⟨s.regs, s.log, s.cmd, s.sessions, o, _, ho⟩
  exact trans (of_answering ht) (foldl _ pump _ t)

theorem respond (s : State) (t : TagId) (c : Completion) (live : Bool) : s.Outlasts (s.respond t c live) := by
  cases h : t.ctx with
  | session id =>
    obtain ⟨m, hm, -, h | ⟨x, -, -, h⟩⟩ := respond_session s t c live id h
    · rw [h]; exact of_answering hm
    · rw [h]; exact trans (of_answering hm) (endSession ..)
  | forward src =>
    unfold State.respond
    rw [h]
    exact trans (of_answering (Answering.countStatus ..)) (fabReply ..)
  | orphan k =>
    unfold State.respond
    rw [h]
    exact of_answering (Answering.countStatus ..)

end Outlasts

/-- A namespace stays under its ID through answers, but for what a session's end lapses. -/
theorem Outlasts.ns {s u : State} (h : s.Outlasts u) (i : Nat) : (u.ns? i).map Ns.lasting = (s.ns? i).map Ns.lasting := by
  have hfind : ∀ l : List Ns, (l.find? fun n => n.nsid == i).map Ns.lasting =
      (l.map Ns.lasting).find? fun n => n.nsid == i := by
    intro l
    rw [List.find?_map]
    rfl
  unfold State.ns?
  rw [hfind, hfind, h.namespaces]

end Sys2Proof.Machine
end

section
/-! PROOF. O2: a step on an empty queue (R391, R471). -/

namespace Sys2Proof.Machine

open Sys2Proof

/-- The ends of pauses leave device time, the debug port and the queue alone, and of the device's own view all but the names of
who waits. -/
theorem tickPorts_keeps (s : State) : (tickPorts s).sea = s.sea ∧ (tickPorts s).dbg = s.dbg ∧
    (tickPorts s).pending = s.pending ∧ (tickPorts s).dev.phase = s.dev.phase ∧ (tickPorts s).dev.clockMs = s.dev.clockMs ∧
    (tickPorts s).dev.crystalFail = s.dev.crystalFail ∧ (tickPorts s).dev.slowCarry = s.dev.slowCarry := by
  unfold tickPorts
  refine List.foldlRecOn _ _ (motive := fun t : State => t.sea = s.sea ∧ t.dbg = s.dbg ∧ t.pending = s.pending ∧
    t.dev.phase = s.dev.phase ∧ t.dev.clockMs = s.dev.clockMs ∧ t.dev.crystalFail = s.dev.crystalFail ∧
    t.dev.slowCarry = s.dev.slowCarry) ⟨rfl, rfl, rfl, rfl, rfl, rfl, rfl⟩ fun t ⟨h1, h2, h3, h4, h5, h6, h7⟩ p _ => ?_
  have h := Outlasts.pumpPort (t.setPort p { t.port p with pauseQuanta := 0 }) p
  dsimp only
  rw [h.sea, h.dbg, h.pending, h.dev]
  exact ⟨h1, h2, h3, h4, h5, h6, h7⟩

/-- A second of device time touches that time and the slow count alone (R391). -/
theorem tickSecond_counts (s : State) : (tickSecond s).dev.clockMs = s.dev.clockMs ∧ (tickSecond s).dev.phase = s.dev.phase ∧
    (tickSecond s).dbg = s.dbg ∧ (tickSecond s).sea.time =
      if s.dev.crystalFail = true ∧ s.dev.slowCarry = 49 then s.sea.time else (s.sea.time + 1) % 2 ^ 64 := by
  unfold tickSecond
  by_cases hc : s.dev.crystalFail = true
  · by_cases hs : s.dev.slowCarry = 49
    · rw [if_pos hc, if_pos hs, if_pos ⟨hc, hs⟩]
      exact ⟨rfl, rfl, rfl, rfl⟩
    · rw [if_pos hc, if_neg hs, if_neg fun h => hs h.2]
      exact ⟨rfl, rfl, rfl, rfl⟩
  · rw [if_neg hc, if_neg fun h => hc h.1]
    exact ⟨rfl, rfl, rfl, rfl⟩

/-- A second of lockout touches the debug port alone, and counts on a powered device (R471). -/
theorem tickLockout_counts (s : State) : (tickLockout s).dev = s.dev ∧ (tickLockout s).sea = s.sea ∧
    (tickLockout s).dbg.lockout = if s.powered then s.dbg.lockout - 1 else s.dbg.lockout := by
  unfold tickLockout
  split <;> exact ⟨rfl, rfl, rfl⟩

theorem powered_congr {s t : State} (h : s.dev.phase = t.dev.phase) : s.powered = t.powered := by
  unfold State.powered
  rw [h]

/-- Settles O2: the clock rises, the pauses end, and only a whole second counts device time and lockout. -/
theorem emptyQueueLetsTimePass : Obligations.EmptyQueueLetsTimePass := by
  unfold Obligations.EmptyQueueLetsTimePass
  intro s hq
  have hstep : step s = s.done (tick s) := by rw [step, hq]
  refine ⟨fun hp => ?_, fun hp => ?_⟩
  · have haon : s.aonPowered = false := decide_eq_false (not_not_intro hp)
    rw [hstep, tick, haon, if_neg Bool.false_ne_true, State.done_self]
  · have haon : s.aonPowered = true := decide_eq_true hp
    obtain ⟨hsea, hdbg, -, hphase, hms, hcry, hslow⟩ :=
      tickPorts_keeps { s with dev := { s.dev with clockMs := s.dev.clockMs + 1 } }
    have htick : tick s = if (tickPorts { s with dev := { s.dev with clockMs := s.dev.clockMs + 1 } }).dev.clockMs % 1000 = 0
        then tickLockout (tickSecond (tickPorts { s with dev := { s.dev with clockMs := s.dev.clockMs + 1 } }))
        else tickPorts { s with dev := { s.dev with clockMs := s.dev.clockMs + 1 } } := by
      rw [tick, haon, if_pos rfl]
    generalize tickPorts { s with dev := { s.dev with clockMs := s.dev.clockMs + 1 } } = t at *
    dsimp only at hms
    rw [hstep, htick, hms]
    by_cases hsec : (s.dev.clockMs + 1) % 1000 = 0
    · rw [if_pos hsec]
      obtain ⟨hms', hphase', hdbg', htime⟩ := tickSecond_counts t
      obtain ⟨hdev, hsea', hlock⟩ := tickLockout_counts (tickSecond t)
      refine ⟨_, State.done_eq .., ?_, hq, fun h => absurd hsec h, fun _ => ⟨?_, ?_⟩⟩
      · exact (congrArg Dev.clockMs hdev).trans (hms'.trans hms)
      · refine (congrArg Sea.time hsea').trans (htime.trans ?_)
        rw [hcry, hslow, hsea]
      · refine hlock.trans ?_
        rw [powered_congr (hphase'.trans hphase), hdbg', hdbg]
        rfl
    · rw [if_neg hsec]
      exact ⟨_, State.done_eq .., hms, hq, fun _ => ⟨hsea, hdbg⟩, fun h => absurd h hsec⟩

end Sys2Proof.Machine
end

section
/-! SUPPORT. What traffic on links and ports changes: registers, the log, keys' counters, the outputs, the fabric and the ports
(R138, R404 to R409, R417). -/

namespace Sys2Proof.Machine

open Sys2Proof

/-- Only what traffic on links and ports may change differs. -/
def State.Traffic (s u : State) : Prop :=
  ∃ r l k o f p q d, u = { s with regs := r, log := l, key := k, out := o, fab := f, ports := p, portQueue := q,
                                  dev := { s.dev with routerQuiet := d } } ∧ k.fuses = s.key.fuses

namespace Traffic

theorem refl (s : State) : s.Traffic s :=
  ⟨s.regs, s.log, s.key, s.out, s.fab, s.ports, s.portQueue, s.dev.routerQuiet, rfl, rfl⟩

theorem trans {s t u : State} (h : s.Traffic t) (k : t.Traffic u) : s.Traffic u := by
  obtain ⟨r, l, x, o, f, p, q, d, rfl, hx⟩ := h
  obtain ⟨r', l', x', o', f', p', q', d', rfl, hx'⟩ := k
  exact ⟨r', l', x', o', f', p', q', d', rfl, hx'.trans hx⟩

theorem of_pair {α : Type} {x : α × State} {a : α} {s t : State} (h : x = (a, t)) (hx : s.Traffic x.2) : s.Traffic t := by
  rw [h] at hx; exact hx

theorem foldl {α : Type} (f : State → α → State) (hf : ∀ (s : State) a, s.Traffic (f s a)) (l : List α) (s : State) :
    s.Traffic (l.foldl f s) := by
  induction l generalizing s with
  | nil => exact refl s
  | cons a l ih => exact trans (hf s a) (ih _)

theorem spares {s u : State} (h : s.Traffic u) : s.Spares u := by
  obtain ⟨r, l, k, o, f, p, q, d, rfl, hk⟩ := h
  exact ⟨rfl, rfl, rfl, hk⟩

theorem dbg {s u : State} (h : s.Traffic u) : u.dbg = s.dbg := by
  obtain ⟨r, l, k, o, f, p, q, d, rfl, -⟩ := h
  rfl

theorem of_enciphers {s u : State} (h : s.Enciphers u) : s.Traffic u := by
  obtain ⟨r, l, k, rfl, hk⟩ := h
  exact ⟨r, l, k, s.out, s.fab, s.ports, s.portQueue, s.dev.routerQuiet, rfl, hk⟩

/-- An update of registers, the log, outputs, the fabric or the ports. -/
theorem update (s : State) (r : Regs) (l : Log) (o : List Output) (f : Fab) (p : List Port) (q : List (Nat × Output)) (d : Bool) :
    s.Traffic { s with regs := r, log := l, out := o, fab := f, ports := p, portQueue := q,
                       dev := { s.dev with routerQuiet := d } } := ⟨r, l, s.key, o, f, p, q, d, rfl, rfl⟩

theorem setRegs (s : State) (r : Regs) : s.Traffic { s with regs := r } := update s r s.log s.out s.fab s.ports s.portQueue _

theorem setFab (s : State) (f : Fab) : s.Traffic { s with fab := f } := update s s.regs s.log s.out f s.ports s.portQueue _

theorem emit (s : State) (o : Output) : s.Traffic (s.emit o) := update s s.regs s.log _ s.fab s.ports s.portQueue _

theorem setPort (s : State) (i : Nat) (x : Port) : s.Traffic (s.setPort i x) :=
  update s s.regs s.log s.out s.fab _ s.portQueue _

theorem inject (s : State) (l : Option Nat) (fs : List FabFrame) : s.Traffic (s.inject l fs) :=
  update s s.regs s.log s.out _ s.ports s.portQueue false

theorem raiseWith (s : State) (e : Event) (i : Nat) (b : Bool) (st d : Nat) : s.Traffic (s.raiseWith e i b st d) := by
  obtain ⟨r, l, h⟩ := s.raiseWith_eq e i b st d
  rw [h]
  exact update s r l s.out s.fab s.ports s.portQueue _

theorem count64 (s : State) (lo hi : Field) (i n : Nat) : s.Traffic (s.count64 lo hi i n) := setRegs ..

theorem setLink (s : State) (l : Link) : s.Traffic (s.setLink l) := setFab ..

theorem creditsGo (link vc fuel n : Nat) (s : State) : s.Traffic (creditsGo link vc fuel n s) := by
  induction fuel generalizing n s with
  | zero => exact refl s
  | succ fuel ih =>
    unfold Machine.creditsGo
    split
    · exact refl s
    · refine trans ?_ (ih ..)
      split <;> exact emit ..

theorem returnCredits (s : State) (link vc n : Nat) : s.Traffic (s.returnCredits link vc n) := by
  unfold State.returnCredits
  extract_lets l had k
  split
  · exact refl s
  · exact trans (setLink ..) (creditsGo ..)

theorem sendFlit (s : State) (link : Nat) (o : OutFlit) : s.Traffic (s.sendFlit link o) := by
  unfold State.sendFlit
  extract_lets l old f m t
  have ht : s.Traffic t := trans (setLink s m) (trans (emit ..) (count64 ..))
  split
  · exact trans ht (returnCredits ..)
  · exact ht

theorem pumpLinkGo (link fuel : Nat) (s : State) : s.Traffic (pumpLinkGo link fuel s) := by
  induction fuel generalizing s with
  | zero => exact refl s
  | succ fuel ih =>
    have hsend : ∀ l o, s.Traffic (Machine.pumpLinkGo link fuel ((s.setLink l).sendFlit link o)) :=
      fun l o => trans (setLink s l) (trans (sendFlit ..) (ih _))
    unfold Machine.pumpLinkGo
    dsimp only
    split
    · exact refl s
    · split
      · exact hsend ..
      · split
        · exact hsend ..
        · exact refl s

theorem pumpLink (s : State) (link : Nat) : s.Traffic (s.pumpLink link) := by
  unfold State.pumpLink
  dsimp only
  split
  · exact refl s
  · split
    · exact emit ..
    · exact pumpLinkGo ..

theorem makeFrames (s : State) (dest : FrameTo) (body : Bytes) : s.Traffic (s.makeFrames dest body).2 :=
  trans (setFab s { s.fab with nextMsg := s.fab.nextMsg + 1 }) (of_enciphers (Enciphers.makeFrames ..))

theorem sendState (s : State) (e : SledEntry) (ls : List Nat) : s.Traffic (s.sendState e ls) := by
  unfold State.sendState
  split
  · exact refl s
  · split
    rename_i h
    exact trans (of_pair h (makeFrames ..)) (foldl _ (fun t l => inject t (some l) _) ls _)

theorem floodOwn (s : State) : s.Traffic s.floodOwn := by
  unfold State.floodOwn
  split
  · exact setFab ..
  · exact trans (setFab ..) (sendState ..)

theorem loseFlits (s : State) (dead : Nat) (fs : List OutFlit) : s.Traffic (s.loseFlits dead fs) := by
  refine foldl _ (fun t o => ?_) fs s
  split
  · split
    · exact refl t
    · exact returnCredits ..
  · exact refl t

theorem linkDown (s : State) (link : Nat) : s.Traffic (s.linkDown link) := by
  unfold State.linkDown
  extract_lets l was down t cut fab u v
  have ht : s.Traffic t := trans (loseFlits ..) (setLink ..)
  have hu : s.Traffic u := trans ht (setFab ..)
  have hv : s.Traffic v := trans hu (foldl _ (fun t (x : Link) => pumpLink t x.id) _ _)
  split
  · exact trans hv (trans (raiseWith ..) (floodOwn ..))
  · exact hv

theorem portChange (s : State) (p : Nat) (x : Port) (e : Event) : s.Traffic (s.portChange p x e) := by
  unfold State.portChange
  extract_lets was t
  have ht : s.Traffic t := trans (setPort ..) (foldl _ (fun t l => raiseWith t e (l + 2) false 0 0) _ _)
  split
  · exact ht
  · exact trans ht (floodOwn ..)

theorem dropPort (s : State) (p : Nat) : s.Traffic (s.dropPort p) := by
  unfold State.dropPort State.portLost
  split
  · exact trans (update s s.regs s.log s.out s.fab s.ports _ _) (portChange ..)
  · exact refl s

end Traffic

end Sys2Proof.Machine
end

section
/-! PROOF. O58: the test access port and boundary scan (R467, R479 to R481, Table 20-2). -/

namespace Sys2Proof.Machine

open Sys2Proof

/-- A drain into the reserve leaves the debug port alone (R95). -/
theorem hardDrain_dbg (s : State) (b : Bool) : (s.hardDrain b).dbg = s.dbg := by
  have hflush : s.flushLog.dbg = s.dbg := by
    unfold State.flushLog
    dsimp only
    split
    · rfl
    · split
      · obtain ⟨r, l, h⟩ := s.raise_eq Ev.HLT.LOG_WRAP
        rw [h]
      · rfl
  have hdrop : s.dropBuffer.dbg = s.dbg := by
    unfold State.dropBuffer State.loseBuffer
    repeat' split
    all_goals rfl
  unfold State.hardDrain
  split
  · dsimp only
    split <;> exact hflush
  · exact hdrop

theorem stopService_dbg (s : State) : s.stopService.dbg = s.dbg := by
  obtain ⟨r, l, o, v, h, -⟩ := s.noteAbandoned.retract_eq
  rw [State.stopService_eq, h]
  unfold State.noteAbandoned
  split
  · obtain ⟨r, l, hr⟩ := s.raise_eq Ev.PWR.ENTRY_ABANDONED
    rw [hr]
  · rfl

/-- Steps 1 to 4 of Table 03-10 and the links down leave the debug port alone, and the pins are held at full unlock (R480). -/
theorem holdPins_holds (s : State) : s.holdPins.dbg = s.dbg ∧
    (s.dev.phase ≠ .bootWait → s.dev.phase ≠ .testMode → s.holdPins.dev.pinsHeld = true) := by
  unfold State.holdPins
  split
  · rename_i h
    refine ⟨rfl, fun hb ht => ?_⟩
    obtain h | h | h := h
    · exact absurd h hb
    · exact absurd h ht
    · exact h
  · extract_lets a t dev b c d
    have ha : a.dbg = s.dbg := by
      unfold a
      split
      · exact stopService_dbg s
      · exact stopService_dbg s
      · rfl
    have hb : b.dbg = s.dbg := by
      unfold b
      split
      · exact ha
      · exact (hardDrain_dbg a true).trans ha
    have hc : b.Traffic c := Traffic.foldl _ Traffic.dropPort _ b
    have hd : c.Traffic d := Traffic.foldl _ Traffic.linkDown _ c
    clear_value d
    obtain ⟨r, l, h⟩ := State.raise_eq { d with dev := { d.dev with pinsHeld := true } } Ev.DBG.PINS_HELD
    rw [h]
    exact ⟨(Traffic.dbg (Traffic.trans hc hd)).trans hb, fun _ _ => rfl⟩

section
variable {s : State} (ht : s.tapOn = true)
include ht

theorem drivePins_drives (hp : s.pinsAllowed = true) (code : Nat) (go : State → State) : s.drivePins code go =
    go { (s.loadIr code).holdPins with dbg := { (s.loadIr code).holdPins.dbg with pinDriven := true } } := by
  unfold State.drivePins
  rw [ht, if_neg (by decide), if_pos hp]

theorem drivePins_bypass (hp : s.pinsAllowed = false) (code : Nat) (go : State → State) : s.drivePins code go = s.bypass := by
  unfold State.drivePins
  rw [ht, hp, if_neg (by decide), if_neg Bool.false_ne_true]

end

@[simp] theorem loadIr_dev (s : State) (code : Nat) : (s.loadIr code).dev = s.dev := by
  unfold State.loadIr
  dsimp only
  split <;> rfl

@[simp] theorem loadIr_dbg (s : State) (code : Nat) :
    (s.loadIr code).dbg = { s.dbg with instr := code, pinDriven := false } := by
  unfold State.loadIr
  dsimp only
  split <;> rfl

/-- A scan puts its bytes out last and holds them captured. -/
theorem spares_loadIr (s : State) (code : Nat) : s.Spares (s.loadIr code) := by
  unfold State.loadIr
  dsimp only
  split <;> exact ⟨rfl, rfl, rfl, rfl⟩

/-- A scan behind an instruction selects it, puts its bytes out last and holds them. -/
theorem done_scan (s : State) (code : Nat) (b : Bytes) : ∃ u l, s.done ((s.loadIr code).scan b) = .next u ∧
    u.out = l ++ [.tdo b] ∧ u.dbg.instr = code ∧ u.dbg.capture = b :=
  ⟨_, _, State.done_eq .., rfl, congrArg Dbg.instr (loadIr_dbg s code), rfl⟩

/-- The state in which a pin-driving instruction drives: its code selected, the pins held where they have to be. -/
def State.driving (s : State) (code : Nat) : State :=
  { (s.loadIr code).holdPins with dbg := { (s.loadIr code).holdPins.dbg with pinDriven := true } }

theorem State.driving_dbg (s : State) (code : Nat) : (s.driving code).dbg = { s.dbg with instr := code, pinDriven := true } := by
  unfold State.driving
  rw [(holdPins_holds (s.loadIr code)).1, loadIr_dbg]

theorem State.driving_held (s : State) (code : Nat) (hb : s.dev.phase ≠ .bootWait) (hm : s.dev.phase ≠ .testMode) :
    (s.driving code).dev.pinsHeld = true :=
  (holdPins_holds (s.loadIr code)).2 (by rwa [loadIr_dev]) (by rwa [loadIr_dev])

theorem State.driving_cells (s : State) (code : Nat) : (s.driving code).dbg.cells = s.dbg.cells := by rw [State.driving_dbg]

/-- A pin-driving instruction where pins may be driven: whatever it puts on them, it is selected and drives (R479, R480). -/
theorem done_drives {s d t : State} {code : Nat} {p : Output} {q : List Bool} (h : s.driving code = d) (ht : t.dev = d.dev)
    (hd : t.dbg.instr = d.dbg.instr ∧ t.dbg.pinDriven = d.dbg.pinDriven) (hq : t.dbg.cells = q)
    (hp : p ∈ t.out) : ∃ u, s.done t = .next u ∧ u.dbg.instr = code ∧ u.dbg.pinDriven = true ∧ u.dbg.cells = q ∧ p ∈ u.out ∧
      (s.dev.phase ≠ .bootWait → s.dev.phase ≠ .testMode → u.dev.pinsHeld = true) := by
  rw [← h] at ht hd
  rw [State.driving_dbg] at hd
  exact ⟨_, State.done_eq .., hd.1, hd.2, hq, hp, fun hb hm => (congrArg Dev.pinsHeld ht).trans (s.driving_held code hb hm)⟩

theorem done_drivesCells (s : State) (code : Nat) (cells : List Bool) :
    ∃ u, s.done ((s.driving code).driveCells cells) = .next u ∧ u.dbg.instr = code ∧ u.dbg.pinDriven = true ∧
      u.dbg.cells = cells.take 868 ∧ .pins (cells.take 868) ∈ u.out ∧
      (s.dev.phase ≠ .bootWait → s.dev.phase ≠ .testMode → u.dev.pinsHeld = true) := by
  generalize hd : s.driving code = d
  exact done_drives (t := d.driveCells cells) hd rfl ⟨rfl, rfl⟩ rfl
    (List.mem_append_left _ (List.mem_append_right _ (List.mem_singleton_self _)))

/-- An instruction that puts something out and then selects the bypass register. -/
theorem done_drivesOut (s : State) (code : Nat) (p : Output) :
    ∃ u, s.done (((s.driving code).emit p).scan [0]) = .next u ∧ u.dbg.instr = code ∧ u.dbg.pinDriven = true ∧
      u.dbg.cells = s.dbg.cells ∧ p ∈ u.out ∧
      (s.dev.phase ≠ .bootWait → s.dev.phase ≠ .testMode → u.dev.pinsHeld = true) := by
  rw [← s.driving_cells code]
  generalize hd : s.driving code = d
  exact done_drives (t := (d.emit p).scan [0]) hd rfl ⟨rfl, rfl⟩ rfl
    (List.mem_append_left _ (List.mem_append_right _ (List.mem_singleton_self _)))

/-- The five pin-driving instructions have one form. -/
theorem exec_pinOps (s : State) (cells : List Bool) :
    ∀ c ∈ [Instr.extest cells, .extestPulse cells, .extestTrain cells, .clamp, .highz],
      ∃ code go, exec c s = s.done (s.drivePins code go) := by
  simp only [List.mem_cons, List.not_mem_nil, or_false, forall_eq_or_imp, forall_eq]
  exact ⟨⟨_, _, rfl⟩, ⟨_, _, rfl⟩, ⟨_, _, rfl⟩, ⟨_, _, rfl⟩, ⟨_, _, rfl⟩⟩

theorem drivePins_off {s : State} (ht : s.tapOn = false) (code : Nat) (go : State → State) : s.drivePins code go = s := by
  unfold State.drivePins
  rw [ht, if_pos (by decide)]

theorem done_bypass (s : State) : s.done s.bypass = .next s.bypass := by
  obtain ⟨h1, h2, h3, h4⟩ := spares_loadIr s 0xFF
  exact Spares.done ⟨h1, h2, h3, h4⟩

/-- Settles O58: each instruction is its select, its scan, and for those that drive the pins the hold of Table 03-10. -/
theorem tapInstructionsScanAndDrive : Obligations.TapInstructionsScanAndDrive := by
  unfold Obligations.TapInstructionsScanAndDrive
  intro s ns cells gives drives cut pinOps
  have hon : ∀ t, s.tapOn = true → s.done (if s.tapOn then t else s) = s.done t := fun t ht => by rw [if_pos ht]
  have hoff : ∀ t, s.tapOn = false → s.done (if s.tapOn then t else s) = .next s := fun t ht => by
    rw [ht, if_neg Bool.false_ne_true, State.done_self]
  refine ⟨fun ht => ⟨fun hn => ?_, ?_, ?_, ?_, ?_, fun hp => ?_, fun hp c hc => ?_⟩,
    fun ht => ⟨fun c hc => ?_, hoff _ ht, hoff _ ht, hoff _ ht, hoff _ ht, hoff _ ht⟩⟩
  · have he : exec (.trstN ns) s = s.done (s.loadIr 0x02) := by
      show s.done (if s.tapOn then _ else s) = _
      rw [if_pos ht, State.pulse_recognised hn]
    exact ⟨_, he, congrArg Dbg.instr (loadIr_dbg s 0x02), congrArg Dbg.pinDriven (loadIr_dbg s 0x02)⟩
  · obtain ⟨u, l, hu, h⟩ := done_scan s 0x02 (leBytes 4 0x166165D3)
    exact ⟨u, l, (hon _ ht).trans hu, h⟩
  · obtain ⟨u, l, hu, h⟩ := done_scan s 0xFF [0]
    exact ⟨u, l, (hon _ ht).trans hu, h⟩
  · obtain ⟨u, l, hu, h⟩ := done_scan s 0x10 (leBytes 4 (s.live 0x4C0040).toNat)
    exact ⟨u, l, (hon _ ht).trans hu, h⟩
  · refine ⟨_, hon _ ht, congrArg Dbg.instr (loadIr_dbg s 0x01), rfl, ?_⟩
    show ((List.range ((boundaryCells + 7) / 8)).map _).length = 109
    rw [List.length_map, List.length_range]
    rfl
  · have hd : ∀ code go, s.done (s.drivePins code go) = s.done (go (s.driving code)) := fun code go =>
      congrArg s.done (drivePins_drives ht hp code go)
    refine ⟨?_, ?_, ?_, ?_, ?_⟩
    · obtain ⟨u, hu, h⟩ := done_drivesCells s 0x00 cells
      exact ⟨u, (hd ..).trans hu, h⟩
    · obtain ⟨u, hu, h⟩ := done_drivesCells s 0x08 cells
      exact ⟨u, (hd ..).trans hu, h⟩
    · obtain ⟨u, hu, h⟩ := done_drivesCells s 0x09 cells
      exact ⟨u, (hd ..).trans hu, h⟩
    · obtain ⟨u, hu, h⟩ := done_drivesOut s 0x03 (.pins (s.driving 0x03).dbg.cells)
      rw [s.driving_cells] at h
      exact ⟨u, (hd ..).trans hu, h⟩
    · obtain ⟨u, hu, h⟩ := done_drivesOut s 0x04 .pinsHighZ
      exact ⟨u, (hd ..).trans hu, h⟩
  · obtain ⟨code, go, h⟩ := exec_pinOps s cells c hc
    rw [h, drivePins_bypass ht hp, done_bypass]
  · obtain ⟨code, go, h⟩ := exec_pinOps s cells c hc
    rw [h, drivePins_off ht, State.done_self]

end Sys2Proof.Machine
end

section
/-! SUPPORT. What the next state of a command takes over from the state that its effect leads to. -/

namespace Sys2Proof.Machine

open Sys2Proof

/-- Everything but the queue, the debug port's memories and the fuses is the effect's. -/
structure State.PassesInto (t u : State) : Prop where
  dev : u.dev = t.dev
  sessions : u.sessions = t.sessions
  cmd : u.cmd = t.cmd
  kv : u.kv = t.kv
  cam : u.cam = t.cam
  cry : u.cry = t.cry
  slots : u.key.slots = t.key.slots
  fab : u.fab = t.fab
  fw : u.fw = t.fw
  dbg : u.dbg = t.dbg
  free : u.free = t.free
  out : u.out = t.out

theorem exists_carried {s t : State} {c : Instr} (h : exec c s = s.done t) : ∃ u, exec c s = .next u ∧ t.PassesInto u :=
  ⟨_, h.trans (State.done_eq ..), rfl, rfl, rfl, rfl, rfl, rfl, rfl, rfl, rfl, rfl, rfl, rfl⟩

end Sys2Proof.Machine
end

section
/-! PROOF. O59: unlocking the debug port (R469 to R473, Table 20-4). -/

namespace Sys2Proof.Machine

open Sys2Proof

/-! ## The end of every session -/

theorem endSession_key (s : State) (i : Nat) : (s.endSession i).key = s.key := by
  unfold State.endSession
  split
  · rfl
  · dsimp only
    generalize hg : State.releasePages _ i = u
    obtain ⟨r, l, h⟩ := State.releasePages_eq _ i
    rw [← hg, h]
    rfl

theorem endSession_sessions (s : State) (i : Nat) : (s.endSession i).sessions = s.sessions.filter fun x => x.id != i := by
  unfold State.endSession
  split
  · rename_i h
    refine (List.filter_eq_self.2 fun x hx => ?_).symm
    simpa using List.find?_eq_none.1 h x hx
  · dsimp only
    generalize hg : State.releasePages _ i = u
    obtain ⟨r, l, h⟩ := State.releasePages_eq _ i
    rw [← hg, h]
    rfl

/-- Sessions ended one after another leave those whose IDs are not among them. -/
theorem endSessions_sessions (ids : List Nat) (s : State) :
    (ids.foldl (fun (t : State) i => t.endSession i) s).sessions = s.sessions.filter fun x => decide (x.id ∉ ids) := by
  induction ids generalizing s with
  | nil => exact (List.filter_eq_self.2 fun _ _ => by simp).symm
  | cons i ids ih =>
    rw [List.foldl_cons, ih, endSession_sessions, List.filter_filter]
    refine List.filter_congr fun x _ => ?_
    by_cases h : x.id = i <;> simp [h]

theorem endSessions_all (s : State) :
    ((s.sessions.map fun x => x.id).foldl (fun (t : State) i => t.endSession i) s).sessions = [] := by
  rw [endSessions_sessions, List.filter_eq_nil_iff]
  intro x hx
  simpa using ⟨x, hx, rfl⟩

theorem endSessions_keeps (ids : List Nat) (s : State) :
    (ids.foldl (fun (t : State) i => t.endSession i) s).key = s.key ∧
    (ids.foldl (fun (t : State) i => t.endSession i) s).dbg = s.dbg := by
  induction ids generalizing s with
  | nil => exact ⟨rfl, rfl⟩
  | cons i ids ih => exact ⟨(ih _).1.trans (endSession_key ..), (ih _).2.trans (Outlasts.endSession s i).dbg⟩

/-! ## Full unlock (R472) -/

theorem endLatched_dbg (s : State) : s.endLatched.dbg = s.dbg := by
  unfold State.endLatched
  extract_lets held es
  exact List.foldlRecOn es _ (motive := fun t : State => t.dbg = s.dbg) rfl fun t h e _ =>
    (Outlasts.of_answerFrame (AnswerFrame.finish (t.detach e.id) e stKeyChanged [])).dbg.trans h

/-- A table all of whose entries have a property, as the default has, reads entries that have it. -/
theorem SMap.get_property {α : Type} (d : Nat → α) (p : α → Prop) (hd : ∀ k, p (d k)) :
    ∀ m : SMap α, (∀ x ∈ m, p x.2) → ∀ k, p (SMap.get d m k) := by
  intro m
  induction m with
  | nil => exact fun _ k => hd k
  | cons x m ih =>
    obtain ⟨a, v⟩ := x
    intro h k
    unfold SMap.get
    split
    · exact h (a, v) (List.mem_cons_self ..)
    · split
      · exact hd k
      · exact ih (fun y hy => h y (List.mem_cons_of_mem _ hy)) k

/-- Zeroed keys are empty in every slot. -/
theorem zeroKeys_empty (s : State) (i : Nat) : (s.zeroKeys.slot i).key = [] := by
  refine SMap.get_property slotDefault (fun k => k.key = []) (fun _ => rfl) _ (fun x hx => ?_) i
  obtain ⟨y, -, rfl⟩ := List.mem_map.1 (List.mem_filter.1 hx).1
  rfl

/-- Full unlock leaves level 2, no session and no key (R472). -/
theorem grantFull_grants (s : State) : s.grantFull.dbg = { s.dbg with level := 2 } ∧ s.grantFull.sessions = [] ∧
    ∀ i, (s.grantFull.slot i).key = [] := by
  unfold State.grantFull
  extract_lets a b cry dbg c
  have hb : b.sessions = [] ∧ b.key = a.key ∧ b.dbg = a.dbg := ⟨endSessions_all a, endSessions_keeps _ a⟩
  have ha : a.dbg = s.dbg := endLatched_dbg s
  have hc : c.sessions = [] ∧ c.key = a.key ∧ c.dbg = { s.dbg with level := 2 } :=
    ⟨hb.1, hb.2.1, by show { b.dbg with level := 2 } = _; rw [hb.2.2, ha]⟩
  have hkey : ∀ i, (a.slot i).key = [] := zeroKeys_empty s.endLatched
  clear_value c a
  obtain ⟨r, l, h⟩ := c.raise_eq Ev.DBG.UNLOCK_FULL
  rw [h]
  refine ⟨hc.2.2, hc.1, fun i => ?_⟩
  show (SMap.get slotDefault c.key.slots i).key = []
  rw [hc.2.1]
  exact hkey i

/-! ## The check of a response (R471) -/

/-- A response that fails leaves level and challenge, and counts and locks out. -/
theorem unlockFails_locks (s : State) : s.unlockFails.dbg.level = s.dbg.level ∧ s.unlockFails.dbg.challenge = s.dbg.challenge ∧
    s.unlockFails.dbg.fails = min 31 (s.dbg.fails + 1) ∧
    s.unlockFails.dbg.lockout = min (2 ^ (min 31 (s.dbg.fails + 1) - 1)) 1024 := by
  unfold State.unlockFails
  dsimp only
  obtain ⟨r, l, h⟩ := State.raise_eq { s with dbg := { s.dbg with
    fails := min 31 (s.dbg.fails + 1), lockout := min (2 ^ (min 31 (s.dbg.fails + 1) - 1)) 1024 } } Ev.DBG.UNLOCK_FAIL
  rw [h]
  exact ⟨rfl, rfl, rfl, rfl⟩

section
variable {s : State} {c : Bytes} (hp : s.powered = true) (hpend : s.dbg.pending = true) (hc : s.dbg.challenge = some c)

/-- The state in which a check ends: neither challenge nor response is left. -/
def State.checked (s : State) : State := { s with dbg := { s.dbg with pending := false, challenge := none, response := [] } }

include hp hpend hc

theorem exec_unlockCheck : exec .unlockCheck s = s.done (
    if s.dbg.chalLevel = 1 then
      if s.observePasses c s.dbg.response then
        ({ s.checked with dbg := { s.checked.dbg with fails := 0, level := 1 } } : State).raise Ev.DBG.UNLOCK_OBSERVE
      else s.checked.unlockFails
    else if s.fullPasses c s.dbg.response then
      ({ s.checked with dbg := { s.checked.dbg with fails := 0 } } : State).grantFull
    else s.checked.unlockFails) := by
  show s.done (if s.powered ∧ s.dbg.pending then s.endCheck else s) = _
  rw [if_pos ⟨hp, hpend⟩]
  unfold State.endCheck
  rw [hc]
  rfl

end

theorem unlockCheck_fails {s : State} (h : exec .unlockCheck s = s.done s.checked.unlockFails) :
    ∃ u, exec .unlockCheck s = .next u ∧ u.dbg.level = s.dbg.level ∧ u.dbg.challenge = none ∧
      u.dbg.fails = min 31 (s.dbg.fails + 1) ∧ u.dbg.lockout = min (2 ^ (min 31 (s.dbg.fails + 1) - 1)) 1024 := by
  obtain ⟨u, hu, hc⟩ := exists_carried h
  refine ⟨u, hu, ?_⟩
  rw [hc.dbg]
  exact unlockFails_locks s.checked

/-! ## The instructions -/

theorem tapOn_of_powered {s : State} (hp : s.powered = true) : s.tapOn = true := by
  refine decide_eq_true fun h => ?_
  unfold State.powered at hp
  rw [h] at hp
  cases hp

/-- The port takes an instruction whose level it has. -/
theorem tapOp_takes {s : State} (hp : s.powered = true) {code level : Nat} (hl : level ≤ s.dbg.level) (go : State → State) :
    s.tapOp code level go = go (s.loadIr code) := by
  unfold State.tapOp
  rw [tapOn_of_powered hp, if_neg (by decide), if_pos ⟨hp, hl⟩]

theorem tapOp_locked {s : State} (hp : s.powered = true) {code level : Nat} (hl : s.dbg.level < level) (go : State → State) :
    s.tapOp code level go = s.bypass := by
  unfold State.tapOp
  rw [tapOn_of_powered hp, if_neg (by decide), if_neg fun h => absurd h.2 (by omega)]

theorem done_loadIr (s : State) (code : Nat) : s.done (s.loadIr code) = .next (s.loadIr code) := Spares.done (spares_loadIr s code)

/-- A DEBUG reset in service begins its warm start with the port locked (Table 04-5). -/
theorem resetNow_debug {s : State} (h : s.dev.phase = .service) : ∃ t : State, s.resetNow .debug 0 0 true = t ∧
    t.dev.phase = .starting false ∧ t.dev.kind = .debug ∧ t.dbg.level = 0 := by
  unfold State.resetNow
  rw [h]
  exact ⟨_, rfl, rfl, rfl, rfl⟩

theorem loadIr_level (s : State) (code : Nat) : (s.loadIr code).dbg.level = s.dbg.level := by rw [loadIr_dbg]

/-- A challenge is withheld for what no instruction register changes. -/
theorem noChallenge_loadIr (s : State) (code : Nat) : (s.loadIr code).noChallenge = s.noChallenge := by
  unfold State.loadIr
  dsimp only
  split <;> rfl

theorem loadIr_sessions (s : State) (code : Nat) : (s.loadIr code).sessions = s.sessions := by
  unfold State.loadIr
  dsimp only
  split <;> rfl

/-- A challenge taken in a state with an instruction just loaded has the nonce and the fields of the state before. -/
theorem newChallenge_loadIr (s : State) (code lvl : Nat) :
    ((s.loadIr code).newChallenge lvl).dbg.challenge = some (s.challengeBytes lvl (s.draw 32)) ∧
    ((s.loadIr code).newChallenge lvl).free = s.free + 1 := by
  unfold State.loadIr
  dsimp only
  split <;> exact ⟨rfl, rfl⟩

/-- Settles O59: the instructions as they act behind their select, and the check's four ends. -/
theorem unlockingNeedsAGoodResponse : Obligations.UnlockingNeedsAGoodResponse := by
  unfold Obligations.UnlockingNeedsAGoodResponse
  intro s lvl w c key hp resets
  have hchal : ∀ lvl other, exec (.dbgChallenge lvl other) s = s.done ((s.loadIr 0x11).takeChallenge lvl other) :=
    fun _ _ => congrArg s.done (tapOp_takes hp (Nat.zero_le _) _)
  have hrelock : exec .dbgRelock s = s.done (s.loadIr 0x11).relock := congrArg s.done (tapOp_takes hp (Nat.zero_le _) _)
  have hresp : exec (.dbgResponse w) s = s.done ((s.loadIr 0x12).takeResponse w) :=
    congrArg s.done (tapOp_takes hp (Nat.zero_le _) _)
  have hreset : s.dbg.level = 2 → ∀ key, exec (.dbgReset key true) s =
      s.done (if key = 0x5AFE ∧ true = true then (s.loadIr 0x15).resetNow .debug 0 0 true else s.loadIr 0x15) :=
    fun hl _ => congrArg s.done (tapOp_takes hp (Nat.le_of_eq hl.symm) _)
  have hresets : ∀ (i : Instr) (code : Nat), exec i s = s.done ((s.loadIr code).resetNow .debug 0 0 true) → resets i := by
    intro i code hi hserv
    obtain ⟨t, ht, h⟩ := resetNow_debug (s := s.loadIr code) (by rwa [loadIr_dev])
    rw [ht] at hi
    obtain ⟨u, hu, hc⟩ := exists_carried hi
    refine ⟨u, hu, ?_⟩
    rw [hc.dev, hc.dbg]
    exact h
  refine ⟨fun hlvl => ⟨fun hn => ?_, fun hn => ?_⟩, ?_, fun hl => ?_, fun hl => ⟨?_, ?_, fun hk => ?_⟩, fun hl => ?_,
    fun hpend => ⟨?_, ?_, fun hc => ?_, fun hc => ?_⟩, fun hpend => ?_, fun hpend hc => ?_, ?_⟩
  · have he : (s.loadIr 0x11).takeChallenge lvl false = (s.loadIr 0x11).newChallenge lvl := by
      unfold State.takeChallenge
      rw [if_neg Bool.false_ne_true, if_neg (by omega), noChallenge_loadIr, hn,
        if_neg (not_or.2 ⟨by omega, Bool.false_ne_true⟩)]
    obtain ⟨u, hu, hk⟩ := exists_carried (hchal lvl false)
    rw [he] at hk
    refine ⟨u, hu, ?_⟩
    rw [hk.dbg, hk.free]
    obtain ⟨hch, hfree⟩ := newChallenge_loadIr s 0x11 lvl
    exact ⟨hch, rfl, rfl, rfl, loadIr_level s 0x11, hfree⟩
  · have he : (s.loadIr 0x11).takeChallenge lvl false = s.loadIr 0x11 := by
      unfold State.takeChallenge
      rw [if_neg Bool.false_ne_true, if_neg (by omega), noChallenge_loadIr, hn, if_pos (.inr rfl)]
    obtain ⟨u, hu, hk⟩ := exists_carried (hchal lvl false)
    rw [he] at hk
    refine ⟨u, hu, ?_⟩
    rw [hk.dbg, loadIr_dbg]
    exact ⟨rfl, rfl⟩
  · exact (hchal lvl true).trans (done_loadIr s 0x11)
  · have he : (s.loadIr 0x11).relock = { s.loadIr 0x11 with dbg := { (s.loadIr 0x11).dbg with level := 0 } } := by
      unfold State.relock
      rw [loadIr_dbg, if_neg hl]
    obtain ⟨u, hu, hk⟩ := exists_carried hrelock
    rw [he] at hk
    exact ⟨u, hu, congrArg Dbg.level hk.dbg, hk.sessions.trans (loadIr_sessions s 0x11)⟩
  · refine hresets _ 0x11 (hrelock.trans (congrArg s.done ?_))
    unfold State.relock
    rw [loadIr_dbg, if_pos hl]
  · exact hresets _ 0x15 ((hreset hl 0x5AFE).trans (by rw [if_pos ⟨rfl, rfl⟩]))
  · rw [hreset hl key, if_neg fun h => hk h.1, done_loadIr]
  · exact (congrArg s.done (tapOp_locked hp hl _)).trans (done_bypass s)
  · show s.done (if s.dbg.pending then s else _) = _
    rw [hpend]
    rfl
  · show s.done (if s.powered ∧ s.dbg.pending then _ else s) = _
    rw [hpend, if_neg (by simp), State.done_self]
  · obtain ⟨u, hu, hk⟩ := exists_carried hresp
    refine ⟨u, hu, ?_⟩
    rw [hk.dbg]
    unfold State.takeResponse
    rw [loadIr_dbg]
    dsimp only
    rw [hpend, if_neg (by simpa using Option.ne_none_iff_isSome.2 hc)]
    exact ⟨rfl, rfl⟩
  · obtain ⟨u, hu, hk⟩ := exists_carried hresp
    refine ⟨u, hu, ?_⟩
    rw [hk.dbg]
    unfold State.takeResponse
    rw [loadIr_dbg]
    dsimp only
    rw [hc, if_pos (.inl rfl), loadIr_dbg]
  · show s.done (if s.dbg.pending then s else _) = _
    rw [hpend, if_pos rfl, State.done_self]
  · have hcheck := exec_unlockCheck hp hpend hc
    refine ⟨fun h1 => ?_, fun h1 => ?_⟩
    · rw [if_pos h1] at hcheck
      split
      · rename_i hpass
        rw [if_pos hpass] at hcheck
        obtain ⟨u, hu, hk⟩ := exists_carried hcheck
        obtain ⟨r, l, hr⟩ := State.raise_eq { s.checked with dbg := { s.checked.dbg with fails := 0, level := 1 } }
          Ev.DBG.UNLOCK_OBSERVE
        rw [hr] at hk
        refine ⟨u, hu, ?_⟩
        rw [hk.dbg, hk.sessions]
        exact ⟨rfl, rfl, rfl, rfl⟩
      · rename_i hfail
        rw [if_neg hfail] at hcheck
        exact unlockCheck_fails hcheck
    · rw [if_neg h1] at hcheck
      split
      · rename_i hpass
        rw [if_pos hpass] at hcheck
        obtain ⟨u, hu, hk⟩ := exists_carried hcheck
        obtain ⟨hd, hs, hkeys⟩ := grantFull_grants { s.checked with dbg := { s.checked.dbg with fails := 0 } }
        refine ⟨u, hu, ?_, ?_, ?_, hk.sessions.trans hs, fun i => ?_⟩
        · rw [hk.dbg, hd]
        · rw [hk.dbg, hd]
        · rw [hk.dbg, hd]
          rfl
        · unfold State.slot
          rw [hk.slots]
          exact hkeys i
      · rename_i hfail
        rw [if_neg hfail] at hcheck
        exact unlockCheck_fails hcheck
  · show s.done (if s.powered then _ else s) = _
    rw [if_pos hp]
    rfl

end Sys2Proof.Machine
end

section
/-! PROOF. O60: accesses of the debug port, and control of the cores (R474 to R478, Table 20-5). -/

namespace Sys2Proof.Machine

open Sys2Proof

/-! ## Accesses -/

/-- An access is turned away as busy, as a bad field or as not permitted (R474, R475). -/
theorem accessStatus_mem (s : State) (a : DbgAccess) (w : Bool) :
    s.accessStatus a w ∈ [none, some stBusy, some stBadField, some stNotPermitted] := by
  unfold State.accessStatus State.accessFails
  extract_lets c outside
  clear_value outside
  split
  · decide
  split
  · decide
  split
  · decide
  split
  · decide
  split <;> decide

/-- No status of an access that is turned away is OK. -/
theorem accessStatus_ne_ok {s : State} {a : DbgAccess} {w : Bool} {st : Nat} (h : s.accessStatus a w = some st) :
    st ≠ stOK := by
  have hm := accessStatus_mem s a w
  rw [h] at hm
  rintro rfl
  exact absurd hm (by decide)

theorem access_fails {s : State} {a : DbgAccess} {op st : Nat} {go : Nat → State → State}
    (h : s.accessStatus a (decide (op = 2)) = some st) :
    s.access a op go = (s.beginAccess a (s.accessAddr a) op).endAccess a op st 0 := by
  unfold State.access
  dsimp only
  rw [h]

theorem access_passes {s : State} {a : DbgAccess} {op : Nat} {go : Nat → State → State}
    (h : s.accessStatus a (decide (op = 2)) = none) :
    s.access a op go = go (s.accessAddr a) (s.beginAccess a (s.accessAddr a) op) := by
  unfold State.access
  dsimp only
  rw [h]

theorem accessAddr_loadIr (s : State) (code : Nat) (a : DbgAccess) : (s.loadIr code).accessAddr a = s.accessAddr a := by
  unfold State.accessAddr
  rw [loadIr_dbg]

theorem accessStatus_loadIr (s : State) (code : Nat) (a : DbgAccess) (w : Bool) :
    (s.loadIr code).accessStatus a w = s.accessStatus a w := by
  unfold State.loadIr
  dsimp only
  split <;> rfl

theorem coreRegs_loadIr (s : State) (code k : Nat) : (s.loadIr code).coreRegs k = s.coreRegs k := by
  unfold State.coreRegs
  rw [loadIr_dbg]

/-- What an access that is turned away puts out (R474). -/
theorem endAccess_refused (s : State) (a : DbgAccess) {op st d : Nat} (h : op = 1 → st ≠ stOK) :
    (s.endAccess a op st d).out = s.out ++ [.regResult .debug st []] := by
  show s.out ++ [Output.regResult .debug st (if op = 1 ∧ st = stOK then [BitVec.ofNat 32 d] else [])] = _
  rw [if_neg fun k => h k.1 k.2]

section
variable {s : State} (hp : s.powered = true) (hl : s.dbg.level = 2) {a : DbgAccess}
include hp hl

theorem exec_dbgAccessRead : exec (.dbgAccessRead a) s =
    s.done ((s.loadIr 0x13).access a 1 fun addr s => s.readSpace a addr) :=
  congrArg s.done (tapOp_takes hp (by omega) _)

theorem exec_dbgAccessWrite (v : Word) : exec (.dbgAccessWrite a v) s =
    s.doneMem ((s.loadIr 0x13).access a 2 fun addr s => s.writeSpace a addr v) (s.memAfter a v).1 (s.memAfter a v).2 :=
  congrArg (fun t => s.doneMem t _ _) (tapOp_takes hp (by omega) _)

theorem exec_dbgAccessRead_passes (h : s.accessStatus a false = none) : exec (.dbgAccessRead a) s =
    s.done (((s.loadIr 0x13).beginAccess a (s.accessAddr a) 1).readSpace a (s.accessAddr a)) := by
  rw [exec_dbgAccessRead hp hl, access_passes ((accessStatus_loadIr ..).trans h), accessAddr_loadIr]

/-- A read of four bytes or of a core's word puts its word out and stores nothing. -/
theorem dbgAccessRead_reads (h : s.accessStatus a false = none) {d : Nat} {w : Word} (hw : BitVec.ofNat 32 d = w)
    (hr : ((s.loadIr 0x13).beginAccess a (s.accessAddr a) 1).readSpace a (s.accessAddr a) =
      ((s.loadIr 0x13).beginAccess a (s.accessAddr a) 1).endAccess a 1 stOK d) :
    ∃ u, exec (.dbgAccessRead a) s = .next u ∧ u.out = (s.loadIr 0x13).out ++ [.regResult .debug stOK [w]] ∧
      u.sram = s.sram ∧ u.dram = s.dram := by
  refine ⟨_, (exec_dbgAccessRead_passes hp hl h).trans (State.done_eq ..), ?_, rfl, rfl⟩
  rw [hr, ← hw]
  rfl

end

theorem memAfter_refused {s : State} {a : DbgAccess} {st : Nat} (h : s.accessStatus a true = some st) (v : Word) :
    s.memAfter a v = (s.sram, s.dram) := by
  unfold State.memAfter
  dsimp only
  rw [h, if_neg fun k => absurd k.2.2 (by simp)]

/-- A write that passes stores four bytes in the memory that its space names. -/
theorem memAfter_passes {s : State} {a : DbgAccess} (hp : s.powered = true) (hl : s.dbg.level = 2)
    (h : s.accessStatus a true = none) (v : Word) :
    (s.memAfter a v).1 = (if a.space = 1 then s.sram.writeBytes (s.accessAddr a) (leBytes 4 v.toNat) else s.sram) ∧
    (s.memAfter a v).2 = (if a.space = 2 then s.dram.writeBytes (s.accessAddr a) (leBytes 4 v.toNat) else s.dram) := by
  unfold State.memAfter
  dsimp only
  rw [if_pos ⟨hp, by omega, h⟩]
  split
  · rename_i h1
    exact ⟨rfl, (if_neg (by omega)).symm⟩
  · split <;> exact ⟨rfl, rfl⟩

/-- A write of core SRAM, DRAM or a core's word answers OK; only the last changes the cores. -/
theorem writeSpace_answers (s : State) {a : DbgAccess} {addr : Nat} (v : Word) (h1 : 1 ≤ a.space) (h3 : a.space ≤ 3) :
    (s.writeSpace a addr v).out = s.out ++ [.regResult .debug stOK []] ∧
    (a.space = 3 → (s.writeSpace a addr v).dbg.cores = s.dbg.cores.map fun c =>
      if c.id = (coreWord addr).1 then { c with regs := c.regs.set (coreWord addr).2 v } else c) := by
  obtain h | h | h : a.space = 1 ∨ a.space = 2 ∨ a.space = 3 := by omega
  all_goals
    unfold State.writeSpace
    dsimp only
    rw [h]
  · exact ⟨endAccess_refused _ _ (by omega), nofun⟩
  · exact ⟨endAccess_refused _ _ (by omega), nofun⟩
  · exact ⟨endAccess_refused _ _ (by omega), fun _ => rfl⟩

/-! ## Cores -/

/-- A core after a halt of those listed, each for its cause (R477). -/
def State.haltedBy (s : State) (which : List (Nat × Nat)) (c : Core_) : Core_ :=
  match (which.filter fun x => s.dbg.cores.any fun c => c.id == x.1 && !c.halted).find? fun x => x.1 == c.id with
  | some x => c.stopped x.2 s.free
  | none => c

theorem haltedBy_id (s : State) (which : List (Nat × Nat)) (c : Core_) : (s.haltedBy which c).id = c.id := by
  unfold State.haltedBy
  split <;> rfl

/-- A halt changes each core as listed; the selected instruction stays. -/
theorem haltCores_halts (s : State) (which : List (Nat × Nat)) :
    (s.haltCores which).dbg.cores = s.dbg.cores.map (s.haltedBy which) ∧ (s.haltCores which).dbg.instr = s.dbg.instr := by
  unfold State.haltCores
  extract_lets live stop last dbg t
  split
  · rename_i h
    refine ⟨(List.map_id'' (fun c => ?_) _).symm, rfl⟩
    unfold State.haltedBy
    rw [show which.filter _ = [] from List.isEmpty_iff.1 h]
    rfl
  · have ht : t.dbg.cores = s.dbg.cores.map (s.haltedBy which) ∧ t.dbg.instr = s.dbg.instr := ⟨rfl, rfl⟩
    clear_value t
    obtain ⟨r, l, h⟩ := t.raise_eq Ev.DBG.CORE_HALTED
    rw [h]
    exact ht

/-- A listed core that runs is listed among those that the halt reaches. -/
theorem live_of_running {s : State} {which : List (Nat × Nat)} {c : Core_} {x : Nat × Nat} (hc : c ∈ s.dbg.cores)
    (hr : c.halted = false) (hx : x ∈ which) (hid : x.1 = c.id) :
    x ∈ which.filter fun x => s.dbg.cores.any fun c => c.id == x.1 && !c.halted :=
  List.mem_filter.2 ⟨hx, List.any_eq_true.2 ⟨c, hc, by rw [hr, hid]; simp⟩⟩

/-- A running core that is listed halts for a listed cause. -/
theorem haltedBy_running {s : State} {which : List (Nat × Nat)} {c : Core_} {x : Nat × Nat} (hc : c ∈ s.dbg.cores)
    (hr : c.halted = false) (hx : x ∈ which) (hid : x.1 = c.id) :
    (s.haltedBy which c).halted = true ∧ ∃ y ∈ which, (s.haltedBy which c).cause = y.2 := by
  unfold State.haltedBy
  split
  · rename_i y hy
    exact ⟨rfl, y, (List.mem_filter.1 (List.mem_of_find?_eq_some hy)).1, rfl⟩
  · rename_i hn
    exact absurd (beq_iff_eq.2 hid) (by simpa using List.find?_eq_none.1 hn x (live_of_running hc hr hx hid))

/-- Every core listed is halted after it. -/
theorem haltedBy_halted {s : State} {which : List (Nat × Nat)} {c : Core_} {x : Nat × Nat} (hc : c ∈ s.dbg.cores)
    (hx : x ∈ which) (hid : x.1 = c.id) : (s.haltedBy which c).halted = true := by
  cases hr : c.halted with
  | false => exact (haltedBy_running hc hr hx hid).1
  | true =>
    unfold State.haltedBy
    split
    · rfl
    · exact hr

/-- After a halt each core listed is halted. -/
theorem haltCores_halted {s : State} {which : List (Nat × Nat)} {c : Core_} (hc : c ∈ (s.haltCores which).dbg.cores)
    (hw : ∃ x ∈ which, x.1 = c.id) : c.halted = true := by
  rw [(haltCores_halts s which).1] at hc
  obtain ⟨d, hd, rfl⟩ := List.mem_map.1 hc
  obtain ⟨x, hx, hid⟩ := hw
  rw [haltedBy_id] at hid
  exact haltedBy_halted hd hx hid

theorem mem_coreList {cores : BitVec 8} {k : Nat} : k ∈ coreList cores ↔ cores.getLsbD k = true := by
  unfold coreList
  rw [List.mem_filter, List.mem_range]
  exact ⟨fun h => h.2, fun h => ⟨BitVec.lt_of_getLsbD h, h⟩⟩

/-- The cores that STEP runs: the selected ones that are halted. -/
def State.stepped (s : State) (cores : BitVec 8) : List Nat :=
  (coreList cores).filter fun k => s.dbg.cores.any fun c => c.id == k && c.halted

/-- STEP runs the cores selected and halts those again that were halted, for cause 1 (R477). -/
theorem step_halts {s : State} {cores : BitVec 8} {c d : Core_}
    (hc : c ∈ ((s.onCores cores fun c => { c with halted := false }).haltCores
      ((s.stepped cores).map fun k => (k, 1))).dbg.cores)
    (hs : cores.getLsbD c.id = true) (hd : d ∈ s.dbg.cores) (hid : d.id = c.id) (hh : d.halted = true) :
    c.halted = true ∧ c.cause = 1 := by
  rw [(haltCores_halts _ _).1] at hc
  obtain ⟨e, he, rfl⟩ := List.mem_map.1 hc
  rw [haltedBy_id] at hs hid
  have hr : e.halted = false := by
    obtain ⟨f, -, rfl⟩ := List.mem_map.1 he
    dsimp only at hs ⊢
    split at hs
    · rename_i h
      rw [if_pos h]
    · rename_i h
      exact absurd hs h
  have hk : e.id ∈ s.stepped cores :=
    List.mem_filter.2 ⟨mem_coreList.2 hs, List.any_eq_true.2 ⟨d, hd, by rw [hid, hh]; simp⟩⟩
  obtain ⟨h, y, hy, hcause⟩ := haltedBy_running (which := (s.stepped cores).map fun k => (k, 1)) he hr
    (List.mem_map.2 ⟨e.id, hk, rfl⟩) rfl
  obtain ⟨k, -, rfl⟩ := List.mem_map.1 hy
  exact ⟨h, hcause⟩

/-- An instruction for the cores at full unlock: selected, and its effect on cores and HALT_ALL. -/
theorem done_coreOp {s : State} (hp : s.powered = true) (hl : s.dbg.level = 2) (go : State → State)
    (hgo : (go (s.loadIr 0x14)).dbg.instr = (s.loadIr 0x14).dbg.instr) : ∃ u, s.done (s.coreOp go) = .next u ∧
      u.dbg.instr = 0x14 ∧ u.dbg.cores = (go (s.loadIr 0x14)).dbg.cores ∧
      u.dbg.haltAll = (go (s.loadIr 0x14)).dbg.haltAll := by
  rw [show s.coreOp go = ((go (s.loadIr 0x14)).scan (go (s.loadIr 0x14)).coreCapture) from tapOp_takes hp (by omega) _]
  refine ⟨_, State.done_eq .., ?_, rfl, rfl⟩
  show (go (s.loadIr 0x14)).dbg.instr = _
  rw [hgo, loadIr_dbg]

/-- A change of the cores selected. -/
theorem done_onCores {s : State} (hp : s.powered = true) (hl : s.dbg.level = 2) (cs : BitVec 8) (f : Core_ → Core_) :
    ∃ u, s.done (s.coreOp fun s => s.onCores cs f) = .next u ∧ u.dbg.instr = 0x14 ∧
      u.dbg.cores = s.dbg.cores.map fun c => if cs.getLsbD c.id then f c else c := by
  obtain ⟨u, hu, hi, hc, -⟩ := done_coreOp hp hl (fun s => s.onCores cs f) rfl
  refine ⟨u, hu, hi, hc.trans ?_⟩
  show (s.loadIr 0x14).dbg.cores.map _ = _
  rw [loadIr_dbg]

/-- A hit halts its core, and with HALT_ALL each of the eight. -/
theorem coreHit_halts {s : State} {d : Core_} {cause : Nat} {has : Core_ → Bool} (hs : s.serving = true) (hd : d ∈ s.dbg.cores)
    (hr : d.halted = false) (hh : has d = true) :
    (∀ x ∈ (s.coreHit d.id cause has).dbg.cores, x.id = d.id → x.halted = true) ∧
    (s.dbg.haltAll = true → ∀ x ∈ (s.coreHit d.id cause has).dbg.cores, x.id < 8 → x.halted = true) := by
  unfold State.coreHit
  rw [if_pos ⟨hs, List.any_eq_true.2 ⟨d, hd, by rw [hr, hh]; simp⟩⟩]
  dsimp only
  refine ⟨fun x hx hid => haltCores_halted hx ⟨(d.id, cause), List.mem_cons_self .., hid.symm⟩, fun ha x hx h8 => ?_⟩
  rw [ha] at hx
  refine haltCores_halted hx ?_
  by_cases hid : x.id = d.id
  · exact ⟨(d.id, cause), List.mem_cons_self .., hid.symm⟩
  · refine ⟨(x.id, 4), List.mem_cons_of_mem _ (List.mem_map.2 ⟨x.id, List.mem_filter.2 ⟨List.mem_range.2 h8, ?_⟩, rfl⟩), rfl⟩
    simpa using hid

/-- Settles O60: the accesses by the memory that their space names, and the core instructions by the cores they list. -/
theorem debugAccessesAndCores : Obligations.DebugAccessesAndCores := by
  unfold Obligations.DebugAccessesAndCores
  intro s a v cs n k addr hp hl at_ read cores each
  refine ⟨fun st h => ?_, fun h => ⟨fun h0 st vs x hr => ?_, fun h1 => ?_, fun h2 => ?_, fun h3 => ?_⟩, fun st h => ?_,
    fun h h1 h3 => ?_, ?_, done_onCores hp hl cs _, ?_, done_onCores hp hl cs _, done_onCores hp hl cs _, fun hn => ?_,
    done_onCores hp hl cs _, ?_, ?_, fun hs d hd hr => ?_⟩
  · have hne := accessStatus_ne_ok h
    refine ⟨_, (exec_dbgAccessRead hp hl).trans (State.done_eq ..), ?_, hne⟩
    rw [access_fails ((accessStatus_loadIr ..).trans h)]
    exact endAccess_refused _ _ fun _ => hne
  · refine ⟨_, (exec_dbgAccessRead_passes hp hl h).trans (State.done_eq ..), ?_⟩
    have he : ((s.loadIr 0x13).beginAccess a at_ 1).readSpace a at_ = x.endAccess a 1 st ((vs.head?.getD 0).toNat) := by
      unfold State.readSpace
      rw [h0, hr]
      rfl
    show (State.readSpace ((s.loadIr 0x13).beginAccess a at_ 1) a at_).out = _
    rw [he]
    show x.out ++ [Output.regResult .debug st (if 1 = 1 ∧ st = stOK then [BitVec.ofNat 32 _] else [])] = _
    rw [BitVec.ofNat_toNat, BitVec.setWidth_eq]
    simp only [true_and]
  · refine dbgAccessRead_reads hp hl h rfl ?_
    unfold State.readSpace
    rw [h1]
    show State.endAccess _ _ _ _ (leNat ((s.loadIr 0x13).sram.readBytes _ 4)) = _
    rw [(spares_loadIr s 0x13).sram]
  · refine dbgAccessRead_reads hp hl h rfl ?_
    unfold State.readSpace
    rw [h2]
    show State.endAccess _ _ _ _ (leNat ((s.loadIr 0x13).dram.readBytes _ 4)) = _
    rw [(spares_loadIr s 0x13).dram]
  · refine dbgAccessRead_reads hp hl h (d := (((s.coreRegs (coreWord at_).1).getD (coreWord at_).2 0)).toNat) ?_ ?_
    · rw [BitVec.ofNat_toNat, BitVec.setWidth_eq]
    · unfold State.readSpace
      rw [h3]
      show State.endAccess _ _ _ _ (((s.loadIr 0x13).coreRegs _).getD _ 0).toNat = _
      rw [coreRegs_loadIr]
  · refine ⟨_, exec_dbgAccessWrite hp hl v, ?_, congrArg Prod.fst (memAfter_refused h v),
      congrArg Prod.snd (memAfter_refused h v)⟩
    rw [access_fails ((accessStatus_loadIr ..).trans h)]
    exact endAccess_refused _ _ nofun
  · obtain ⟨hm, hm'⟩ := memAfter_passes hp hl h v
    refine ⟨_, exec_dbgAccessWrite hp hl v, ?_, hm, hm', ?_⟩
    all_goals
      rw [access_passes ((accessStatus_loadIr ..).trans h), accessAddr_loadIr]
    · exact (writeSpace_answers _ v h1 h3).1
    · intro h3'
      refine ((writeSpace_answers _ v h1 h3).2 h3').trans ?_
      show (s.loadIr 0x13).dbg.cores.map _ = _
      rw [loadIr_dbg]
  · obtain ⟨u, hu, hi, hc, -⟩ := done_coreOp hp hl (fun s => s.haltCores ((coreList cs).map fun k => (k, 0)))
      (haltCores_halts ..).2
    refine ⟨u, hu, hi, fun c hcu hsel => ?_⟩
    rw [hc] at hcu
    exact haltCores_halted hcu ⟨(c.id, 0), List.mem_map.2 ⟨c.id, mem_coreList.2 hsel, rfl⟩, rfl⟩
  · obtain ⟨u, hu, hi, hc, -⟩ := done_coreOp hp hl (fun s => (s.onCores cs fun c => { c with halted := false }).haltCores
      ((s.stepped cs).map fun k => (k, 1))) (haltCores_halts ..).2
    refine ⟨u, hu, hi, fun c hcu hsel ⟨d, hd, hid, hh⟩ => ?_⟩
    rw [hc] at hcu
    exact step_halts hcu hsel (by rwa [loadIr_dbg]) hid hh
  · obtain ⟨u, hu, h⟩ := done_onCores hp hl cs fun c =>
      { c with watches := putWhere (fun x => x.1 == n) (n, addr &&& ~~~(7 : BitVec 48), k % 4) c.watches }
    refine ⟨u, Eq.trans ?_ hu, h⟩
    show s.done (s.coreOp fun s => if n < 4 then _ else s) = _
    simp only [if_pos hn]
  · obtain ⟨u, hu, hi, -, hh⟩ := done_coreOp hp hl (fun s => { s with dbg := { s.dbg with haltAll := true } }) rfl
    exact ⟨u, hu, hi, hh⟩
  · obtain ⟨u, hu, hi, -, hh⟩ := done_coreOp hp hl (fun s => { s with dbg := { s.dbg with haltAll := false } }) rfl
    exact ⟨u, hu, hi, hh⟩
  · exact ⟨fun hb => ⟨_, State.done_eq .., coreHit_halts hs hd hr hb⟩,
      fun hw => ⟨_, State.done_eq .., coreHit_halts hs hd hr hw⟩⟩

end Sys2Proof.Machine
end

section
/-! PROOF. O23: key slots provisioned and erased, and operator enrolment (R365, R370 to R372, R380). -/

namespace Sys2Proof.Machine

open Sys2Proof

/-! ## The entry of an admission order -/

theorem mem_putWhere {α : Type} {p : α → Bool} {x y : α} {l : List α} (h : y ∈ putWhere p x l) :
    y = x ∨ y ∈ l ∧ p y = false := by
  unfold putWhere at h
  split at h
  · obtain ⟨z, hz, rfl⟩ := List.mem_map.1 h
    split
    · exact .inl rfl
    · rename_i hp
      exact .inr ⟨hz, by simpa using hp⟩
  · rename_i hp
    obtain h | h := List.mem_append.1 h
    · exact .inr ⟨h, by simpa using fun k => hp (List.any_eq_true.2 ⟨y, h, k⟩)⟩
    · exact .inl (List.mem_singleton.1 h)

theorem self_mem_putWhere {α : Type} {p : α → Bool} {x : α} (hx : p x = true) (l : List α) : x ∈ putWhere p x l :=
  List.mem_of_find?_eq_some (find_putWhere p x hx l)

/-- An entry that alone has its admission order is the one found by it. -/
theorem entryAt_begun {s t : State} {e : TagEntry} (hs : s.Sole e) (ht : t.cmd = (s.begun e).cmd) :
    t.entryAt e.order = some e.started := by
  have hmem : e.started ∈ (s.begun e).cmd.tags := 
    self_mem_putWhere (p := fun x : TagEntry => x.id == e.id) (x := e.started) (beq_self_eq_true e.id) s.cmd.tags
  unfold State.entryAt
  rw [ht]
  cases hf : (s.begun e).cmd.tags.find? fun f => f.order == e.order with
  | none => exact absurd (beq_self_eq_true e.order) (List.find?_eq_none.1 hf e.started hmem)
  | some f =>
    obtain rfl | ⟨hin, hid⟩ := mem_putWhere (List.mem_of_find?_eq_some hf)
    · rfl
    · exact absurd (hs f hin (by simpa using List.find?_some hf)) (by simpa using hid)

theorem finishAt_begun {s t : State} {e : TagEntry} (hs : s.Sole e) (ht : t.cmd = (s.begun e).cmd) (st : Nat) (p : Bytes) :
    t.finishAt e.order st p = t.finish e.started st p := by
  unfold State.finishAt
  rw [entryAt_begun hs ht]

/-! ## Slots -/

/-- Fuses that stay as they are may be called blown. -/
theorem doneBlown_spares {s t : State} (h : s.Spares t) : s.doneBlown t = s.done t := by
  unfold State.doneBlown State.done Fuses.blown
  rw [h.fuses, Bool.or_self, Nat.max_self]

/-- Work on a key takes counters and the model's free choices alone (Table 15-5). -/
theorem newKey_eq (s : State) (k : Provision) (b : Bytes) : ∃ r f, (s.newKey k b).2 = { s with regs := r, free := f } := by
  have hc : ∀ n, ∃ r f, s.cipher 3 n = { s with regs := r, free := f } := by
    intro n
    unfold State.cipher
    split <;> exact ⟨_, s.free, rfl⟩
  unfold State.newKey
  dsimp only
  split
  · split
    · exact ⟨s.regs, _, rfl⟩
    · exact ⟨s.regs, s.free, rfl⟩
  · split
    · exact ⟨s.regs, s.free, rfl⟩
    · split
      · split
        · exact hc _
        · exact ⟨s.regs, s.free, rfl⟩
      · exact ⟨s.regs, s.free, rfl⟩

/-- A slot that keys no session changes with its vault record and nothing but registers and the log beside the key store
(R371). -/
theorem changeSlot_eq {s : State} {i : Nat} (h : ∀ y ∈ s.sessions, y.keySlot ≠ i) (x : Slot) : ∃ r l k,
    s.changeSlot i x = { s with regs := r, log := l, key := k } ∧ k.slots = SMap.set slotDefault i x s.key.slots ∧
      k.vault = SMap.set slotDefault i x s.key.vault ∧ k.fuses = s.key.fuses := by
  unfold State.changeSlot
  extract_lets t old key ids
  have hids : ids = [] := by
    refine List.map_eq_nil_iff.2 (List.filter_eq_nil_iff.2 fun y hy => ?_)
    simpa using h y hy
  rw [hids, List.foldl_nil]
  obtain ⟨r, l, hr⟩ := State.raise_eq { t with key := key } Ev.KEY.SLOT_CHANGED
  rw [hr]
  exact ⟨r, l, key, rfl, rfl, rfl, rfl⟩

/-- A slot's change answered under the admission order of its command (R371). -/
theorem done_changeSlot {s s1 : State} {e : TagEntry} (hs : s.Sole e) (hb : ∃ r f, s1 = { s.begun e with regs := r, free := f })
    {i : Nat} (hi : ∀ y ∈ s.sessions, y.keySlot ≠ i) (x : Slot) (p : Bytes) :
    s.Spares ((s1.changeSlot i x).finishAt e.order stOK p) ∧
    ∃ u m : State, s.done ((s1.changeSlot i x).finishAt e.order stOK p) = .next u ∧ u.Answers e (doneWith stOK e.asn p) ∧
      m.AnswerFrame e u ∧ m.key.slots = SMap.set slotDefault i x s.key.slots ∧
      m.key.vault = SMap.set slotDefault i x s.key.vault ∧ m.key.fuses = s.key.fuses ∧ m.kv = s.kv := by
  have h1 : s.Spares s1 ∧ s1.cmd = (s.begun e).cmd ∧ s1.sessions = s.sessions ∧ s1.key = s.key ∧ s1.kv = s.kv := by
    obtain ⟨r, f, rfl⟩ := hb
    exact ⟨⟨rfl, rfl, rfl, rfl⟩, rfl, rfl, rfl, rfl⟩
  obtain ⟨hsp, hcmd, hses, hkey, hkv⟩ := h1
  rw [← hses] at hi
  obtain ⟨r, l, k, hc, hslots, hvault, hfuses⟩ := changeSlot_eq hi x
  rw [hkey] at hslots hvault hfuses
  rw [hc, finishAt_begun (t := { s1 with regs := r, log := l, key := k }) hs hcmd]
  have hm : s.Spares { s1 with regs := r, log := l, key := k } := Spares.trans hsp ⟨rfl, rfl, rfl, hfuses.trans (by rw [hkey])⟩
  obtain ⟨u, hu, ha, hk⟩ := done_finish hm e stOK p
  exact ⟨Spares.trans hm (Spares.of_answerKeeps (AnswerKeeps.finish ..)), u, _, hu, ha, hk, hslots, hvault, hfuses, hkv⟩

/-- A key-store command that fails one of its checks only answers, and perhaps reports. -/
theorem done_refuseKey (s : State) (e : TagEntry) (st : Nat) : s.Spares ((s.begun e).refuseKey e.started st) ∧
    ∃ u, s.done ((s.begun e).refuseKey e.started st) = .next u ∧ u.Answers e (doneWith st e.asn []) ∧ s.AnswerFrame e u := by
  unfold State.refuseKey
  generalize hm : (if st = stRetention then (s.begun e).report Ev.SEA.RETENTION_REFUSED stRetention else s.begun e) = m
  have ha : (s.begun e).Answering m := by
    rw [← hm]
    split
    · exact Answering.report ..
    · exact Answering.refl _
  have hsp : s.Spares m := Spares.trans (Spares.begun s e) (Spares.of_answering ha)
  obtain ⟨u, hu, hans, hf⟩ := done_finish hsp e st []
  exact ⟨Spares.trans hsp (Spares.of_answerKeeps (AnswerKeeps.finish ..)), u, hu, hans,
    AnswerFrame.of_begun (AnswerFrame.of_answering ha hf)⟩

/-! ## Enrolment -/

theorem hashed_eq (s : State) (n : Nat) : ∃ r, s.hashed n = { s with regs := r } := by
  unfold State.hashed
  split
  · exact ⟨_, rfl⟩
  · exact ⟨s.regs, rfl⟩

/-- A provisioning asks its command's own fields, whatever its entry's state. -/
theorem keyProvisionBody_started (f : Bool) (e : TagEntry) (s : State) : keyProvisionBody f e.started s =
    if (provision e.msg.param).op = 3 then s.enrol e.started f
    else
      match s.slotCheck (provision e.msg.param).slot ((provision e.msg.param).pflags % 2 = 1) (provision e.msg.param).expect false with
      | some st => s.refuseKey e.started st
      | none =>
        match s.newKey (provision e.msg.param) e.msg.value with
        | (.error st, s) => s.finish e.started st []
        | (.ok x, s) => (s.changeSlot (provision e.msg.param).slot x).finishAt e.order stOK (beBytes 2 x.gen) := rfl

theorem keyEraseBody_started (e : TagEntry) (s : State) : keyEraseBody e.started s =
    match s.slotCheck (beAt e.msg.param 0 2) (beAt e.msg.param 4 1 = 1) (beAt e.msg.param 2 2) true with
    | some st => s.refuseKey e.started st
    | none =>
      if (s.slot (beAt e.msg.param 0 2)).present then
        (s.changeSlot (beAt e.msg.param 0 2) ⟨(s.slot (beAt e.msg.param 0 2)).gen + 1, 0, []⟩).finishAt e.order stOK
          (beBytes 2 ((s.slot (beAt e.msg.param 0 2)).gen + 1))
      else s.finish e.started stAbsent (beBytes 2 (s.slot (beAt e.msg.param 0 2)).gen) := rfl

section
variable {s : State} {t : TagId} {e : TagEntry}

theorem exec_keyProvision (h : s.Starts t 0x50 e) (f : Bool) :
    exec (.keyProvision t f) s = s.doneBlown (keyProvisionBody f e.started (s.begun e)) :=
  congrArg s.doneBlown (runCmd_starts h _)

theorem exec_keyErase (h : s.Starts t 0x51 e) : exec (.keyErase t) s = s.done (keyEraseBody e.started (s.begun e)) :=
  congrArg s.done (runCmd_starts h _)

/-- A provisioning that ends sparing the fuses. -/
theorem exec_keyProvision_spares (h : s.Starts t 0x50 e) {f : Bool} {u : State}
    (hb : keyProvisionBody f e.started (s.begun e) = u) (hs : s.Spares u) : exec (.keyProvision t f) s = s.done u := by
  rw [exec_keyProvision h, hb, doneBlown_spares hs]

theorem exec_enrol (h : s.Starts t 0x50 e) (hop : (provision e.msg.param).op = 3) (f : Bool) :
    exec (.keyProvision t f) s = s.doneBlown ((s.begun e).enrol e.started f) := by
  rw [exec_keyProvision h]
  unfold keyProvisionBody
  exact congrArg s.doneBlown (if_pos hop)

end

/-- No bit is set where every byte is 0. -/
theorem any_ne_zero_false {l : Bytes} (h : (l.all fun b => b == 0) = true) : (l.any fun b => b != 0) = false := by
  rw [List.any_eq_false]
  intro b hb
  simpa using List.all_eq_true.1 h b hb

/-- The state in which an enrolment is answered: the fuses hold the digest's bits (R380). -/
theorem enrol_blows {s : State} {e : TagEntry} (hen : s.key.fuses.enrolled = false)
    (hconf : bitOf (provision e.msg.param).pflags 1 = true) (htypes : hssTypesOk e.msg.value = true) (hhash : s.noHash = false)
    (hextra : (List.zipWith (fun (a b : Byte) => a &&& ~~~b) s.key.fuses.operPk (sha256 e.msg.value)).all (fun b => b == 0) = true) :
    ∃ m : State, s.enrol e true = m.finish e stOK [] ∧ m.key.fuses = { s.key.fuses with
      enrolled := true, operPk := List.zipWith (fun a b => a ||| b) s.key.fuses.operPk (sha256 e.msg.value) } := by
  unfold State.enrol
  dsimp only
  rw [hen, hconf, htypes, hhash, any_ne_zero_false hextra, if_neg (by decide), if_neg (by decide), if_neg (by decide),
    if_neg (by decide), if_pos rfl]
  refine ⟨_, rfl, ?_⟩
  generalize ht : ({ s with key := _ } : State) = t
  obtain ⟨r, hr⟩ := hashed_eq t 60
  obtain ⟨r', l', hl⟩ := State.raise_eq (t.hashed 60) Ev.KEY.ENROLLED
  rw [hl, hr, ← ht]

/-- Settles O23: the body's checks in their order, the change of the slot behind them, and the fuses an enrolment blows. -/
theorem slotsAreProvisionedAndErased : Obligations.SlotsAreProvisionedAndErased := by
  unfold Obligations.SlotsAreProvisionedAndErased
  intro s t e hsole k i old
  refine ⟨fun h hop => ⟨fun st f hc => ?_, fun x s1 f hc hn hy => ?_, fun st s1 f hc hn => ?_⟩,
    fun h hc => ⟨fun hp hy => ?_, fun hp => ?_⟩, fun h hop => ⟨fun hen f => ?_, fun hen hconf ht hh hx => ?_⟩⟩
  · obtain ⟨hsp, hd⟩ := done_refuseKey s e st
    rw [exec_keyProvision_spares h ?_ hsp]
    · exact hd
    · rw [keyProvisionBody_started, if_neg hop, hc]
  · have hb : ∃ r f, s1 = { s.begun e with regs := r, free := f } := by
      obtain ⟨r, f, he⟩ := newKey_eq (s.begun e) k e.msg.value
      exact ⟨r, f, by rw [← he, hn]⟩
    obtain ⟨hsp, hd⟩ := done_changeSlot hsole hb hy x (beBytes 2 x.gen)
    rw [exec_keyProvision_spares h ?_ hsp]
    · exact hd
    · rw [keyProvisionBody_started, if_neg hop, hc]
      dsimp only
      rw [hn]
  · obtain ⟨r, g, rfl⟩ : ∃ r f, s1 = { s.begun e with regs := r, free := f } := by
      obtain ⟨r, f, he⟩ := newKey_eq (s.begun e) k e.msg.value
      exact ⟨r, f, by rw [← he, hn]⟩
    have hm : s.Spares { s.begun e with regs := r, free := g } := ⟨rfl, rfl, rfl, rfl⟩
    rw [exec_keyProvision_spares h ?_ (Spares.trans hm (Spares.of_answerKeeps (AnswerKeeps.finish _ e.started st [])))]
    · exact done_finish hm e st []
    · rw [keyProvisionBody_started, if_neg hop, hc]
      dsimp only
      rw [hn]
  · have hbody : keyEraseBody e.started (s.begun e) =
        ((s.begun e).changeSlot i ⟨old.gen + 1, 0, []⟩).finishAt e.order stOK (beBytes 2 (old.gen + 1)) := by
      rw [keyEraseBody_started, hc]
      exact if_pos hp
    obtain ⟨-, u, m, hu, ha, hk, hs, hv, -, hkv⟩ := done_changeSlot hsole ⟨_, _, rfl⟩ hy ⟨old.gen + 1, 0, []⟩ (beBytes 2 (old.gen + 1))
    rw [exec_keyErase h, hbody]
    exact ⟨u, m, hu, ha, hk, hs, hv, hkv⟩
  · have hbody : keyEraseBody e.started (s.begun e) = (s.begun e).finish e.started stAbsent (beBytes 2 old.gen) := by
      rw [keyEraseBody_started, hc]
      exact if_neg fun hq => Bool.false_ne_true (hp.symm.trans hq)
    rw [exec_keyErase h, hbody]
    exact done_post_begun ..
  · have hb : (s.begun e).enrol e.started f = (s.begun e).finish e.started stNotPermitted [] := if_pos hen
    rw [exec_enrol h hop, hb, doneBlown_spares
      (Spares.trans (Spares.begun s e) (Spares.of_answerKeeps (AnswerKeeps.finish ..)))]
    exact done_post_begun ..
  · obtain ⟨m, hm, hf⟩ := enrol_blows (s := s.begun e) (e := e.started) hen hconf ht hh hx
    refine ⟨_, (exec_enrol h hop true).trans (by rw [hm]; rfl), ?_, ?_⟩
    · exact answers_congr rfl rfl (post_answers m e.started _)
    · show Fuses.blown s.key.fuses (m.finish e.started stOK []).key.fuses = _
      rw [(AnswerKeeps.finish m e.started stOK []).fuses, hf]
      unfold Fuses.blown
      rw [hen]
      simp only [Bool.false_or]
      rw [show (s.begun e).key.fuses.rollback = s.key.fuses.rollback from rfl, Nat.max_self]
      rfl

end Sys2Proof.Machine
end

section
/-! SUPPORT. What the work of a service operation changes, and what an answer leaves of the host crypto service's pages (R152,
R355, R358). -/

namespace Sys2Proof.Machine

open Sys2Proof

/-! ## Work on a core -/

/-- Only what the work of an operation may change differs: registers, the log, the key store's slots and counters, and the
model's free choices. -/
def State.Computes (s u : State) : Prop :=
  ∃ r l k f, u = { s with regs := r, log := l, key := k, free := f } ∧ k.fuses = s.key.fuses

namespace Computes

theorem refl (s : State) : s.Computes s := ⟨s.regs, s.log, s.key, s.free, rfl, rfl⟩

theorem trans {s t u : State} (h : s.Computes t) (k : t.Computes u) : s.Computes u := by
  obtain ⟨r, l, x, f, rfl, hx⟩ := h
  obtain ⟨r', l', x', f', rfl, hx'⟩ := k
  exact ⟨r', l', x', f', rfl, hx'.trans hx⟩

theorem of_enciphers {s u : State} (h : s.Enciphers u) : s.Computes u := by
  obtain ⟨r, l, k, rfl, hk⟩ := h
  exact ⟨r, l, k, s.free, rfl, hk⟩

theorem setRegs (s : State) (r : Regs) : s.Computes { s with regs := r } := ⟨r, s.log, s.key, s.free, rfl, rfl⟩

theorem spares {s u : State} (h : s.Computes u) : s.Spares u := by
  obtain ⟨r, l, k, f, rfl, hk⟩ := h
  exact ⟨rfl, rfl, rfl, hk⟩

theorem cmd {s u : State} (h : s.Computes u) : u.cmd = s.cmd := by
  obtain ⟨r, l, k, f, rfl, -⟩ := h
  rfl

theorem cry {s u : State} (h : s.Computes u) : u.cry = s.cry := by
  obtain ⟨r, l, k, f, rfl, -⟩ := h
  rfl

theorem svcIv (s : State) (q : SvcReq) : s.Computes (s.svcIv q).2 := by
  unfold State.svcIv
  split
  · exact refl s
  · dsimp only
    split
    · exact ⟨s.regs, s.log, s.key, _, rfl, rfl⟩
    · split
      · have h := Enciphers.nonce s q.slot
        split <;> (rename_i hn; exact of_enciphers (Enciphers.of_pair hn h))
      · exact refl s

theorem svcTagFail (s : State) (st : Nat) : s.Computes (s.svcTagFail st) := by
  unfold State.svcTagFail
  split
  · exact setRegs ..
  · exact refl s

theorem svcWork (s : State) (q : SvcReq) (core : Nat) : s.Computes (s.svcWork q core) := by
  unfold State.svcWork
  split
  · obtain ⟨r, h⟩ := hashed_eq s q.textLen
    rw [h]
    exact setRegs ..
  · exact setRegs ..

end Computes

/-! ## Answers and pages -/

/-- An answer may take pages away, where a session ends with it, and makes none. -/
theorem AnswerFrame.pages {s u : State} {e : TagEntry} (h : s.AnswerFrame e u) : ∃ p, u.cry.pages = s.cry.pages.filter p := by
  obtain ⟨m, ⟨r, l, cm, ss, o, q, rfl⟩, h⟩ := h
  have hsame : ∃ p, s.cry.pages = s.cry.pages.filter p := ⟨fun _ => true, (List.filter_eq_self.2 fun _ _ => rfl).symm⟩
  have hend : ∀ (t : State) i, ∃ p, (t.endSession i).cry.pages = t.cry.pages.filter p := by
    intro t i
    unfold State.endSession
    split
    · exact ⟨fun _ => true, (List.filter_eq_self.2 fun _ _ => rfl).symm⟩
    · dsimp only
      generalize hg : State.releasePages _ i = w
      obtain ⟨r, l, hr⟩ := State.releasePages_eq _ i
      rw [← hg, hr]
      exact ⟨_, rfl⟩
  split at h
  · obtain rfl | ⟨x, -, -, rfl⟩ := h
    · exact hsame
    · exact hend ..
  · obtain ⟨p, rfl⟩ := h
    unfold State.fabReply
    split
    rename_i hm
    obtain ⟨r, l, k, he, -⟩ := Enciphers.makeFrames { s.dropEarly (fun t => t == e.id) with
      regs := r, log := l, cmd := cm, sessions := ss, out := o, portQueue := q } _ _
    rw [hm] at he
    dsimp only at he
    rw [he]
    exact hsame
  · rw [h]
    exact hsame

/-- No page appears with an answer. -/
theorem AnswerFrame.svcPage_none {s u : State} {e : TagEntry} (h : s.AnswerFrame e u) {i : Nat} (hn : s.svcPage? i = none) :
    u.svcPage? i = none := by
  obtain ⟨p, hp⟩ := AnswerFrame.pages h
  unfold State.svcPage? at *
  rw [hp, List.find?_eq_none]
  exact fun x hx => List.find?_eq_none.1 hn x (List.mem_filter.1 hx).1

theorem svcPage_setSvcPage (s : State) (p : SvcResult) : (s.setSvcPage p).svcPage? p.page = some p :=
  find_putWhere (fun x : SvcResult => x.page == p.page) p (beq_self_eq_true p.page) s.cry.pages

theorem svcPage_page {s : State} {i : Nat} {p : SvcResult} (h : s.svcPage? i = some p) : p.page = i := by
  simpa using List.find?_some h

/-- A result held on a page that is there. -/
theorem holdResult_holds {s : State} {p : SvcResult} {page : Nat} (h : s.svcPage? page = some p) (order st : Nat) (r : Bytes)
    (plain : Bool) (fs : List Nat) : ∃ m : State, s.holdResult order page st r plain fs = m.finishAt order st [] ∧
      m = s.setSvcPage { p with result := some r, plain := plain, frames := if plain then fs else [] } ∧
      m.svcPage? page = some { p with result := some r, plain := plain, frames := if plain then fs else [] } := by
  refine ⟨_, ?_, rfl, ?_⟩
  · unfold State.holdResult
    rw [h]
  · rw [← svcPage_page h]
    exact svcPage_setSvcPage s { p with result := some r, plain := plain, frames := if plain then fs else [] }

end Sys2Proof.Machine
end

section
/-! PROOF. O26: the host crypto service (R341, R350, R355, R357 to R359). -/

namespace Sys2Proof.Machine

open Sys2Proof

/-- The state in which a service PUT has claimed its page: it holds no result (R357). -/
def State.claims (s : State) (e : TagEntry) : State := (s.begun e).setSvcPage ⟨e.msg.page, e.id.ctx, none, false, []⟩

theorem spares_claims (s : State) (e : TagEntry) : s.Spares (s.claims e) := ⟨rfl, rfl, rfl, rfl⟩

theorem svcPage_claims (s : State) (e : TagEntry) : (s.claims e).svcPage? e.msg.page = some ⟨e.msg.page, e.id.ctx, none, false, []⟩ :=
  svcPage_setSvcPage (s.begun e) ⟨e.msg.page, e.id.ctx, none, false, []⟩

section
variable {s : State} {t : TagId} {e : TagEntry}

/-- A service PUT of a page that no other session owns claims it, and goes on by its descriptor and checks. -/
theorem exec_hostCryptoServicePut (h : s.Starts t 0x02 e) (hns : e.msg.nsid = 0) (hf : s.svcForeign e.id.ctx e.msg.page = false)
    (ho : s.cry.suspended.all (fun x => x.order != e.order) = true) (suspend : Bool) :
    exec (.hostCryptoServicePut t suspend) s = s.done (
      if svcBad e.msg.value then (s.claims e).finish e.started stBadField []
      else
        match (s.claims e).svcCheck (svcReq e.msg.value) with
        | some st => (s.claims e).finish e.started st []
        | none =>
          if (s.claims e).svcWaits (svcReq e.msg.value) then (s.claims e).setEntry { e with state := .admitted }
          else (s.claims e).svcStart e.started (svcReq e.msg.value) suspend) := by
  refine congrArg s.done ((runCmd_starts h _).trans ?_)
  have hany : (s.cry.suspended.any fun x => x.order == e.order) = false := by
    rw [List.any_eq_false]
    intro x hx
    simpa using List.all_eq_true.1 ho x hx
  show (if e.msg.nsid ≠ 0 ∨ (s.cry.suspended.any fun x => x.order == e.order) = true then _
    else if s.svcForeign e.id.ctx e.msg.page = true then _ else _) = _
  rw [hany, hf, hns, if_neg (by simp), if_neg Bool.false_ne_true]
  rfl

/-- A command whose result is held on its page answers the operation's status, found by its admission order. -/
theorem done_holdResult (hs : s.Sole e) {m : State} {p : SvcResult} {page : Nat} (hm : s.Spares m) (hc : m.cmd = (s.begun e).cmd)
    (hp : m.svcPage? page = some p) (st : Nat) (r : Bytes) (plain : Bool) (fs : List Nat) :
    ∃ u n : State, s.done (m.holdResult e.order page st r plain fs) = .next u ∧ u.Answers e (doneWith st e.asn []) ∧
      n.AnswerFrame e u ∧
      n.svcPage? page = some { p with result := some r, plain := plain, frames := if plain then fs else [] } := by
  obtain ⟨n, hn, he, hq⟩ := holdResult_holds hp e.order st r plain fs
  have hcmd : n.cmd = (s.begun e).cmd := by rw [he, ← hc]; rfl
  have hsp : s.Spares n := by rw [he]; exact Spares.trans hm ⟨rfl, rfl, rfl, rfl⟩
  rw [hn, finishAt_begun hs hcmd]
  obtain ⟨u, hu, ha, hf⟩ := done_finish hsp e st []
  exact ⟨u, n, hu, ha, hf, hq⟩

/-- What a claimed operation keeps as it works: its page, its entry and what only the debug port reaches. -/
theorem claims_computes {m : State} (h : (s.claims e).Computes m) : s.Spares m ∧ m.cmd = (s.begun e).cmd ∧
    m.svcPage? e.msg.page = some ⟨e.msg.page, e.id.ctx, none, false, []⟩ := by
  refine ⟨Spares.trans (spares_claims s e) (Computes.spares h), (Computes.cmd h).trans rfl, ?_⟩
  rw [← svcPage_claims s e]
  unfold State.svcPage?
  rw [Computes.cry h]

end

/-- An operation that starts on a core in service (R341, R357, R358). -/
theorem svcStart_runs {s : State} {e : TagEntry} {q : SvcReq} (ho : (if q.hash then s.noHash else s.noCipher) = false)
    (suspend : Bool) : s.svcStart e q suspend =
      match (s.count Reg.CRY.SVC_OPS 1).svcIv q with
      | (.error st, u) => u.holdResult e.order e.msg.page st
          (svcResult q (if q.hash then 0 else (s.slot q.slot).gen) [] ⟨st, [], [], false⟩) false []
      | (.ok iv, u) =>
        let o := svcRun (s.slot q.slot).key q iv
        let r := svcResult q (if q.hash then 0 else (s.slot q.slot).gen) iv o
        let plain := q.decrypts && o.status == stOK
        let core := (s.svcCore q).getD 0
        let frames := if q.decrypts then (s.freeFrames core).take (framesFor q.textLen) else []
        if suspend ∧ u.cry.phase = 1 ∧ !q.hash ∧ (u.cry.suspended.filter fun x => x.core == core).length < 16 then
          ({ u with cry := { u.cry with
            suspended := u.cry.suspended ++ [(⟨u.cry.nextOp, core, e.msg.page, q.slot, if q.hash then 0 else (s.slot q.slot).gen,
              e.order, o.status, r, plain, q.work, frames⟩ : Suspended)],
            nextOp := u.cry.nextOp + 1 } }).count Reg.CRY.SUSPENSIONS 1
        else ((u.svcTagFail o.status).svcWork q core).holdResult e.order e.msg.page o.status r plain frames := by
  unfold State.svcStart
  dsimp only
  rw [ho, if_neg Bool.false_ne_true] <;> rfl

/-- Settles O26: what a claimed PUT does by its checks, and the page's life after it. -/
theorem theHostCryptoServiceHoldsResults : Obligations.TheHostCryptoServiceHoldsResults := by
  unfold Obligations.TheHostCryptoServiceHoldsResults
  intro s t e f p hns hsole hfor q b gen core frames
  have hid : ∀ op, s.Starts t op e → e.id = t := fun op h => by simpa using List.find?_some h.1
  refine ⟨fun h ho => ?_, fun h hp => ?_, fun h hp => ?_, fun x hx hgen hp hf => ?_, fun hp => ?_⟩
  · obtain rfl : e.id = t := hid _ h
    have hexec := exec_hostCryptoServicePut h hns hfor ho
    refine ⟨fun hbad => ?_, fun st hbad hc => ?_, fun hbad hc hw x => ?_, fun hbad hc hw hout r s1 hiv =>
      ⟨fun st hr => ?_, fun iv hr => ?_⟩⟩
    · rw [hexec, if_pos hbad]
      exact done_finish (spares_claims s e) e stBadField []
    · rw [hexec, hbad, if_neg Bool.false_ne_true, show (s.claims e).svcCheck q = some st from hc]
      exact done_finish (spares_claims s e) e st []
    · rw [hexec, hbad, if_neg Bool.false_ne_true, show (s.claims e).svcCheck q = none from hc]
      exact (congrArg s.done (if_pos hw)).trans (Spares.done ⟨rfl, rfl, rfl, rfl⟩)
    all_goals
      have hstart : ∀ x, exec (.hostCryptoServicePut e.id x) s = s.done ((s.claims e).svcStart e.started q x) := by
        intro x
        rw [hexec, hbad, if_neg Bool.false_ne_true, show (s.claims e).svcCheck q = none from hc]
        exact congrArg s.done (if_neg (by rw [show (s.claims e).svcWaits _ = false from hw]; exact Bool.false_ne_true))
      have hcomp : (s.claims e).Computes s1 := by
        have hv := Computes.svcIv ((s.claims e).count Reg.CRY.SVC_OPS 1) q
        rw [show State.svcIv ((s.claims e).count Reg.CRY.SVC_OPS 1) q = (r, s1) from hiv] at hv
        exact Computes.trans (Computes.setRegs ..) hv
      have hrun := svcStart_runs (s := s.claims e) (e := e.started) (q := q) hout
      rw [show State.svcIv ((s.claims e).count Reg.CRY.SVC_OPS 1) q = (r, s1) from hiv, hr] at hrun
    · obtain ⟨hsp, hcmd, hpage⟩ := claims_computes hcomp
      obtain ⟨u, n, hu, ha, -, -⟩ := done_holdResult hsole hsp hcmd hpage st (svcResult q gen [] ⟨st, [], [], false⟩) false []
      rw [hstart, hrun]
      exact ⟨u, hu, ha⟩
    · intro o plain
      refine ⟨?_, fun hph hhash hroom => ?_⟩
      · have hw := Computes.trans hcomp (Computes.trans (Computes.svcTagFail s1 o.status) (Computes.svcWork _ q core))
        obtain ⟨hsp, hcmd, hpage⟩ := claims_computes hw
        rw [hstart, hrun]
        dsimp only
        rw [if_neg (by simp)]
        exact done_holdResult hsole hsp hcmd hpage o.status (svcResult q gen iv o) plain frames
      · have hcry : s1.cry = (s.claims e).cry := Computes.cry hcomp
        rw [hstart, hrun]
        dsimp only
        rw [if_pos ⟨rfl, by rw [hcry]; exact hph, by rw [hhash]; rfl, by rw [hcry]; exact hroom⟩]
        refine ⟨_, Spares.done (Spares.trans (spares_claims s e) (Spares.trans (Computes.spares hcomp) ⟨rfl, rfl, rfl, rfl⟩)), ?_, ?_⟩
        · refine (entry_congr (Computes.cmd hcomp) e.id).trans ?_
          exact entry_setEntry s e.started
        · show s1.cry.suspended ++ [⟨s1.cry.nextOp, _, _, _, _, _, _, _, _, _, _⟩] = _
          rw [hcry]
          rfl
  · obtain rfl : e.id = t := hid _ h
    have hexec : exec (.hostCryptoServiceGet e.id) s = s.done (
        match p.result with
        | some r => (s.begun e).finishData e.started stOK (beBytes 8 r.length) r
        | none => (s.begun e).finish e.started stNoSuchKey []) := by
      refine congrArg s.done ((runCmd_starts h _).trans ?_)
      show (if e.msg.nsid ≠ 0 then _ else if s.svcForeign e.id.ctx e.msg.page = true then _ else
        match (s.svcPage? e.msg.page).bind fun p => p.result with
        | some r => _
        | none => _) = _
      rw [hns, if_neg (by simp), hfor, if_neg Bool.false_ne_true, hp]
      rfl
    refine ⟨fun r hr => ?_, fun hr => ?_⟩
    · rw [hexec, hr]
      exact done_post_begun ..
    · rw [hexec, hr]
      exact done_post_begun ..
  · obtain rfl : e.id = t := hid _ h
    have hexec : exec (.hostCryptoServiceDelete e.id) s = s.done (State.finish { s.begun e with
        cry := { s.cry with pages := dropWhere (fun p => p.page == e.msg.page) s.cry.pages } } e.started stOK []) := by
      refine congrArg s.done ((runCmd_starts h _).trans ?_)
      show (if e.msg.nsid ≠ 0 then _ else if s.svcForeign e.id.ctx e.msg.page = true then _ else
        if (s.svcPage? e.msg.page).isNone = true then _ else _) = _
      rw [hns, if_neg (by simp), hfor, if_neg Bool.false_ne_true, hp, if_neg (by simp)]
      rfl
    rw [hexec]
    obtain ⟨u, hu, ha, hk⟩ := done_finish (s := s) (m := { s.begun e with
        cry := { s.cry with pages := dropWhere (fun p => p.page == e.msg.page) s.cry.pages } }) ⟨rfl, rfl, rfl, rfl⟩ e stOK []
    refine ⟨u, hu, ha, AnswerFrame.svcPage_none hk ?_⟩
    refine List.find?_eq_none.2 fun x hx => ?_
    simpa [dropWhere] using (List.mem_filter.1 hx).2
  · have hexec : exec (.operationResume x.op) s = s.done (s.resumeOp x) := by
      show s.done (match s.cry.suspended.find? fun y => y.op == x.op with
        | some x => s.resumeOp x
        | none => s) = _
      rw [hx]
    have hres : s.resumeOp x = State.holdResult (State.count64 (State.svcTagFail { s with cry := { s.cry with
        suspended := dropWhere (fun y => y.op == x.op) s.cry.suspended } } x.status)
          Reg.CORE_BYTES_LO.BYTES_LO Reg.CORE_BYTES_HI.BYTES_HI x.core x.work) x.order x.page x.status x.result x.plain x.frames :=
      if_pos hgen
    have hc : State.Computes { s with cry := { s.cry with suspended := dropWhere (fun y => y.op == x.op) s.cry.suspended } }
        (State.count64 (State.svcTagFail { s with cry := { s.cry with
          suspended := dropWhere (fun y => y.op == x.op) s.cry.suspended } } x.status)
          Reg.CORE_BYTES_LO.BYTES_LO Reg.CORE_BYTES_HI.BYTES_HI x.core x.work) :=
      Computes.trans (Computes.svcTagFail ..) (Computes.setRegs ..)
    rw [hexec, hres]
    generalize State.count64 (State.svcTagFail _ x.status) _ _ x.core x.work = w at *
    have hpw : w.svcPage? x.page = some p := by
      unfold State.svcPage?
      rw [Computes.cry hc]
      exact hp
    obtain ⟨n, hn, he, hq⟩ := holdResult_holds hpw x.order x.status x.result x.plain x.frames
    have hentry : n.entryAt x.order = some f := by
      unfold State.entryAt
      rw [he]
      exact (congrArg (fun c : Cmd => c.tags.find? fun g : TagEntry => g.order == x.order) (Computes.cmd hc)).trans hf
    have hsp : s.Spares n := by
      rw [he]
      exact Spares.trans (t := { s with cry := { s.cry with suspended := dropWhere (fun y => y.op == x.op) s.cry.suspended } })
        ⟨rfl, rfl, rfl, rfl⟩ (Spares.trans (Computes.spares hc) ⟨rfl, rfl, rfl, rfl⟩)
    have hfin : n.finishAt x.order x.status [] = n.finish f x.status [] := by
      unfold State.finishAt
      rw [hentry]
    rw [hn, hfin]
    refine ⟨_, n, Spares.done (Spares.trans hsp (Spares.of_answerKeeps (AnswerKeeps.finish n f x.status []))),
      post_answers .., AnswerFrame.post .., hq, fun y hy => ?_⟩
    rw [show (n.finish f x.status []).cry.suspended = n.cry.suspended by
      unfold State.finish
      rw [(Outlasts.post n f (doneWith x.status f.asn [])).cry], he] at hy
    have hy : y ∈ w.cry.suspended := hy
    rw [Computes.cry hc] at hy
    simpa [dropWhere] using (List.mem_filter.1 hy).2
  · show s.done (match s.svcPage? p.page with
      | some p => s.setSvcPage { p with result := none, plain := false, frames := [] }
      | none => s) = _
    rw [hp]
    exact done_next ⟨rfl, rfl, rfl, rfl⟩

end Sys2Proof.Machine
end

section
/-! SUPPORT. What storing a record takes from the key store: counters, never a fuse (R32, R343, R387); and what a search of
the classifier changes (R223, R227). -/

namespace Sys2Proof.Machine

open Sys2Proof

/-- What storing may change differs, but no fuse and nothing of the fabric. -/
structure State.Stores (s u : State) : Prop where
  storing : s.Storing u
  kept : u.key.fuses = s.key.fuses ∧ u.fab = s.fab

namespace Stores

theorem refl (s : State) : s.Stores s := ⟨Storing.refl s, rfl, rfl⟩

theorem trans {s t u : State} (h : s.Stores t) (k : t.Stores u) : s.Stores u :=
  ⟨Storing.trans h.storing k.storing, k.kept.1.trans h.kept.1, k.kept.2.trans h.kept.2⟩

theorem of_pair {α : Type} {x : α × State} {a : α} {s t : State} (h : x = (a, t)) (hx : s.Stores x.2) : s.Stores t := by
  rw [h] at hx; exact hx

theorem spares {s u : State} (h : s.Stores u) : s.Spares u := by
  obtain ⟨⟨r, l, v, f, k, b, rfl⟩, hf, -⟩ := h
  exact ⟨rfl, rfl, rfl, hf⟩

theorem of_enciphers {s u : State} (h : s.Enciphers u) : s.Stores u := by
  obtain ⟨r, l, k, rfl, hk⟩ := h
  exact ⟨⟨r, l, s.kv, s.flash, k, s.fab, rfl⟩, hk, rfl⟩

theorem kv (s : State) (v : Kv) : s.Stores { s with kv := v } := ⟨Storing.kv s v, rfl, rfl⟩

theorem kvFlash (s : State) (v : Kv) (f : Flash) : s.Stores { s with kv := v, flash := f } := ⟨Storing.kvFlash s v f, rfl, rfl⟩

theorem setRegs (s : State) (r : Regs) : s.Stores { s with regs := r } := ⟨⟨r, s.log, s.kv, s.flash, s.key, s.fab, rfl⟩, rfl, rfl⟩

theorem raise (s : State) (e : Event) : s.Stores (s.raise e) := by
  obtain ⟨r, l, h⟩ := s.raise_eq e
  rw [h]
  exact ⟨⟨r, l, s.kv, s.flash, s.key, s.fab, rfl⟩, rfl, rfl⟩

theorem backUp (s : State) : s.Stores s.backUp := by
  refine ⟨Storing.backUp s, ?_⟩
  unfold State.backUp
  split <;> exact ⟨rfl, rfl⟩

/-! ## Leaf pages -/

theorem mergeLeaf_kept (s : State) (l : Leaf) :
    (s.mergeLeaf l).key.fuses = s.key.fuses ∧ (s.mergeLeaf l).fab = s.fab := by
  unfold State.mergeLeaf
  split
  · exact ⟨rfl, rfl⟩
  · split <;> exact ⟨rfl, rfl⟩

theorem changeLeaf (s : State) (n : Nat) (key : Bytes) : s.Stores (s.changeLeaf n key) := by
  refine ⟨Storing.changeLeaf s n key, ?_⟩
  unfold State.changeLeaf
  split
  · exact ⟨rfl, rfl⟩
  · rename_i l _
    extract_lets m t u
    have hu : u.key.fuses = s.key.fuses ∧ u.fab = s.fab := by
      unfold u State.splitLeaf
      dsimp only
      split <;> exact ⟨rfl, rfl⟩
    have hmerge : ∀ (v : State) x, (v.key.fuses = s.key.fuses ∧ v.fab = s.fab) →
        (v.mergeLeaf x).key.fuses = s.key.fuses ∧ (v.mergeLeaf x).fab = s.fab := fun v x hv =>
      ⟨(mergeLeaf_kept v x).1.trans hv.1, (mergeLeaf_kept v x).2.trans hv.2⟩
    split
    · exact hu
    · extract_lets v
      have hv : v.key.fuses = s.key.fuses ∧ v.fab = s.fab := hmerge _ _ hu
      split
      · split
        · exact hmerge _ _ hv
        · exact hv
      · exact hv

theorem sealLeaf (s : State) (n : Ns) (l : Leaf) : s.Stores (s.sealLeaf n l).2 := by
  have hn : s.Stores (if s.noCipher then (.error stInternal, s) else s.nonce 3 : Except Nat Bytes × State).2 := by
    split
    · exact refl s
    · exact of_enciphers (Enciphers.nonce s 3)
  unfold State.sealLeaf
  split
  · exact refl s
  · split
    · rename_i h; exact of_pair h hn
    · rename_i h
      exact trans (of_pair h hn) (trans (of_enciphers (Enciphers.cipher ..)) (kv ..))

theorem sealLeaves (n : Ns) (ls : List Leaf) (s : State) : s.Stores (sealLeaves n ls s).2 := by
  induction ls generalizing s with
  | nil => exact refl s
  | cons l ls ih =>
    unfold Machine.sealLeaves
    split
    · rename_i h; exact of_pair h (sealLeaf ..)
    · rename_i h; exact trans (of_pair h (sealLeaf ..)) (ih _)

theorem sealWritten (s : State) (n : Nat) : s.Stores (s.sealWritten n).2 := by
  unfold State.sealWritten
  split
  · exact refl s
  · exact sealLeaves ..

theorem followLeaves (s t : State) (n : Nat) (key : Bytes) : t.Stores (s.followLeaves t n key) := by
  refine ⟨Storing.followLeaves s t n key, ?_⟩
  unfold State.followLeaves
  dsimp only
  split
  · exact ⟨rfl, rfl⟩
  · refine List.foldlRecOn _ _ (motive := fun u : State => u.key.fuses = t.key.fuses ∧ u.fab = t.fab) ⟨rfl, rfl⟩
      fun u h e _ => ?_
    repeat' split
    all_goals exact h

theorem touchLeaf (s : State) (n : Nat) (key : Bytes) : s.Stores (s.touchLeaf n key).2 := by
  have hs : s.Stores ((s.changeLeaf n key).sealWritten n).2 := trans (changeLeaf ..) (sealWritten ..)
  unfold State.touchLeaf
  split
  · rename_i h; exact of_pair h hs
  · rename_i h; exact trans (of_pair h hs) (followLeaves ..)

/-! ## Values and records -/

theorem capacity90 (s t : State) : t.Stores (s.capacity90 t) := by
  unfold State.capacity90
  dsimp only
  split
  · exact raise ..
  · exact refl t

theorem tierExt (s : State) (i tier : Nat) : s.Stores (s.tierExt i tier) := by
  unfold State.tierExt
  split
  · exact kv ..
  · exact refl s

theorem encSegs (key : Bytes) (ts : List Bytes) (s : State) : s.Stores (encSegs key ts s).2 := by
  induction ts generalizing s with
  | nil => exact refl s
  | cons t ts ih =>
    have hn : s.Stores (if s.textLimit t.length then (.error stLengthLimit, s) else s.nonce 3 : Except Nat Bytes × State).2 := by
      split
      · exact refl s
      · exact of_enciphers (Enciphers.nonce s 3)
    unfold Machine.encSegs
    split
    · rename_i h; exact of_pair h hn
    · rename_i iv u h
      have hi : s.Stores (Machine.encSegs key ts (u.cipher 2 t.length)).2 :=
        trans (of_pair h hn) (trans (of_enciphers (Enciphers.cipher ..)) (ih _))
      dsimp only
      split
      · rename_i h; exact of_pair h hi
      · rename_i h; exact of_pair h hi

theorem makeExtent (s : State) (n : Ns) (i leaf : Nat) (key value : Bytes) (asn stamp sess : Nat) :
    s.Stores (s.makeExtent n i leaf key value asn stamp sess).2 := by
  unfold State.makeExtent
  split
  · exact refl s
  · split
    · rename_i h; exact of_pair h (encSegs ..)
    · rename_i h; exact trans (of_pair h (encSegs ..)) (kv ..)

theorem storeRecord (s : State) (nsid : Nat) (key : Bytes) (hdr : RecordHdr) (bytes : Bytes) (tier : Nat) :
    s.Stores (s.storeRecord nsid key hdr bytes tier).2 := by
  unfold State.storeRecord
  split
  · exact refl s
  · split
    · exact refl s
    · exact refl s
    · rename_i n _ _ _ _ _
      have hfin : ∀ (t : State) v, t.Stores ((t.setNs v).touchLeaf nsid key).2 := fun t v => trans (kv ..) (touchLeaf ..)
      dsimp only
      split
      · split
        · rename_i h; exact of_pair h (hfin ..)
        · rename_i h; exact trans (of_pair h (hfin ..)) (capacity90 ..)
      · split
        · rename_i h; exact of_pair h (makeExtent ..)
        · rename_i hm
          have hs := fun i => trans (of_pair hm (makeExtent ..)) (tierExt _ i tier)
          split
          · rename_i h; exact trans (hs _) (of_pair h (hfin ..))
          · rename_i h; exact trans (hs _) (trans (of_pair h (hfin ..)) (capacity90 ..))

theorem voidRecord (s : State) (e : TagEntry) : s.Stores (s.voidRecord e) := by
  unfold State.voidRecord
  split
  · split
    · exact refl s
    · exact trans (trans (backUp s) (storeRecord ..)) (trans (kvFlash _ _ _) (trans (setRegs ..) (setRegs ..)))
  · exact refl s

end Stores

/-! ## Searches of the classifier -/

theorem searchFirst_eq (s : State) (t key : Nat) : ∃ r c, (s.searchFirst t key).2 = { s with regs := r, cam := c } := by
  obtain ⟨r, h⟩ := noteSearch_eq s (s.tableCfg t)
  exact ⟨r, _, h⟩

theorem classifyKey_eq (n : Nat) (key : Bytes) (s : State) : ∃ r c, (classifyKey n key s).2 = { s with regs := r, cam := c } := by
  obtain ⟨r, c, h⟩ := searchFirst_eq s 2 (classKey n key)
  refine ⟨r, c, ?_⟩
  rw [← h]
  unfold classifyKey State.classify
  generalize s.searchFirst 2 (classKey n key) = x
  obtain ⟨_ | ⟨_, _⟩, _⟩ := x <;> rfl

section
variable {b : State} {n : Ns} {e f : TagEntry} {search : State → List Classified × State} {u : State}
  (h : b.Classifies n e search f u)
include h

/-- A write whose searches are made goes on under its entry (R223). -/
theorem startWrite_classifies (go : TagEntry → State → State) : b.startWrite n e search go = go f u := by
  unfold State.Classifies at h
  unfold State.startWrite
  split at h
  · rename_i hc
    obtain ⟨rfl, rfl, hb⟩ := h
    rw [hc]
    dsimp only
    rw [hb]
    rfl
  · rename_i hc
    obtain ⟨rfl, rfl⟩ := h
    rw [if_pos (by simpa using hc)]

/-- The entry classified is the write's own, and only the searches come before it. -/
theorem classifies_cases : (∃ cs, f = { e with classed := cs }) ∧ (u = b ∨ u = (search b).2.setEntry f) := by
  unfold State.Classifies at h
  split at h
  · obtain ⟨rfl, rfl, -⟩ := h
    exact ⟨⟨_, rfl⟩, .inr rfl⟩
  · obtain ⟨rfl, rfl⟩ := h
    exact ⟨⟨f.classed, rfl⟩, .inl rfl⟩

end

end Sys2Proof.Machine
end

section
/-! PROOF. O15: APPEND and PURGE_EXPIRED (R384 to R387, R394, R395). -/

namespace Sys2Proof.Machine

open Sys2Proof

/-! ## Commit points -/

/-- A write that has its effect passes its commit point, whatever its mirrors (R166). -/
theorem commitWrite_commits (s : State) (n : Ns) (e : TagEntry) (c : Completion) (parts : List (Nat × MirrorBody)) :
    (s.commitWrite n e c parts).Commits e c := ⟨_, _, _, entry_setEntry ..⟩

/-- What a command commits in its effect it has committed in its next state. -/
theorem done_commits {s t : State} {e : TagEntry} {c : Completion} {i : Instr} (hx : exec i s = s.done t) (h : t.Commits e c) :
    ∃ u, exec i s = .next u ∧ u.Commits e c := by
  obtain ⟨u, hu, hp⟩ := exists_carried hx
  refine ⟨u, hu, ?_⟩
  unfold State.Commits
  rw [entry_congr hp.cmd]
  exact h

/-- A command that commits under its started entry has committed under its own. -/
theorem commits_of_started {u : State} {e : TagEntry} {c : Completion} (h : u.Commits e.started c) : u.Commits e c := h

/-! ## APPEND -/

/-- The receipt of a record's header (R386). -/
def receiptOf (asn : Nat) (h : RecordHdr) : Completion :=
  doneData stOK asn (beBytes 8 h.seq) (leBytes 8 h.seq ++ h.chain ++ h.cmac)

/-- A write that fails has changed nothing (R166). -/
theorem tryWrite_error {s w : State} {n : Ns} {b : Bool} {g : State → Except Nat Unit × State} {st : Nat}
    (h : s.tryWrite n b g = (.error st, w)) : w = s := by
  unfold State.tryWrite at h
  extract_lets r at h
  split at h
  · exact (congrArg Prod.snd h).symm
  · split at h
    · exact (congrArg Prod.snd h).symm
    · split at h
      · exact (congrArg Prod.snd h).symm
      · split at h
        · exact (congrArg Prod.snd h).symm
        · exact nomatch congrArg Prod.fst h

theorem tryAppend_error {s w : State} {n : Ns} {e : TagEntry} {k : Bytes} {st : Nat} (h : s.tryAppend n e k = (.error st, w)) :
    w = s := by
  unfold State.tryAppend at h
  dsimp only at h
  split at h
  · exact (congrArg Prod.snd h).symm
  · exact tryWrite_error h

section
variable {s w : State} {n : Ns} {e : TagEntry} {k : Bytes} (hk : s.slotKey n.sealSlot = some k)
include hk

/-- A record stored passes the commit point with its receipt. -/
theorem appendCommit_commits (h : s.tryAppend n e k = (.ok (), w)) :
    (appendCommit e n s).Commits e (receiptOf e.asn (e.hdrIn n k)) := by
  unfold appendCommit
  rw [hk]
  dsimp only
  rw [h]
  exact commitWrite_commits ..

/-- A record that fails leaves a void record where its number was taken. -/
theorem appendCommit_fails {st : Nat} (h : s.tryAppend n e k = (.error st, w)) :
    appendCommit e n s = (w.voidRecord e).finish e st [] := by
  unfold appendCommit
  rw [hk]
  dsimp only
  rw [h]

end

/-- What a write's classification changes: registers, the tables' retention and its entry. -/
theorem classifies_eq {s s1 : State} {n : Ns} {e g f : TagEntry} {key : Bytes}
    (h : (s.begun e).Classifies n g (classifyKey n.nsid key) f s1) :
    ∃ r c m, s1 = { s with regs := r, cam := c, cmd := m } := by
  obtain ⟨-, rfl | h⟩ := classifies_cases h
  · exact ⟨_, _, _, rfl⟩
  · obtain ⟨r, c, hc⟩ := classifyKey_eq n.nsid key (s.begun e)
    rw [hc] at h
    exact ⟨r, c, _, h⟩

section
variable {s : State} {t : TagId} {e : TagEntry} {n : Ns} {k : Bytes}

theorem exec_append (h : s.StartsIn t 0x08 e n) (p : Bool) : exec (.append t p) s = s.done (appendBody p e.started n (s.begun e)) :=
  congrArg s.done (runNs_starts h _)

/-- An APPEND that has its number commits. -/
theorem exec_append_numbered (h : s.StartsIn t 0x08 e n) {q : Nat} (hq : e.seqNo = some q) :
    exec (.append t false) s = s.done (appendCommit e.started n (s.begun e)) := by
  rw [exec_append h]
  have hseq : e.started.seqNo.isSome = true := by
    show e.seqNo.isSome = true
    rw [hq]
    rfl
  unfold appendBody
  rw [if_pos hseq, if_neg Bool.false_ne_true]

/-- An APPEND without its number is classified, tried, and takes it. -/
theorem exec_append_unnumbered (h : s.StartsIn t 0x08 e n) (hq : e.seqNo = none) (hk : s.slotKey n.sealSlot = some k)
    (hn : (n.streamOr e.msg.key).nextSeq ≠ 2 ^ 64 - 1) {f : TagEntry} {s1 : State}
    (hc : (s.begun e).Classifies n { e.started with stepTime := s.sea.time } (classifyKey n.nsid e.msg.key) f s1) (p : Bool) :
    exec (.append t p) s = s.done (match (s1.tryAppend n f k).1 with
      | .error st => s1.finish f st []
      | .ok _ =>
        let g := { f with seqNo := some (n.streamOr e.msg.key).nextSeq }
        if p then s1.setEntry g else appendCommit g n (s1.setEntry g)) := by
  rw [exec_append h]
  have hseq : ¬ e.started.seqNo.isSome = true := by
    show ¬ e.seqNo.isSome = true
    rw [hq]
    exact Bool.false_ne_true
  unfold appendBody
  rw [if_neg hseq, show (s.begun e).slotKey n.sealSlot = some k from hk]
  dsimp only
  rw [show e.started.msg.key = e.msg.key from rfl, if_neg hn]
  exact congrArg s.done (startWrite_classifies hc _)

end

/-- The entry with which a classified command goes on has its identity, its command and its number. -/
theorem classifies_entry {b u : State} {n : Ns} {e f : TagEntry} {search : State → List Classified × State}
    (h : b.Classifies n e search f u) : f.id = e.id ∧ f.asn = e.asn ∧ f.msg = e.msg ∧ f.purging = e.purging := by
  obtain ⟨⟨cs, rfl⟩, -⟩ := classifies_cases h
  exact ⟨rfl, rfl, rfl, rfl⟩

/-- A command answered under the entry its classification left. -/
theorem done_finish_classified {s m : State} {e f : TagEntry} (hm : s.Spares m) (ha : f.asn = e.asn) (st : Nat)
    (p : Bytes) : ∃ u, s.done (m.finish f st p) = .next u ∧ u.Answers f (doneWith st e.asn p) ∧ m.AnswerFrame f u := by
  rw [← ha]
  exact ⟨_, Spares.done (Spares.trans hm (Spares.of_answerKeeps (AnswerKeeps.finish ..))), finish_answers ..,
    AnswerFrame.finish ..⟩

/-! ## PURGE_EXPIRED -/

/-- The streams that have records to purge, the first of them. -/
def TagEntry.firstDue (e : TagEntry) (n : Ns) (time : Nat) : List Stream :=
  ((e.purgeStreams n).filter fun t => 0 < expiredRun time (e.purgeLimit.getD t.recs.length) t.recs).take 1

theorem firstDue_nil {e : TagEntry} {n : Ns} {time : Nat} (h : e.purgeStreams n = []) : e.firstDue n time = [] := by
  unfold TagEntry.firstDue
  rw [h]
  rfl

/-- A purge asks for streams that may be there. -/
theorem purge_asks {e : TagEntry} {n : Ns} (h : e.msg.key = [] ∨ e.purgeStreams n ≠ []) :
    ¬ (!e.msg.key.isEmpty && (e.purgeStreams n).isEmpty) = true := by
  rw [Bool.and_eq_true, Bool.not_eq_true', List.isEmpty_iff, List.isEmpty_eq_false_iff]
  exact fun k => h.elim k.1 fun hn => hn k.2

section
variable {s w : State} {n : Ns} {e : TagEntry} {m : Nat} {l : List (Bytes × Nat)}

/-- A stream key that holds nothing. -/
theorem purgeFirst_absent (hk : e.msg.key ≠ []) (hn : e.purgeStreams n = []) : purgeFirst e n s = s.finish e stNoSuchKey [] := by
  unfold purgeFirst
  dsimp only
  rw [hn, if_pos (by simpa using hk)]

variable (hk : e.msg.key = [] ∨ e.purgeStreams n ≠ [])
  (h : purgeGo n.nsid s.sea.time (e.firstDue n s.sea.time) e.purgeLimit s = (w, m, l))
include hk h

/-- Nothing expired. -/
theorem purgeFirst_none (hm : m = 0) : purgeFirst e n s = s.finish e stOK (purgeParam 0 0) := by
  subst hm
  unfold purgeFirst
  dsimp only
  rw [if_neg (purge_asks hk)]
  unfold TagEntry.firstDue at h
  rw [h]
  rfl

/-- The first stream purged is the commit point (R395). -/
theorem purgeFirst_commits (hm : m ≠ 0) (hr : s.flash.readOnly = false) : purgeFirst e n s = w.setEntry { e with
    state := .committed, result := some (doneWith stOK e.asn (purgeParam m l.length)), purging := some (l, m) } := by
  unfold purgeFirst
  dsimp only
  rw [if_neg (purge_asks hk)]
  unfold TagEntry.firstDue at h
  rw [h]
  obtain _ | m := m
  · exact absurd rfl hm
  · exact if_neg (by rw [hr]; exact Bool.false_ne_true)

end

/-- A purge answered without one has nothing left to do. -/
theorem purgeCommit_answered {s u : State} {n : Ns} {e : TagEntry} {c : Completion} (h : purgeFirst e n s = u)
    (hu : u.Answers e c) (he : e.purging = none) : purgeCommit e n s = u := by
  have hend : ∀ f, u.entry? e.id = some f → f.purging = none := by
    intro f hf
    unfold State.Answers at hu
    split at hu
    · obtain h | ⟨-, h⟩ := hu
      · cases hf.symm.trans h
        exact he
      · exact nomatch hf.symm.trans h
    · exact nomatch hf.symm.trans hu
  unfold purgeCommit
  dsimp only
  rw [h]
  split
  · rename_i f hf
    unfold State.purgeEnd
    rw [hend f hf]
  · rfl

section
variable {s : State} {t : TagId} {e f : TagEntry} {n : Ns} {s1 : State}

theorem exec_purgeExpired (h : s.StartsIn t 0x12 e n) (hc : (s.begun e).Classifies n e.started (fun s => ([], s)) f s1) (p : Bool) :
    exec (.purgeExpired t p) s = s.done (if p then s1 else purgeCommit f n s1) :=
  (congrArg s.done (runNs_starts h _)).trans (congrArg s.done (startWrite_classifies hc _))

end

/-- A purge that searches no classifier changes only its entry as it starts. -/
theorem classifies_unsearched {s s1 : State} {n : Ns} {e f : TagEntry}
    (h : (s.begun e).Classifies n e.started (fun s => ([], s)) f s1) : ∃ m, s1 = { s with cmd := m } := by
  obtain ⟨-, rfl | rfl⟩ := classifies_cases h <;> exact ⟨_, rfl⟩

/-- COMMIT_POINT_PASSED of an executing write of a namespace (R166). -/
theorem exec_commitPointPassed {s : State} {t : TagId} {e : TagEntry} {n : Ns} (he : s.entry? t = some e)
    (hx : e.state = .executing) (hp : s.dev.phase = .service) (hop : e.msg.opcode ≠ 0x59) (hn : s.ns? e.msg.nsid = some n) :
    exec (.commitPointPassed t) s = s.done (commitBody e n s) := by
  show s.done (match s.entry? t with
    | some e => _
    | none => s) = _
  rw [he]
  dsimp only
  rw [if_pos ⟨hx, .inl hp⟩, if_neg hop, hn]

/-- Settles O15: APPEND by whether its number is taken and its record fits, PURGE_EXPIRED by what its first stream gives. -/
theorem appendSealsAndPurgeRemoves : Obligations.AppendSealsAndPurgeRemoves := by
  unfold Obligations.AppendSealsAndPurgeRemoves
  intro s t e f n k s1
  refine ⟨fun q hk => ?_, fun h hpg hc => ?_, fun he hop hx hpg hp hns hro => ?_⟩
  · intro receipt g
    refine ⟨fun h hq hn hc => ?_, fun h hq => ⟨fun w hw => ?_, fun st w hw => ?_⟩, fun he hop hx hp hns w hw => ?_⟩
    · obtain ⟨hid, hasn, hmsg, -⟩ := classifies_entry hc
      obtain ⟨r, c, x, hs1⟩ := classifies_eq hc
      have hsp : s.Spares s1 := by rw [hs1]; exact ⟨rfl, rfl, rfl, rfl⟩
      have hexec := exec_append_unnumbered h hq hk hn hc
      refine ⟨fun st w hw => ?_, fun w hw => ⟨?_, fun w' hw' => ?_⟩⟩
      · rw [hexec, hw]
        exact done_finish_classified hsp hasn st []
      · rw [hexec, hw]
        exact Spares.done (Spares.trans hsp ⟨rfl, rfl, rfl, rfl⟩)
      · have hx := hexec false
        rw [hw] at hx
        have hkey : (s1.setEntry g).slotKey n.sealSlot = some k := by rw [← hk, hs1]; rfl
        obtain ⟨u, hu, hcm⟩ := done_commits hx (appendCommit_commits hkey hw')
        refine ⟨u, hu, ?_⟩
        rw [show receiptOf g.asn (g.hdrIn n k) = receipt g from congrArg (receiptOf · (g.hdrIn n k)) hasn] at hcm
        exact hcm
    · obtain ⟨u, hu, hcm⟩ := done_commits (exec_append_numbered h hq) (appendCommit_commits (s := s.begun e) hk hw)
      exact ⟨u, hu, commits_of_started hcm⟩
    · rw [exec_append_numbered h hq, appendCommit_fails (s := s.begun e) hk hw]
      have hwe := tryAppend_error hw
      refine done_finish (Spares.trans ?_ (Stores.spares (Stores.voidRecord w e.started))) e st []
      rw [hwe]
      exact Spares.begun s e
    · refine done_commits (exec_commitPointPassed he hx hp (by rw [hop]; decide) hns) ?_
      unfold commitBody
      rw [hop]
      exact appendCommit_commits hk hw
  · intro due
    obtain ⟨hid, hasn, hmsg, hfp⟩ := classifies_entry hc
    obtain ⟨x, hs1⟩ := classifies_unsearched hc
    have hsp : s.Spares s1 := by rw [hs1]; exact ⟨rfl, rfl, rfl, rfl⟩
    have hsea : s1.sea = s.sea ∧ s1.flash = s.flash := by rw [hs1]; exact ⟨rfl, rfl⟩
    have hfp : f.purging = none := hfp.trans hpg
    have hlim : f.purgeLimit = e.purgeLimit := by unfold TagEntry.purgeLimit; rw [hmsg, hfp, hpg]; rfl
    have hstr : ∀ n, f.purgeStreams n = e.purgeStreams n := fun n => by unfold TagEntry.purgeStreams; rw [hmsg]; rfl
    have hkey : f.msg.key = e.msg.key := by rw [hmsg]; rfl
    have hexec := exec_purgeExpired h hc
    have hans : ∀ st p, purgeFirst f n s1 = s1.finish f st p → ∃ u, exec (.purgeExpired t false) s = .next u ∧
        u.Answers f (doneWith st e.asn p) ∧ s1.AnswerFrame f u := by
      intro st p hfst
      rw [hexec, if_neg Bool.false_ne_true, purgeCommit_answered hfst (finish_answers ..) hfp]
      exact done_finish_classified hsp hasn st p
    refine ⟨(hexec true).trans (Spares.done hsp), fun hk hn => ?_, fun hk w m l hw => ?_⟩
    · exact hans _ _ (purgeFirst_absent (by rwa [hkey]) ((hstr n).trans hn))
    · have hk' : f.msg.key = [] ∨ f.purgeStreams n ≠ [] := by rwa [hkey, hstr]
      have hw' : purgeGo n.nsid s1.sea.time (f.firstDue n s1.sea.time) f.purgeLimit s1 = (w, m, l) := by
        unfold TagEntry.firstDue
        rw [hstr, hlim, hsea.1]
        exact hw
      refine ⟨fun hm => hans _ _ (purgeFirst_none hk' hw' hm), fun hm hro => ?_⟩
      intro g n' w' k' l' hn' hgo
      have hfst : purgeFirst f n s1 = w.setEntry g :=
        (purgeFirst_commits hk' hw' hm (by rw [hsea.2]; exact hro)).trans
          (congrArg (fun a => w.setEntry { g with result := some (doneWith stOK a (purgeParam m l.length)) }) hasn)
      have hnid : n.nsid = e.msg.nsid := by
        obtain ⟨-, -, hns, -⟩ := h
        simpa using List.find?_some hns
      have hcommit : purgeCommit f n s1 = w'.commitWrite n' { g with purging := none }
          (doneWith stOK e.asn (purgeParam (m + k') (l ++ l').length)) [(0, .purge (l ++ l'))] := by
        unfold purgeCommit
        dsimp only
        rw [hfst]
        rw [show State.entry? (w.setEntry g) f.id = some g from entry_setEntry w g]
        dsimp only
        unfold State.purgeEnd
        rw [show g.purging = some (l, m) from rfl, show g.msg.nsid = n.nsid from (congrArg CmdMsg.nsid hmsg).trans hnid.symm, hn']
        dsimp only
        have hn'id : n'.nsid = n.nsid := by simpa using List.find?_some hn'
        rw [hn'id, show (w.setEntry g).sea = w.sea from rfl, hgo, show g.asn = e.asn from hasn]
      obtain ⟨u, hu, hcm⟩ := done_commits ((hexec false).trans (by rw [if_neg Bool.false_ne_true, hcommit]))
        (commitWrite_commits ..)
      refine ⟨u, hu, ?_⟩
      obtain ⟨md, mi, dg, hent⟩ := hcm
      refine ⟨md, mi, dg, hent.trans ?_⟩
      rw [← hfp]
  · intro due w m l hw hm
    have hk : e.msg.key = [] ∨ e.purgeStreams n ≠ [] := by
      refine .inr fun hn => hm ?_
      have hw' : purgeGo n.nsid s.sea.time (e.firstDue n s.sea.time) e.purgeLimit s = (w, m, l) := hw
      rw [firstDue_nil hn] at hw'
      exact (congrArg (fun x => x.2.1) hw').symm
    have hfst := purgeFirst_commits hk hw hm hro
    have hx := exec_commitPointPassed he hx hp (by rw [hop]; decide) hns
    have hid : e.id = t := by simpa using List.find?_some he
    obtain ⟨u, hu, hp⟩ := exists_carried hx
    refine ⟨u, hu, (entry_congr hp.cmd t).trans ?_⟩
    unfold commitBody
    rw [hop]
    show (purgeFirst e n s).entry? t = _
    rw [hfst, ← hid]
    exact entry_setEntry w _

end Sys2Proof.Machine
end

section
/-! SUPPORT. Requests on the fabric and staging sessions (R412, R435 to R440, R445, R446). -/

namespace Sys2Proof.Machine

open Sys2Proof

namespace Traffic

theorem fw {s u : State} (h : s.Traffic u) : u.fw = s.fw := by
  obtain ⟨r, l, k, o, f, p, q, d, rfl, -⟩ := h
  rfl

theorem cmd {s u : State} (h : s.Traffic u) : u.cmd = s.cmd := by
  obtain ⟨r, l, k, o, f, p, q, d, rfl, -⟩ := h
  rfl

/-- A request sent, or unreachable at once (R412, R416). -/
theorem fabAsk (s : State) (dest : FrameTo) (p : FabPayload) (tag : Option TagId) (nsid asn : Nat) :
    s.Traffic (s.fabAsk dest p tag nsid asn) := by
  unfold State.fabAsk
  split
  · exact setRegs ..
  · dsimp only
    exact trans (makeFrames s dest (payloadBytes p)) (trans (setFab ..) (inject ..))

theorem fabRequest (s : State) (dst ftype : Nat) (p : FabPayload) (tag : Option TagId) (nsid asn : Nat) :
    s.Traffic (s.fabRequest dst ftype p tag nsid asn) := fabAsk ..

theorem fetchMore (peer n : Nat) (s : State) : s.Traffic (fetchMore peer n s) := by
  induction n generalizing s with
  | zero => rw [Machine.fetchMore]; exact refl s
  | succ n ih =>
    rw [Machine.fetchMore]
    split
    · exact refl s
    · dsimp only
      split
      · split
        · exact trans (fabRequest ..) (ih _)
        · exact refl s
      · exact refl s

end Traffic

theorem Spares.setFw (s : State) (f : Fw) : s.Spares { s with fw := f } := ⟨rfl, rfl, rfl, rfl⟩

theorem Draining.fw {s u : State} (h : s.Draining u) : u.fw = s.fw := by
  obtain ⟨r, l, k, f, rfl⟩ := h
  rfl

theorem raise_fw (s : State) (e : Event) : (s.raise e).fw = s.fw := by
  obtain ⟨r, l, h⟩ := s.raise_eq e
  rw [h]

theorem setStaging_fw (s : State) (g : Option Staging) : (s.setStaging g).fw = { s.fw with staging := g } := rfl

/-! ## Staging sessions -/

/-- A staging session with more sources than another (R438, R445). -/
def Staging.Joined (g x : Staging) : Prop := ∃ h p ps, x = { g with fromHost := h, fromPeer := p, peers := ps }

/-- A peer as a source leaves the session but for its sources. -/
theorem addPeer_staging {s : State} {g : Staging} (h : s.fw.staging = some g) (peer : Nat) : s.Spares (s.addPeer peer) ∧
    ∃ ps, (s.addPeer peer).fw = { s.fw with staging := some { g with fromPeer := true, peers := ps } } := by
  unfold State.addPeer State.fetch
  rw [h]
  dsimp only
  have ht := Traffic.fetchMore peer 4 (s.setStaging (some { g with
    fromPeer := true, peers := if g.peers.contains peer then g.peers else g.peers ++ [peer] }))
  exact ⟨Spares.trans (Spares.setFw ..) (Traffic.spares ht), _, (Traffic.fw ht).trans rfl⟩

/-- The host, and a peer where it is asked for, as sources of a session (R438). -/
theorem joinStaging_staging {s : State} {g : Staging} (h : s.fw.staging = some g) (m : CmdMsg) :
    s.Spares (s.joinStaging m) ∧ ∃ x, (s.joinStaging m).fw.staging = some x ∧ g.Joined x ∧ x.fromHost = true := by
  unfold State.joinStaging
  rw [h]
  dsimp only
  split
  · obtain ⟨hs, ps, hf⟩ := addPeer_staging (s := s.setStaging (some { g with fromHost := true })) rfl (beAt m.param 0 2)
    exact ⟨Spares.trans (Spares.setFw ..) hs, _, congrArg Fw.staging hf, ⟨_, _, _, rfl⟩, rfl⟩
  · exact ⟨Spares.setFw .., _, rfl, ⟨_, _, _, rfl⟩, rfl⟩

theorem endStaging_fw (s : State) : s.Spares s.endStaging ∧ s.endStaging.fw = { s.fw with staging := none } := by
  obtain ⟨p, hp⟩ : ∃ p, s.endStaging = (s.forgetSys p).setStaging none := ⟨_, rfl⟩
  rw [hp]
  have h := Draining.forgetSys s p
  exact ⟨Spares.trans (Spares.of_draining h) (Spares.setFw ..), by rw [setStaging_fw, Draining.fw h]⟩

theorem dropFetches_keeps (s : State) (p : OutMsg → Bool) : s.Spares (s.dropFetches p) ∧ (s.dropFetches p).fw = s.fw :=
  ⟨⟨rfl, rfl, rfl, rfl⟩, rfl⟩

/-- A session opened anew (R438, R439). -/
theorem openStaging_fw (s : State) (digest : Bytes) (len func sec : Nat) : s.Spares (s.openStaging digest len func sec) ∧
    (s.openStaging digest len func sec).fw =
      { s.fw with staging := some ⟨digest, len, func, sec, 1, [], false, false, [], 0⟩ } := by
  obtain ⟨hs, hf⟩ := endStaging_fw s
  unfold State.openStaging
  generalize s.endStaging = m at hs hf ⊢
  obtain ⟨hd, hg⟩ := dropFetches_keeps
    (m.setStaging (some ⟨digest, len, func, sec, 1, [], false, false, [], 0⟩)) fun _ => false
  exact ⟨Spares.trans hs (Spares.trans (Spares.setFw ..) hd), by rw [hg, setStaging_fw, hf]⟩

end Sys2Proof.Machine
end

section
/-! PROOF. O42: staging (R435 to R440, R451). -/

namespace Sys2Proof.Machine

open Sys2Proof

/-- An answer leaves the firmware's state but for the name of the activation that waits. -/
theorem AnswerFrame.fw {s u : State} {e : TagEntry} (h : s.AnswerFrame e u) : u.fw = { s.fw with activating := u.fw.activating } :=
  (Outlasts.of_answerFrame h).fw

/-- A command answered with the progress of the staging that it leaves. -/
theorem done_finish_progress {s m : State} (h : s.Spares m) (e : TagEntry) (st : Nat) :
    ∃ u, s.done (m.finish e.started st m.fw.progress) = .next u ∧ u.fw = { m.fw with activating := u.fw.activating } ∧
      u.Answers e (doneWith st e.asn u.fw.progress) := by
  obtain ⟨u, hu, ha, hk⟩ := done_finish h e st m.fw.progress
  have hf := AnswerFrame.fw hk
  refine ⟨u, hu, hf, ?_⟩
  rw [show u.fw.progress = m.fw.progress by rw [hf]; rfl]
  exact ha

section
variable {s : State} {t : TagId} {e : TagEntry}

theorem exec_fwOpen (h : s.Starts t 0x60 e) : exec (.fwOpen t) s = s.done (fwOpenBody e.started (s.begun e)) :=
  congrArg s.done (runCmd_starts h _)

theorem exec_fwChunk (h : s.Starts t 0x61 e) : exec (.fwChunk t) s = s.done (fwChunkBody e.started (s.begun e)) :=
  congrArg s.done (runCmd_starts h _)

theorem exec_fwDiscard (h : s.Starts t 0x66 e) (p : Bool) :
    exec (.fwDiscard t p) s = s.done (fwDiscardBody p e.started (s.begun e)) := congrArg s.done (runCmd_starts h _)

/-- An FW_OPEN of a package that passes its checks goes by the session that there is (R438). -/
theorem exec_fwOpen_passes (h : s.Starts t 0x60 e) (hc : (s.begun e).openFails e.msg = none) :
    exec (.fwOpen t) s = s.done (match s.fw.staging with
      | none => fwOpenNew e.started false (s.begun e)
      | some g =>
        if g.digest = sliceB e.msg.value 0 48 then
          ((s.begun e).joinStaging e.msg).finish e.started stOK ((s.begun e).joinStaging e.msg).fw.progress
        else if e.cls ≠ .data ∧ e.msg.supersede = true ∧ g.func ≤ leAt e.msg.value 52 4 then fwOpenNew e.started true (s.begun e)
        else (s.begun e).finish e.started stStagingBusy s.fw.progress) := by
  rw [exec_fwOpen h]
  unfold fwOpenBody
  rw [show (s.begun e).openFails e.started.msg = none from hc]
  rfl

end

/-- A session that opens anew, where it may. -/
theorem fwOpenNew_opens (e : TagEntry) (past : Bool) (s : State) :
    (s.noTier = true → fwOpenNew e past s = s.finish e stMedia s.fw.progress) ∧
    (s.noTier = false → s.flash.readOnly = true → fwOpenNew e past s = s.finish e stWorn s.fw.progress) ∧
    (s.noTier = false → s.flash.readOnly = false → ∃ m x, s.Spares m ∧
      fwOpenNew e past s = m.finish e stOK m.fw.progress ∧ m.fw.staging = some x ∧
      Staging.Joined ⟨sliceB e.msg.value 0 48, leAt e.msg.value 48 4, leAt e.msg.value 52 4, leAt e.msg.value 56 1, 1, [],
        false, false, [], 0⟩ x ∧ x.fromHost = true) := by
  unfold fwOpenNew
  extract_lets v a b
  have ha : s.Spares a ∧ a.fw = { s.fw with staging := some ⟨sliceB v 0 48, leAt v 48 4, leAt v 52 4, leAt v 56 1, 1, [],
      false, false, [], 0⟩ } := openStaging_fw ..
  have hb : b = (if past then a.raise Ev.UPD.SUPERSEDED else a).joinStaging e.msg := rfl
  clear_value a b
  refine ⟨fun hn => if_pos hn, fun hn hr => ?_, fun hn hr => ?_⟩
  · rw [hn, hr]
    rfl
  · rw [hn, hr, if_neg Bool.false_ne_true, if_neg Bool.false_ne_true, hb]
    obtain ⟨hs, hf⟩ : s.Spares (if past then a.raise Ev.UPD.SUPERSEDED else a) ∧
        (if past then a.raise Ev.UPD.SUPERSEDED else a).fw = a.fw := by
      split
      · exact ⟨Spares.trans ha.1 (Spares.raise ..), raise_fw ..⟩
      · exact ⟨ha.1, rfl⟩
    rw [ha.2] at hf
    obtain ⟨hj, x, hx, hg, hh⟩ := joinStaging_staging (congrArg Fw.staging hf) e.msg
    exact ⟨_, x, Spares.trans hs hj, rfl, hx, hg, hh⟩

/-- A chunk that passes its checks is held, and the last completes the session (R440). -/
theorem holdChunk_holds (s : State) (g : Staging) (k : Nat) (b : Bytes) (hg : s.fw.staging = some g) :
    s.Spares (s.holdChunk g k b) ∧ (s.holdChunk g k b).fw =
      { s.fw with staging := some (if (g.chunks.any fun c => c.1 == k) = true then g
        else if g.chunks.length + 1 = chunkCount g.len then { g with chunks := g.chunks ++ [(k, b)], stage := 2 }
        else { g with chunks := g.chunks ++ [(k, b)] }) } := by
  unfold State.holdChunk
  split
  · exact ⟨Spares.refl s, by rw [← hg]⟩
  · dsimp only
    have hd := Draining.saveSys s (.chunk k) b.length
    generalize s.saveSys (.chunk k) b.length = m at hd ⊢
    have hm : s.Spares m ∧ m.fw = s.fw := ⟨Spares.of_draining hd, Draining.fw hd⟩
    rw [List.length_append, List.length_singleton]
    split
    · refine ⟨Spares.trans hm.1 (Spares.trans (Spares.setFw ..) (Spares.raise ..)), (raise_fw ..).trans ?_⟩
      unfold State.setStaging
      rw [hm.2]
    · refine ⟨Spares.trans hm.1 (Spares.setFw ..), ?_⟩
      unfold State.setStaging
      rw [hm.2]

/-- A chunk goes by its session and its checks (R440). -/
theorem fwChunkBody_cases (e : TagEntry) (s : State) :
    (s.fw.named (sliceB e.msg.param 8 4) = none → fwChunkBody e s = s.finish e stPackage s.fw.progress) ∧
    ∀ g, s.fw.named (sliceB e.msg.param 8 4) = some g →
      (∀ st, s.chunkFails g (beAt e.msg.param 0 4) (beAt e.msg.param 4 4) e.msg.value = some st →
        fwChunkBody e s = s.finish e st s.fw.progress) ∧
      (s.chunkFails g (beAt e.msg.param 0 4) (beAt e.msg.param 4 4) e.msg.value = none →
        fwChunkBody e s = (s.holdChunk g (beAt e.msg.param 0 4) e.msg.value).finish e stOK
          (s.holdChunk g (beAt e.msg.param 0 4) e.msg.value).fw.progress) := by
  unfold fwChunkBody
  refine ⟨fun hn => ?_, fun g hg => ⟨fun st hc => ?_, fun hc => ?_⟩⟩
  · rw [hn]
  · simp only [hg, hc]
  · simp only [hg, hc]

/-- Settles O42: FW_OPEN by the session that there is, FW_CHUNK by its checks, FW_DISCARD by the tier. -/
theorem firmwareIsStagedInChunks : Obligations.FirmwareIsStagedInChunks := by
  unfold Obligations.FirmwareIsStagedInChunks
  intro s b t e g p hb v
  subst hb
  have hfail : ∀ st q, ∃ u, s.done ((s.begun e).finish e.started st q) = .next u ∧ u.Answers e (doneWith st e.asn q) ∧
      s.AnswerFrame e u := fun st q => done_post_begun s e _
  refine ⟨fun h => ⟨fun st hc => ?_, fun hc => ⟨fun hst => ?_, fun hg hd => ?_, fun hg hd hn => ?_⟩⟩, fun h => ?_, fun h => ?_,
    fun h hp => ?_⟩
  · rw [exec_fwOpen h]
    unfold fwOpenBody
    rw [show (s.begun e).openFails e.started.msg = some st from hc]
    exact hfail ..
  · obtain ⟨past, hx⟩ : ∃ past, exec (.fwOpen t) s = s.done (fwOpenNew e.started past (s.begun e)) := by
      rw [exec_fwOpen_passes h hc]
      obtain hg | ⟨hg, hd, hsup⟩ := hst
      · rw [hg]
        exact ⟨false, rfl⟩
      · rw [hg]
        dsimp only
        rw [if_neg hd, if_pos hsup]
        exact ⟨true, rfl⟩
    obtain ⟨hmedia, hworn, hopens⟩ := fwOpenNew_opens e.started past (s.begun e)
    rw [hx]
    refine ⟨fun hn => ?_, fun hn hr => ?_, fun hn hr => ?_⟩
    · rw [hmedia hn]
      exact hfail ..
    · rw [hworn hn hr]
      exact hfail ..
    · obtain ⟨m, x, hm, he, hst, ⟨fh, fp, ps, rfl⟩, hhost⟩ := hopens hn hr
      rw [he]
      obtain ⟨u, hu, hf, ha⟩ := done_finish_progress (Spares.trans (Spares.begun s e) hm) e stOK
      exact ⟨u, _, hu, (congrArg Fw.staging hf).trans hst, rfl, rfl, rfl, rfl, rfl, rfl, hhost, ha⟩
  · rw [exec_fwOpen_passes h hc, hg]
    dsimp only
    rw [if_pos hd]
    obtain ⟨hm, x, hst, ⟨fh, fp, ps, rfl⟩, hhost⟩ := joinStaging_staging (s := s.begun e) hg e.msg
    obtain ⟨u, hu, hf, ha⟩ := done_finish_progress (Spares.trans (Spares.begun s e) hm) e stOK
    exact ⟨u, _, hu, (congrArg Fw.staging hf).trans hst, rfl, rfl, rfl, rfl, hhost, ha⟩
  · rw [exec_fwOpen_passes h hc, hg]
    dsimp only
    rw [if_neg hd, if_neg hn]
    exact hfail ..
  · intro k
    rw [exec_fwChunk h]
    obtain ⟨hnone, hsome⟩ := fwChunkBody_cases e.started (s.begun e)
    refine ⟨fun hn => ?_, fun hn => ⟨fun st hc => ?_, fun hc => ?_⟩⟩
    · rw [hnone hn]
      exact hfail ..
    · rw [(hsome g hn).1 st hc]
      exact hfail ..
    · rw [(hsome g hn).2 hc]
      have hg : s.fw.staging = some g := (Option.filter_eq_some_iff.1 hn).1
      obtain ⟨hm, hf⟩ := holdChunk_holds (s.begun e) g k v hg
      obtain ⟨u, hu, hfu, ha⟩ := done_finish_progress (Spares.trans (Spares.begun s e) hm) e stOK
      refine ⟨u, hu, hfu.trans ?_, ha⟩
      rw [hf]
      rfl
  · rw [show exec (.fwStatus t) s = s.done ((s.begun e).finishData e.started stOK [] (s.begun e).fwStatus) from
      congrArg s.done (runCmd_starts h _)]
    exact done_post_begun ..
  · rw [exec_fwDiscard h]
    unfold fwDiscardBody
    rw [if_pos (show beAt e.started.msg.param 0 1 = 1 from hp)]
    refine ⟨fun hn => ?_, fun hg hr => ?_, fun hg hr => ?_⟩
    · rw [if_pos (by rw [show (s.begun e).fw.staging = none from hn]; rfl)]
      exact hfail ..
    · rw [if_neg (by rw [show (s.begun e).fw.staging = some g from hg]; exact Bool.false_ne_true),
        if_pos (show (s.begun e).flash.readOnly = true from hr)]
      exact hfail ..
    · rw [if_neg (by rw [show (s.begun e).fw.staging = some g from hg]; exact Bool.false_ne_true),
        if_neg (by rw [show (s.begun e).flash.readOnly = false from hr]; exact Bool.false_ne_true)]
      obtain ⟨hs, hf⟩ := endStaging_fw (s.begun e)
      obtain ⟨hs', hf'⟩ := dropFetches_keeps (s.begun e).endStaging fun _ => false
      obtain ⟨u, hu, ha, hk⟩ := done_finish (Spares.trans (Spares.begun s e) (Spares.trans hs hs')) e stOK []
      refine ⟨u, hu, ha, (AnswerFrame.fw hk).trans ?_⟩
      rw [hf', hf]
      rfl

end Sys2Proof.Machine
end

section
/-! PROOF. O43 fails. The clause for bad parts in the Edge profile reads the profile before the pause, the swap reads it
after the pause has drained the write buffer, and the statement takes every table of register words. In a table that is
not in canonical form the drain's count of flash units, which writes a register back to its reset value and so unlists
it, lets a listed profile word be seen that was hidden behind it. (R128, R442, R443, Table 18-8, log entry 4) -/

namespace Sys2Proof.Machine

open Sys2Proof

/-- The FW_ACTIVATE that waits for its pause. -/
def strayEntry : TagEntry :=
  ⟨⟨.session 1, 7⟩, .admin, .executing, ⟨0x64, 0, 0, 0, 0, [], [], []⟩, 5, 9, 0, none, none, 0, [], [], false, false, none⟩

/-- A device in service whose FW_ACTIVATE waits. Its register words are listed out of order: FLT NAND_UNITS_LO, at its reset
value, stands before a PROFILE word of the Fabric profile and hides it. -/
def strayState : State :=
  { State.reset with
    regs := [(Reg.FLT.NAND_UNITS_LO.addr 0 0, 0), (Reg.PROFILE.IN_FORCE.addr 0 0, 8)]
    dev := { State.reset.dev with phase := .service }
    cmd := { State.reset.cmd with tags := [strayEntry] }
    fw := { State.reset.fw with activating := some strayEntry.id } }

/-- The profile read before the pause is not the Fabric one, and the drained write buffer holds nothing. -/
theorem strayState_waits : strayState.fabric = false ∧
    (({ strayState with cmd := { strayState.cmd with paused := true } }).drain.flushLog).drained = true := by
  decide +kernel

/-- The swap that a bad part stops has written the slot record and castled it back, as the Fabric profile has it. -/
theorem strayState_writes : ∃ u, exec (.activationPause false) strayState = .next u ∧
    u.fw.record.generation = strayState.fw.record.generation + 2 := by
  have h : (match exec (.activationPause false) strayState with
      | .next u => u.fw.record.generation == strayState.fw.record.generation + 2
      | _ => false) = true := by decide +kernel
  split at h
  · exact ⟨_, ‹_›, of_decide_eq_true h⟩
  · cases h

/-- Refutes O43: in a table of register words not in canonical form the drain before the swap changes the profile that the
swap reads, and the record that bad parts must leave is written. -/
theorem not_firmwareIsVerifiedAndSwapped : ¬ Obligations.FirmwareIsVerifiedAndSwapped := by
  intro h
  obtain ⟨-, -, hpause, -⟩ := h strayState strayEntry.id strayEntry ⟨[], 0, 0, 0, 0, [], false, false, [], 0⟩ [] false false 0
  have hone : strayState.AllAnswered (some strayEntry.id) := fun f hf => .inl (by rw [List.mem_singleton.1 hf])
  obtain ⟨hprofile, hdrained⟩ := strayState_waits
  obtain ⟨u, hu, hfw, -⟩ := ((hpause rfl rfl rfl hone).2 hdrained).2 hprofile
  obtain ⟨v, hv, hgen⟩ := strayState_writes
  obtain rfl : u = v := Host.Outcome.next.inj (hu.symm.trans hv)
  rw [hfw] at hgen
  exact absurd hgen (Nat.ne_of_lt (Nat.lt_add_of_pos_right Nat.two_pos))

end Sys2Proof.Machine
end

section
/-! SUPPORT. The command that a CONTROLLER reset answers last keeps its tag through the reset's steps, though the end of its
session may rename its context (R96, R97, R152). -/

namespace Sys2Proof.Machine

open Sys2Proof

/-- The tag of a command that a CONTROLLER reset will answer. -/
def State.waiterTag (s : State) : Option Nat :=
  match s.dev.resetWaiter with
  | some (.tag t) => some t.tag
  | _ => none

theorem waiterTag_of_dev {s u : State} (h : u.dev = s.dev) : u.waiterTag = s.waiterTag := by
  unfold State.waiterTag
  rw [h]

theorem foldl_waiterTag {α : Type} (f : State → α → State) (hf : ∀ s a, (f s a).waiterTag = s.waiterTag) (l : List α)
    (s : State) : (l.foldl f s).waiterTag = s.waiterTag := by
  induction l generalizing s with
  | nil => rfl
  | cons a l ih => rw [List.foldl_cons, ih, hf]

theorem Traffic.dev {s u : State} (h : s.Traffic u) : u.dev = { s.dev with routerQuiet := u.dev.routerQuiet } := by
  obtain ⟨r, l, k, o, f, p, q, d, rfl, -⟩ := h
  rfl

theorem Traffic.waiterTag {s u : State} (h : s.Traffic u) : u.waiterTag = s.waiterTag := by
  unfold State.waiterTag
  rw [Traffic.dev h]

theorem Traffic.fabReply (s : State) (dst ftype reqId : Nat) (p : FabPayload) : s.Traffic (s.fabReply dst ftype reqId p) := by
  unfold State.fabReply
  dsimp only
  exact trans (makeFrames ..) (trans (setFab ..) (inject ..))

theorem renameTags_waiterTag (s : State) (x : Session) : (s.renameTags (orphanName x)).waiterTag = s.waiterTag := by
  have hname : ∀ t : TagId, (orphanName x t).tag = t.tag := fun t => by unfold orphanName; split <;> rfl
  unfold State.waiterTag State.renameTags
  dsimp only
  cases s.dev.resetWaiter with
  | none => rfl
  | some w =>
    cases w with
    | tag t => exact congrArg some (hname t)
    | mctp _ _ => rfl
    | path _ => rfl

theorem endSession_waiterTag (s : State) (i : Nat) : (s.endSession i).waiterTag = s.waiterTag := by
  unfold State.endSession
  split
  · rfl
  · dsimp only
    rw [waiterTag_of_dev (releasePages_dev ..)]
    exact (renameTags_waiterTag ..).trans (waiterTag_of_dev (dropEarly_dev ..))

theorem AnswerFrame.waiterTag {s u : State} {e : TagEntry} (h : s.AnswerFrame e u) : u.waiterTag = s.waiterTag := by
  obtain ⟨m, hm, h⟩ := h
  have hm : m.waiterTag = s.waiterTag := waiterTag_of_dev ((dev_of_answering hm).trans (dropEarly_dev ..))
  split at h
  · obtain rfl | ⟨x, -, -, rfl⟩ := h
    · exact hm
    · exact (endSession_waiterTag ..).trans hm
  · obtain ⟨p, rfl⟩ := h
    exact (Traffic.waiterTag (Traffic.fabReply ..)).trans hm
  · rw [h, hm]

theorem post_waiterTag (s : State) (e : TagEntry) (c : Completion) : (s.post e c).waiterTag = s.waiterTag :=
  AnswerFrame.waiterTag (AnswerFrame.post s e c)

theorem answer_waiterTag (s : State) (w : Waiter) (st : Nat) : (s.answer w st).waiterTag = s.waiterTag := by
  cases w with
  | tag t =>
    unfold State.answer
    dsimp only
    split
    · exact post_waiterTag ..
    · rfl
  | mctp tag code => rfl
  | path p =>
    obtain ⟨d, h⟩ := s.answer_path_eq p st
    rw [h]
    rfl

theorem detach_waiterTag (s : State) (t : TagId) : (s.detach t).waiterTag = s.waiterTag := by
  have h : (s.detach t).dev.resetWaiter = s.dev.resetWaiter := by
    unfold State.detach
    dsimp only
    split <;> rfl
  unfold State.waiterTag
  rw [h]

theorem finishTags_waiterTag (st : Nat) (ts : List TagId) (s : State) : (s.finishTags st ts).waiterTag = s.waiterTag := by
  induction ts generalizing s with
  | nil => rfl
  | cons t ts ih =>
    unfold State.finishTags
    split
    · rw [ih]
      exact post_waiterTag ..
    · exact ih s

theorem abandonEntry_waiterTag (s : State) : s.abandonEntry.waiterTag = s.waiterTag := by
  unfold State.abandonEntry
  split
  · rfl
  · dsimp only
    rw [finishTags_waiterTag, waiterTag_of_dev (raise_dev ..)]
    rfl

theorem cancel_waiterTag (keep : Option TagId) (es : List TagEntry) (s : State) :
    (s.cancel keep es).waiterTag = s.waiterTag := by
  induction es generalizing s with
  | nil => rfl
  | cons e es ih =>
    unfold State.cancel
    split
    · dsimp only
      rw [ih, show ∀ v : State, (v.finish e stResetAborted []).waiterTag = v.waiterTag from fun v => post_waiterTag .., detach_waiterTag]
      split
      · exact waiterTag_of_dev (voidRecord_dev ..)
      · rfl
    · exact ih s

theorem mirrorOne_waiterTag (s : State) (n : Ns) (e : TagEntry) (media : Bool) (body : MirrorBody) (a : Nat) :
    (s.mirrorOne n e media body a).waiterTag = s.waiterTag := by
  unfold State.mirrorOne
  extract_lets t
  have ht : t.waiterTag = s.waiterTag := by
    unfold t
    split
    · rfl
    · exact Traffic.waiterTag (Traffic.trans (Traffic.fabRequest ..) (Traffic.setFab ..))
  split
  · exact ht
  · split
    · exact ht
    · exact (Traffic.waiterTag (Traffic.trans (Traffic.fabRequest ..) (Traffic.setFab ..))).trans ht

theorem commitWrite_waiterTag (s : State) (n : Ns) (e : TagEntry) (c : Completion) (parts : List (Nat × MirrorBody)) :
    (s.commitWrite n e c parts).waiterTag = s.waiterTag := by
  show (s.mirrorOut n e _ parts).1.waiterTag = s.waiterTag
  unfold State.mirrorOut
  dsimp only
  rw [foldl_waiterTag _ fun t p => mirrorOne_waiterTag ..]
  exact waiterTag_of_dev (foldl_dev _ (fun t p => cutMember_dev ..) _ _)

theorem purgeEnd_waiterTag (s : State) (e : TagEntry) : (s.purgeEnd e).waiterTag = s.waiterTag := by
  unfold State.purgeEnd
  split
  · exact (commitWrite_waiterTag ..).trans (waiterTag_of_dev (purgeGo_dev ..))
  · rfl

theorem postCommitted_waiterTag (es : List TagEntry) (s : State) : (s.postCommitted es).waiterTag = s.waiterTag := by
  induction es generalizing s with
  | nil => rfl
  | cons e es ih =>
    unfold State.postCommitted
    split
    · extract_lets t f u g
      have hu : u.waiterTag = t.waiterTag := waiterTag_of_dev (foldl_dev _ (fun t a => degradeMember_dev ..) _ _)
      rw [ih, post_waiterTag, waiterTag_of_dev (camEnd_dev ..), hu]
      exact purgeEnd_waiterTag ..
    · exact ih s

theorem runController_waiterTag (s : State) (keep : Option TagId) : (s.runController keep).waiterTag = s.waiterTag := by
  unfold State.runController
  dsimp only
  rw [postCommitted_waiterTag, waiterTag_of_dev ((flushLog_dev ..).trans (drain_dev ..)), foldl_waiterTag, cancel_waiterTag,
    waiterTag_of_dev (dropCommit_dev ..)]
  · exact abandonEntry_waiterTag s
  · intro t w
    split
    · rfl
    · exact answer_waiterTag ..

/-- A command that asks for a CONTROLLER reset is the one that the reset will answer. -/
theorem askController_waits {s : State} (h : s.dev.resetBusy = false) (t : TagId) :
    ∃ x, (s.askController (.tag t)).dev.resetWaiter = some (.tag x) ∧ x.tag = t.tag := by
  have hw : (s.askController (.tag t)).waiterTag = some t.tag := by
    unfold State.askController
    rw [if_neg (by rw [h]; exact Bool.false_ne_true)]
    exact runController_waiterTag ..
  unfold State.waiterTag at hw
  split at hw
  · exact ⟨_, ‹_›, Option.some.inj hw⟩
  · cases hw

end Sys2Proof.Machine
end

section
/-! SUPPORT. Requests on the fabric: what one that has a route leaves, and what sending several leaves alone (R412, R416). -/

namespace Sys2Proof.Machine

open Sys2Proof

namespace Traffic

theorem sessions {s u : State} (h : s.Traffic u) : u.sessions = s.sessions := by
  obtain ⟨r, l, k, o, f, p, q, d, rfl, -⟩ := h
  rfl

theorem kv {s u : State} (h : s.Traffic u) : u.kv = s.kv := by
  obtain ⟨r, l, k, o, f, p, q, d, rfl, -⟩ := h
  rfl

theorem answers {s u : State} (h : s.Traffic u) {e : TagEntry} {c : Completion} (ha : s.Answers e c) : u.Answers e c :=
  answers_congr (cmd h) (sessions h) ha

end Traffic

/-- Requests sent: of the fabric's state only the next MSG_ID, local injection and the list of requests may change. -/
def State.Asking (s u : State) : Prop :=
  s.Traffic u ∧ u.fab = { s.fab with nextMsg := u.fab.nextMsg, inject := u.fab.inject, outMsgs := u.fab.outMsgs }

namespace Asking

theorem refl (s : State) : s.Asking s := ⟨Traffic.refl s, rfl⟩

theorem trans {s t u : State} (h : s.Asking t) (k : t.Asking u) : s.Asking u :=
  ⟨Traffic.trans h.1 k.1, k.2.trans (by rw [h.2])⟩

theorem foldl {α : Type} (f : State → α → State) (hf : ∀ (s : State) a, s.Asking (f s a)) (l : List α) (s : State) :
    s.Asking (l.foldl f s) := by
  induction l generalizing s with
  | nil => exact refl s
  | cons a l ih => exact trans (hf s a) (ih _)

theorem fabAsk (s : State) (dest : FrameTo) (p : FabPayload) (tag : Option TagId) (nsid asn : Nat) :
    s.Asking (s.fabAsk dest p tag nsid asn) := by
  refine ⟨Traffic.fabAsk .., ?_⟩
  unfold State.fabAsk
  split
  · rfl
  · have h := makeFrames_fab s dest (payloadBytes p)
    generalize s.makeFrames dest (payloadBytes p) = w at h
    obtain ⟨fs, t⟩ := w
    dsimp only [State.inject] at h ⊢
    rw [h]

theorem sendKeeper (s : State) (l : Link) : s.Asking (s.sendKeeper l) := by
  unfold State.sendKeeper
  split
  · split
    · exact fabAsk ..
    · exact refl s
  · exact refl s

theorem sendKeepers (s : State) : s.Asking s.sendKeepers := by
  unfold State.sendKeepers
  split
  · exact foldl _ sendKeeper _ s
  · exact refl s

end Asking

/-- A request that has a route waits at local injection in its frames, listed until its response comes (R412, R417). -/
theorem fabAsk_asks (s : State) {dest : FrameTo} (h : (dest.link.isNone && s.noRoute dest.dst) = false) (p : FabPayload)
    (tag : Option TagId) (nsid asn : Nat) :
    (s.fabAsk dest p tag nsid asn).out = s.out ∧ (s.fabAsk dest p tag nsid asn).fab =
      { s.fab with
        nextMsg := s.fab.nextMsg + 1
        inject := s.fab.inject ++ (s.makeFrames dest (payloadBytes p)).1.map fun f => (dest.link, f)
        outMsgs := s.fab.outMsgs ++ [⟨s.fab.nextMsg, dest.dst, dest.ftype, p, (s.makeFrames dest (payloadBytes p)).1, dest.link, 0,
          tag, nsid, asn⟩] } := by
  obtain ⟨r, l, k, hw, -⟩ := Enciphers.makeFrames s dest (payloadBytes p)
  unfold State.fabAsk
  rw [if_neg (by rw [h]; exact Bool.false_ne_true)]
  generalize s.makeFrames dest (payloadBytes p) = w at hw
  obtain ⟨fs, t⟩ := w
  dsimp only at hw
  subst hw
  exact ⟨rfl, rfl⟩

end Sys2Proof.Machine
end

section
/-! SUPPORT. FAB_QUERY, FAB_FORWARD and FAB_MIRROR_SET as they begin (R423 to R426). -/

namespace Sys2Proof.Machine

open Sys2Proof

section
variable {s : State} {t : TagId} {e : TagEntry}

theorem exec_fabQuery (h : s.Starts t 0x70 e) : exec (.fabQuery t) s = s.done (fabQueryBody e.started (s.begun e)) :=
  congrArg s.done (runCmd_starts h fabQueryBody)

theorem exec_fabForward (h : s.Starts t 0x72 e) : exec (.fabForward t) s =
    s.done ((s.begun e).askFor e.started (beAt e.msg.param 0 2) 0x03 (.bytes e.msg.value)) :=
  congrArg s.done (runCmd_starts h fun (e : TagEntry) (s : State) => s.askFor e (beAt e.msg.param 0 2) 0x03 (.bytes e.msg.value))

theorem exec_fabMirrorSet (h : s.Starts t 0x71 e) (refused unreachable : Bool) : exec (.fabMirrorSet t refused unreachable) s =
    s.done (fabMirrorSetBody refused unreachable e.started (s.begun e)) :=
  congrArg s.done (runCmd_starts h (fabMirrorSetBody refused unreachable))

theorem exec_resetController (h : s.Starts t 0x45 e) :
    exec (.resetController t) s = s.done ((s.begun e).askController (.tag e.id)) :=
  congrArg s.done (runCmd_starts h fun (e : TagEntry) (s : State) => s.askController (.tag e.id))

end

/-- A command with no request of its own outstanding asks once, or learns at once that nothing leads there (R412, R416). -/
theorem done_askFor (s : State) (e : TagEntry) (dst ftype : Nat) (body : FabPayload)
    (hn : (s.fab.outMsgs.any fun o => o.tag == some e.id) = false) :
    ((s.begun e).noRoute dst = false →
      let fs := ((s.begun e).makeFrames ⟨dst, ftype, none, Config.fabFlow dst 0⟩ (payloadBytes body)).1
      ∃ u, s.done ((s.begun e).askFor e.started dst ftype body) = .next u ∧ u.entry? e.id = some e.started ∧ u.out = s.out ∧
        u.fab = { s.fab with nextMsg := s.fab.nextMsg + 1, inject := s.fab.inject ++ fs.map fun f => (none, f)
                             outMsgs := s.fab.outMsgs ++ [⟨s.fab.nextMsg, dst, ftype, body, fs, none, 0, some e.id, 0, 0⟩] }) ∧
    ((s.begun e).noRoute dst = true → ∃ u, s.done ((s.begun e).askFor e.started dst ftype body) = .next u ∧
      u.Answers e (doneWith stUnreachable e.asn []) ∧ s.AnswerFrame e u) := by
  have hone : (s.begun e).askFor e.started dst ftype body =
      if (s.begun e).noRoute dst then ((s.begun e).count Reg.FAB.UNREACHABLE 1).finish e.started stUnreachable []
      else (s.begun e).fabRequest dst ftype body (some e.id) 0 0 := by
    unfold State.askFor
    rw [if_neg]
    · rfl
    · exact Bool.eq_false_iff.1 hn
  rw [hone]
  refine ⟨fun hr => ?_, fun hr => ?_⟩
  · rw [hr, if_neg Bool.false_ne_true]
    have ht := Traffic.fabRequest (s.begun e) dst ftype body (some e.id) 0 0
    obtain ⟨ho, hf⟩ := fabAsk_asks (s.begun e) (dest := ⟨dst, ftype, none, Config.fabFlow dst 0⟩) hr body (some e.id) 0 0
    exact ⟨_, Spares.done (Spares.trans (Spares.begun s e) (Traffic.spares ht)),
      (entry_congr (Traffic.cmd ht) _).trans (entry_setEntry s e.started), ho, hf⟩
  · rw [if_pos hr]
    obtain ⟨u, hu, ha, hk⟩ := done_finish (Spares.trans (Spares.begun s e) (Spares.count _ Reg.FAB.UNREACHABLE 1)) e
      stUnreachable []
    exact ⟨u, hu, ha, AnswerFrame.of_begun (AnswerFrame.of_answering (s := s.begun e) ⟨_, _, _, _, _, _, rfl⟩ hk)⟩

/-- An answer after which the device sends requests. -/
theorem done_finish_asks {s m : State} (h : s.Spares m) (e : TagEntry) (st : Nat) (p : Bytes) {g : State → State}
    (hg : ∀ t : State, t.Traffic (g t)) : ∃ u w, s.done (g (m.finish e.started st p)) = .next u ∧ u = g w ∧
      u.Answers e (doneWith st e.asn p) ∧ m.AnswerFrame e w := by
  have hw : s.Spares (m.finish e.started st p) :=
    Spares.trans h (Spares.of_answerKeeps (AnswerKeeps.finish m e.started st p))
  exact ⟨_, _, Spares.done (Spares.trans hw (Traffic.spares (hg _))), rfl,
    Traffic.answers (hg _) (finish_answers m e.started st p), AnswerFrame.finish m e.started st p⟩

/-- A namespace's binding stays through answers. -/
theorem Outlasts.mirrorSet {s u : State} (h : s.Outlasts u) {i : Nat} {n : Ns} (hn : s.ns? i = some n) :
    ∃ y, u.ns? i = some y ∧ y.mirrorSet = n.mirrorSet := by
  have hl := Outlasts.ns h i
  rw [hn] at hl
  obtain ⟨y, hy, he⟩ := Option.map_eq_some_iff.1 hl
  have hset : y.lasting.mirrorSet = n.lasting.mirrorSet := congrArg Ns.mirrorSet he
  exact ⟨y, hy, hset⟩

theorem ns_congr {s t : State} (h : s.kv = t.kv) (i : Nat) : s.ns? i = t.ns? i := by
  unfold State.ns?
  rw [h]

/-- A namespace is found under its own ID. -/
theorem ns_named {s : State} {i : Nat} {n : Ns} (h : s.ns? i = some n) : s.ns? n.nsid = some n := by
  rw [show n.nsid = i by simpa using List.find?_some h, h]

theorem bindNs_eq (s : State) (n : Ns) : ∃ v f, s.bindNs n = { s with kv := v, flash := f } ∧
    v.namespaces = putWhere (fun x => x.nsid == n.nsid) n s.kv.namespaces := ⟨_, _, rfl, rfl⟩

theorem bindNs_ns (s : State) (n : Ns) : (s.bindNs n).ns? n.nsid = some n :=
  find_putWhere (fun x : Ns => x.nsid == n.nsid) n (by simp) s.kv.namespaces

end Sys2Proof.Machine
end

section
/-! PROOF. O44: FAB_QUERY, FAB_FORWARD, FAB_MIRROR_SET and RESET_CONTROLLER (R96, R97, R412, R423 to R426). -/

namespace Sys2Proof.Machine

open Sys2Proof

/-! ## Mirror sets -/

theorem repeats_eq_false {l : List Nat} (h : l.Nodup) : repeats l = false := by
  induction l with
  | nil => rfl
  | cons a l ih =>
    obtain ⟨ha, hl⟩ := List.nodup_cons.1 h
    unfold repeats
    rw [ih hl, Bool.or_false]
    simpa using ha

namespace Traffic

theorem setMember (s : State) (m : MirrorMember) : s.Traffic (s.setMember m) := setFab ..

theorem releaseMembers (s : State) (nsid : Nat) (keep : List Nat) : s.Traffic (s.releaseMembers nsid keep) := by
  refine foldl _ (fun t m => trans (setMember t { m with releasing := true, state := .inSync }) ?_) _ s
  unfold State.sendRelease
  split
  · split
    · exact fabRequest ..
    · exact refl _
  · exact refl _

theorem addMember (s : State) (n : Ns) (a : Nat) : s.Traffic (s.addMember n a) := by
  unfold State.addMember
  split
  · exact refl s
  · exact setMember ..

theorem sendKeepers (s : State) : s.Traffic s.sendKeepers := (Asking.sendKeepers s).1

end Traffic

section
variable {s m : State} {e : TagEntry} {n : Ns} (hm : s.Spares m) (hn : m.ns? n.nsid = some n)
include hm hn

/-- A BIND that fails answers, and leaves the binding. -/
theorem done_bind_fails (st : Nat) : ∃ u y, s.done (m.finish e.started st []) = .next u ∧ u.ns? n.nsid = some y ∧
    y.mirrorSet = n.mirrorSet ∧ u.Answers e (doneWith st e.asn []) := by
  obtain ⟨u, hu, ha, hk⟩ := done_finish hm e st []
  obtain ⟨y, hy, he⟩ := Outlasts.mirrorSet (Outlasts.of_answerFrame hk) hn
  exact ⟨u, y, hu, hy, he, ha⟩

omit hn in
/-- A BIND that is made answers with the namespace bound; what is sent after leaves both. -/
theorem done_bind_made (b : Option Nat) {g : State → State} (hg : ∀ t : State, t.Traffic (g t)) :
    ∃ u y, s.done (g ((m.bindNs { n with mirrorSet := b }).finish e.started stOK [])) = .next u ∧ u.ns? n.nsid = some y ∧
      y.mirrorSet = b ∧ u.Answers e (doneWith stOK e.asn []) := by
  obtain ⟨v, f, hb, -⟩ := bindNs_eq m { n with mirrorSet := b }
  have hs : s.Spares (m.bindNs { n with mirrorSet := b }) := by
    rw [hb]
    exact Spares.trans hm ⟨rfl, rfl, rfl, rfl⟩
  obtain ⟨u, w, hu, rfl, ha, hk⟩ := done_finish_asks hs e stOK [] hg
  obtain ⟨y, hy, he⟩ := Outlasts.mirrorSet (Outlasts.of_answerFrame hk) (bindNs_ns m { n with mirrorSet := b })
  exact ⟨_, y, hu, (ns_congr (Traffic.kv (hg w)) _).trans hy, he, ha⟩

end

/-- A set that is made or deleted is answered, and the keeper records that follow leave the sets. -/
theorem done_sets (s : State) (e : TagEntry) (sets : List (Nat × Bool × List Nat)) : ∃ u,
    s.done (((s.begun e).journal { s.begun e with fab := { s.fab with sets := sets } } false).finish e.started stOK []).sendKeepers
      = .next u ∧ u.fab.sets = sets ∧ u.Answers e (doneWith stOK e.asn []) := by
  obtain ⟨u, w, hu, rfl, ha, hk⟩ := done_finish_asks (s := s)
    (m := (s.begun e).journal { s.begun e with fab := { s.fab with sets := sets } } false) ⟨rfl, rfl, rfl, rfl⟩ e stOK []
    Traffic.sendKeepers
  refine ⟨_, hu, ?_, ha⟩
  rw [(Asking.sendKeepers w).2, (Outlasts.of_answerFrame hk).fab]
  rfl

/-- A DELETE of a set that there is goes by what names the set. -/
theorem fabMirrorSetBody_delete {s : State} {e : TagEntry} (hop : beAt e.msg.param 0 1 = 2)
    (hex : (s.fab.sets.any fun x => x.1 == beAt e.msg.param 2 2) = true) (hv : e.msg.value = []) (r q : Bool) :
    fabMirrorSetBody r q e.started (s.begun e) =
      if ((s.begun e).table 2).any (fun x => match x.2 with
          | some c => bitsOf c.data 16 16 == beAt e.msg.param 2 2
          | none => false) = true ∨ (s.kv.namespaces.any fun n => n.mirrorSet == some (beAt e.msg.param 2 2)) = true then
        (s.begun e).finish e.started stNotPermitted []
      else if s.flash.readOnly then (s.begun e).finish e.started stWorn []
      else (((s.begun e).journal { s.begun e with fab :=
        { s.fab with sets := s.fab.sets.filter fun x => x.1 != beAt e.msg.param 2 2 } } false).finish e.started stOK []).sendKeepers := by
  unfold fabMirrorSetBody
  dsimp only
  rw [if_neg (show ¬ beAt e.started.msg.param 0 1 = 1 by rw [show beAt e.started.msg.param 0 1 = 2 from hop]; decide),
    if_pos (show beAt e.started.msg.param 0 1 = 2 from hop)]
  unfold deleteSet
  dsimp only
  refine (if_neg ?_).trans rfl
  rintro (hc | hc)
  · rw [show ((s.begun e).fab.sets.any fun x => x.1 == beAt e.started.msg.param 2 2) = true from hex] at hc
    exact absurd hc (by decide)
  · rw [show e.started.msg.value = [] from hv] at hc
    exact absurd hc (by decide)

/-- The descriptor sent to each member of a set, each request given up as its answer comes (R426). -/
def State.copyCreates (s : State) (n : Ns) (l : List Nat) : State :=
  l.foldl (fun (s : State) a =>
    (s.fabRequest a 0x01 (.copyCreate n.nsid n.descriptor) none n.nsid 0).dropOut s.fab.nextMsg) s

theorem Traffic.copyCreates (s : State) (n : Ns) (l : List Nat) : s.Traffic (s.copyCreates n l) :=
  Traffic.foldl _ (fun t a => Traffic.trans (Traffic.fabRequest t a 0x01 (.copyCreate n.nsid n.descriptor) none n.nsid 0)
    (Traffic.setFab ..)) l s

/-- What a BIND sends once it is made: releases to members that it leaves out, and keeper records (R426). -/
def State.boundTo (s : State) (n : Ns) (l : List Nat) : State :=
  (l.foldl (fun (s : State) a => s.addMember n a) (s.releaseMembers n.nsid l)).sendKeepers

theorem Traffic.boundTo (n : Ns) (l : List Nat) (s : State) : s.Traffic (s.boundTo n l) :=
  trans (releaseMembers s n.nsid l) (trans (foldl _ (fun t a => addMember t n a) l _) (sendKeepers _))

section
variable {s : State} {e : TagEntry} {n : Ns} (hop : beAt e.msg.param 0 1 = 3) (hv : e.msg.value = [])
  (hn : s.ns? e.msg.nsid = some n) (hr : s.flash.readOnly = false)
include hop hn

theorem fabMirrorSetBody_binds (r q : Bool) :
    fabMirrorSetBody r q e.started (s.begun e) = bindSet r q e.started n (s.begun e) := by
  unfold fabMirrorSetBody
  dsimp only
  have hop : beAt e.started.msg.param 0 1 = 3 := hop
  rw [if_neg (by rw [hop]; decide), if_neg (by rw [hop]; decide), show (s.begun e).ns? e.started.msg.nsid = some n from hn]

include hv hr

/-- A BIND to 0xFFFF unbinds. -/
theorem fabMirrorSetBody_unbinds (hid : beAt e.msg.param 2 2 = 0xFFFF) (r q : Bool) :
    fabMirrorSetBody r q e.started (s.begun e) =
      (((s.begun e).bindNs { n with mirrorSet := none }).finish e.started stOK []).boundTo n [] := by
  rw [fabMirrorSetBody_binds hop hn]
  unfold bindSet
  dsimp only
  rw [if_neg, if_pos (show beAt e.started.msg.param 2 2 = 0xFFFF from hid),
    if_neg (show ¬ (s.begun e).flash.readOnly = true from Bool.eq_false_iff.1 hr)]
  · rfl
  · rw [show e.started.msg.value = [] from hv]
    exact Bool.false_ne_true

/-- A BIND to a set that can be reached goes by its members' answers. -/
theorem fabMirrorSetBody_bindsTo {x : Nat × Bool × List Nat} (hid : beAt e.msg.param 2 2 ≠ 0xFFFF)
    (hx : (s.fab.sets.find? fun y => y.1 == beAt e.msg.param 2 2) = some x) (hroute : ∀ a ∈ x.2.2, s.noRoute a = false)
    (r q : Bool) : fabMirrorSetBody r q e.started (s.begun e) =
      if r then ((s.begun e).copyCreates n x.2.2).finish e.started stMirrorFailed []
      else if q then (((s.begun e).copyCreates n x.2.2).count Reg.FAB.UNREACHABLE 1).finish e.started stUnreachable []
      else ((((s.begun e).copyCreates n x.2.2).bindNs { n with mirrorSet := some (beAt e.msg.param 2 2) }).finish e.started stOK
        []).boundTo n x.2.2 := by
  have hcut : (x.2.2.any fun a => (s.begun e).noRoute a) = false := List.any_eq_false.2 fun a ha => Bool.eq_false_iff.1 (hroute a ha)
  rw [fabMirrorSetBody_binds hop hn]
  unfold bindSet
  dsimp only
  rw [if_neg, if_neg (show ¬ beAt e.started.msg.param 2 2 = 0xFFFF from hid),
    show ((s.begun e).fab.sets.find? fun y => y.1 == beAt e.started.msg.param 2 2) = some x from hx]
  · dsimp only
    rw [if_neg (show ¬ (s.begun e).flash.readOnly = true from Bool.eq_false_iff.1 hr), hcut]
    cases r
    · cases q <;> rfl
    · rfl
  · rw [show e.started.msg.value = [] from hv]
    exact Bool.false_ne_true

end

/-- Settles O44: one request asked once, sets by their conditions, the reset by its waiter. -/
theorem fabricCommandsAskTheFabric : Obligations.FabricCommandsAskTheFabric := by
  unfold Obligations.FabricCommandsAskTheFabric
  intro s b t e n hb p id asks
  subst hb
  refine ⟨fun h => ⟨fun h0 => ?_, fun h0 => ?_⟩, fun h => ?_, fun h hr => ⟨?_, fun hop hex hv => ⟨fun hns => ?_, fun hns htab => ?_⟩,
    fun x hop hid hv hn hx hroute => ⟨?_, ?_, ?_⟩, fun hop hid hv hn => ?_⟩, fun h => ⟨fun hbusy => ?_, fun hbusy => ?_⟩⟩
  · rw [exec_fabQuery h]
    unfold fabQueryBody
    rw [if_pos (show beAt e.started.msg.param 0 1 = 0 from h0)]
    exact done_post_begun ..
  · intro hn
    rw [exec_fabQuery h]
    unfold fabQueryBody
    rw [if_neg (show ¬ beAt e.started.msg.param 0 1 = 0 from h0)]
    have := h.id_eq
    subst this
    exact done_askFor s e (beAt p 1 2) 0x05 .query hn
  · intro hn
    rw [exec_fabForward h]
    have := h.id_eq
    subst this
    exact done_askFor s e (beAt p 0 2) 0x03 (.bytes e.msg.value) hn
  · intro hop h0 hmax hnew h1 h3 hlen hself hdup hroom
    rw [exec_fabMirrorSet h]
    unfold fabMirrorSetBody
    dsimp only
    rw [if_pos (show beAt e.started.msg.param 0 1 = 1 from hop)]
    unfold defineSet
    dsimp only
    rw [if_neg, if_neg (show ¬ 256 ≤ (s.begun e).fab.sets.length from Nat.not_le.2 hroom),
      if_neg (show ¬ (s.begun e).flash.readOnly = true from Bool.eq_false_iff.1 hr)]
    · exact done_sets ..
    · have hc : (setMembers e.msg).contains s.fab.addr = false := by simpa using hself
      rintro (hc' | hc' | hc' | hc' | hc' | hc' | hc' | hc')
      · exact Nat.ne_of_gt h0 hc'
      · exact absurd hmax (Nat.not_le.2 hc')
      · exact Bool.eq_false_iff.1 hnew hc'
      · exact Nat.ne_of_gt h1 hc'
      · exact absurd h3 (Nat.not_le.2 hc')
      · exact hc' hlen
      · exact Bool.eq_false_iff.1 hc hc'
      · exact Bool.eq_false_iff.1 (repeats_eq_false hdup) hc'
  · rw [exec_fabMirrorSet h, fabMirrorSetBody_delete hop hex hv, if_pos (.inr hns)]
    exact done_post_begun ..
  · have htab : ((s.begun e).table 2).any (fun x => match x.2 with
        | some c => bitsOf c.data 16 16 == id
        | none => false) = false := by
      rw [List.any_eq_false]
      intro x hx
      split
      · simpa using htab x hx _ ‹_›
      · exact Bool.false_ne_true
    rw [exec_fabMirrorSet h, fabMirrorSetBody_delete hop hex hv, if_neg, if_neg]
    · obtain ⟨u, hu, hs, ha⟩ := done_sets s e (s.fab.sets.filter fun x => x.1 != id)
      exact ⟨u, hu, ha, hs⟩
    · exact Bool.eq_false_iff.1 hr
    · rintro (hc | hc)
      · exact Bool.eq_false_iff.1 htab hc
      · exact Bool.eq_false_iff.1 hns hc
  · rw [exec_fabMirrorSet h, fabMirrorSetBody_bindsTo hop hv hn hr hid hx hroute]
    exact done_bind_made (Spares.trans (Spares.begun s e) (Traffic.spares (Traffic.copyCreates ..))) _ (Traffic.boundTo n _)
  · rw [exec_fabMirrorSet h, fabMirrorSetBody_bindsTo hop hv hn hr hid hx hroute]
    have ht := Traffic.copyCreates (s.begun e) n x.2.2
    exact done_bind_fails (Spares.trans (Spares.begun s e) (Traffic.spares ht))
      ((ns_congr (Traffic.kv ht) _).trans (ns_named hn)) stMirrorFailed
  · rw [exec_fabMirrorSet h, fabMirrorSetBody_bindsTo hop hv hn hr hid hx hroute]
    have ht := Traffic.copyCreates (s.begun e) n x.2.2
    generalize (s.begun e).copyCreates n x.2.2 = w at ht
    have hn' : (w.count Reg.FAB.UNREACHABLE 1).ns? n.nsid = some n := (ns_congr (Traffic.kv ht) _).trans (ns_named hn)
    exact done_bind_fails (Spares.trans (Spares.begun s e) (Spares.trans (Traffic.spares ht) (Spares.count ..))) hn' stUnreachable
  · rw [exec_fabMirrorSet h, fabMirrorSetBody_unbinds hop hv hn hr hid]
    exact done_bind_made (Spares.begun s e) none (Traffic.boundTo n [])
  · rw [exec_resetController h]
    unfold State.askController
    rw [if_pos (show (s.begun e).dev.resetBusy = true from hbusy)]
    exact done_answer_begun (AnswerKeeps.refl s) (e := e) stResetAborted
  · obtain ⟨u, hu, hp⟩ := exists_carried (exec_resetController h)
    obtain ⟨x, hx, ht⟩ := askController_waits (s := s.begun e) hbusy e.id
    refine ⟨u, x, hu, ?_⟩
    rw [hp.dev]
    exact ⟨askController_resetBusy .., hx, ht.trans (congrArg TagId.tag h.id_eq)⟩

end Sys2Proof.Machine
end

section
/-! SUPPORT. Links: what a link's record is after a change of it, and what sending, credits and the sled map leave of every
link (R404 to R409). -/

namespace Sys2Proof.Machine

open Sys2Proof

/-! ## A link's record -/

theorem link_id (s : State) (k : Nat) : (s.link k).id = k := by
  unfold State.link
  cases h : s.fab.links.find? fun x => x.id == k with
  | none => rfl
  | some x => simpa using List.find?_some h

/-- A link that is not as one that is down has a record. -/
theorem link_listed {s : State} {k : Nat} (h : s.link k ≠ Link.down k) : (s.fab.links.any fun x => x.id == k) = true := by
  rw [List.any_eq_true]
  unfold State.link at h
  cases hf : s.fab.links.find? fun x => x.id == k with
  | none =>
    rw [hf] at h
    exact absurd rfl h
  | some x => exact ⟨x, List.mem_of_find?_eq_some hf, List.find?_some (p := fun x : Link => x.id == k) hf⟩

theorem link_congr {s t : State} (h : t.fab.links = s.fab.links) (k : Nat) : t.link k = s.link k := by
  unfold State.link
  rw [h]

/-- A record replaced is found where one was. -/
theorem find_setLink (s : State) (x : Link) (i : Nat) : (s.setLink x).fab.links.find? (fun y => y.id == i) =
    (s.fab.links.find? fun y => y.id == i).map fun y => if (y.id == x.id) = true then x else y := by
  refine find_map_of_keeps (p := fun y : Link => y.id == i) (fun y => ?_) _
  split
  · rename_i h
    rw [beq_iff_eq.1 h]
  · rfl

theorem link_setLink {s : State} {x : Link} (h : (s.fab.links.any fun y => y.id == x.id) = true) :
    (s.setLink x).link x.id = x := by
  unfold State.link
  rw [find_setLink]
  cases hf : s.fab.links.find? fun y => y.id == x.id with
  | none =>
    obtain ⟨y, hy, hi⟩ := List.any_eq_true.1 h
    exact absurd hi (List.find?_eq_none.1 hf y hy)
  | some y => exact if_pos (List.find?_some (p := fun y : Link => y.id == x.id) hf)

theorem setLink_unlisted {s : State} {x : Link} (h : (s.fab.links.any fun y => y.id == x.id) = false) :
    s.setLink x = s := by
  have hl : updWhere (fun y => y.id == x.id) (fun _ => x) s.fab.links = s.fab.links := by
    unfold updWhere
    refine (List.map_congr_left fun y hy => ?_).trans (List.map_id _)
    rw [if_neg (List.any_eq_false.1 h y hy)]
    rfl
  unfold State.setLink
  rw [hl]

theorem link_unlisted {s : State} {k : Nat} (h : (s.fab.links.any fun y => y.id == k) = false) : s.link k = Link.down k := by
  unfold State.link
  rw [List.find?_eq_none.2 (List.any_eq_false.1 h)]
  rfl

theorem link_setLink_other (s : State) {x : Link} {i : Nat} (h : i ≠ x.id) : (s.setLink x).link i = s.link i := by
  unfold State.link
  rw [find_setLink]
  cases hf : s.fab.links.find? fun y => y.id == i with
  | none => rfl
  | some y =>
    have hy : y.id = i := by simpa using List.find?_some hf
    exact if_neg (by simpa [hy] using h)

/-! ## What traffic leaves of a link -/

/-- The parts of a link's record that only tethers, training and QUIET or WAKE change. -/
structure Link.SameState (x y : Link) : Prop where
  id : y.id = x.id
  state : y.state = x.state
  trained : y.trained = x.trained
  neigh : y.neigh = x.neigh
  quietPeer : y.quietPeer = x.quietPeer

theorem Link.SameState.refl (x : Link) : x.SameState x := ⟨rfl, rfl, rfl, rfl, rfl⟩

/-- Every link's state stays. -/
def State.KeepsLinks (s u : State) : Prop := ∀ i, (s.link i).SameState (u.link i)

namespace KeepsLinks

theorem of_links {s u : State} (h : u.fab.links = s.fab.links) : s.KeepsLinks u := fun i => by
  rw [link_congr h]
  exact Link.SameState.refl _

theorem refl (s : State) : s.KeepsLinks s := of_links rfl

theorem trans {s t u : State} (h : s.KeepsLinks t) (k : t.KeepsLinks u) : s.KeepsLinks u := fun i =>
  ⟨(k i).id.trans (h i).id, (k i).state.trans (h i).state, (k i).trained.trans (h i).trained, (k i).neigh.trans (h i).neigh,
    (k i).quietPeer.trans (h i).quietPeer⟩

theorem setLink {s : State} {x : Link} (h : (s.link x.id).SameState x) : s.KeepsLinks (s.setLink x) := by
  intro i
  by_cases hi : i = x.id
  · subst hi
    cases hl : s.fab.links.any fun y => y.id == x.id with
    | true =>
      rw [link_setLink hl]
      exact h
    | false =>
      rw [setLink_unlisted hl]
      exact Link.SameState.refl _
  · rw [link_setLink_other s hi]
    exact Link.SameState.refl _

end KeepsLinks

/-- Flits and credits sent: registers, the output, and of the fabric's state the links but for their states. -/
def State.Pumping (s u : State) : Prop :=
  (∃ r o l, u = { s with regs := r, out := o, fab := { s.fab with links := l } }) ∧ s.KeepsLinks u

namespace Pumping

theorem refl (s : State) : s.Pumping s := ⟨⟨s.regs, s.out, s.fab.links, rfl⟩, KeepsLinks.refl s⟩

theorem trans {s t u : State} (h : s.Pumping t) (k : t.Pumping u) : s.Pumping u := by
  obtain ⟨⟨r, o, l, ht⟩, hl⟩ := h
  obtain ⟨⟨r', o', l', hu⟩, hk⟩ := k
  refine ⟨⟨r', o', l', ?_⟩, KeepsLinks.trans hl hk⟩
  rw [hu, ht]

theorem foldl {α : Type} (f : State → α → State) (hf : ∀ (s : State) a, s.Pumping (f s a)) (l : List α) (s : State) :
    s.Pumping (l.foldl f s) := by
  induction l generalizing s with
  | nil => exact refl s
  | cons a l ih => exact trans (hf s a) (ih _)

theorem emit (s : State) (o : Output) : s.Pumping (s.emit o) := ⟨⟨s.regs, _, s.fab.links, rfl⟩, KeepsLinks.of_links rfl⟩

theorem count64 (s : State) (lo hi : Field) (i n : Nat) : s.Pumping (s.count64 lo hi i n) :=
  ⟨⟨_, s.out, s.fab.links, rfl⟩, KeepsLinks.of_links rfl⟩

theorem setLink {s : State} {x : Link} (h : (s.link x.id).SameState x) : s.Pumping (s.setLink x) :=
  ⟨⟨s.regs, s.out, _, rfl⟩, KeepsLinks.setLink h⟩

/-- A change of what is buffered, sent or awaited on a link. -/
theorem setLink_buffers {s : State} {k : Nat} {x : Link} (h : (s.link k).SameState x) : s.Pumping (s.setLink x) :=
  setLink (by rw [h.id, link_id]; exact h)

theorem creditsGo (link vc fuel n : Nat) (s : State) : s.Pumping (creditsGo link vc fuel n s) := by
  induction fuel generalizing n s with
  | zero => exact refl s
  | succ fuel ih =>
    unfold Machine.creditsGo
    split
    · exact refl s
    · refine trans ?_ (ih ..)
      split <;> exact emit ..

theorem returnCredits (s : State) (link vc n : Nat) : s.Pumping (s.returnCredits link vc n) := by
  unfold State.returnCredits
  extract_lets l had k
  split
  · exact refl s
  · refine trans (setLink_buffers (k := link) ?_) (creditsGo ..)
    split <;> exact ⟨rfl, rfl, rfl, rfl, rfl⟩

theorem sendFlit (s : State) (link : Nat) (o : OutFlit) : s.Pumping (s.sendFlit link o) := by
  unfold State.sendFlit
  extract_lets l old f m t
  have ht : s.Pumping t := trans (setLink_buffers (k := link) (x := m) ⟨rfl, rfl, rfl, rfl, rfl⟩) (trans (emit ..) (count64 ..))
  split
  · exact trans ht (returnCredits ..)
  · exact ht

theorem pumpLinkGo (link fuel : Nat) (s : State) : s.Pumping (pumpLinkGo link fuel s) := by
  induction fuel generalizing s with
  | zero => exact refl s
  | succ fuel ih =>
    have hsend : ∀ x o, (s.link link).SameState x → s.Pumping (Machine.pumpLinkGo link fuel ((s.setLink x).sendFlit link o)) :=
      fun x o hx => trans (setLink_buffers hx) (trans (sendFlit ..) (ih _))
    unfold Machine.pumpLinkGo
    dsimp only
    split
    · exact refl s
    · split
      · exact hsend _ _ ⟨rfl, rfl, rfl, rfl, rfl⟩
      · split
        · exact hsend _ _ ⟨rfl, rfl, rfl, rfl, rfl⟩
        · exact refl s

theorem pumpLink (s : State) (link : Nat) : s.Pumping (s.pumpLink link) := by
  unfold State.pumpLink
  dsimp only
  split
  · exact refl s
  · split
    · exact emit ..
    · exact pumpLinkGo ..

theorem loseFlits (s : State) (dead : Nat) (fs : List OutFlit) : s.Pumping (s.loseFlits dead fs) := by
  refine foldl _ (fun t o => ?_) fs s
  split
  · split
    · exact refl t
    · exact returnCredits ..
  · exact refl t

end Pumping

/-- A link with nothing to send is left alone. -/
theorem pumpLink_empty {s : State} {k : Nat} (h0 : (s.link k).out0 = []) (h1 : (s.link k).out1 = []) : s.pumpLink k = s := by
  unfold State.pumpLink
  dsimp only
  rw [if_pos]
  rw [h0, h1]
  exact .inl rfl

/-! ## The sled map and the links -/

theorem raiseI_fab (s : State) (e : Event) (i : Nat) : (s.raiseI e i).fab = s.fab := by
  obtain ⟨r, l, h⟩ := s.raiseWith_eq e i false 0 0
  exact (congrArg State.fab h).trans rfl

theorem injectOn_fab (ls : List Nat) (fs : List FabFrame) (s : State) : (s.injectOn ls fs).fab =
    { s.fab with inject := s.fab.inject ++ (ls.map fun l => fs.map fun f => (some l, f)).flatten } := by
  unfold State.injectOn
  induction ls generalizing s with
  | nil => simp
  | cons l ls ih =>
    rw [List.foldl_cons, ih]
    simp [State.inject]

/-- A STATE frame of the device's own goes out, and its map stays (R409). -/
theorem sendState_fab (s : State) (e : SledEntry) (ls : List Nat) :
    (s.sendState e ls).fab = { s.fab with nextMsg := (s.sendState e ls).fab.nextMsg, inject := (s.sendState e ls).fab.inject } := by
  unfold State.sendState
  split
  · rfl
  · split
    rename_i fs t h
    have ht : t.fab = _ := (congrArg (fun x : List FabFrame × State => x.2.fab) h).symm.trans (makeFrames_fab ..)
    rw [injectOn_fab, ht]

theorem floodOwn_links (s : State) : s.floodOwn.fab.links = s.fab.links := by
  unfold State.floodOwn
  split
  · rfl
  · dsimp only
    rw [sendState_fab]
    rfl

theorem Asking.links {s u : State} (h : s.Asking u) : u.fab.links = s.fab.links := by rw [h.2]

theorem Asking.fabTell (s : State) (dest : FrameTo) (p : FabPayload) : s.Asking (s.fabTell dest p) := by
  unfold State.fabTell
  have ht := Traffic.makeFrames s dest (payloadBytes p)
  have hf := makeFrames_fab s dest (payloadBytes p)
  generalize s.makeFrames dest (payloadBytes p) = w at ht hf
  obtain ⟨fs, t⟩ := w
  refine ⟨Traffic.trans ht (Traffic.inject ..), ?_⟩
  dsimp only [State.inject] at hf ⊢
  rw [hf]

/-- A link that goes down is untrained (R406). -/
theorem linkDown_down (s : State) (k : Nat) : ((s.linkDown k).link k).state = 0 ∧ ((s.linkDown k).link k).trained = false := by
  have hset : ∀ (t : State) (x : Link), x.id = k → x.state = 0 → x.trained = false →
      ((t.setLink x).link k).state = 0 ∧ ((t.setLink x).link k).trained = false := by
    rintro t x rfl hs ht
    cases hl : t.fab.links.any fun y => y.id == x.id with
    | true =>
      rw [link_setLink hl]
      exact ⟨hs, ht⟩
    | false =>
      rw [setLink_unlisted hl, link_unlisted hl]
      exact ⟨rfl, rfl⟩
  unfold State.linkDown
  extract_lets l was x t cut fab u v
  have ht : (t.link k).state = 0 ∧ (t.link k).trained = false := hset _ _ rfl rfl rfl
  have hu : (u.link k).SameState (t.link k) := by
    have hf : u.fab.links.find? (fun y => y.id == k) = (t.fab.links.find? fun y => y.id == k).map cut :=
      find_map_of_keeps (p := fun y : Link => y.id == k) (f := cut) (fun _ => rfl) _
    unfold State.link
    rw [hf]
    cases t.fab.links.find? fun y => y.id == k with
    | none => exact Link.SameState.refl _
    | some y => exact ⟨rfl, rfl, rfl, rfl, rfl⟩
  have hv : (u.link k).SameState (v.link k) := (Pumping.foldl _ (fun t (x : Link) => Pumping.pumpLink t x.id) _ _).2 k
  have hd : (v.link k).state = 0 ∧ (v.link k).trained = false :=
    ⟨hv.state.trans (hu.state.symm.trans ht.1), hv.trained.trans (hu.trained.symm.trans ht.2)⟩
  split
  · rw [link_congr ((floodOwn_links _).trans (congrArg Fab.links (raiseI_fab ..)))]
    exact hd
  · exact hd

end Sys2Proof.Machine
end

section
/-! PROOF. O55: tethers, flits and the sled map (R403 to R409, R82, Table 17-2, Table 17-4). -/

namespace Sys2Proof.Machine

open Sys2Proof

/-! ## Tethers -/

theorem restoreInherited_links (s : State) : s.restoreInherited.fab.links = s.fab.links := by
  have hpull : ∀ (t : State) p, t.Asking (t.askPull p) := fun t p => by
    unfold State.askPull
    split
    · exact Asking.refl t
    · split
      · split
        · exact Asking.fabAsk ..
        · exact Asking.refl t
      · exact Asking.refl t
  unfold State.restoreInherited
  refine (Asking.links (Asking.foldl _ hpull _ _)).trans ?_
  split
  · rfl
  · exact (Asking.links (Asking.sendKeepers _)).trans rfl

theorem ite_raiseI_fab (c : Prop) [Decidable c] (s : State) (e : Event) (i : Nat) :
    (if c then s.raiseI e i else s).fab = s.fab := by
  split
  · exact raiseI_fab ..
  · rfl

theorem enterLinkState_links (s : State) (k old new_ : Nat) (p : Tether) (w : Bool) :
    (s.enterLinkState k old new_ p w).fab.links = s.fab.links := by
  unfold State.enterLinkState
  extract_lets t₁ t₂ t₃ t₄ t₅
  have h₃ : t₃.fab.links = s.fab.links := by
    rw [show t₃.fab = t₂.fab from ite_raiseI_fab .., show t₂.fab = t₁.fab from ite_raiseI_fab ..,
      show t₁.fab = s.fab from ite_raiseI_fab ..]
  have h₄ : t₄.fab.links = s.fab.links := by
    unfold t₄
    split <;> exact h₃
  have h₅ : t₅.fab.links = s.fab.links := by
    unfold t₅
    split
    · exact (restoreInherited_links _).trans h₄
    · exact h₄
  split
  · exact (floodOwn_links _).trans h₅
  · exact h₅

theorem KeepsLinks.offerKeeper (s : State) (k : Nat) (p : Tether) : s.KeepsLinks (s.offerKeeper k p) := by
  unfold State.offerKeeper
  dsimp only
  split
  · exact refl s
  · split
    · exact trans (Pumping.setLink_buffers (k := k) (x := { s.link k with offered := true }) ⟨rfl, rfl, rfl, rfl, rfl⟩).2
        (of_links (Asking.links (Asking.fabTell ..)))
    · exact refl s

theorem trained_ne_down {s : State} {k : Nat} (ht : (s.link k).trained = true) : s.link k ≠ Link.down k := fun h => by
  rw [h] at ht
  exact Bool.false_ne_true ht

/-- A valid tether is kept, and gives a link that is up, or one at its third good tether, its state (Table 17-4). -/
theorem takeTether_takes {s : State} {k : Nat} (ht : (s.link k).trained = true) (p : Tether) :
    ((s.takeTether k p).link k).neigh = some p ∧ ((s.takeTether k p).link k).trained = true ∧
    ((s.takeTether k p).link k).state = if (s.link k).isUp then s.linkState (s.link k) p
      else if 2 ≤ (s.link k).good then s.linkState { s.link k with state := 0 } p else (s.link k).state := by
  have hset : ∀ x : Link, x.id = k → (s.setLink x).link k = x := by
    rintro x rfl
    exact link_setLink (link_listed (trained_ne_down ht))
  have hid := link_id s k
  have hkeep : ∀ (x : Link) (u : State), x.id = k → x.neigh = some p → x.trained = true → (s.setLink x).KeepsLinks u →
      (u.link k).neigh = some p ∧ (u.link k).trained = true ∧ (u.link k).state = x.state := by
    intro x u hx hn htr hu
    have h := hu k
    rw [hset x hx] at h
    exact ⟨h.neigh.trans hn, h.trained.trans htr, h.state⟩
  unfold State.takeTether
  extract_lets l was seen l' n t n' m u
  by_cases hup : l.isUp = true
  · rw [if_pos (show l'.isUp = true from hup), if_pos hup]
    exact hkeep { l' with state := n, offered := l'.offered && p.unjoined } _ hid rfl ht
      (KeepsLinks.trans (KeepsLinks.of_links (enterLinkState_links ..)) (KeepsLinks.trans (KeepsLinks.offerKeeper _ _ _)
        (Pumping.pumpLink ..).2))
  · rw [if_neg (show ¬ l'.isUp = true from hup), if_neg hup]
    by_cases hg : 2 ≤ l.good
    · rw [if_pos (show l'.good = 3 by show min 3 (l.good + 1) = 3; omega), if_pos hg]
      have hk : u.KeepsLinks ((u.enterLinkState k 0 n' p false).sendKeeper m) := by
        exact KeepsLinks.of_links ((Asking.links (Asking.sendKeeper ..)).trans (enterLinkState_links ..))
      exact hkeep m _ hid rfl ht (KeepsLinks.trans (KeepsLinks.of_links (congrArg Fab.links (raiseI_fab ..)))
        (KeepsLinks.trans hk (KeepsLinks.offerKeeper _ _ _)))
    · rw [if_neg (show ¬ l'.good = 3 by show ¬ min 3 (l.good + 1) = 3; omega), if_neg hg]
      exact hkeep l' _ hid rfl ht (KeepsLinks.refl _)

theorem stir_fab (s : State) : s.stir.fab = s.fab := by
  unfold State.stir
  split <;> rfl

theorem stir_out (s : State) : s.stir.out = s.out := by
  unfold State.stir
  split <;> rfl

/-- A tether sent carries the next TSEQ (R407). -/
theorem sendTether_sends {s : State} {k : Nat} (ht : (s.link k).trained = true) :
    let l := s.link k
    let m : Link := { l with tseq := (l.tseq + 1) % 2 ^ 32 }
    ((s.stir.sendTether l false).link k).tseq = m.tseq ∧ (s.stir.sendTether l false).out =
      s.out ++ [.lineFlit k (ctlFlit .tether (l.expect + 255) 0 0 (tetherBytes (s.stir.tetherOf m false)))] := by
  intro l m
  have hm : m.id = k := link_id s k
  have hl : (s.stir.fab.links.any fun x => x.id == m.id) = true := by
    rw [stir_fab, hm]
    exact link_listed (trained_ne_down ht)
  have hx : (s.stir.setLink m).link k = m := by
    have h := link_setLink hl
    rw [hm] at h
    exact h
  have hsend : s.stir.sendTether l false = (s.stir.setLink m).emit (.lineFlit m.id
      (ctlFlit .tether (((s.stir.setLink m).link m.id).expect + 255) 0 0 (tetherBytes (s.stir.tetherOf m false)))) := rfl
  rw [hsend, hm, hx]
  exact ⟨congrArg Link.tseq hx, congrArg (· ++ _) (stir_out s)⟩

/-! ## Flits -/

theorem acked_eq (l : Link) (a : Nat) : ∃ r, l.acked a = { l with replay := r } := by
  unfold Link.acked
  split
  · exact ⟨_, rfl⟩
  · exact ⟨l.replay, rfl⟩

theorem link_setLink_at {s : State} {k : Nat} {x : Link} (hl : (s.fab.links.any fun y => y.id == k) = true) (hx : x.id = k) :
    (s.setLink x).link k = x := by
  subst hx
  exact link_setLink hl

theorem setLink_listed {s : State} {k : Nat} (hl : (s.fab.links.any fun y => y.id == k) = true) (x : Link) :
    ((s.setLink x).fab.links.any fun y => y.id == k) = true := by
  obtain ⟨y, hy, hi⟩ := List.any_eq_true.1 hl
  refine List.any_eq_true.2 ⟨_, List.mem_map.2 ⟨y, hy, rfl⟩, ?_⟩
  split
  · rename_i h
    rw [← beq_iff_eq.1 h]
    exact hi
  · exact hi

/-- A link's record after the header of a flit received: credits come, and acknowledged flits leave the replay buffer. -/
def Link.headed (l : Link) (replay : List Flit) (c0 c1 : Nat) : Link :=
  { l with replay := replay, credit0 := min 128 (l.credit0 + c0 % 16), credit1 := min 128 (l.credit1 + c1 % 16), quietPeer := false }

theorem takeHeader_eq {s : State} {k : Nat} (hl : (s.fab.links.any fun y => y.id == k) = true) (h0 : (s.link k).out0 = [])
    (h1 : (s.link k).out1 = []) (a c0 c1 : Nat) : ∃ r, s.takeHeader k a c0 c1 = s.setLink ((s.link k).headed r c0 c1) := by
  obtain ⟨r, hr⟩ := acked_eq (s.link k) a
  have hx := link_setLink_at (x := (s.link k).headed r c0 c1) hl (link_id s k)
  refine ⟨r, ?_⟩
  unfold State.takeHeader
  dsimp only
  rw [hr]
  exact pumpLink_empty ((congrArg Link.out0 hx).trans h0) ((congrArg Link.out1 hx).trans h1)

section
variable {s : State} {k : Nat} (ht : s.takesFlits k = true)
include ht

/-- A link that takes flits is up, and has a record. -/
theorem takesFlits_listed : s.islandOn = true ∧ k < 4 ∧ (s.link k).isUp = true ∧ (s.fab.links.any fun x => x.id == k) = true := by
  unfold State.takesFlits at ht
  simp only [Bool.and_eq_true, decide_eq_true_eq] at ht
  obtain ⟨⟨hi, hk⟩, hu⟩ := ht
  refine ⟨hi, hk, hu, link_listed fun h => ?_⟩
  rw [h] at hu
  exact Bool.false_ne_true hu

theorem exec_dataFlit (f : Flit) : exec (.dataFlit k f) s = s.done (s.dataFlit k f) := congrArg s.done (if_pos ht)

theorem exec_retry (n : Nat) (c : Bool) : exec (.retry k n c) s =
    s.done (if c then s.retryFrom k n else s.countAt Reg.LINK_ERR.CRC_ERRS k 1) := congrArg s.done (if_pos ht)

theorem exec_idleFlit (a c0 c1 : Nat) (c : Bool) : exec (.idleFlit k a c0 c1 c) s =
    s.done (if c then s.takeHeader k a c0 c1 else s.countAt Reg.LINK_ERR.CRC_ERRS k 1) := congrArg s.done (if_pos ht)

theorem exec_wake (c : Bool) : exec (.wake k c) s =
    s.done (if c then s.wakeIsland k else s.countAt Reg.LINK_ERR.CRC_ERRS k 1) := congrArg s.done (if_pos ht)

theorem exec_quiet (c : Bool) : exec (.quiet k c) s =
    s.done (if c then s.setLink { s.link k with quietPeer := true } else s.countAt Reg.LINK_ERR.CRC_ERRS k 1) :=
  congrArg s.done (if_pos ht)

end

/-- A RETRY for the expected flit. -/
theorem askRetry_asks {s : State} {k : Nat} (hl : (s.fab.links.any fun y => y.id == k) = true) (hr : (s.link k).retries + 1 < 16) :
    ((s.askRetry k).link k).awaiting = true ∧
      (s.askRetry k).out = s.out ++ [.lineFlit k (ctlFlit .retry ((s.link k).expect + 255) 0 0 (beBytes 1 (s.link k).expect))] := by
  have hx := link_setLink_at (x := { s.link k with awaiting := true, retries := (s.link k).retries + 1 }) hl (link_id s k)
  unfold State.askRetry State.sendCtl
  dsimp only
  rw [if_neg (by omega)]
  generalize hw : ({ s.link k with awaiting := true, retries := (s.link k).retries + 1 } : Link) = w at hx
  have hlink : ((s.setLink w).countAt Reg.LINK_ERR.RETRIES k 1).link k = w := hx
  rw [hlink]
  refine ⟨(congrArg Link.awaiting hx).trans (hw ▸ rfl), ?_⟩
  rw [show w.expect = (s.link k).expect from hw ▸ rfl]
  rfl

section
variable {s : State} {k : Nat} (hl : (s.fab.links.any fun x => x.id == k) = true)
include hl

/-- The expected flit joins its buffer. -/
theorem dataFlit_joins {f : Flit} (h0 : (s.link k).out0 = []) (h1 : (s.link k).out1 = []) (hc : f.crcOk = true) (hv : f.vc = 0)
    (hf : f.fseq = (s.link k).expect) (hroom : (s.link k).input0.length < 128) (ht : f.tail = false) :
    ((s.dataFlit k f).link k).input0 = (s.link k).input0 ++ [f] ∧
      ((s.dataFlit k f).link k).expect = ((s.link k).expect + 1) % 256 := by
  obtain ⟨r, hh⟩ := takeHeader_eq hl h0 h1 f.ack f.cr0 f.cr1
  unfold State.dataFlit
  rw [hc, if_neg (by decide), hh]
  generalize hw : (s.link k).headed r f.cr0 f.cr1 = w
  have hid : w.id = k := hw ▸ link_id s k
  have hx := link_setLink_at hl hid
  have hl' := setLink_listed hl w
  have he : w.expect = (s.link k).expect := hw ▸ rfl
  have hi : w.input0 = (s.link k).input0 := hw ▸ rfl
  dsimp only
  rw [hx, hv, if_pos rfl, hi, he, if_pos ⟨hf, by simpa using hroom⟩]
  unfold State.takeFlit
  dsimp only
  rw [hx, hv, ht, if_neg (by simp), if_pos rfl, if_pos rfl, ← hi, ← he]
  refine ⟨congrArg Link.input0 (link_setLink_at hl' ?_), congrArg Link.expect (link_setLink_at hl' ?_)⟩
  · exact hid
  · exact hid

/-- A flit out of its order, or of a bad CRC, asks for a retry. -/
theorem dataFlit_asks {f : Flit} (h : f.crcOk = false ∨ (s.link k).out0 = [] ∧ (s.link k).out1 = [] ∧ f.crcOk = true ∧
      f.fseq ≠ (s.link k).expect ∧ (s.link k).awaiting = false) (hr : (s.link k).retries + 1 < 16) :
    ((s.dataFlit k f).link k).awaiting = true ∧ (s.dataFlit k f).out =
      s.out ++ [.lineFlit k (ctlFlit .retry ((s.link k).expect + 255) 0 0 (beBytes 1 (s.link k).expect))] := by
  unfold State.dataFlit
  obtain hc | ⟨h0, h1, hc, hf, ha⟩ := h
  · rw [hc, if_pos (by decide)]
    exact askRetry_asks (s := s.countAt Reg.LINK_ERR.CRC_ERRS k 1) hl hr
  · obtain ⟨r, hh⟩ := takeHeader_eq hl h0 h1 f.ack f.cr0 f.cr1
    rw [hc, if_neg (by decide), hh]
    generalize hw : (s.link k).headed r f.cr0 f.cr1 = w
    have hid : w.id = k := hw ▸ link_id s k
    have hx := link_setLink_at hl hid
    have he : w.expect = (s.link k).expect := hw ▸ rfl
    have hret : w.retries = (s.link k).retries := hw ▸ rfl
    have haw : w.awaiting = (s.link k).awaiting := hw ▸ rfl
    dsimp only
    rw [hx, he, haw, ha, if_neg fun h => hf h.1, if_neg Bool.false_ne_true]
    have hask := askRetry_asks (setLink_listed hl w) (by rw [hx, hret]; exact hr)
    rw [hx, he] at hask
    exact hask

omit hl in
/-- A RETRY sends again from the flit named. -/
theorem retryFrom_resends {n : Nat} {x : Flit} {xs : List Flit} (hd : ((s.link k).replay.dropWhile fun y => y.fseq != n) = x :: xs)
    (ha : (s.link k).asked.1 ≠ n) : (s.retryFrom k n).out =
      s.out ++ (x :: xs).map fun y => .lineFlit k (flitOnLine ({ y with ack := ((s.link k).expect + 255) % 256 } : Flit)) := by
  have hout : ∀ (g : Flit → Output) (fs : List Flit) (t : State),
      (fs.foldl (fun (t : State) y => t.emit (g y)) t).out = t.out ++ fs.map g := by
    intro g fs
    induction fs with
    | nil => exact fun t => (List.append_nil _).symm
    | cons y ys ih =>
      intro t
      rw [List.foldl_cons, ih]
      simp [State.emit]
  unfold State.retryFrom
  dsimp only
  rw [hd, if_neg (by exact Bool.false_ne_true), if_neg ha, if_neg (by decide)]
  exact hout _ (x :: xs) _

/-- WAKE runs the island, and nothing else of the device (R82). -/
theorem wakeIsland_wakes : (s.wakeIsland k).dev = { s.dev with routerQuiet := false } ∧
    ((s.wakeIsland k).link k).quietPeer = false := by
  unfold State.wakeIsland
  dsimp only
  generalize hq : ({ s with dev := { s.dev with routerQuiet := false } } : State) = q
  have hlq : (q.fab.links.any fun x => x.id == k) = true := hq ▸ hl
  have hx := link_setLink_at (x := { q.link k with quietPeer := false }) hlq (link_id q k)
  obtain ⟨⟨r, o, l, hp⟩, hk⟩ := Pumping.pumpLink (q.setLink { q.link k with quietPeer := false }) k
  have hk := (hk k).quietPeer
  rw [hx] at hk
  refine ⟨?_, hk⟩
  rw [hp, ← hq]
  rfl

end

/-! ## The sled map -/

theorem sledEntry_setSled (s : State) (e : SledEntry) : (s.setSled e).sledEntry? e.slot = some e :=
  find_putWhere (fun x : SledEntry => x.slot == e.slot) e (beq_self_eq_true e.slot) s.fab.sled

theorem sledEntry_congr {s t : State} (h : t.fab.sled = s.fab.sled) (k : Nat) : t.sledEntry? k = s.sledEntry? k := by
  unfold State.sledEntry?
  rw [h]

/-- A STATE frame newer than the entry is stored and goes on (R409). -/
theorem takeState_stores {s : State} {k slot seq : Nat} (hs : slot < 16) (ho : slot ≠ s.ownSlot)
    (hn : ∀ e, s.sledEntry? slot = some e → e.present = true → e.seq < seq) (ff : FabFrame) (gw : Bool) (ls : BitVec 4) :
    (s.takeState k ff slot seq gw ls).sledEntry? slot = some ⟨slot, true, gw, ls, seq⟩ ∧
    (s.takeState k ff slot seq gw ls).fab.inject = s.fab.inject ++ (s.trustedLinks.filter fun x => x != k).map fun x =>
      (some x, ({ ff with hops := (ff.hops + 1) % 256 } : FabFrame)) := by
  unfold State.takeState
  dsimp only
  rw [if_pos]
  · have hf := injectOn_fab (s.trustedLinks.filter fun x => x != k) [({ ff with hops := (ff.hops + 1) % 256 } : FabFrame)]
      (s.setSled ⟨slot, true, gw, ls, seq⟩)
    refine ⟨(sledEntry_congr ((congrArg Fab.sled hf).trans rfl) slot).trans (sledEntry_setSled s ⟨slot, true, gw, ls, seq⟩), ?_⟩
    rw [hf]
    exact congrArg (s.fab.inject ++ ·) (List.flatMap_pure_eq_map (fun x : Nat =>
      (some x, ({ ff with hops := (ff.hops + 1) % 256 } : FabFrame))) _)
  · refine ⟨?_, hs, ho⟩
    cases he : s.sledEntry? slot with
    | none => rfl
    | some e =>
      cases hp : e.present with
      | false => simp [hp]
      | true => simpa [hp] using hn e he hp

theorem slotAbsent_absent (s : State) (k : Nat) : ∀ e ∈ (s.slotAbsent k).fab.sled, e.slot = k → e.present = false := by
  intro e he
  obtain ⟨y, -, rfl⟩ := List.mem_map.1 he
  split
  · exact fun _ => rfl
  · rename_i h
    exact fun hs => absurd hs (by simpa using h)

theorem islandOn_fabric {s : State} (h : s.islandOn = true) : s.fabric = true := by
  unfold State.islandOn State.islandKept at h
  simp only [Bool.and_eq_true] at h
  exact h.1.1

/-- A joined device in service brings its own entry up to date under its next sequence number (R409). -/
theorem floodOwn_renews {s : State} (hf : s.fabric = true) (hi : s.inStale = false) (hu : s.unjoined = false) :
    s.floodOwn.fab.ownSeq = s.fab.ownSeq + 1 ∧
    ∃ e, s.floodOwn.sledEntry? s.ownSlot = some e ∧ e.present = true ∧ e.seq = s.fab.ownSeq + 1 := by
  unfold State.floodOwn
  rw [if_neg (by rw [hf, hi, hu]; decide)]
  dsimp only
  rw [sledEntry_congr ((congrArg Fab.sled (sendState_fab ..)).trans rfl), sendState_fab]
  exact ⟨rfl, _, sledEntry_setSled _ _, rfl, rfl⟩

/-- A whole map needs no exception (R416). -/
theorem rewriteRoutes_whole {s : State} (h : s.mapWhole = true) : s.rewriteRoutes.table 0 = [] := by
  unfold State.rewriteRoutes
  rw [if_pos h]
  obtain ⟨r, l, he⟩ := (s.setTable 0 []).raise_eq Ev.FAB.ROUTE_CHANGED
  have hc : ((s.setTable 0 []).raise Ev.FAB.ROUTE_CHANGED).cam = (s.setTable 0 []).cam := (congrArg State.cam he).trans rfl
  unfold State.table
  rw [hc]
  have hf := find_putWhere (fun x : Nat × SMap (Option CamEntry) => x.1 == 0) (0, []) rfl s.cam.tables
  rw [show (s.setTable 0 []).cam.tables.find? (fun x => x.1 == 0) = some (0, []) from hf]

/-- Settles O55: tethers by the link's state, flits by their order, the map by what is newer. -/
theorem linksFollowTethersAndFlits : Obligations.LinksFollowTethersAndFlits := by
  unfold Obligations.LinksFollowTethersAndFlits
  intro s k ns slot seq c1 p f ff m gw tr ls l down
  have hcarry : ∀ (c : Instr) (t : State), exec c s = s.done t → (t.link k).state = 0 ∧ (t.link k).trained = false → down c := by
    intro c t hc ht
    obtain ⟨u, hu, hp⟩ := exists_carried hc
    refine ⟨u, hu, ?_⟩
    rw [link_congr (congrArg Fab.links hp.fab)]
    exact ht
  refine ⟨fun h => ⟨fun hc => ?_, fun hc hd => ?_, fun hc hd => ?_, ?_, ?_, fun hn => ?_, fun hn => ?_⟩,
    fun hi hk ht hr => ?_, fun ht => ?_, fun hi => ⟨fun hs hk ht => ⟨fun hm => ?_, fun hm hs ho hn => ?_⟩, fun ho => ?_,
      fun hs hj => ?_, fun hs hm => ?_⟩⟩
  · have hx : exec (.tether k p) s = s.done _ := congrArg s.done (if_pos h)
    rw [hx, hc, if_pos (by decide)]
    exact Spares.done ⟨rfl, rfl, rfl, rfl⟩
  · refine hcarry _ ((s.linkDown k).slotAbsent p.slot) ?_ (linkDown_down s k)
    have hx : exec (.tether k p) s = s.done _ := congrArg s.done (if_pos h)
    rw [hx, hc, if_neg (by decide), if_pos hd]
  · have hx : exec (.tether k p) s = s.done _ := congrArg s.done (if_pos h)
    rw [hc, if_neg (by decide), hd, if_neg (by decide)] at hx
    obtain ⟨u, hu, hp⟩ := exists_carried hx
    refine ⟨u, hu, ?_⟩
    rw [link_congr (congrArg Fab.links hp.fab)]
    exact takeTether_takes h.2.2 p
  · obtain ⟨u, hu, hp⟩ := exists_carried (c := .tetherPeriod k) (congrArg s.done (if_pos h))
    obtain ⟨hts, hem⟩ := sendTether_sends h.2.2
    refine ⟨u, hu, rfl, ?_, ?_⟩
    · rw [link_congr (congrArg Fab.links hp.fab)]
      exact hts
    · exact hp.out.trans hem
  · exact hcarry _ _ (congrArg s.done (if_pos h)) (linkDown_down s k)
  · exact hcarry _ _ (congrArg s.done (if_pos ⟨h.1, h.2.1, h.2.2, hn⟩)) (linkDown_down s k)
  · refine (congrArg s.done (if_neg ?_)).trans (State.done_self s)
    exact fun hc => absurd hc.2.2.2 (Nat.not_le.2 hn)
  · have hx : exec (.linkTrainingRetry k tr) s = s.done (s.trainLink k tr) :=
      congrArg s.done (if_pos ⟨hi, hk, by rw [show (s.link k).trained = false from ht]; rfl, by rw [hr]; rfl⟩)
    rw [hx]
    exact Spares.done (Spares.setLink ..)
  · obtain ⟨-, -, -, hl⟩ := takesFlits_listed ht
    have hbad : s.done (s.countAt Reg.LINK_ERR.CRC_ERRS k 1) = .next (s.countAt Reg.LINK_ERR.CRC_ERRS k 1) :=
      Spares.done ⟨rfl, rfl, rfl, rfl⟩
    refine ⟨fun h0 h1 hc hv hf hr htl => ?_, fun h hr => ?_, fun x xs hd ha => ?_, fun h0 h1 => ?_, ?_, ?_, ?_⟩
    · obtain ⟨u, hu, hp⟩ := exists_carried (exec_dataFlit ht f)
      refine ⟨u, hu, ?_⟩
      rw [link_congr (congrArg Fab.links hp.fab)]
      exact dataFlit_joins hl h0 h1 hc hv hf hr htl
    · obtain ⟨u, hu, hp⟩ := exists_carried (exec_dataFlit ht f)
      obtain ⟨haw, ho⟩ := dataFlit_asks hl h hr
      refine ⟨u, hu, ?_, hp.out.trans ho⟩
      rw [link_congr (congrArg Fab.links hp.fab)]
      exact haw
    · obtain ⟨u, hu, hp⟩ := exists_carried (exec_retry ht seq true)
      exact ⟨u, hu, hp.out.trans (retryFrom_resends hd ha)⟩
    · obtain ⟨u, hu, hp⟩ := exists_carried (exec_idleFlit ht ns slot c1 true)
      obtain ⟨r, hh⟩ := takeHeader_eq hl h0 h1 ns slot c1
      refine ⟨u, hu, ?_⟩
      rw [link_congr (congrArg Fab.links hp.fab), if_pos rfl, hh,
        link_setLink_at (x := (s.link k).headed r slot c1) hl (link_id s k)]
      exact ⟨rfl, rfl⟩
    · obtain ⟨u, hu, hp⟩ := exists_carried (exec_wake ht true)
      obtain ⟨hd, hq⟩ := wakeIsland_wakes hl
      refine ⟨u, hu, hp.dev.trans hd, ?_⟩
      rw [link_congr (congrArg Fab.links hp.fab)]
      exact hq
    · exact (exec_quiet ht true).trans (Spares.done (Spares.setLink ..))
    · exact ⟨(exec_retry ht seq false).trans hbad, (exec_idleFlit ht ns slot c1 false).trans hbad,
        (exec_wake ht false).trans hbad, (exec_quiet ht false).trans hbad⟩
  · have hx : exec (.state k ff m slot seq ⟨gw, ls⟩) s = s.done _ := congrArg s.done (if_pos ⟨hi, by rw [hs]; rfl, hk, ht⟩)
    rw [hx]
    unfold State.fabAuth
    rw [hm, if_neg Bool.false_ne_true]
    exact Spares.done (Spares.count ..)
  · have hx : exec (.state k ff m slot seq ⟨gw, ls⟩) s = s.done (s.takeState k ff slot seq gw ls) :=
      (congrArg s.done (if_pos ⟨hi, by rw [‹s.inStale = false›]; rfl, hk, ht⟩)).trans (congrArg s.done (if_pos hm))
    obtain ⟨u, hu, hp⟩ := exists_carried hx
    obtain ⟨he, hj⟩ := takeState_stores (k := k) hs ho hn ff gw ls
    refine ⟨u, hu, ?_⟩
    rw [sledEntry_congr (congrArg Fab.sled hp.fab), hp.fab]
    exact ⟨he, hj⟩
  · obtain ⟨u, hu, hp⟩ := exists_carried (c := .sledMapEntryTimeout slot) (congrArg s.done (if_pos ⟨hi, ho⟩))
    refine ⟨u, hu, ?_⟩
    rw [hp.fab]
    exact slotAbsent_absent s slot
  · obtain ⟨u, hu, hp⟩ := exists_carried (c := .statePeriod) (congrArg s.done (if_pos hi))
    refine ⟨u, hu, ?_⟩
    rw [sledEntry_congr (congrArg Fab.sled hp.fab), hp.fab]
    exact floodOwn_renews (islandOn_fabric hi) hs hj
  · obtain ⟨u, hu, hp⟩ := exists_carried (c := .routeChanged) (congrArg s.done (if_pos ⟨hi, by rw [hs]; rfl⟩))
    refine ⟨u, hu, ?_⟩
    unfold State.table
    rw [hp.cam]
    exact rewriteRoutes_whole hm

end Sys2Proof.Machine
end

section
/-! SUPPORT. What the writes of keys, records and purges change: stores, and never a fuse or the fabric (R32, R194, R343, R387,
R395, R399, R400). -/

namespace Sys2Proof.Machine

open Sys2Proof

namespace Stores

theorem of_draining {s u : State} (h : s.Draining u) : s.Stores u := by
  refine ⟨Storing.of_draining h, ?_⟩
  obtain ⟨r, l, k, f, rfl⟩ := h
  exact ⟨rfl, rfl⟩

theorem foldl {α : Type} (f : State → α → State) (hf : ∀ (s : State) a, s.Stores (f s a)) (l : List α) (s : State) :
    s.Stores (l.foldl f s) := by
  induction l generalizing s with
  | nil => exact refl s
  | cons a l ih => exact trans (hf s a) (ih _)

theorem journal {s t : State} (h : s.Stores t) (v : State) (host : Bool) : s.Stores (v.journal t host) :=
  trans h (kvFlash t t.kv _)

theorem bufferFit (s : State) : s.Stores s.bufferFit := by
  unfold State.bufferFit
  split
  · exact refl s
  · exact of_draining (Draining.drain s)

theorem setNs (s : State) (n : Ns) : s.Stores (s.setNs n) := kv ..

theorem freeLoc (s : State) (l : Loc) : s.Stores (s.freeLoc l) := kvFlash ..

theorem touchLeaves (n : Nat) (ks : List Bytes) (s : State) : s.Stores (touchLeaves n ks s).2 := by
  induction ks generalizing s with
  | nil => exact refl s
  | cons k ks ih =>
    unfold Machine.touchLeaves
    split
    · rename_i h; exact of_pair h (touchLeaf ..)
    · rename_i h; exact trans (of_pair h (touchLeaf ..)) (ih _)

theorem dropPriors (s : State) (n : Nat) : s.Stores (s.dropPriors n) := by
  unfold State.dropPriors
  split
  · exact refl s
  · split
    · exact refl s
    · extract_lets keep keys lost
      split
      · exact refl s
      · rename_i h
        exact trans (of_pair h (trans (setNs s _) (touchLeaves ..))) (foldl _ freeLoc _ _)

/-! ## The directory -/

theorem setDir (s : State) (b i w : Nat) : s.Stores (s.setDir b i w) := kv ..

theorem setSide (s : State) (b w : Nat) : s.Stores (s.setSide b w) := kv ..

theorem freeEntries (s : State) (h : Nat) (p : Nat → Bool) : s.Stores (s.freeEntries h p) := by
  refine foldl _ (fun t x => ?_) _ s
  split
  · exact setDir ..
  · exact refl t

theorem countReq (s : State) (b1 b2 : Nat) : s.Stores (s.countReq b1 b2) := by
  unfold State.countReq
  extract_lets t up u hot due
  have ht : s.Stores t := by
    unfold t
    split
    · exact trans (kv ..) (kv ..)
    · exact refl s
  exact trans ht (trans (setSide ..) (trans (setSide ..) (kv ..)))

theorem makeDirect (s : State) (n : Nat) (key : Bytes) (l : Loc) (r : Bool) : s.Stores (s.makeDirect n key l r) := by
  have hplace : ∀ t : State, t.Stores (t.placeDirect n key l r) := fun t => by
    unfold State.placeDirect
    dsimp only
    split
    · exact setDir ..
    · split
      · exact trans (setDir ..) (trans (setSide ..) (setRegs ..))
      · exact refl t
  unfold State.makeDirect
  split
  · exact trans (countReq ..) (hplace _)
  · exact refl s

theorem setEntries (s t : State) (n m : Ns) (key : Bytes) (direct : Bool) : t.Stores (s.setEntries t n m key direct) := by
  unfold State.setEntries
  extract_lets h own leafNow named u
  have hu : t.Stores u := by
    unfold u
    split
    · exact freeEntries ..
    · exact refl t
  refine trans hu ?_
  split
  · exact setDir ..
  · exact refl u
  · split <;> exact setDir ..
  · split
    · exact makeDirect ..
    · exact refl u

/-! ## Records of keys -/

theorem putRecs (s : State) (n : Ns) (key : Bytes) (recs : List Rec) (gone : List Loc) (direct : Bool) :
    s.Stores (s.putRecs n key recs gone direct).2 := by
  have hset : s.Stores (s.setRecs n key recs direct).2 := by
    have ht := trans (setNs s (n.setRecs key recs)) (touchLeaf _ n.nsid key)
    unfold State.setRecs
    dsimp only
    split
    · rename_i h; exact of_pair h ht
    · rename_i h; exact trans (of_pair h ht) (trans (setEntries ..) (trans (kv ..) (capacity90 ..)))
  unfold State.putRecs
  split
  · rename_i h; exact of_pair h hset
  · rename_i h; exact trans (of_pair h hset) (trans (foldl _ freeLoc _ _) (dropPriors ..))

theorem storeKey (s : State) (nsid : Nat) (key value : Bytes) (asn stamp session : Nat) (direct : Bool) :
    s.Stores (s.storeKey nsid key value asn stamp session direct).2 := by
  unfold State.storeKey
  split
  · exact refl s
  · split
    · exact refl s
    · exact refl s
    · dsimp only
      split
      · exact putRecs ..
      · split
        · rename_i h; exact of_pair h (makeExtent ..)
        · rename_i h; exact trans (of_pair h (makeExtent ..)) (putRecs ..)

theorem removeKey (s : State) (nsid : Nat) (key : Bytes) (stamp session : Nat) :
    s.Stores (s.removeKey nsid key stamp session).2 := by
  unfold State.removeKey
  split
  · exact refl s
  · split
    · exact refl s
    · exact putRecs ..

/-- A write tried changes what its own effect does, or nothing (R166). -/
theorem tryWrite (s : State) (n : Ns) (space : Bool) {f : State → Except Nat Unit × State} (hf : ∀ t : State, t.Stores (f t).2) :
    s.Stores (s.tryWrite n space f).2 := by
  have hr : s.Stores (if s.noCipher then (.error stInternal, s)
      else f { s.backUp with flash := { s.flash with readOnly := false } } : Except Nat Unit × State).2 := by
    split
    · exact refl s
    · exact trans (backUp s) (trans (kvFlash _ _ _) (hf _))
  unfold State.tryWrite
  dsimp only
  generalize (if s.noCipher then (.error stInternal, s)
      else f { s.backUp with flash := { s.flash with readOnly := false } } : Except Nat Unit × State) = w at hr ⊢
  split
  · exact refl s
  · split
    · exact refl s
    · split
      · exact refl s
      · split
        · exact refl s
        · exact trans (journal hr s true) (bufferFit _)

theorem purgeCommit {s u : State} {n : Ns} {t : Stream} {gone : List SealedRec} (h : s.purgeCommit n t gone = some u) :
    s.Stores u := by
  have hstream : ∀ {w v : State}, w.purgeStream n t gone = some v → w.Stores v := by
    intro w v h
    have ht := trans (setNs w { n with streams := putStream t n.streams }) (touchLeaf _ n.nsid t.key)
    unfold State.purgeStream at h
    split at h
    · cases h
    · rename_i hl
      cases h
      exact trans (of_pair hl ht) (trans (foldl _ (fun t (r : SealedRec) => freeLoc t r.loc) _ _) (setRegs ..))
  unfold State.purgeCommit at h
  obtain ⟨v, hv, rfl⟩ := Option.map_eq_some_iff.1 h
  exact trans (backUp s) (journal (trans (hstream hv) (kv ..)) s.backUp true)

theorem applyPurge (s : State) (nsid : Nat) (p : Bytes × Nat) : s.Stores (s.applyPurge nsid p) := by
  unfold State.applyPurge
  split
  · exact refl s
  · dsimp only
    split
    · exact setNs ..
    · split
      · cases hp : s.purgeCommit _ _ _ with
        | none => exact refl s
        | some u => exact purgeCommit hp
      · exact refl s

end Stores

end Sys2Proof.Machine
end

section
/-! SUPPORT. Mirrored writes and walks applied: the fabric's own state, the fuses and the memories of the debug port stay (R399,
R400, R427, R429). -/

namespace Sys2Proof.Machine

open Sys2Proof

/-- The fabric's state, the fuses, the memories of the debug port and what waits stay. -/
structure State.KeepsFabric (s u : State) : Prop where
  spares : s.Spares u
  fab : u.fab = s.fab

namespace KeepsFabric

theorem refl (s : State) : s.KeepsFabric s := ⟨Spares.refl s, rfl⟩

theorem trans {s t u : State} (h : s.KeepsFabric t) (k : t.KeepsFabric u) : s.KeepsFabric u :=
  ⟨Spares.trans h.spares k.spares, k.fab.trans h.fab⟩

theorem of_pair {α : Type} {x : α × State} {a : α} {s t : State} (h : x = (a, t)) (hx : s.KeepsFabric x.2) : s.KeepsFabric t := by
  rw [h] at hx; exact hx

theorem of_stores {s u : State} (h : s.Stores u) : s.KeepsFabric u := ⟨Stores.spares h, h.kept.2⟩

theorem of_draining {s u : State} (h : s.Draining u) : s.KeepsFabric u := of_stores (Stores.of_draining h)

theorem foldl {α : Type} (f : State → α → State) (hf : ∀ (s : State) a, s.KeepsFabric (f s a)) (l : List α) (s : State) :
    s.KeepsFabric (l.foldl f s) := by
  induction l generalizing s with
  | nil => exact refl s
  | cons a l ih => exact trans (hf s a) (ih _)

/-- A count, an event or a report changes registers and the log only. -/
theorem regsLog (s : State) (r : Regs) (l : Log) : s.KeepsFabric { s with regs := r, log := l } := ⟨⟨rfl, rfl, rfl, rfl⟩, rfl⟩

theorem raise (s : State) (e : Event) : s.KeepsFabric (s.raise e) := of_stores (Stores.raise s e)

theorem count (s : State) (f : Field) (n : Nat) : s.KeepsFabric (s.count f n) := regsLog s _ s.log

theorem hashed (s : State) (n : Nat) : s.KeepsFabric (s.hashed n) := by
  unfold State.hashed
  split
  · exact regsLog s _ s.log
  · exact refl s

theorem report (s : State) (e : Event) (st : Nat) : s.KeepsFabric (s.report e st) := by
  obtain ⟨r, l, h⟩ := s.report_eq e st
  rw [h]
  exact regsLog ..

theorem searchFirst (s : State) (t key : Nat) : s.KeepsFabric (s.searchFirst t key).2 := by
  refine ⟨Spares.searchFirst .., ?_⟩
  obtain ⟨r, c, h⟩ := searchFirst_eq s t key
  rw [h]

theorem classify (s : State) (nsid : Nat) (key : Bytes) : s.KeepsFabric (s.classify nsid key).2 := by
  unfold State.classify
  split <;> rename_i h <;> exact of_pair h (searchFirst ..)

/-! ## Watches -/

theorem putEvent (s : State) (nsid : Nat) (key value : Bytes) : s.KeepsFabric (s.putEvent nsid key value) := by
  unfold State.putEvent
  split
  · exact refl s
  · dsimp only
    split
    · exact trans (count ..) (raise ..)
    · rename_i h
      have ht : s.KeepsFabric (s.takeAsn nsid).2 := ⟨⟨rfl, rfl, rfl, rfl⟩, rfl⟩
      have hu := trans ht (of_stores (Stores.trans (Stores.backUp _) (Stores.of_pair h (Stores.putRecs ..))))
      exact trans hu (trans (of_stores (Stores.journal (Stores.refl _) s true)) (count ..))

theorem noteSearch (s : State) (c : TableCfg) (n : Nat) : s.KeepsFabric (s.noteSearch c n) := by
  unfold State.noteSearch
  extract_lets u out
  have hu : s.KeepsFabric u := foldl _ (fun t _ => regsLog t _ t.log) _ s
  split
  · exact hu
  · exact trans hu ⟨⟨rfl, rfl, rfl, rfl⟩, rfl⟩

theorem runSubject (s : State) (b : Bytes) (ctrs : List Nat) (subject : Bytes) : s.KeepsFabric (s.runSubject b ctrs subject).2 := by
  have hc : s.KeepsFabric ((s.tookFree.count Reg.PAT.SUBJECTS 1).count64 Reg.LANE_BYTES_LO.BYTES_LO
    Reg.LANE_BYTES_HI.BYTES_HI 0 subject.length) := ⟨⟨rfl, rfl, rfl, rfl⟩, rfl⟩
  unfold State.runSubject
  dsimp only
  split
  · exact trans hc (noteSearch ..)
  · exact hc

theorem runWatch (s : State) (w : Watch) (stream : Bytes) (seq asn : Nat) (bytes : Bytes) :
    s.KeepsFabric (s.runWatch w stream seq asn bytes) := by
  unfold State.runWatch
  split
  · exact refl s
  · rename_i img _
    extract_lets old ctrs
    split
    · exact raise ..
    · have hset : ∀ (t : State) x, t.KeepsFabric (t.setWatchState x) := fun t x => ⟨⟨rfl, rfl, rfl, rfl⟩, rfl⟩
      have hr := runSubject s img.bytes ctrs bytes
      generalize s.runSubject img.bytes ctrs bytes = o at hr
      obtain ⟨o, t⟩ := o
      have hu := trans hr (trans (hset t ⟨w.nsid, w.id, stream, o.ctrs, seq⟩) (foldl (fun (t : State) r =>
        t.putEvent w.eventNs (eventKey w seq r stream) (eventValue o.ctrs asn)) (fun _ _ => putEvent ..) (o.rpts.take 64) _))
      dsimp only
      split
      · exact trans hu (trans (count ..) (raise ..))
      · exact hu

theorem runWatches (s : State) (nsid : Nat) (stream : Bytes) (group seq asn : Nat) (bytes : Bytes) :
    s.KeepsFabric (s.runWatches nsid stream group seq asn bytes) := foldl _ (fun _ _ => runWatch ..) _ s

/-! ## Mirrored writes -/

end KeepsFabric

/-- The effects of a mirrored write are stores of keys. -/
theorem Stores.applyEffects (nsid asn stamp session : Nat) (l : List MirrorEffect) (s : State) :
    s.Stores (applyEffects nsid asn stamp session l s).2 := by
  induction l generalizing s with
  | nil => exact refl s
  | cons x l ih =>
    have hx : s.Stores (match x.value with
        | some v => s.storeKey nsid x.key v asn stamp session true
        | none => s.removeKey nsid x.key stamp session).2 := by
      split
      · exact storeKey ..
      · exact removeKey ..
    unfold Machine.applyEffects
    dsimp only
    split <;> rename_i h
    · exact of_pair h hx
    · exact trans (of_pair h hx) (ih _)

theorem Stores.applyItems (nsid asn : Nat) (l : List ResyncItem) (s : State) : s.Stores (applyItems nsid asn l s).2 := by
  induction l generalizing s with
  | nil => exact refl s
  | cons x l ih =>
    have hx : s.Stores (match x.value with
        | some v => s.storeKey nsid x.key v asn x.stamp x.session true
        | none => s.removeKey nsid x.key x.stamp x.session).2 := by
      split
      · exact storeKey ..
      · exact removeKey ..
    unfold Machine.applyItems
    dsimp only
    split <;> rename_i h
    · exact of_pair h hx
    · exact trans (of_pair h hx) (ih _)

theorem Stores.dropLacking (nsid : Nat) (l : List Bytes) (s : State) : s.Stores (dropLacking nsid l s).2 := by
  induction l generalizing s with
  | nil => exact refl s
  | cons x l ih =>
    unfold Machine.dropLacking
    split
    · exact refl s
    · split <;> rename_i h
      · exact of_pair h (putRecs ..)
      · exact trans (of_pair h (putRecs ..)) (ih _)

namespace KeepsFabric

theorem applyKeys (s : State) (n : Ns) (mm : MirrorMeta) (l : List MirrorEffect) : s.KeepsFabric (s.applyKeys n mm l).2 := by
  unfold State.applyKeys
  split
  · exact refl s
  · split
    · exact count ..
    · exact of_stores (Stores.tryWrite s _ true fun t => Stores.applyEffects ..)

theorem tryRecord (s : State) (n : Ns) (stream : Bytes) (h : RecordHdr) (bytes : Bytes) :
    s.KeepsFabric (s.tryWrite { n with quota := 0 } true fun s =>
      (s.hashed (bytes.length + 60)).storeRecord n.nsid stream h bytes 0).2 := by
  refine of_stores (Stores.tryWrite s _ true fun t => Stores.trans ?_ (Stores.storeRecord ..))
  unfold State.hashed
  split
  · exact Stores.setRegs ..
  · exact Stores.refl t

theorem applyRecord (s : State) (n : Ns) (stream : Bytes) (h : RecordHdr) (bytes : Bytes) :
    s.KeepsFabric (s.applyRecord n stream h bytes).2 := by
  have hw := tryRecord s n stream h bytes
  unfold State.applyRecord
  dsimp only
  split
  · exact report ..
  · split
    · exact refl s
    · split
      · split <;> rename_i hr
        · exact of_pair hr hw
        · split
          · exact of_pair hr hw
          · exact trans (of_pair hr hw) (trans (classify ..) (runWatches ..))
      · exact report ..

theorem takePurges (s : State) (n : Ns) (l : List (Bytes × Nat)) : s.KeepsFabric (s.takePurges n l) :=
  of_stores (Stores.trans (Stores.setNs ..) (Stores.foldl _ (fun _ _ => Stores.applyPurge ..) l _))

theorem applyMirror (s : State) (n : Ns) (mm : MirrorMeta) (b : MirrorBody) : s.KeepsFabric (s.applyMirror n mm b).2 := by
  unfold State.applyMirror
  cases b with
  | keys l => dsimp only; split <;> rename_i h <;> exact of_pair h (applyKeys ..)
  | record t h l => dsimp only; split <;> rename_i h <;> exact of_pair h (applyRecord ..)
  | purge l => exact takePurges ..

theorem applyRecords (nsid : Nat) (l : List (Bytes × RecordHdr × Bytes)) (s : State) :
    s.KeepsFabric (applyRecords nsid l s).2 := by
  induction l generalizing s with
  | nil => exact refl s
  | cons x l ih =>
    unfold Machine.applyRecords
    split
    · exact refl s
    · split
      · exact ih s
      · split <;> rename_i h
        · exact trans (of_pair h (applyRecord ..)) (ih _)
        · exact of_pair h (applyRecord ..)

theorem applyWalk (s : State) (n : Ns) (asn : Nat) (first last : Bool) (d : Bytes) (its : List ResyncItem)
    (l : List (Bytes × RecordHdr × Bytes)) : s.KeepsFabric (s.applyWalk n asn first last d its l).2 := by
  have hw : ∀ gone, s.KeepsFabric (s.tryWrite { n with quota := 0 } true fun s =>
      match dropLacking n.nsid gone s with
      | (.error e, s) => (.error e, s)
      | (.ok _, s) => applyItems n.nsid asn its s).2 := fun gone => by
    refine of_stores (Stores.tryWrite s _ true fun t => ?_)
    split <;> rename_i h
    · exact Stores.of_pair h (Stores.dropLacking ..)
    · exact Stores.trans (Stores.of_pair h (Stores.dropLacking ..)) (Stores.applyItems ..)
  unfold State.applyWalk
  dsimp only
  split <;> rename_i h
  · exact of_pair h (hw _)
  · exact trans (of_pair h (hw _)) (applyRecords ..)

end KeepsFabric

end Sys2Proof.Machine
end

section
/-! SUPPORT. Fabric requests received, answered and their copies of namespaces (R411, R412, R426, R443). -/

namespace Sys2Proof.Machine

open Sys2Proof

/-! ## Reception (R411, R412) -/

section
variable {s a b : State} {m : FabMsg}

theorem fabTake_taken (h : s.TakesMsg m a) (go : State → State) : s.fabTake m go = go a := by
  obtain ⟨hi, hp, hm, rfl⟩ := h
  unfold State.fabTake State.fabAuth
  rw [if_pos ⟨hi, hp⟩, if_pos hm]

theorem fabTake_untagged (hi : s.islandOn = true) (hp : s.dev.phase = .service) (hm : m.tagOk = false) (go : State → State) :
    s.fabTake m go = s.count Reg.FAB.AUTH_FAIL 1 := by
  unfold State.fabTake State.fabAuth
  rw [if_pos ⟨hi, hp⟩, hm, if_neg Bool.false_ne_true]

/-- A request that is new from its source is noted and executed (R412). -/
theorem requestCore_new (h : s.NewFrom m) (rt : Nat) (go : State → State) :
    s.requestCore m rt go = go (s.noteSource m.src m.msgId) := by
  unfold State.NewFrom at h
  unfold State.requestCore
  cases he : s.source? m.src with
  | none =>
    rw [he] at h
    exact if_neg (Nat.not_le.2 h)
  | some e =>
    rw [he] at h
    obtain ⟨hseen, htop⟩ := h
    dsimp only
    rw [if_neg (show ¬ e.seen.contains m.msgId = true by simpa using hseen), if_neg (Nat.not_lt.2 htop)]

/-- A repeat finds its stored response, or nothing (R412). -/
theorem requestCore_seen {e : SourceEntry} (he : s.source? m.src = some e) (hseen : m.msgId ∈ e.seen) (rt : Nat)
    (go : State → State) : s.requestCore m rt go =
      (e.replies.find? fun x => x.1 == m.msgId).elim s fun r => s.inject none r.2 := by
  unfold State.requestCore
  rw [he]
  dsimp only
  rw [if_pos (show e.seen.contains m.msgId = true by simpa using hseen)]
  cases e.replies.find? fun x => x.1 == m.msgId <;> rfl

theorem fabRequestIn_fresh (h : s.FreshRequest m b) (rt : Nat) (go : State → State) : s.fabRequestIn m rt go = go b := by
  obtain ⟨hp, a, ha, hn, rfl⟩ := h
  unfold State.fabRequestIn
  rw [hp, if_neg Bool.false_ne_true, fabTake_taken ha, requestCore_new hn]

theorem spares_fresh (h : s.FreshRequest m b) : s.Spares b := by
  obtain ⟨-, a, ⟨-, -, -, rfl⟩, -, rfl⟩ := h
  exact Spares.trans (Spares.arrive ..) ⟨rfl, rfl, rfl, rfl⟩

/-- A request that has been taken leaves no entry under way (R72). -/
theorem entering_fresh (h : s.FreshRequest m b) : b.dev.entering = none := by
  obtain ⟨-, a, ⟨-, hp, -, rfl⟩, -, rfl⟩ := h
  exact (State.arrive_active hp _).1

end

section
variable {m : FabMsg} {mm : MirrorMeta} {body : MirrorBody} {nsid asn k : Nat} {d msg : Bytes} {fl : Bool}
  {its : List ResyncItem} {recs : List (Bytes × RecordHdr × Bytes)} {c : Instr}
  
  (hc : c ∈ [Instr.queryReq m, .forwardReq m msg, .abortRelay m k, .mirrorWrite m mm body, .mirrorCopyCreate m nsid d,
    .mirrorCopyRelease m nsid, .resync m nsid asn fl fl d its recs, .chunkReq m d k])
include hc

/-- The requests that a source sends are received alike. -/
theorem exec_fabRequest (s : State) : ∃ rt go, exec c s = s.done (s.fabRequestIn m rt go) := by
  simp only [List.mem_cons, List.not_mem_nil, or_false] at hc
  rcases hc with rfl | rfl | rfl | rfl | rfl | rfl | rfl | rfl <;> exact ⟨_, _, rfl⟩

/-- In the pause of an activation a request waits unexecuted (R443). -/
theorem exec_fabRequest_paused {s : State} (h : s.cmd.paused = true) : exec c s = .next s := by
  obtain ⟨rt, go, he⟩ := exec_fabRequest hc s
  rw [he, State.fabRequestIn, if_pos h]
  exact Spares.done (Spares.refl s)

theorem exec_fabRequest_untagged {s : State} (hi : s.islandOn = true) (hp : s.dev.phase = .service) (hn : s.cmd.paused = false)
    (hm : m.tagOk = false) : exec c s = .next (s.count Reg.FAB.AUTH_FAIL 1) := by
  obtain ⟨rt, go, he⟩ := exec_fabRequest hc s
  rw [he, State.fabRequestIn, hn, if_neg Bool.false_ne_true, fabTake_untagged hi hp hm]
  exact Spares.done (Spares.count ..)

theorem exec_fabRequest_seen {s a : State} (ha : s.TakesMsg m a) (hn : s.cmd.paused = false) {e : SourceEntry}
    (he : a.source? m.src = some e) (hseen : m.msgId ∈ e.seen) : exec c s =
      .next ((e.replies.find? fun x => x.1 == m.msgId).elim a fun r => a.inject none r.2) := by
  obtain ⟨rt, go, hx⟩ := exec_fabRequest hc s
  have hs : s.Spares a := by
    obtain ⟨-, -, -, rfl⟩ := ha
    exact Spares.arrive ..
  rw [hx, State.fabRequestIn, hn, if_neg Bool.false_ne_true, fabTake_taken ha, requestCore_seen he hseen]
  refine Spares.done ?_
  cases e.replies.find? fun x => x.1 == m.msgId with
  | none => exact hs
  | some r => exact Spares.trans hs ⟨rfl, rfl, rfl, rfl⟩

end

/-! ## Responses (R412) -/

/-- A response waits at local injection in its frames, kept for a repeat of its request. -/
theorem fabReply_kept (t : State) (src ftype id : Nat) (p : FabPayload) :
    let fs := (t.makeFrames ⟨src, ftype, none, Config.fabFlow src 0⟩ (replyBytes ftype id p)).1
    (t.fabReply src ftype id p).fab.inject = t.fab.inject ++ fs.map (fun f => (none, f)) ∧
      ∀ e, t.source? src = some e → ∃ g, (t.fabReply src ftype id p).source? src = some g ∧ g.seen = e.seen ∧
        (g.replies.find? fun x => x.1 == id) = some (id, fs) := by
  have hf := makeFrames_fab t ⟨src, ftype, none, Config.fabFlow src 0⟩ (replyBytes ftype id p)
  unfold State.fabReply
  generalize t.makeFrames ⟨src, ftype, none, Config.fabFlow src 0⟩ (replyBytes ftype id p) = w at hf
  obtain ⟨fs, u⟩ := w
  dsimp only at hf ⊢
  refine ⟨?_, fun e he => ?_⟩
  · dsimp only [State.inject]
    rw [hf]
  · have hsrc : u.source? src = some e := by rw [← he, State.source?, State.source?, hf]
    have hid : (e.src == src) = true := List.find?_some (p := fun x : SourceEntry => x.src == src) he
    have hfound := find_map_of_keeps (p := fun x : SourceEntry => x.src == src)
      (f := fun x => if x.src == src then { x with replies := putWhere (fun r => r.1 == id) (id, fs) x.replies } else x)
      (fun x => by split <;> rfl) u.fab.sources
    refine ⟨{ e with replies := putWhere (fun r => r.1 == id) (id, fs) e.replies }, hfound.trans ?_, rfl,
      find_putWhere (fun r : Nat × List FabFrame => r.1 == id) (id, fs) (by simp) e.replies⟩
    rw [show u.fab.sources.find? (fun x => x.src == src) = some e from hsrc]
    exact congrArg some (if_pos hid)

section
variable {s b : State} {m : FabMsg} (h : s.FreshRequest m b)
include h

/-- A request answered in the state `u` leaves its response. -/
theorem exec_answered {c : Instr} {u : State} {ftype : Nat} {p : FabPayload}
    (he : exec c s = s.done (u.fabReply m.src ftype m.msgId p)) (hu : b.Spares u) :
    exec c s = .next (u.fabReply m.src ftype m.msgId p) :=
  he.trans (Spares.done (Spares.trans (spares_fresh h) (Spares.trans hu (Outlasts.spares (Outlasts.fabReply ..)))))

theorem exec_responded {c : Instr} {u : State} {t : TagId} {r : Completion} {live : Bool} (he : exec c s = s.done (u.respond t r live))
    (hu : b.Spares u) : exec c s = .next (u.respond t r live) :=
  he.trans (Spares.done (Spares.trans (spares_fresh h) (Spares.trans hu (Outlasts.spares (Outlasts.respond ..)))))

end

end Sys2Proof.Machine
end

section
/-! SUPPORT. What each new request does at the device that receives it (R187, R423, R424, R426, R427, R429, R445). -/

namespace Sys2Proof.Machine

open Sys2Proof

section
variable {s b : State} {m : FabMsg} (h : s.FreshRequest m b)
include h

theorem exec_queryReq : exec (.queryReq m) s = s.done (b.fabReply m.src 0x06 m.msgId (.bytes b.fabState)) :=
  congrArg s.done (fabRequestIn_fresh h 0x06 fun s => s.fabReply m.src 0x06 m.msgId (.bytes s.fabState))

theorem exec_forwardReq (msg : Bytes) : exec (.forwardReq m msg) s = s.done (b.takeForward m msg) :=
  congrArg s.done (fabRequestIn_fresh h 0x04 fun s => s.takeForward m msg)

theorem exec_abortRelay (k : Nat) : exec (.abortRelay m k) s = s.done (b.takeRelay m k) :=
  congrArg s.done (fabRequestIn_fresh h 0x04 fun s => s.takeRelay m k)

theorem exec_mirrorWrite (mm : MirrorMeta) (body : MirrorBody) : exec (.mirrorWrite m mm body) s = s.done (b.takeMirror m mm body) :=
  congrArg s.done (fabRequestIn_fresh h 0x02 fun s => s.takeMirror m mm body)

theorem exec_mirrorCopyCreate (nsid : Nat) (d : Bytes) : exec (.mirrorCopyCreate m nsid d) s =
    s.done ((b.createCopy m nsid d).2.fabReply m.src 0x02 m.msgId (.mirrorAck nsid 0 (b.createCopy m nsid d).1)) :=
  congrArg s.done (fabRequestIn_fresh h 0x02 fun s => match s.createCopy m nsid d with
    | (ok, s) => s.fabReply m.src 0x02 m.msgId (.mirrorAck nsid 0 ok))

theorem exec_mirrorCopyRelease (nsid : Nat) : exec (.mirrorCopyRelease m nsid) s =
    s.done ((b.releaseCopy m nsid).fabReply m.src 0x02 m.msgId (.mirrorAck nsid 0 true)) :=
  congrArg s.done (fabRequestIn_fresh h 0x02 fun s =>
    (s.releaseCopy m nsid).fabReply m.src 0x02 m.msgId (.mirrorAck nsid 0 true))

theorem exec_resync (nsid asn : Nat) (first last : Bool) (d : Bytes) (its : List ResyncItem)
    (recs : List (Bytes × RecordHdr × Bytes)) :
    exec (.resync m nsid asn first last d its recs) s = s.done (b.takeResync m nsid asn first last d its recs) :=
  congrArg s.done (fabRequestIn_fresh h 0x02 fun s => s.takeResync m nsid asn first last d its recs)

theorem exec_chunkReq (d : Bytes) (k : Nat) : exec (.chunkReq m d k) s = s.done (b.serveChunk m d k) :=
  congrArg s.done (fabRequestIn_fresh h 0x09 fun s => s.serveChunk m d k)

end

/-! ## Forwarded commands (R424) -/

/-- A whole forwarded command waits in the receive queues. -/
theorem takeForward_queues {s : State} {m : FabMsg} {msg : Bytes} (he : s.dev.entering = none) (h32 : 32 ≤ msg.length)
    (hlen : msg.length = 32 + beAt msg 6 2 + beAt msg 8 4) (hroom : s.cmd.queue.length < 16384) :
    (s.takeForward m msg).cmd.queue = s.cmd.queue ++ [⟨.forward m.src, .admin, m.msgId, msgOf msg⟩] := by
  have hreach : (s.reach (msgOf msg)).cmd = s.cmd := by
    unfold State.reach State.arrive
    rw [he]
    dsimp only
    split
    · rw [State.abandonEntry_none he, wake_cmd]
    · rfl
  unfold State.takeForward
  dsimp only
  rw [if_neg (by omega)]
  unfold State.queueCmd
  dsimp only
  rw [if_neg (by rw [hreach]; omega), hreach]
  split
  · obtain ⟨o, ho⟩ := pauseHosts_eq { s.reach (msgOf msg) with cmd := { s.cmd with
      queue := s.cmd.queue ++ [⟨.forward m.src, .admin, m.msgId, msgOf msg⟩] } } 65535
    rw [ho]
  · rfl

/-! ## Relayed aborts (R187) -/

namespace Traffic

theorem raise (s : State) (e : Event) : s.Traffic (s.raise e) := raiseWith ..

theorem degradeMember (s : State) (nsid addr : Nat) : s.Traffic (s.degradeMember nsid addr) := by
  unfold State.degradeMember
  split
  · split
    · exact refl s
    · exact trans (setFab ..) (raise ..)
  · exact refl s

theorem cutMember (s : State) (n : Ns) (addr : Nat) : s.Traffic (s.cutMember n addr) := by
  have hc : s.Traffic (s.count Reg.FAB.UNREACHABLE 1) := setRegs ..
  unfold State.cutMember
  split
  · dsimp only
    split
    · exact trans hc (degradeMember ..)
    · exact trans hc (trans (setFab ..) (raise ..))
  · exact refl s

theorem mirrorOne (s : State) (n : Ns) (e : TagEntry) (media : Bool) (body : MirrorBody) (addr : Nat) :
    s.Traffic (s.mirrorOne n e media body addr) := by
  unfold State.mirrorOne
  extract_lets u
  have hu : s.Traffic u := by
    unfold u
    split
    · exact refl s
    · exact trans (fabRequest ..) (setFab ..)
  split
  · exact hu
  · split
    · exact hu
    · exact trans hu (trans (fabRequest ..) (setFab ..))

/-- Mirrored effects sent change only traffic (R427). -/
theorem mirrorOut (s : State) (n : Ns) (e : TagEntry) (media : Bool) (parts : List (Nat × MirrorBody)) :
    s.Traffic (s.mirrorOut n e media parts).1 :=
  trans (foldl _ (fun _ _ => cutMember ..) _ s) (foldl _ (fun _ _ => mirrorOne ..) _ _)

end Traffic

/-- A command stopped changes no memory of the debug port and no fuse. -/
theorem Spares.stopEntry (s : State) (e : TagEntry) : s.Spares (s.stopEntry e) := by
  have hfin : ∀ (t : State) p, t.Spares (t.finish e stAborted p) := fun t p => of_answerKeeps (AnswerKeeps.finish ..)
  have hcam : s.Spares (s.camEnd e) := by
    unfold State.camEnd
    split
    · exact refl s
    · dsimp only
      split
      · exact ⟨rfl, rfl, rfl, rfl⟩
      · exact refl s
  have hpurge : ∀ t : State, t.Spares (t.purgeStop e) := fun t => by
    unfold State.purgeStop
    split
    · exact Traffic.spares (Traffic.mirrorOut ..)
    · exact refl t
  unfold State.stopEntry
  split
  · exact trans hcam (trans (hpurge _) (hfin ..))
  · have hvoid : s.Spares (if e.msg.opcode = 0x08 then s.voidRecord e else s) := by
      split
      · exact Stores.spares (Stores.voidRecord ..)
      · exact refl s
    have hdet : ∀ t : State, t.Spares (t.detach e.id) := fun t => ⟨rfl, rfl, rfl, rfl⟩
    exact trans hvoid (trans (hdet _) (hfin ..))

/-! ## Mirrored writes (R427) -/

/-- A write applied is acknowledged as done under the MEDIA flag only with the buffer drained (R427). -/
theorem ackMirror_applied (s : State) (src id : Nat) (mm : MirrorMeta) : ∃ ok v,
    s.ackMirror src id mm true = v.fabReply src 0x02 id (.mirrorAck mm.nsid mm.asn ok) ∧ (v = s ∨ v = s.drain) ∧
      (ok = true → mm.media = true → v.drained = true) := by
  unfold State.ackMirror
  extract_lets u ok
  refine ⟨ok, u, rfl, ?_, fun ho hm => ?_⟩
  · unfold u
    split
    · exact .inr rfl
    · exact .inl rfl
  · unfold ok at ho
    rw [hm] at ho
    simpa using ho

/-- A write of no copy of the source's is refused. -/
theorem takeMirror_refuses {s : State} {m : FabMsg} {mm : MirrorMeta} {n : Ns}
    (h : s.ns? mm.nsid = none ∨ s.ns? mm.nsid = some n ∧ n.copyOf ≠ some m.src) (body : MirrorBody) :
    s.takeMirror m mm body = s.fabReply m.src 0x02 m.msgId (.mirrorAck mm.nsid mm.asn false) := by
  unfold State.takeMirror
  rcases h with h | ⟨h, hc⟩
  · simp only [h]
    rfl
  · rw [h]
    exact (if_pos hc).trans rfl

section
variable {s : State} {m : FabMsg} {mm : MirrorMeta} {n : Ns} (hn : s.ns? mm.nsid = some n) (hc : n.copyOf = some m.src)
  (hs : n.stamped = false) (ha : s.appliedAsn mm.nsid < mm.asn)
include hn hc hs ha

/-- A write of a copy goes by its turn in the chain of ASNs. -/
theorem takeMirror_turns (body : MirrorBody) : s.takeMirror m mm body =
    if mm.prevAsn = s.appliedAsn mm.nsid then
      mirrorHeld mm.nsid (s.mirrorTurn n m.src m.msgId mm body).fab.heldWrites.length (s.mirrorTurn n m.src m.msgId mm body)
    else { s with fab := { s.fab with heldWrites := s.fab.heldWrites ++ [⟨m.src, m.msgId, mm, body⟩] } } := by
  have hid : n.nsid = mm.nsid := by simpa using List.find?_some hn
  unfold State.takeMirror
  rw [hn]
  dsimp only
  rw [if_neg (not_not.2 hc), hs, if_neg Bool.false_ne_true, hid, if_neg (Nat.not_le.2 ha)]

/-- A write in its turn, with none held, is applied, becomes the ASN last applied, and is acknowledged. -/
theorem takeMirror_applies {body : MirrorBody} {t : State} (hp : mm.prevAsn = s.appliedAsn mm.nsid)
    (hh : s.fab.heldWrites = []) (ht : s.applyMirror n mm body = (true, t)) : ∃ ok v,
      s.takeMirror m mm body = v.fabReply m.src 0x02 m.msgId (.mirrorAck mm.nsid mm.asn ok) ∧ s.Spares v ∧
      v.appliedAsn mm.nsid = mm.asn ∧ v.kv.namespaces = t.kv.namespaces ∧ (ok = true → mm.media = true → v.drained = true) := by
  have hid : n.nsid = mm.nsid := by simpa using List.find?_some hn
  have hk : s.KeepsFabric t := KeepsFabric.of_pair ht (KeepsFabric.applyMirror ..)
  obtain ⟨ok, v, hv, hd, hmedia⟩ := ackMirror_applied (t.setApplied mm.nsid mm.asn) m.src m.msgId mm
  have hkeeps : (t.setApplied mm.nsid mm.asn).KeepsFabric v ∧ v.kv.namespaces = t.kv.namespaces := by
    rcases hd with hd | hd <;> rw [hd]
    · exact ⟨KeepsFabric.refl _, rfl⟩
    · exact ⟨KeepsFabric.of_draining (Draining.drain _), (State.KeepsIndices.drain _).namespaces⟩
  clear hd
  have hturn : s.mirrorTurn n m.src m.msgId mm body = v.fabReply m.src 0x02 m.msgId (.mirrorAck mm.nsid mm.asn ok) := by
    unfold State.mirrorTurn
    rw [ht]
    dsimp only
    rw [hid]
    exact hv
  have hempty : (v.fabReply m.src 0x02 m.msgId (.mirrorAck mm.nsid mm.asn ok)).fab.heldWrites = [] := by
    rw [(Outlasts.fabReply ..).fab]
    dsimp only
    rw [hkeeps.1.fab]
    exact (congrArg Fab.heldWrites hk.fab).trans hh
  refine ⟨ok, v, ?_, Spares.trans hk.spares (Spares.trans (t := t.setApplied mm.nsid mm.asn) ⟨rfl, rfl, rfl, rfl⟩ hkeeps.1.spares), ?_, hkeeps.2, hmedia⟩
  · rw [takeMirror_turns hn hc hs ha, if_pos hp, hturn, hempty]
    rfl
  · have hf := find_putWhere (fun x : Nat × Nat => x.1 == mm.nsid) (mm.nsid, mm.asn) (by simp) t.fab.applied
    unfold State.appliedAsn
    rw [hkeeps.1.fab, show (t.setApplied mm.nsid mm.asn).fab.applied.find? (fun x => x.1 == mm.nsid) = some (mm.nsid, mm.asn) from hf]

end

/-! ## Copies (R426) -/

theorem ns_addNs {s : State} {n : Ns} (h : s.ns? n.nsid = none) : (s.addNs n).ns? n.nsid = some n := by
  show (s.kv.namespaces ++ [n]).find? (fun x => x.nsid == n.nsid) = some n
  rw [List.find?_append, show s.kv.namespaces.find? (fun x => x.nsid == n.nsid) = none from h]
  simp

theorem addCopy_adds {s : State} {n : Ns} (h : s.ns? n.nsid = none) (asn : Nat) :
    s.Spares ((s.addNs n).setApplied n.nsid asn).sendKeepers ∧
      ((s.addNs n).setApplied n.nsid asn).sendKeepers.ns? n.nsid = some n := by
  have hs : s.Spares ((s.addNs n).setApplied n.nsid asn) := ⟨rfl, rfl, rfl, rfl⟩
  have hn : ((s.addNs n).setApplied n.nsid asn).ns? n.nsid = some n := ns_addNs h
  have ht := Traffic.sendKeepers ((s.addNs n).setApplied n.nsid asn)
  exact ⟨Spares.trans hs (Traffic.spares ht), (ns_congr (Traffic.kv ht) _).trans hn⟩

/-- The record of restored copies without a namespace, and its writes held and applied dropped. -/
def State.uncopied (s : State) (nsid : Nat) : State :=
  { s with fab := { s.fab with copies := s.fab.copies.filter fun x => x.1 != nsid } }

def State.unheld (s : State) (nsid : Nat) : State :=
  { s with fab := { s.fab with
      heldWrites := s.fab.heldWrites.filter (fun h => h.mm.nsid != nsid)
      applied := s.fab.applied.filter (fun x => x.1 != nsid) } }

/-- A copy created: the namespace of its descriptor, of its origin. -/
theorem createCopy_creates {s : State} {m : FabMsg} {nsid : Nat} {d : Bytes} (hn : s.ns? nsid = none) (h0 : 0 < nsid)
    (hmax : nsid < 4096) (hd : descriptorOk d = true) (hf : s.createFails d = none)
    (hp : (s.fab.pulls.find? fun x => x.1 == nsid) = none) (hc : ∀ x ∈ s.fab.copies, x.1 = nsid → x.2 = m.src) :
    ∃ t : State, s.createCopy m nsid d = (true, t) ∧ s.Spares t ∧ t.ns? nsid = some (nsOf nsid (s.peekAsn nsid) d (some m.src)) := by
  have hcopies : ¬ (s.fab.copies.any fun x => x.1 == nsid && x.2 != m.src) = true := by
    simp only [List.any_eq_true, not_exists, not_and]
    intro x hx
    simpa using hc x hx
  unfold State.createCopy
  rw [hn]
  dsimp only
  rw [if_neg (by rw [hd, hf]; simp; omega), hp]
  dsimp only
  rw [if_neg hcopies]
  have hadd := addCopy_adds (s := s.uncopied nsid) (n := nsOf nsid (s.peekAsn nsid) d (some m.src)) hn 0
  exact ⟨_, rfl, Spares.trans (t := s.uncopied nsid) ⟨rfl, rfl, rfl, rfl⟩ hadd.1, hadd.2⟩

theorem releaseCopy_releases {s : State} {m : FabMsg} {nsid : Nat} {n : Ns} (hn : s.ns? nsid = some n)
    (hc : n.copyOf = some m.src) : s.Spares (s.releaseCopy m nsid) ∧
      (s.releaseCopy m nsid).ns? nsid = some { n with copyOf := none } := by
  have hid : n.nsid = nsid := by simpa using List.find?_some hn
  have hrun : s.releaseCopy m nsid = ((s.unheld nsid).bindNs { n with copyOf := none }).sendKeepers := by
    unfold State.releaseCopy
    rw [hn]
    exact if_pos hc
  have hs : s.Spares ((s.unheld nsid).bindNs { n with copyOf := none }) := ⟨rfl, rfl, rfl, rfl⟩
  have hbind := bindNs_ns (s.unheld nsid) { n with copyOf := none }
  have ht := Traffic.sendKeepers ((s.unheld nsid).bindNs { n with copyOf := none })
  rw [hrun]
  exact ⟨Spares.trans hs (Traffic.spares ht), (ns_congr (Traffic.kv ht) _).trans (hid ▸ hbind)⟩

/-! ## Walks and keeper records (R429, R431) -/

theorem takeResync_refuses {s : State} {m : FabMsg} {nsid : Nat} (hn : s.ns? nsid = none) (asn : Nat) (first last : Bool)
    (d : Bytes) (its : List ResyncItem) (recs : List (Bytes × RecordHdr × Bytes)) :
    s.takeResync m nsid asn first last d its recs = s.fabReply m.src 0x02 m.msgId (.mirrorAck nsid asn false) := by
  unfold State.takeResync
  rw [hn]

/-- The first message of a walk of a copy, which is not its last, is applied and acknowledged. -/
theorem takeResync_first {s t : State} {m : FabMsg} {nsid asn : Nat} {n : Ns} {d : Bytes} {its : List ResyncItem}
    {recs : List (Bytes × RecordHdr × Bytes)} (hn : s.ns? nsid = some n) (hc : n.copyOf = some m.src)
    (ht : s.applyWalk n asn true false d its recs = (true, t)) :
    s.takeResync m nsid asn true false d its recs = t.fabReply m.src 0x02 m.msgId (.mirrorAck nsid asn true) := by
  unfold State.takeResync
  rw [hn]
  dsimp only
  rw [if_neg (by simp), if_pos (by simp [hc]), ht]
  rfl

theorem takeKeeper_stores (s : State) (link : Nat) (m : FabMsg) (k : KeeperRec) : ∃ t,
    s.takeKeeper link m k = t.fabReply m.src 0x02 m.msgId (.mirrorAck 0 0 true) ∧ s.Spares t ∧
      (t.fab.keepers.find? fun x => x.1 == link) = some (link, k) :=
  ⟨_, rfl, ⟨rfl, rfl, rfl, rfl⟩, find_putWhere (fun x : Nat × KeeperRec => x.1 == link) (link, k) (by simp) s.fab.keepers⟩

theorem exec_keeper {s : State} {link : Nat} {m : FabMsg} (h : s.islandOn ∧ s.dev.phase = .service ∧ link < 4 ∧
    (s.link link).isUp ∧ (s.link link).state ≠ 5 ∧ !s.flash.readOnly ∧ !s.cmd.paused) (hm : m.tagOk = true) (hn : s.NewFrom m)
    (k : KeeperRec) : exec (.keeper link m k) s = s.done ((s.noteSource m.src m.msgId).takeKeeper link m k) := by
  have hrun := requestCore_new hn 0x02 fun s => s.takeKeeper link m k
  rw [← hrun]
  refine congrArg s.done ((if_pos h).trans ?_)
  unfold State.fabAuth
  exact if_pos hm

end Sys2Proof.Machine
end

section
/-! PROOF. O56: fabric requests are executed once (R187, R411, R412, R417, R423, R424, R426, R427, R429, R443, R445). -/

namespace Sys2Proof.Machine

open Sys2Proof

/-- Settles O56: reception is the same for every request, and each kind has its own effect. -/
theorem fabricRequestsAreExecutedOnce : Obligations.FabricRequestsAreExecutedOnce := by
  unfold Obligations.FabricRequestsAreExecutedOnce
  intro s a b m mm body nsid asn k link d msg fl its recs kr n reqs answers back
  refine ⟨fun t ftype p => fabReply_kept t m.src ftype m.msgId p, fun hp c hc => exec_fabRequest_paused hc hp,
    fun hi hph hn hm c hc => exec_fabRequest_untagged hc hi hph hn hm, fun ha hn e he hseen => ⟨fun r hr c hc => ?_, fun hr c hc => ?_⟩,
    fun h => ?_, fun hi hph hl hup hst hro hn hm hnew => ?_⟩
  · rw [exec_fabRequest_seen hc ha hn he hseen, hr]
    rfl
  · rw [exec_fabRequest_seen hc ha hn he hseen, hr]
    rfl
  · refine ⟨?_, fun h32 hlen hroom => ?_, fun he hq => ?_, fun f hf => ?_, fun hn => ?_, fun hn hc hst has => ⟨fun hp => ?_,
      fun t hp hh ht => ?_⟩, fun hn h0 hmax hd hf hp hc => ?_, fun hn hc => ?_, fun hn => ?_, fun t hn hc ht => ?_, fun hp => ?_,
      fun hp => ⟨fun hk => ?_, fun x q hk => ?_⟩⟩
    · exact exec_answered h (exec_queryReq h) (Spares.refl b)
    · obtain ⟨u, hu, hpass⟩ := exists_carried (exec_forwardReq h msg)
      exact ⟨u, hu, (congrArg Cmd.queue hpass.cmd).trans (takeForward_queues (entering_fresh h) h32 hlen hroom)⟩
    · have hrun : b.takeRelay m k = b.respond back (doneWith stTooLate 0 []) false := by
        unfold State.takeRelay
        rw [he]
        exact if_neg (Bool.eq_false_iff.1 hq)
      exact exec_responded h ((exec_abortRelay h k).trans (congrArg s.done hrun)) (Spares.refl b)
    · have hrun : b.takeRelay m k = (b.stopEntry f).respond back (doneWith stOK 0 []) false := by
        unfold State.takeRelay
        rw [hf]
      exact exec_responded h ((exec_abortRelay h k).trans (congrArg s.done hrun)) (Spares.stopEntry b f)
    · exact exec_answered h ((exec_mirrorWrite h mm body).trans (congrArg s.done (takeMirror_refuses hn body))) (Spares.refl b)
    · rw [exec_mirrorWrite h, takeMirror_turns hn hc hst has, if_neg hp]
      exact Spares.done (Spares.trans (spares_fresh h) ⟨rfl, rfl, rfl, rfl⟩)
    · obtain ⟨ok, v, hv, hs, hasn, hns, hmedia⟩ := takeMirror_applies hn hc hst has hp hh ht
      exact ⟨ok, v, exec_answered h ((exec_mirrorWrite h mm body).trans (congrArg s.done hv)) hs, hasn, hns, hmedia⟩
    · obtain ⟨t, ht, hs, hns⟩ := createCopy_creates hn h0 hmax hd hf hp hc
      exact ⟨t, exec_answered h ((exec_mirrorCopyCreate h nsid d).trans (by rw [ht])) hs, hns⟩
    · obtain ⟨hs, hns⟩ := releaseCopy_releases hn hc
      exact ⟨_, exec_answered h (exec_mirrorCopyRelease h nsid) hs, hns⟩
    · exact exec_answered h ((exec_resync h ..).trans (congrArg s.done (takeResync_refuses hn ..))) (Spares.refl b)
    · exact exec_answered h ((exec_resync h ..).trans (congrArg s.done (takeResync_first hn hc ht)))
        (KeepsFabric.of_pair ht (KeepsFabric.applyWalk ..)).spares
    · have hrun : b.serveChunk m d k = b.fabReply m.src 0x09 m.msgId (.updRefuse d stNotPermitted) := by
        unfold State.serveChunk
        rw [hp]
        rfl
      exact exec_answered h ((exec_chunkReq h d k).trans (congrArg s.done hrun)) (Spares.refl b)
    · have hrun : b.serveChunk m d k = b.fabReply m.src 0x09 m.msgId (.updRefuse d stPackage) := by
        unfold State.serveChunk
        rw [hp, hk]
        rfl
      exact exec_answered h ((exec_chunkReq h d k).trans (congrArg s.done hrun)) (Spares.refl b)
    · have hrun : b.serveChunk m d k = (if q then b.tookFree else b).fabReply m.src 0x09 m.msgId (.chunk d k (crc32c x) x) := by
        unfold State.serveChunk
        rw [hp, hk]
        rfl
      have hs : b.Spares (if q then b.tookFree else b) := by
        split
        · exact ⟨rfl, rfl, rfl, rfl⟩
        · exact Spares.refl b
      exact exec_answered h ((exec_chunkReq h d k).trans (congrArg s.done hrun)) hs
  · obtain ⟨t, ht, hs, hk⟩ := takeKeeper_stores (s.noteSource m.src m.msgId) link m kr
    refine ⟨t, (exec_keeper ⟨hi, hph, hl, hup, hst, by simpa using hro, by simpa using hn⟩ hm hnew kr).trans ?_, hk⟩
    rw [ht]
    exact Spares.done (Spares.trans (t := s.noteSource m.src m.msgId) ⟨rfl, rfl, rfl, rfl⟩
      (Spares.trans hs (Outlasts.spares (Outlasts.fabReply ..))))

end Sys2Proof.Machine
end

section
/-! SUPPORT. A register word that is not at its reset value stays through writes to other registers, whether the table is
canonical or not (R128, log entry 4); so a gateway's hellos all go out under one EtherType (R421). -/

namespace Sys2Proof.Machine

open Sys2Proof

/-- A listed entry that is seen stays seen, whatever is written at another place. -/
theorem SMap.get_set_seen {α : Type} [DecidableEq α] (d : Nat → α) {k j : Nat} (hj : j ≠ k) (v : α) {m : SMap α}
    (h : SMap.get d m j ≠ d j) : SMap.get d (SMap.set d k v m) j = SMap.get d m j := by
  induction m with
  | nil => exact absurd rfl h
  | cons x t ih =>
    obtain ⟨a, w⟩ := x
    by_cases hja : j = a
    · subst hja
      unfold SMap.set
      repeat' split
      all_goals simp_all [SMap.get]
      omega
    · have hlt : ¬ j < a := fun hlt => h (by simp only [SMap.get, if_neg hja, if_pos hlt])
      have ht : SMap.get d t j ≠ d j := by
        simpa only [SMap.get, if_neg hja, if_neg hlt] using h
      have hget : ∀ l : SMap α, SMap.get d ((a, w) :: l) j = SMap.get d l j := fun l => by
        simp only [SMap.get, if_neg hja, if_neg hlt]
      unfold SMap.set
      split
      · split
        · rfl
        · rename_i hka _
          simp only [SMap.get, if_neg hj, if_neg (show ¬ j < k by omega)]
      · split
        · split
          · exact (hget t).symm
          · rename_i hka _
            simp only [SMap.get, if_neg hj, if_neg (show ¬ j < k by omega), if_neg hja, if_neg hlt]
        · rw [hget, hget, ih ht]

/-- The word at an address stays, where it is not at its reset value. -/
structure State.HoldsWord (a : Nat) (s u : State) : Prop where
  stays : s.word a ≠ regReset a → u.word a = s.word a

namespace HoldsWord

variable {a : Nat}

theorem of_regs {s u : State} (h : u.regs = s.regs) : State.HoldsWord a s u := ⟨fun _ => by unfold State.word; rw [h]⟩

theorem refl (s : State) : State.HoldsWord a s s := ⟨fun _ => rfl⟩

theorem trans {s t u : State} (h : State.HoldsWord a s t) (k : State.HoldsWord a t u) : State.HoldsWord a s u :=
  ⟨fun hs => (k.stays ((h.stays hs).symm ▸ hs)).trans (h.stays hs)⟩

theorem of_pair {α : Type} {x : α × State} {b : α} {s t : State} (h : x = (b, t)) (hx : State.HoldsWord a s x.2) :
    State.HoldsWord a s t := by
  rw [h] at hx; exact hx

theorem setWord (s : State) {x : Nat} (h : a ≠ x) (v : Word) : State.HoldsWord a s (s.setWord x v) :=
  ⟨SMap.get_set_seen regReset h v⟩

theorem count (s : State) {f : Field} (h : a ≠ f.addr 0 0) (n : Nat) : State.HoldsWord a s (s.count f n) := setWord s h _

theorem count64 (s : State) {lo hi : Field} {i : Nat} (hl : a ≠ lo.addr i 0) (hh : a ≠ hi.addr i 0) (n : Nat) :
    State.HoldsWord a s (s.count64 lo hi i n) := trans (setWord s hl _) (setWord _ hh _)

theorem report (s : State) (ha : addrOff a ≠ hEvtStat) {e : Event} (he : e.bit < 32) (hc : a ≠ pageAddr e.block 0 + hErrCapt)
    (st : Nat) : State.HoldsWord a s (s.report e st) := by
  have hraise : (s.raiseWith e 0 false st 0).word a = s.word a := by
    have hx : addrOff (pageAddr e.block (e.page 0) + hEvtStat) = hEvtStat := by
      show (e.block * 0x40000 + e.page 0 * 0x1000 + 0x010) % 0x1000 = 0x010
      omega
    unfold State.raiseWith
    extract_lets base t
    have ht : t.word a = s.word a := word_setEvent ha s hx he
    split
    · split
      · split
        · exact ht
        · exact (logRecord_word ha ..).trans ht
      · exact (logRecord_word ha ..).trans ht
    · rfl
  unfold State.report
  refine trans ⟨fun _ => hraise⟩ ?_
  unfold State.capture
  dsimp only
  split <;> exact setWord _ hc _

end HoldsWord

/-! ## The register of the EtherType and of GATEWAY_EN -/

/-- The address of NET_FAB. -/
def netFabAddr : Nat := Reg.NET_FAB.FAB_ETHERTYPE.addr 0 0

theorem cipher_netFab (s : State) (c n : Nat) : State.HoldsWord netFabAddr s (s.cipher c n) := by
  unfold State.cipher
  split
  · rename_i i _
    exact HoldsWord.count64 s (show 0x10005C ≠ 13 * 0x40000 + (i + 1) * 0x1000 + 0x044 + 4 * 0 by omega)
      (show 0x10005C ≠ 13 * 0x40000 + (i + 1) * 0x1000 + 0x048 + 4 * 0 by omega) n
  · exact HoldsWord.refl s

theorem reserve_netFab (s : State) (i : Nat) : State.HoldsWord netFabAddr s (s.reserve i) := by
  have hne : netFabAddr ≠ Reg.CRY.RESERVATIONS.addr 0 0 := by decide
  unfold State.reserve
  refine HoldsWord.trans ?_ (HoldsWord.count _ hne 1)
  exact HoldsWord.of_regs rfl

theorem disableEnc_netFab (s : State) (i : Nat) : State.HoldsWord netFabAddr s (s.disableEnc i) :=
  HoldsWord.trans (t := s.commitSlot i _) (HoldsWord.of_regs rfl) (HoldsWord.report _ (by decide) (by decide) (by decide) stNonce)

theorem nonce_netFab (s : State) (i : Nat) : State.HoldsWord netFabAddr s (s.nonce i).2 := by
  have hif : ∀ (t : State) (p : Prop) [Decidable p], State.HoldsWord netFabAddr t (if p then t.reserve i else t) := fun t p _ => by
    split
    · exact reserve_netFab ..
    · exact HoldsWord.refl t
  have hlast : ∀ (t : State) (p : Prop) [Decidable p], State.HoldsWord netFabAddr t (if p then t.disableEnc i else t) := fun t p _ => by
    split
    · exact disableEnc_netFab ..
    · exact HoldsWord.refl t
  unfold State.nonce
  extract_lets c u iv k v w
  split
  · exact HoldsWord.refl s
  · split
    · exact HoldsWord.refl s
    · have hv : State.HoldsWord netFabAddr u v := HoldsWord.of_regs rfl
      exact HoldsWord.trans (hif s _) (HoldsWord.trans hv (HoldsWord.trans (hif v _) (hlast w _)))

theorem sealFrame_netFab (s : State) (key : Bytes) (f : FabFrame) :
    State.HoldsWord netFabAddr s (s.sealFrame key f).2 := by
  unfold State.sealFrame
  split
  · rename_i h; exact HoldsWord.of_pair h (nonce_netFab ..)
  · rename_i h; exact HoldsWord.trans (HoldsWord.of_pair h (nonce_netFab ..)) (cipher_netFab ..)

theorem sealFrames_netFab (key : Bytes) (fs : List FabFrame) (s : State) :
    State.HoldsWord netFabAddr s (sealFrames key fs s).2 := by
  induction fs generalizing s with
  | nil => exact HoldsWord.refl s
  | cons f fs ih =>
    unfold sealFrames
    split
    · rename_i h; exact HoldsWord.of_pair h (sealFrame_netFab ..)
    · rename_i h; exact HoldsWord.trans (HoldsWord.of_pair h (sealFrame_netFab ..)) (ih _)

/-- NET_FAB stays while frames are made: sealing counts and reports elsewhere (R34, R343, R344). -/
theorem makeFrames_netFab (s : State) (dest : FrameTo) (body : Bytes) :
    State.HoldsWord netFabAddr s (s.makeFrames dest body).2 := by
  unfold State.makeFrames
  extract_lets fs f t
  have ht : State.HoldsWord netFabAddr s t := HoldsWord.of_regs rfl
  split
  · exact ht
  · split
    · exact ht
    · split
      · exact ht
      · exact HoldsWord.trans ht (sealFrames_netFab ..)

end Sys2Proof.Machine
end

section
/-! SUPPORT. What responses, peers, gateways and local injection do (R411 to R413, R416, R417, R421, R428, R431, R445, R446). -/

namespace Sys2Proof.Machine

open Sys2Proof

/-! ## Requests that end (R412) -/

theorem dropOut_unlisted (s : State) (id : Nat) : ∀ y ∈ (s.dropOut id).fab.outMsgs, y.msgId ≠ id := fun y hy => by
  simpa using (List.mem_filter.1 hy).2

/-- A command answered after its request has left the list: the request stays gone. -/
theorem done_post_dropped {s w : State} {id : Nat} (hs : s.Spares w) (hd : ∀ y ∈ w.fab.outMsgs, y.msgId ≠ id) (e : TagEntry)
    (c : Completion) : ∃ u, s.done (w.post e c) = .next u ∧ u.Answers e c ∧ ∀ y ∈ u.fab.outMsgs, y.msgId ≠ id := by
  have hk := Outlasts.post w e c
  refine ⟨_, Spares.done (Spares.trans hs (Outlasts.spares hk)), post_answers w e c, fun y hy => ?_⟩
  have hmem : y.msgId ∈ w.fab.outMsgs.map OutMsg.msgId := hk.msgIds ▸ List.mem_map_of_mem hy
  obtain ⟨z, hz, he⟩ := List.mem_map.1 hmem
  exact he ▸ hd z hz

section
variable {s b : State} {m : FabMsg} (h : s.TakesMsg m b)
include h

theorem spares_taken : s.Spares b := by
  obtain ⟨-, -, -, rfl⟩ := h
  exact Spares.arrive ..

theorem exec_queryResp (id : Nat) (c : Bytes) : exec (.queryResp m id c) s = s.done (b.takeQueryResp m id c) :=
  congrArg s.done (fabTake_taken h fun s => s.takeQueryResp m id c)

theorem exec_forwardResp (id : Nat) (c : Bytes) : exec (.forwardResp m id c) s = s.done (b.takeForwardResp m id c) :=
  congrArg s.done (fabTake_taken h fun s => s.takeForwardResp m id c)

theorem exec_mirrorAck (nsid asn : Nat) (acc : Bool) : exec (.mirrorAck m nsid asn acc) s = s.done (b.takeAckOf m nsid asn acc) :=
  congrArg s.done (fabTake_taken h fun s => s.takeAckOf m nsid asn acc)

theorem exec_offer (d : Bytes) (len func sec : Nat) :
    exec (.offer m d len func sec) s = s.done (b.takeOfferOf m.src d len func sec) :=
  congrArg s.done (fabTake_taken h fun s => s.takeOfferOf m.src d len func sec)

theorem exec_chunk (d : Bytes) (k crc : Nat) (c : Bytes) : exec (.chunk m d k crc c) s = s.done (b.takeChunk m d k crc c) :=
  congrArg s.done (fabTake_taken h fun s => s.takeChunk m d k crc c)

theorem exec_updateRefuse {d : Bytes} (ha : (b.fab.outMsgs.any fun o => o.dst == m.src && (o.chunkAsked d).isSome) = true)
    (k : Nat) : exec (.updateRefuse m d k) s = s.done (b.losePeer m.src) :=
  congrArg s.done ((fabTake_taken h fun s =>
    if s.fab.outMsgs.any fun o => o.dst == m.src && (o.chunkAsked d).isSome then s.losePeer m.src else s).trans (if_pos ha))

end

/-- The answer to a query completes FAB_QUERY (R423). -/
theorem takeQueryResp_completes {b : State} {m : FabMsg} {id : Nat} {o : OutMsg} {t : TagId} {e : TagEntry}
    (ho : b.outFor m id [0x05] = some o) (ht : o.tag = some t) (he : b.entry? t = some e) (c : Bytes) :
    b.takeQueryResp m id c = (b.dropOut id).post e (doneData stOK e.asn [] c) := by
  unfold State.takeQueryResp
  rw [ho]
  dsimp only
  rw [ht]
  dsimp only
  rw [show (b.dropOut id).entry? t = some e from he]
  rfl

/-- The completion of the inner command completes FAB_FORWARD (R424). -/
theorem takeForwardResp_completes {b : State} {m : FabMsg} {id : Nat} {o : OutMsg} {t : TagId} {e : TagEntry}
    (ho : b.outFor m id [0x03, 0x08] = some o) (hf : o.ftype = 0x03) (ht : o.tag = some t) (he : b.entry? t = some e) {c : Bytes}
    (hc : beAt c 0 2 ≠ stAborted) : b.takeForwardResp m id c = (b.dropOut id).post e (doneData stOK e.asn [] c) := by
  unfold State.takeForwardResp
  rw [ho]
  dsimp only
  rw [ht, show (some t).bind (b.dropOut id).entry? = some e from he]
  dsimp only
  rw [if_neg (by rw [hf]; decide), if_neg hc]
  rfl

/-- A command whose request is unreachable learns it (R412, R416). -/
theorem unreached_answers {s : State} {o : OutMsg} {t : TagId} {e : TagEntry} (ht : o.tag = some t) (he : s.entry? t = some e)
    (hf : o.ftype ≠ 0x08) : s.unreached o =
      ((s.dropOut o.msgId).count Reg.FAB.UNREACHABLE 1).post e (doneWith stUnreachable e.asn []) := by
  unfold State.unreached
  dsimp only
  rw [ht]
  dsimp only
  rw [show ((s.dropOut o.msgId).count Reg.FAB.UNREACHABLE 1).entry? t = some e from he]
  dsimp only
  rw [if_neg hf]
  rfl

/-! ## Acknowledgements (R428) -/

/-- An entry for which a member is not waited any more. -/
def TagEntry.unwaited (addr : Nat) (degraded : Bool → Bool) (e : TagEntry) : TagEntry :=
  { e with mirrors := e.mirrors.filter (fun a => a != addr), degraded := degraded e.degraded }

theorem noteMember_tags (s : State) (nsid addr asn : Nat) (ok : Bool) : (s.noteMember nsid addr asn ok).cmd.tags =
    updWhere (fun e => (e.msg.nsid == nsid && e.asn == asn) && e.mirrors.contains addr)
      (TagEntry.unwaited addr fun d => d || !ok) s.cmd.tags := rfl

theorem loseMember_tags (s : State) (nsid addr : Nat) : (s.loseMember nsid addr).cmd.tags =
    updWhere (fun e => e.msg.nsid == nsid && e.mirrors.contains addr) (TagEntry.unwaited addr fun _ => true)
      (s.degradeMember nsid addr).cmd.tags := rfl

/-- No entry that `p` names waits for the member any more. -/
theorem notMem_updWhere_unwaited {l : List TagEntry} {p : TagEntry → Bool} {addr : Nat} {g : Bool → Bool} {y : TagEntry}
    (hy : y ∈ updWhere (fun e => p e && e.mirrors.contains addr) (TagEntry.unwaited addr g) l) (hpy : p y = true) :
    addr ∉ y.mirrors := by
  obtain ⟨x, -, rfl⟩ := List.mem_map.1 hy
  by_cases hx : (p x && x.mirrors.contains addr) = true
  · rw [if_pos hx]
    simp [TagEntry.unwaited]
  · rw [if_neg hx] at hpy ⊢
    rw [hpy, Bool.true_and] at hx
    simpa using hx

/-- A member settled changes registers, the log and the fabric's state only. -/
theorem Traffic.settleMember (s : State) (nsid addr : Nat) : s.Traffic (s.settleMember nsid addr) := by
  unfold State.settleMember
  split
  · exact refl s
  · split
    · exact trans (setMember ..) (raise ..)
    · exact refl s

/-- An acknowledgement taken: no write of that ASN waits for its member. -/
theorem takeAckOf_settles {b : State} {m : FabMsg} {nsid asn : Nat} {o : OutMsg} (ho : o ∈ b.fab.outMsgs) (hd : o.dst = m.src)
    (hn : o.nsid = nsid) (ha : o.asn = asn) (ht : o.tag = none) (hf : o.ftype ∈ [0x01, 0x07, 0x0A])
    (hp : ∀ y ∈ b.fab.pulls, y.1 ≠ nsid) (acc : Bool) : b.Spares (b.takeAckOf m nsid asn acc) ∧
      ∀ y ∈ (b.takeAckOf m nsid asn acc).cmd.tags, y.msg.nsid = nsid → y.asn = asn → m.src ∉ y.mirrors := by
  have hpull : ∀ id, ¬ ((b.dropOut id).fab.pulls.any fun x => x.1 == nsid) = true := fun id =>
    Bool.eq_false_iff.1 (List.any_eq_false.2 fun x hx => by simpa using hp x hx)
  unfold State.takeAckOf
  split
  · rename_i hnone
    have hmine := List.find?_eq_none.1 hnone o ho
    rw [List.contains_iff_mem.2 hf, hd, hn, ha, ht] at hmine
    simp at hmine
  · rename_i q _
    have hdrop : b.Spares (b.dropOut q.msgId) := ⟨rfl, rfl, rfl, rfl⟩
    dsimp only
    rw [if_neg (hpull _)]
    split
    · have hs := Traffic.settleMember ((b.dropOut q.msgId).noteMember nsid m.src asn true) nsid m.src
      refine ⟨Spares.trans (t := (b.dropOut q.msgId).noteMember nsid m.src asn true) ⟨rfl, rfl, rfl, rfl⟩ (Traffic.spares hs),
        fun y hy hyn hya => ?_⟩
      rw [Traffic.cmd hs, noteMember_tags] at hy
      exact notMem_updWhere_unwaited (p := fun e => e.msg.nsid == nsid && e.asn == asn) hy (by simp [hyn, hya])
    · have hs := Traffic.degradeMember (b.dropOut q.msgId) nsid m.src
      have hlose : ((b.dropOut q.msgId).degradeMember nsid m.src).Spares ((b.dropOut q.msgId).loseMember nsid m.src) :=
        ⟨rfl, rfl, rfl, rfl⟩
      refine ⟨Spares.trans hdrop (Spares.trans (Traffic.spares hs) hlose), fun y hy hyn _ => ?_⟩
      rw [loseMember_tags] at hy
      exact notMem_updWhere_unwaited (p := fun e => e.msg.nsid == nsid) hy (by simp [hyn])

/-! ## Peers (R445, R446) -/

/-- An offer of a package that the device may take opens a session with that peer as its source. -/
theorem takeOfferOf_opens {b : State} {func sec len : Nat} (hs : b.fw.staging = none)
    (ha : b.rdB Reg.UPD_CFG.PEER_ACCEPT = true) (hsec : b.key.fuses.rollback ≤ sec) (hf : b.fw.activeFunc < func) (h0 : 0 < len)
    (hl : len ≤ 25165824) (hr : b.flash.readOnly = false) (ht : b.noTier = false) (src : Nat) (d : Bytes) :
    b.Spares (b.takeOfferOf src d len func sec) ∧
      (b.takeOfferOf src d len func sec).fw.staging = some ⟨d, len, func, sec, 1, [], false, true, [src], 0⟩ := by
  obtain ⟨ho, hfw⟩ := openStaging_fw b d len func sec
  have hrun : b.takeOfferOf src d len func sec = (b.openStaging d len func sec).addPeer src := by
    unfold State.takeOfferOf
    rw [hs]
    exact if_pos ⟨ha, hsec, hf, Nat.ne_of_gt h0, hl, by simp [hr], by simp [ht]⟩
  rw [hrun]
  generalize b.openStaging d len func sec = w at ho hfw
  unfold State.addPeer State.fetch
  rw [hfw]
  dsimp only
  have hmore := Traffic.fetchMore src 4 (w.setStaging (some ⟨d, len, func, sec, 1, [], false, true, [src], 0⟩))
  exact ⟨Spares.trans ho (Spares.trans (Spares.setFw ..) (Traffic.spares hmore)), congrArg Fw.staging (Traffic.fw hmore)⟩

/-- A chunk asked for is held as FW_CHUNK would hold it. -/
theorem takeChunk_holds {b : State} {m : FabMsg} {g : Staging} {d : Bytes} {k crc : Nat} {c : Bytes} (hg : b.fw.staging = some g)
    (hd : g.digest = d) (ha : (b.fab.outMsgs.any fun y => y.dst == m.src && y.chunkAsked d == some k) = true)
    (hc : b.chunkFails g k crc c = none) (hnew : (g.chunks.any fun y => y.1 == k) = false) :
    ∃ y, b.Spares (b.takeChunk m d k crc c) ∧ (b.takeChunk m d k crc c).fw.staging = some y ∧ y.chunks = g.chunks ++ [(k, c)] := by
  unfold State.takeChunk
  dsimp only
  rw [if_pos ha]
  obtain ⟨hs, hfw⟩ := dropFetches_keeps b fun o => !(o.dst == m.src && o.chunkAsked d == some k)
  have hfails : (b.dropFetches fun o => !(o.dst == m.src && o.chunkAsked d == some k)).chunkFails g k crc c = none := hc
  generalize (b.dropFetches fun o => !(o.dst == m.src && o.chunkAsked d == some k)) = w at hs hfw hfails
  have hgw : w.fw.staging = some g := by rw [hfw, hg]
  rw [hgw]
  dsimp only
  rw [if_neg (not_not.2 hd), hfails, if_neg (by decide)]
  obtain ⟨hh, hheld⟩ := holdChunk_holds w g k c hgw
  have hmore := Traffic.fetchMore m.src 4 (w.holdChunk g k c)
  rw [if_neg (Bool.eq_false_iff.1 hnew)] at hheld
  refine ⟨_, Spares.trans hs (Spares.trans hh (Traffic.spares hmore)),
    (congrArg Fw.staging (Traffic.fw hmore)).trans (congrArg Fw.staging hheld), ?_⟩
  split <;> rfl

/-- A peer that refuses is a source no more; the chunks held stay. -/
theorem losePeer_loses {b : State} {g : Staging} (hg : b.fw.staging = some g) (peer : Nat) : b.Spares (b.losePeer peer) ∧
    (b.losePeer peer).fw.staging = some { g with peers := g.peers.filter fun p => p != peer } := by
  unfold State.losePeer
  rw [hg]
  dsimp only
  obtain ⟨hs, hfw⟩ := dropFetches_keeps (b.setStaging (some { g with peers := g.peers.filter fun p => p != peer }))
    fun o => o.dst != peer
  generalize State.dropFetches _ _ = w at hs hfw
  have hre : w.Traffic w.refetch := by
    unfold State.refetch
    split
    · exact Traffic.foldl _ (fun t p => Traffic.fetchMore p 4 t) _ w
    · exact Traffic.refl w
  exact ⟨Spares.trans (Spares.setFw ..) (Spares.trans hs (Traffic.spares hre)),
    (congrArg Fw.staging (Traffic.fw hre)).trans (congrArg Fw.staging hfw)⟩

theorem exec_offerPeriod {s : State} {g : Staging} (hp : s.dev.phase = .service) (hf : s.fabric = true)
    (hg : s.fw.staging = some g) (h4 : g.stage = 4) (hpush : s.rdB Reg.UPD_CFG.PEER_PUSH = true) :
    exec .offerPeriod s = .next (((s.fab.sled.filter fun y => y.present && decide (y.slot ≠ s.ownSlot)).map fun y =>
      s.fab.addr / 16 * 16 + y.slot).foldl (fun (q : State) dst =>
        q.fabTell ⟨dst, 0x09, none, Config.fabFlow dst 0⟩ (.offer g.digest g.len g.func g.sec)) s) := by
  have hrun : s.sendOffers = (((s.fab.sled.filter fun y => y.present && decide (y.slot ≠ s.ownSlot)).map fun y =>
      s.fab.addr / 16 * 16 + y.slot).foldl (fun (q : State) dst =>
        q.fabTell ⟨dst, 0x09, none, Config.fabFlow dst 0⟩ (.offer g.digest g.len g.func g.sec)) s) := by
    unfold State.sendOffers
    rw [hg]
    exact if_pos ⟨hf, h4, hpush⟩
  have htell : ∀ (t : State) dest p, t.Traffic (t.fabTell dest p) := fun t dest p =>
    Traffic.trans (Traffic.makeFrames t dest (payloadBytes p)) (Traffic.inject ..)
  have he : exec .offerPeriod s = s.done s.sendOffers := congrArg s.done (if_pos hp)
  rw [he, hrun]
  exact Spares.done (Traffic.spares (Traffic.foldl _ (fun t _ => htell t ..) _ s))

/-! ## Gateway hellos (R421) -/

/-- One frame of a GW_HELLO sent on a host port. -/
def State.sendHelloFrame (p : Nat) (s : State) (f : FabFrame) : State :=
  (s.count Reg.FAB.ORIGINATED 1).sendOn p
    (.ethFabric (s.gatewayTo p 0x034658000000) (s.rd Reg.NET_FAB.FAB_ETHERTYPE) (frameBytes f))

theorem sendHello_eq {s : State} {p : Nat} (hp : s.gatewayPort = some p) : s.sendHello =
    let w := s.makeFrames ⟨Config.floodDst 0x11, 0x11, none, Config.fabFlow (Config.floodDst 0x11) 0⟩
      (payloadBytes (.hello (s.fab.addr / 16) (s.rd Reg.FAB_CFG.GW_INDEX)))
    w.1.foldl (State.sendHelloFrame p) { w.2 with dev := { w.2.dev with routerQuiet := false } } := by
  unfold State.sendHello
  rw [hp]
  rfl

theorem sendHelloFrame_running {s : State} {p : Nat} (hp : s.paused p = false) (f : FabFrame) :
    s.sendHelloFrame p f = (s.count Reg.FAB.ORIGINATED 1).emit
      (.ethFabric (s.gatewayTo p 0x034658000000) (s.rd Reg.NET_FAB.FAB_ETHERTYPE) (frameBytes f)) := by
  unfold State.sendHelloFrame State.sendOn
  exact if_neg (Bool.eq_false_iff.1 hp)

/-- What has been sent stays sent. -/
theorem out_sendHelloFrames {p : Nat} (fs : List FabFrame) {s : State} (hp : s.paused p = false) :
    ∀ o ∈ s.out, o ∈ (fs.foldl (State.sendHelloFrame p) s).out := by
  induction fs generalizing s with
  | nil => exact fun _ h => h
  | cons f fs ih =>
    intro o ho
    rw [List.foldl_cons, sendHelloFrame_running hp]
    exact ih (s := (s.count Reg.FAB.ORIGINATED 1).emit _) hp o (List.mem_append_left _ ho)

/-- On a port that is not paused every frame of a hello goes out under the EtherType of NET_FAB. -/
theorem sendHelloFrames_sends {p : Nat} (fs : List FabFrame) {s : State} (hp : s.paused p = false)
    (hw : s.word netFabAddr ≠ regReset netFabAddr) : ∀ f ∈ fs, ∃ h,
      .ethFabric h (s.rd Reg.NET_FAB.FAB_ETHERTYPE) (frameBytes f) ∈ (fs.foldl (State.sendHelloFrame p) s).out := by
  induction fs generalizing s with
  | nil => exact fun _ h => absurd h List.not_mem_nil
  | cons x fs ih =>
    intro f hf
    have hne : netFabAddr ≠ Reg.FAB.ORIGINATED.addr 0 0 := by decide
    have hword : (s.count Reg.FAB.ORIGINATED 1).word netFabAddr = s.word netFabAddr := (HoldsWord.count s hne 1).stays hw
    rw [List.foldl_cons, sendHelloFrame_running hp]
    rcases List.mem_cons.1 hf with rfl | hf
    · exact ⟨_, out_sendHelloFrames fs (s := (s.count Reg.FAB.ORIGINATED 1).emit _) hp _
        (List.mem_append_right _ (List.mem_singleton.2 rfl))⟩
    · obtain ⟨h, hm⟩ := ih (s := (s.count Reg.FAB.ORIGINATED 1).emit
        (.ethFabric (s.gatewayTo p 0x034658000000) (s.rd Reg.NET_FAB.FAB_ETHERTYPE) (frameBytes x))) hp
        (by rw [← hword] at hw; exact hw) f hf
      have hrd : (s.count Reg.FAB.ORIGINATED 1).rd Reg.NET_FAB.FAB_ETHERTYPE = s.rd Reg.NET_FAB.FAB_ETHERTYPE :=
        congrArg (fun v => wordGet v 0 16) hword
      exact ⟨h, hrd ▸ hm⟩

/-- A gateway has a port to send on, and NET_FAB is not at its reset value. -/
theorem isGateway_sends {s : State} (h : s.isGateway = true) :
    (∃ p, s.gatewayPort = some p) ∧ s.word netFabAddr ≠ regReset netFabAddr := by
  unfold State.isGateway at h
  simp only [Bool.and_eq_true] at h
  obtain ⟨⟨-, hen⟩, hport⟩ := h
  refine ⟨?_, fun hw => ?_⟩
  · unfold State.gatewayPort
    rw [← Option.isSome_iff_exists, List.find?_isSome]
    exact List.any_eq_true.1 hport
  · have h0 : s.rdB Reg.NET_FAB.GATEWAY_EN = false := by
      unfold State.rdB State.rd State.rdAt
      rw [show s.word (Reg.NET_FAB.GATEWAY_EN.addr 0 0) = regReset netFabAddr from hw]
      decide
    exact Bool.false_ne_true (h0.symm.trans hen)

end Sys2Proof.Machine
end

section
/-! SUPPORT. Local injection served, and the timers of members, gateways and offers (R412, R413, R417, R421, R426, R428, R431). -/

namespace Sys2Proof.Machine

open Sys2Proof

section
variable {s : State} {f : FabFrame} {rest : List (Option Nat × FabFrame)} (hi : s.islandOn = true)
  (hinj : s.fab.inject = (none, f) :: rest) (hl : f.isLocal = false)

/-- The state in which the first frame of local injection is routed. -/
def State.served (s : State) (rest : List (Option Nat × FabFrame)) : State :=
  { s with dev := { s.dev with routerQuiet := false }, fab := { s.fab with inject := rest } }

/-- The route exception that the frame meets, and the state after the search (R225). -/
def State.exceptionFor (s : State) (f : FabFrame) : Option (Nat × CamEntry) × State :=
  ((s.count Reg.FAB.ORIGINATED 1).beginFlowlet f.flow).searchFirst 0 (f.dst % 2 ^ 16 * 2 ^ 64 + 7 * 2 ^ 61)

include hi hinj in
/-- A frame that waits at local injection for the router is routed. -/
theorem exec_transit_own (vc : Nat) (ff : FabFrame) : exec (.transit .own vc ff) s =
    s.done (((s.served rest).count Reg.FAB.ORIGINATED 1).route .own 0 f) := by
  refine congrArg s.done ((if_pos hi).trans ((if_pos rfl).trans ?_))
  unfold State.serveInjection
  dsimp only
  rw [hinj]
  rfl

include hl in
/-- No exception bars the frame: it ends at the device that it names, and dies at 32 hops. -/
theorem route_own {t : State} (hn : (t.exceptionFor f).1 = none) :
    ((t.count Reg.FAB.ORIGINATED 1).route .own 0 f) =
      if (t.exceptionFor f).2.fab.addrValid = true ∧ f.dst = (t.exceptionFor f).2.fab.addr then
        (t.exceptionFor f).2.terminate .own 0 f
      else if 32 ≤ f.hops then (t.exceptionFor f).2.count Reg.FAB.DROPPED 1
      else if f.dst / 16 = (t.exceptionFor f).2.fab.addr / 16 then (t.exceptionFor f).2.torusStep .own 0 (f.dst % 16) f
      else (t.exceptionFor f).2.towardsSled .own 0 f := by
  unfold State.route
  dsimp only
  rw [show (((t.count Reg.FAB.ORIGINATED 1).beginFlowlet f.flow).searchFirst 0
    (f.dst % 2 ^ 16 * 2 ^ 64 + ingCode .own * 2 ^ 61)) = ((none, (t.exceptionFor f).2) : Option (Nat × CamEntry) × State) from
      Prod.ext hn rfl]
  simp only [hl, Bool.false_eq_true, false_or]
  rfl

/-- The search for an exception leaves the device's address. -/
theorem exceptionFor_fab (t : State) (f : FabFrame) :
    (t.exceptionFor f).2.fab.addrValid = t.fab.addrValid ∧ (t.exceptionFor f).2.fab.addr = t.fab.addr := by
  have hb : ((t.count Reg.FAB.ORIGINATED 1).beginFlowlet f.flow).fab.addrValid = t.fab.addrValid ∧
      ((t.count Reg.FAB.ORIGINATED 1).beginFlowlet f.flow).fab.addr = t.fab.addr := by
    unfold State.beginFlowlet
    split <;> exact ⟨rfl, rfl⟩
  obtain ⟨r, c, h⟩ := searchFirst_eq ((t.count Reg.FAB.ORIGINATED 1).beginFlowlet f.flow) 0
    (f.dst % 2 ^ 16 * 2 ^ 64 + 7 * 2 ^ 61)
  unfold State.exceptionFor
  rw [h]
  exact hb

theorem spares_exceptionFor (s : State) (rest : List (Option Nat × FabFrame)) (f : FabFrame) :
    s.Spares ((s.served rest).exceptionFor f).2 :=
  Spares.trans (t := (s.served rest).count Reg.FAB.ORIGINATED 1) ⟨rfl, rfl, rfl, rfl⟩
    (Spares.trans (Spares.beginFlowlet ..) (Spares.searchFirst ..))

include hl in
/-- A frame of the device's own, of a type that may be routed, ends here and wakes the device (R34, R72). -/
theorem terminate_own {t : State} (ha : s.typeAllowed .own f = true) : t.terminate .own 0 f =
    ((if protectedType f.ftype then (t.count Reg.FAB.TERMINATED 1).cipher 1 f.payload.length
      else t.count Reg.FAB.TERMINATED 1).arrive Reg.WAKE_SRC.FAB_FRAME) := by
  unfold State.terminate
  rw [if_pos (show t.typeAllowed .own f = true from ha), hl]
  rfl

theorem spares_ended (t : State) (f : FabFrame) : t.Spares
    ((if protectedType f.ftype then (t.count Reg.FAB.TERMINATED 1).cipher 1 f.payload.length
      else t.count Reg.FAB.TERMINATED 1).arrive Reg.WAKE_SRC.FAB_FRAME) := by
  refine Spares.trans (Spares.count t Reg.FAB.TERMINATED 1) (Spares.trans ?_ (Spares.arrive ..))
  split
  · exact Spares.cipher ..
  · exact Spares.refl _

end

/-! ## Timers and periods -/

section
variable {s : State} {nsid k id : Nat} (hi : s.islandOn = true)
include hi

theorem exec_messageRetransmit {o : OutMsg} (ho : (s.fab.outMsgs.find? fun y => y.msgId == id) = some o) :
    exec (.messageRetransmit id) s = s.done (s.resendOut o) := by
  refine congrArg s.done ?_
  rw [ho]
  exact if_pos hi

/-- A degraded member is probed (R428). -/
theorem exec_mirrorProbe {x : MirrorMember} (hp : s.dev.phase = .service) (hx : s.member? nsid k = some x) (hst : x.state = .degraded)
    (hrel : x.releasing = false) : exec (.mirrorProbe nsid k) s = .next (s.fabRequest k 0x05 .query none nsid 0) := by
  have hrun : s.probeMember nsid k = s.fabRequest k 0x05 .query none nsid 0 := by
    unfold State.probeMember
    rw [hx]
    exact if_pos ⟨hst, by simp [hrel]⟩
  exact (congrArg s.done ((if_pos ⟨hi, hp⟩).trans hrun)).trans (Spares.done (Traffic.spares (Traffic.fabRequest ..)))

/-- A release not acknowledged is sent again (R426). -/
theorem exec_mirrorRelease {x : MirrorMember} (hp : s.dev.phase = .service) (hx : s.member? nsid k = some x)
    (hrel : x.releasing = true) :
    exec (.mirrorRelease nsid k) s = .next (s.fabRequest k 0x01 (.copyRelease nsid) none nsid 0) := by
  have hrun : s.sendRelease nsid k = s.fabRequest k 0x01 (.copyRelease nsid) none nsid 0 := by
    unfold State.sendRelease
    rw [hx]
    exact if_pos hrel
  exact (congrArg s.done ((if_pos ⟨hi, hp⟩).trans hrun)).trans (Spares.done (Traffic.spares (Traffic.fabRequest ..)))

theorem exec_releaseAcknowledged (hp : s.dev.phase = .service) :
    exec (.releaseAcknowledged nsid k) s = .next (s.releaseDone nsid k) :=
  (congrArg s.done (if_pos ⟨hi, hp⟩)).trans (Spares.done ⟨rfl, rfl, rfl, rfl⟩)

/-- A gateway takes the hello of an index that it does not hold (R421). -/
theorem exec_gwHello {m : FabMsg} (hst : s.inStale = false) (hgw : s.isGateway = true) (hm : m.tagOk = true) (hk : k < 4096)
    (hid : id < 4) (hnew : (k, id) ∉ s.fab.gwLive) : exec (.gwHello m k id) s =
      .next { s with fab := { s.fab with gwLive := s.fab.gwLive ++ [(k, id)] } } := by
  have hrun : s.fabAuth m (fun s => s.takeHello k id) = { s with fab := { s.fab with gwLive := s.fab.gwLive ++ [(k, id)] } } :=
    (if_pos hm).trans (if_pos ⟨hgw, hk, hid, by simpa using hnew⟩)
  exact (congrArg s.done ((if_pos ⟨hi, by simp [hst]⟩).trans hrun)).trans (Spares.done ⟨rfl, rfl, rfl, rfl⟩)

/-- Every frame of a hello goes out on the gateway's port, while that is not paused (R421). -/
theorem exec_gwHelloPeriod (hst : s.inStale = false) (hgw : s.isGateway = true) : ∃ u p, exec .gwHelloPeriod s = .next u ∧
    s.gatewayPort = some p ∧ (s.paused p = false →
      ∀ y ∈ (s.makeFrames ⟨Config.floodDst 0x11, 0x11, none, Config.fabFlow (Config.floodDst 0x11) 0⟩
          (payloadBytes (.hello (s.fab.addr / 16) (s.rd Reg.FAB_CFG.GW_INDEX)))).1,
        ∃ h : EthHead, .ethFabric h (s.rd Reg.NET_FAB.FAB_ETHERTYPE) (frameBytes y) ∈ u.out) := by
  obtain ⟨⟨p, hp⟩, hw⟩ := isGateway_sends hgw
  have he : exec .gwHelloPeriod s = s.done s.sendHello := congrArg s.done (if_pos ⟨hi, by simp [hst], hgw⟩)
  obtain ⟨u, hu, hpass⟩ := exists_carried he
  refine ⟨u, p, hu, hp, fun hpause => ?_⟩
  rw [hpass.out, sendHello_eq hp]
  have hframes := makeFrames_netFab s ⟨Config.floodDst 0x11, 0x11, none, Config.fabFlow (Config.floodDst 0x11) 0⟩
    (payloadBytes (.hello (s.fab.addr / 16) (s.rd Reg.FAB_CFG.GW_INDEX)))
  have hports := (Outlasts.makeFrames s ⟨Config.floodDst 0x11, 0x11, none, Config.fabFlow (Config.floodDst 0x11) 0⟩
    (payloadBytes (.hello (s.fab.addr / 16) (s.rd Reg.FAB_CFG.GW_INDEX)))).ports
  generalize s.makeFrames _ _ = w at hframes hports ⊢
  have hword := hframes.stays hw
  have hrd : w.2.rd Reg.NET_FAB.FAB_ETHERTYPE = s.rd Reg.NET_FAB.FAB_ETHERTYPE := congrArg (fun v => wordGet v 0 16) hword
  have hrun : w.2.paused p = false := by
    unfold State.paused
    rw [hports]
    exact hpause
  rw [← hrd]
  exact sendHelloFrames_sends w.1 (s := { w.2 with dev := { w.2.dev with routerQuiet := false } }) hrun
    (fun h => hw (hword.symm.trans h))

/-- The first offer to a device that waits for one is held (R431). -/
theorem exec_inheritOffer (hp : s.dev.phase = .service) (hk : k < 4) (hst : (s.link k).state = 4) (hun : s.unjoined = true)
    (hbusy : s.dev.resetBusy = false) (ho : s.fab.offers = []) (kr : KeeperRec) :
    exec (.inheritOffer k kr) s = .next { s with fab := { s.fab with offers := [(k, kr)] } } := by
  have hrun : s.takeOffer k kr = { s with fab := { s.fab with offers := [(k, kr)] } } := by
    unfold State.takeOffer
    dsimp only
    rw [ho]
    rfl
  exact (congrArg s.done ((if_pos ⟨hi, .inl hp, hk, hst, hun, by simp [hbusy]⟩).trans hrun)).trans
    (Spares.done ⟨rfl, rfl, rfl, rfl⟩)

end

end Sys2Proof.Machine
end

section
/-! PROOF. O57: responses, peers and routes (R411 to R414, R416, R417, R421, R428, R431, R445, R446). -/

namespace Sys2Proof.Machine

open Sys2Proof

/-- Settles O57: each response, period and timer by its own rule. -/
theorem responsesPeersAndRoutesSettle : Obligations.ResponsesPeersAndRoutesSettle := by
  unfold Obligations.ResponsesPeersAndRoutesSettle
  intro s b m t e o nsid asn id k d c acc x kr f ff g
  refine ⟨fun hb => ⟨fun ho ht he => ?_, fun ho hf ht he hc => ?_, fun ho hd hn ha ht hf hp => ?_,
      fun hs ha hsec hf h0 hl hr ht => ?_, fun hg hd ha hc hnew => ?_, fun hg ha => ?_⟩,
    fun ft p hr => ?_, fun ho => ⟨fun hi htry => ?_, fun htry => ?_, fun ht he hf => ?_⟩, ?_, ?_, ?_, fun hi => ⟨fun hdr => ?_,
    fun hp hx => ⟨fun hst hrel => ?_, fun hrel => ⟨?_, ?_⟩⟩, fun hst hgw => ⟨fun hm hk hid hnew => ?_, ?_⟩,
    fun hp hf hg h4 hpush => ?_, fun hk hst => ⟨?_, fun hun hp hbusy ho => ?_⟩, fun rest hinj hl => ?_, fun hinj => ?_⟩⟩
  · rw [exec_queryResp hb, takeQueryResp_completes ho ht he]
    exact done_post_dropped (w := b.dropOut id) (Spares.trans (spares_taken hb) ⟨rfl, rfl, rfl, rfl⟩) (dropOut_unlisted b id) e _
  · rw [exec_forwardResp hb, takeForwardResp_completes ho hf ht he hc]
    exact done_post_dropped (w := b.dropOut id) (Spares.trans (spares_taken hb) ⟨rfl, rfl, rfl, rfl⟩) (dropOut_unlisted b id) e _
  · obtain ⟨hs, hw⟩ := takeAckOf_settles ho hd hn ha ht hf hp acc
    exact ⟨_, (exec_mirrorAck hb nsid asn acc).trans (Spares.done (Spares.trans (spares_taken hb) hs)), hw⟩
  · obtain ⟨hsp, hy⟩ := takeOfferOf_opens hs ha hsec hf h0 hl hr ht m.src d
    exact ⟨_, _, (exec_offer hb ..).trans (Spares.done (Spares.trans (spares_taken hb) hsp)), hy, rfl, rfl, rfl, rfl, rfl, rfl⟩
  · obtain ⟨y, hsp, hy, hch⟩ := takeChunk_holds hg hd ha hc hnew
    exact ⟨_, y, (exec_chunk hb ..).trans (Spares.done (Spares.trans (spares_taken hb) hsp)), hy, hch⟩
  · obtain ⟨hsp, hy⟩ := losePeer_loses hg m.src
    exact ⟨_, _, (exec_updateRefuse hb ha k).trans (Spares.done (Spares.trans (spares_taken hb) hsp)), hy, by simp, rfl⟩
  · obtain ⟨-, hf⟩ := fabAsk_asks s (dest := ⟨k, ft, none, Config.fabFlow k nsid⟩) hr p none nsid 0
    exact ⟨congrArg Fab.inject hf, congrArg Fab.outMsgs hf⟩
  · have hrun : s.resendOut o = _ := if_pos htry
    exact ⟨_, (exec_messageRetransmit hi ho).trans (by rw [hrun]; exact Spares.done ⟨rfl, rfl, rfl, rfl⟩), rfl⟩
  · have hrun : s.resendOut o = s := if_neg (Nat.not_lt.2 htry)
    have he : exec (.messageRetransmit id) s = s.done s := by
      refine congrArg s.done ?_
      rw [ho]
      dsimp only
      rw [hrun, ite_self]
    exact he.trans (Spares.done (Spares.refl s))
  · have hid : o.msgId = id := by simpa using List.find?_some ho
    have hrun : exec (.messageUnreachable id) s = s.done (s.unreached o) := by
      refine congrArg s.done ?_
      rw [ho]
    rw [hrun, unreached_answers ht he hf]
    exact done_post_dropped (w := (s.dropOut o.msgId).count Reg.FAB.UNREACHABLE 1) ⟨rfl, rfl, rfl, rfl⟩
      (hid ▸ dropOut_unlisted s o.msgId) e _
  · exact Spares.done ⟨rfl, rfl, rfl, rfl⟩
  · exact Spares.done ⟨rfl, rfl, rfl, rfl⟩
  · exact Spares.done ⟨rfl, rfl, rfl, rfl⟩
  · have he : exec .seedPeriod s = s.done s.newFlowSeed := congrArg s.done (if_pos ⟨hi, hdr⟩)
    exact ⟨_, he.trans (Spares.done ⟨rfl, rfl, rfl, rfl⟩), rfl⟩
  · exact exec_mirrorProbe hi hp hx hst hrel
  · exact exec_mirrorRelease hi hp hx hrel
  · refine ⟨_, exec_releaseAcknowledged hi hp, fun y hy hyn hya => ?_⟩
    have hmine := (List.mem_filter.1 hy).2
    simpa [hyn, hya] using hmine
  · exact exec_gwHello hi hst hgw hm hk hid hnew
  · exact exec_gwHelloPeriod hi hst hgw
  · exact exec_offerPeriod hp hf hg h4 hpush
  · have he : exec (.inheritAccept k) s = s.done (s.setLink { s.link k with offered := true }) :=
      congrArg s.done (if_pos ⟨hi, hk, hst⟩)
    exact he.trans (Spares.done (Spares.setLink ..))
  · exact exec_inheritOffer hi hp hk hst hun hbusy ho kr
  · intro q w ended hw
    obtain ⟨hav, had⟩ := exceptionFor_fab (s.served rest) f
    have hrun := (exec_transit_own hi hinj id ff).trans (congrArg s.done (route_own hl hw))
    have hs : s.Spares w.2 := spares_exceptionFor s rest f
    refine ⟨fun hv hd ha => ?_, fun hno h32 => ?_⟩
    · rw [hrun, if_pos ⟨hav.trans hv, hd.trans had.symm⟩, terminate_own hl ha]
      exact Spares.done (Spares.trans hs (spares_ended w.2 f))
    · rw [hrun, if_neg (by rw [hav, had]; exact hno), if_pos h32]
      exact Spares.done (Spares.trans hs (Spares.count ..))
  · have he : exec (.transit .own id ff) s = s.done { s with dev := { s.dev with routerQuiet := false } } := by
      refine congrArg s.done ((if_pos hi).trans ((if_pos rfl).trans ?_))
      unfold State.serveInjection
      dsimp only
      rw [hinj]
    exact he.trans (Spares.done ⟨rfl, rfl, rfl, rfl⟩)

end Sys2Proof.Machine
end
